-- ==== Sys2Proof/Word.lean ====
section
/-! DEFINITION. The word types of the model and the names of the register scopes and access codes (R11, R38). -/
namespace Sys2Proof

/-- A byte of memory. -/
abbrev Byte := BitVec 8
/-- A register word (R17): 32 bits. -/
abbrev W32 := BitVec 32
/-- A scalar register, an instruction word or a device address held in 64 bits. -/
abbrev W64 := BitVec 64

namespace Machine

/-- Access codes of a register field (R11). -/
inductive Access where
  | rw | ro | wo | w1c | rc | rws
  deriving DecidableEq, Repr

/-- Where a register block lies (R38): once per device, per half, per fabric port, per cluster or per core. -/
inductive Scope where
  | dev | half | fport | cluster | core
  deriving DecidableEq, Repr

/-- A register of the spec: its scope, the offset of its first word within the scope's window, and up to two
array dimensions (count and stride). `wide` registers are 64 bits, in two consecutive words (R17);
`banked` ones take effect at an epoch switch (R533). -/
structure Reg where
  scope : Scope
  off : Nat
  n : Nat
  stride : Nat
  n2 : Nat
  stride2 : Nat
  wide : Bool
  banked : Bool
  deriving DecidableEq, Repr

/-- A named field: its register, high and low bit, access code, value after a cold reset (R12), and, where the spec
states one, its legal range (R16); `signed` fields hold two's complement and their range is of the signed value. -/
structure Fld where
  reg : Reg
  hi : Nat
  lo : Nat
  acc : Access
  reset : Nat
  range : Option (Int × Int)
  signed : Bool
  deriving DecidableEq, Repr

end Machine
end Sys2Proof
end

