-- ==== Sys2Proof/Syntax.lean ====
section
/-! DEFINITION. The commands of the block: one constructor for each row of the table of operations and events.
An instruction row of a core takes the core: it is that core's turn to issue its next instruction, which the row executes
when it is of the row's kind. An event row takes what the event brings from outside the part. -/
namespace Sys2Proof

/-- A hardware error met inside a matrix array while an instruction runs (R159, R161). -/
inductive ArrayFx where
  /-- parity error in the weight of physical cell (row, col) of array `a`, from vector `v` of tile step `t` on -/
  | tile (t v a row col : Nat)
  /-- the sum of column `col` of array `a` for vector `v` of tile step `t` is formed wrong: it reads as this FP32 code -/
  | column (t v a col code : Nat)
  deriving DecidableEq, Repr

/-- Who makes a register access (R17): a physical or virtual function, a core's program, a host queue pair of a half,
the boot sequencer's presets, the debug port, the other half's forwarder. -/
inductive Requester where
  | fn (func : Nat)
  | core (c : Nat)
  | queue (half qp : Nat)
  | preset
  | debug
  deriving DecidableEq, Repr

/-- A received or sent FFT packet, by the fields of its header (R391), its ECRC and its payload as a number whose lowest
byte is the first. -/
structure Fft where
  typ : Nat
  major : Nat
  minor : Nat
  flags : Nat
  path : Nat
  dstDev : Nat
  srcDev : Nat
  dstConn : Nat
  srcConn : Nat
  epoch : Nat
  psn : Nat
  aux : Nat
  rda : Nat
  len : Nat
  check : Nat
  cue : Nat
  ecrc : Nat
  payload : Nat
  deriving DecidableEq, Repr

/-- IPv4 or IPv6 with UDP (R390): addresses, DSCP, ECN codepoint, TTL or hop limit, ports, the UDP checksum (held for FFT
packets), the Don't Fragment bit of IPv4, and whether the header has no options, fragments or extension headers. -/
structure Udp where
  v6 : Bool
  src : Nat
  dst : Nat
  dscp : Nat
  ecn : Nat
  hops : Nat
  sport : Nat
  dport : Nat
  sum : Option Nat
  df : Bool
  bare : Bool
  deriving DecidableEq, Repr

/-- What carries a frame's message (R386, R390, R413): an EtherType, UDP, or ICMPv6 with its addresses and hop limit and
whether no extension header stands before it. -/
inductive Carrier where
  | eth (etype : Nat)
  | udp (u : Udp)
  | icmp6 (src dst hops : Nat) (bare : Bool)
  deriving DecidableEq, Repr

/-- The headers before a frame's message (R390, R394, R396): MAC addresses, the priority and VLAN of an 802.1Q tag, and the
carrier. -/
structure Encap where
  dstMac : Nat
  srcMac : Nat
  tag : Option (Nat × Nat)
  carrier : Carrier
  deriving DecidableEq, Repr

/-- How a frame arrives (R387, R393): its port, whether its FCS is good, the MACsec association, packet number and integrity
of a protected frame, its headers, and the bytes that the receive buffer holds with it, of all priorities and of
PFC_PRIO. -/
structure Rx where
  port : Nat
  fcs : Bool
  sec : Option (Nat × Nat × Bool)
  enc : Encap
  buf : Nat
  mine : Nat
  deriving DecidableEq, Repr

/-- An ARP request as it arrives (RFC 826): the MAC and IP of its sender, and the IP it asks for. -/
structure ArpRx where
  rx : Rx
  sha : Nat
  spa : Nat
  tpa : Nat
  deriving DecidableEq, Repr

/-- A Neighbour Solicitation as it arrives (RFC 4861): its target, its source link-layer address option, and whether it is
valid there. -/
structure SolRx where
  rx : Rx
  target : Nat
  lla : Option Nat
  valid : Bool
  deriving DecidableEq, Repr

/-- Where a Curtain lies (R505). -/
inductive CScope where
  | core (n : Nat)
  | cluster (g : Nat)
  | tenant (t : Nat)
  | part (p : Nat)
  deriving DecidableEq, Repr

/-- What the fuses of a part hold from the factory (R508, R513, R594, R600): its serial number; the SHA-384 digest of each
image key slot and debug key slot, none where the slot is empty, and whether it is revoked; the rollback level; the value
of each register field with Reset entry F, by field key; the certificate chain of the non-volatile store; bond lanes whose
group's spare stands in for them, and lane groups that are lost, by core; and DRAM rows that the layers' fuses map to a
spare, by core · 128 + bank (R41, R43). -/
structure Part where
  serial : Nat
  keys : List (Option Nat × Bool)
  dbgKeys : List (Option Nat × Bool)
  rollback : Nat
  fields : List (Nat × Nat)
  chain : List Byte
  lanes : List (Nat × Nat)
  groups : List (Nat × Nat)
  rows : List (Nat × Nat × Nat)
  deriving DecidableEq, Repr

/-- What a cold boot finds outside the sequencer (R508): which references are present; whether power was applied anew; the
part, and the contents of the two copies in flash, where they are not those of the boot before; whether each copy can be
read; the Seam ports that fail training (16 for the control channel), and the half that a die reads from its identity
connection (none when it is open) where that is not its own; bond lanes
found faulty, by core; how each write of the wear record verifies. -/
structure BootIn where
  ref0 : Bool
  ref1 : Bool
  power : Bool
  part : Option Part
  flash : Option (List Byte × List Byte)
  readA : Bool
  readB : Bool
  seamFails : List Nat
  ident : List (Nat × Option Nat)
  lanes : List (Nat × Nat)
  verify : List Bool
  deriving DecidableEq, Repr

/-- What a Seam port is given to send in a DATA frame (R363, R365): the channel and data flits of a new packet, whether it
was issued under the old epoch, data and packet header of the frame. -/
structure SeamOut where
  vc : Nat
  flits : Nat
  old : Bool
  data : Nat
  phdr : Nat
  deriving DecidableEq, Repr

/-- A frame that a Seam port sends: how far its ACK lags, the most credits it may return for each channel, four bits each,
and what a DATA frame carries. -/
inductive SeamSend where
  | idle (lag cred : Nat)
  | data (o : SeamOut) (lag cred : Nat)
  deriving DecidableEq, Repr

/-- The word that a scrub read takes (R262): that of a DA, or the check word of its block. -/
inductive ScrubAt where
  | word (da : Nat)
  | check (da : Nat)
  deriving DecidableEq, Repr

/-- Parity on the wake-wire bus (R355): of an arrival, and of the release it may bring on, in each half. -/
structure BusParity where
  arrival : Bool
  relA : Bool
  relB : Bool
  deriving DecidableEq, Repr

/-- Why a fabric port goes DOWN (R385): it has lost alignment, or counts so many uncorrectable codewords in 1 ms. -/
inductive PortLoss where
  | alignment (p : Nat)
  | codewords (p n : Nat)
  deriving DecidableEq, Repr

/-- The commands. -/
inductive Instr where
  /-- R11: A write to a register field that has no row of its own sets, clears or discards it according to its access code. -/
  | registerWrite (who : Requester) (addr n v : Nat)
  /-- R11: A 32-bit read of a register with an RC field returns the value and then clears the field. -/
  | rcFieldRead (who : Requester) (addr n : Nat)
  /-- R17: A 32-bit read of the low word of a 64-bit register returns it and captures the high word for the same requester. -/
  | lowWordRead (who : Requester) (addr : Nat)
  /-- R17: A 32-bit write of the low word of a 64-bit register is held for the requester and has no effect yet. -/
  | lowWordWrite (who : Requester) (addr v : Nat)
  /-- R17: A 32-bit write of the high word sets both words at once if a low word is held, or otherwise sets the high word alone. -/
  | highWordWrite (who : Requester) (addr v : Nat)
  /-- R18: An 8-bit or 16-bit register write is discarded and completes normally. -/
  | narrowRegisterWrite (who : Requester) (addr n v : Nat)
  /-- R507: Assertion of CRST_N holds the device in cold reset. -/
  | crstNAssert
  /-- R508: Release of CRST_N starts the cold boot, which runs the sequencer stages FUSES to READY. -/
  | crstNRelease (b : BootIn)
  /-- R520: Every 100 ms the device repeats each boot-list JOIN that ended TIMEOUT. -/
  | joinRetryTimer
  /-- R520: At 4.5 s after the release of CRST_N, JOINED is set, MISS is recorded and automatic joins stop. -/
  | joinDeadline
  /-- R506: Writing 0x5EA7 to SEQ_RST_ARM arms one WARM or COLD command. -/
  | seqRstArmWrite (v : Nat)
  /-- R506: An arming lapses when no command follows within 1 ms. -/
  | armExpiry
  /-- R505: SEQ_RST_CMD CORE raises a core Curtain. -/
  | rstCore (target : Nat)
  /-- R505: SEQ_RST_CMD CLUSTER raises a cluster Curtain. -/
  | rstCluster (target : Nat)
  /-- R522: An armed WARM command starts a warm device reset. -/
  | rstWarm (fails : List Nat) (verify : List Bool)
  /-- R505: An armed COLD command starts a cold reset. -/
  | rstCold (verify : List Bool) (b : BootIn)
  /-- R537: SEQ_RST_CMD NOP does nothing. -/
  | rstNop
  /-- R522: Once the wait for a COMMIT entry or for shutdown cooling ends, the warm reset runs its remaining steps to READY. -/
  | warmResetContinue (fails : List Nat)
  /-- R525: Once the drain ends, the command reports DONE and the absorbed requests are released. -/
  | curtainLower (scope : CScope)
  /-- R535: SEQ_EPOCH_CMD SWITCH starts the two-phase switch of the banked tables. -/
  | epochSwitch
  /-- R535: SEQ_EPOCH_CMD DISCARD copies the active banks into the shadow banks and clears DIRTY. -/
  | epochDiscard
  /-- R537: SEQ_EPOCH_CMD NOP does nothing. -/
  | epochNop
  /-- R374: A half receives PREPARE and answers READY or ABORT. -/
  | prepare (h : Nat)
  /-- R374: Half A receives READY from both halves and sends FLIP. -/
  | commitReady
  /-- R374: Half A receives ABORT and sends CANCEL. -/
  | commitAbort
  /-- R374: Half B makes its shadow banks active and answers FLIPPED. -/
  | flip
  /-- R374: Half A makes its shadow banks active and SEQ_EPOCH advances. -/
  | flipped
  /-- R374: A half's count of requests issued under the old epoch reaches zero. -/
  | epochDrainEnd (h : Nat)
  /-- R374: Half A receives DRAINED, records DONE and both halves copy their active banks into their shadow banks. -/
  | drained
  /-- R374: CANCEL ends the switch, and no bank changes. -/
  | commitCancel
  /-- R374: No answer reaches Half A within HALF_COMMIT_TMO, so Half A cancels and records TIMEOUT. -/
  | commitTimeout
  /-- R372: Each half receives the 1 µs heartbeat from the other on the control channel. -/
  | ctrlHeartbeat (h : Nat)
  /-- R372: A register access to a block homed in the other half is carried on the control channel and served there. -/
  | forwardedAccess (who : Requester) (addr n : Nat) (wr : Option Nat)
  /-- R373: No good control message for 10 µs sets CTRL_LOST, writes a LOST record and asserts SVC_REQ_N. -/
  | ctrlChannelLost
  /-- R364: An IDLE frame is received, and its ACK and CRED are applied. -/
  | seamIdleFrame (h x lag cred : Nat)
  /-- R368: A DATA frame with a good CRC and the expected SEQ is accepted into its VC buffer. -/
  | seamDataFrame (h x : Nat) (o : SeamOut) (lag cred : Nat)
  /-- R368: A frame with a bad CRC, a reserved KIND or an unexpected SEQ is discarded and one NAK is sent. -/
  | seamBadFrame (h x : Nat) (f : SeamSend) (noise : Nat)
  /-- R368: A NAK makes the sender replay every frame from the named SEQ onward. -/
  | seamNakFrame (h x cred : Nat)
  /-- R377: A TRAIN frame is received during training or loop-back. -/
  | seamTrainFrame (h x lane errs : Nat)
  /-- R369: After 32 failed sends of one frame the port goes down and its pending packets complete LOST. -/
  | seamPortDown (h x : Nat)
  /-- R379: A write to SEAM_LOOP sets the loop-back mode of ports out of service and is discarded for ports in service. -/
  | seamLoopWrite (h v : Nat)
  /-- R311: A router port receives a flit, or asks for it to be resent when its CRC fails. -/
  | meshFlitReceive (g l : Nat) (crcOk : Bool)
  /-- R312: After 32 failed resends the link goes down and the packets that need it complete LOST. -/
  | meshLinkDown (g l : Nat)
  /-- R78: A write of CORE_SEQ_CTRL.START loads the image and starts the program, or is discarded and sets CTRL_LOST. -/
  | coreStart (c v : Nat)
  /-- R78: The image read ends, so the core either starts RUNNING at ENTRY or halts with LOAD_CHECK or LOAD_ERROR. -/
  | programLoadDone (c : Nat)
  /-- R81: A write of HALT_REQ stops issue and requests a halt. -/
  | haltReq (c v : Nat)
  /-- R81: A write of RESUME resumes a core that was halted with cause HOST. -/
  | resume (c v : Nat)
  /-- R81: A write to CORE_SEQ_TENANT sets the tenant, or is discarded while LOADING or RUNNING. -/
  | coreSeqTenantWrite (c v : Nat)
  /-- R82: Once the core's units have drained, the core enters HALTED and reports a core event. -/
  | haltDrainDone (c : Nat)
  /-- R111: An uncorrectable error on instruction fetch traps with IFETCH_UE, or halts the core, and writes a record. -/
  | ifetchUe (c : Nat)
  /-- R85: Major opcode 0x00 always traps with ILLEGAL. -/
  | illegal (c : Nat)
  /-- R87: ADD or ADDI writes ra + b. -/
  | add (c : Nat)
  /-- R87: SUB or SUBI writes ra − b. -/
  | sub (c : Nat)
  /-- R87: AND or ANDI writes the bitwise AND. -/
  | and (c : Nat)
  /-- R87: OR or ORI writes the bitwise OR. -/
  | or (c : Nat)
  /-- R87: XOR or XORI writes the bitwise exclusive OR. -/
  | xor (c : Nat)
  /-- R87: SLL or SLLI shifts left. -/
  | sll (c : Nat)
  /-- R87: SRL or SRLI shifts right logically. -/
  | srl (c : Nat)
  /-- R87: SRA or SRAI shifts right arithmetically. -/
  | sra (c : Nat)
  /-- R87: SLT or SLTI writes 1 when ra is less than b, signed. -/
  | slt (c : Nat)
  /-- R87: SLTU or SLTUI writes 1 when ra is less than b, unsigned. -/
  | sltu (c : Nat)
  /-- R87: MIN writes the signed minimum. -/
  | min (c : Nat)
  /-- R87: MAX writes the signed maximum. -/
  | max (c : Nat)
  /-- R87: MINU writes the unsigned minimum. -/
  | minu (c : Nat)
  /-- R87: MAXU writes the unsigned maximum. -/
  | maxu (c : Nat)
  /-- R87: MUL writes the low 64 bits of the product. -/
  | mul (c : Nat)
  /-- R87: MULH writes the high 64 bits of the signed product. -/
  | mulh (c : Nat)
  /-- R87: MULHU writes the high 64 bits of the unsigned product. -/
  | mulhu (c : Nat)
  /-- R71: DIV writes the signed quotient, with fixed results for division by zero and overflow. -/
  | div (c : Nat)
  /-- R71: DIVU writes the unsigned quotient. -/
  | divu (c : Nat)
  /-- R71: REM writes the signed remainder. -/
  | rem (c : Nat)
  /-- R71: REMU writes the unsigned remainder. -/
  | remu (c : Nat)
  /-- R87: CLZ counts the leading zeros of ra. -/
  | clz (c : Nat)
  /-- R87: POPC counts the set bits of ra. -/
  | popc (c : Nat)
  /-- R88: LIW sets rd to the sign-extended 48-bit immediate. -/
  | liw (c : Nat)
  /-- R89: LD8U loads one byte, zero-extended. -/
  | ld8u (c : Nat)
  /-- R89: LD8S loads one byte, sign-extended. -/
  | ld8s (c : Nat)
  /-- R89: LD16U loads 2 B, zero-extended. -/
  | ld16u (c : Nat)
  /-- R89: LD16S loads 2 B, sign-extended. -/
  | ld16s (c : Nat)
  /-- R89: LD32U loads 4 B, zero-extended. -/
  | ld32u (c : Nat)
  /-- R89: LD32S loads 4 B, sign-extended. -/
  | ld32s (c : Nat)
  /-- R89: LD64 loads 8 B. -/
  | ld64 (c : Nat)
  /-- R89: ST8 stores one byte. -/
  | st8 (c : Nat)
  /-- R89: ST16 stores 2 B. -/
  | st16 (c : Nat)
  /-- R89: ST32 stores 4 B. -/
  | st32 (c : Nat)
  /-- R89: ST64 stores 8 B. -/
  | st64 (c : Nat)
  /-- R91: RLD32 reads a 32-bit register DA into rd. -/
  | rld32 (c : Nat)
  /-- R91: RST32 writes the low word of rb to a register DA. -/
  | rst32 (c : Nat)
  /-- R91: RLD64 makes an aligned 64-bit register read. -/
  | rld64 (c : Nat)
  /-- R91: RST64 makes an aligned 64-bit register write. -/
  | rst64 (c : Nat)
  /-- R91: A REG access completes and releases issue, or traps with REG_ACCESS on an error completion. -/
  | regAccessComplete (c : Nat)
  /-- R92: BEQ branches when ra equals rb. -/
  | beq (c : Nat)
  /-- R92: BNE branches when ra differs from rb. -/
  | bne (c : Nat)
  /-- R92: BLT branches when ra is less than rb, signed. -/
  | blt (c : Nat)
  /-- R92: BGE branches when ra is at least rb, signed. -/
  | bge (c : Nat)
  /-- R92: BLTU branches when ra is less than rb, unsigned. -/
  | bltu (c : Nat)
  /-- R92: BGEU branches when ra is at least rb, unsigned. -/
  | bgeu (c : Nat)
  /-- R93: JAL sets rd to pc + 1 and jumps to TARGET. -/
  | jal (c : Nat)
  /-- R93: JR jumps to ra, or traps with PC_RANGE. -/
  | jr (c : Nat)
  /-- R94: LOOP pushes a loop of ra iterations over the body up to TARGET. -/
  | loop (c : Nat)
  /-- R99: DLD loads a descriptor from local memory. -/
  | dld (c : Nat)
  /-- R99: DST stores a descriptor to local memory. -/
  | dst (c : Nat)
  /-- R99: DSETB sets a descriptor's BASE. -/
  | dsetb (c : Nat)
  /-- R99: DADDB adds to a descriptor's BASE, staying in its ring block. -/
  | daddb (c : Nat)
  /-- R99: DSETW sets one word of a descriptor. -/
  | dsetw (c : Nat)
  /-- R99: DGETW reads one word of a descriptor. -/
  | dgetw (c : Nat)
  /-- R101: MSEND copies a message into the send queue, addressed to a global core. -/
  | msend (c : Nat)
  /-- R101: MRECV takes the oldest received message, or sleeps until one arrives. -/
  | mrecv (c : Nat)
  /-- R101: MPOLL takes the oldest received message, or returns all ones at once. -/
  | mpoll (c : Nat)
  /-- R329: A message packet reaches the receiving core, which answers ACK, NACK FULL or a failure. -/
  | msgArrive (src i : Nat) (ue : Bool)
  /-- R329: An ACK reaches the sender and frees the message's send slot. -/
  | msgAck (c i : Nat)
  /-- R329: A NACK FULL reaches the sender, which keeps the message and waits for BACKOFF. -/
  | msgNack (c i : Nat)
  /-- R329: After BACKOFF the sender sends the message again, or fails it with TIMEOUT. -/
  | msgBackoffExpiry (c i : Nat)
  /-- R103: DMAQ queues a chain of descriptors on a channel, accepted whole or refused. -/
  | dmaq (c : Nat)
  /-- R104: DMAC queues one contiguous copy, with an optional cue. -/
  | dmac (c : Nat)
  /-- R103: DMAW waits until the channel is idle or halted and returns the status word. -/
  | dmaw (c : Nat)
  /-- R103: DMAS returns the channel status word without waiting. -/
  | dmas (c : Nat)
  /-- R327: DMAR restarts a halted channel, resuming the transfer or discarding it and everything behind it. -/
  | dmar (c : Nat)
  /-- R317: A COPY descriptor becomes current, is checked, and issues its row requests. -/
  | dmaCopy (c ch : Nat)
  /-- R317: A FILL descriptor becomes current and writes its pattern over the destination. -/
  | dmaFill (c ch : Nat)
  /-- R320: A MARK descriptor completes and signals once every earlier descriptor is complete. -/
  | dmaMark (c ch : Nat)
  /-- R320: A completion or read data returns to a channel, which verifies block checks and completes descriptors in order. -/
  | dmaResponse (c ch : Nat)
  /-- R327: CORE_DMA_CHn_CMD RESTART runs the halting descriptor again. -/
  | dmaChanRestart (c ch : Nat)
  /-- R327: CORE_DMA_CHn_CMD DISCARD drops the halting descriptor and every descriptor behind it. -/
  | dmaChanDiscard (c ch : Nat)
  /-- R328: CORE_DMA_CHn_CMD NOP does nothing. -/
  | dmaChanNop (c ch : Nat)
  /-- R105: FENCE stalls issue until the selected classes of earlier instructions reach their points. -/
  | fence (c : Nat)
  /-- R105: The awaited earlier work completes and FENCE releases issue. -/
  | fenceRelease (c : Nat)
  /-- R106: NOP does nothing. -/
  | nop (c : Nat)
  /-- R106: HALT sets CORE_SEQ_EXIT and halts the core with cause PROGRAM. -/
  | halt (c : Nat)
  /-- R106: TRAP traps with cause SOFTWARE. -/
  | trap (c : Nat)
  /-- R110: TRET returns from a trap and restores the loop stack. -/
  | tret (c : Nat)
  /-- R107: RDSYS reads a system value. -/
  | rdsys (c : Nat)
  /-- R106: SETMODE sets the FP8 conversion mode. -/
  | setmode (c : Nat)
  /-- R145: MMAC in independent mode applies each vector to four arrays at once. -/
  | mmacIndependent (c : Nat)
  /-- R146: MMAC in packed mode computes diagonal blocks of each array. -/
  | mmacPacked (c : Nat)
  /-- R147: MMAC in ganged mode chains the four arrays with a one-cycle skew. -/
  | mmacGanged (c : Nat)
  /-- R157: The last accumulator write of an MMAC completes it, and any fault raises trap UNIT. -/
  | mmacComplete (c : Nat) (fx : List ArrayFx)
  /-- R152: MCKS waits for every matrix instruction, then returns and clears the check summary. -/
  | mcks (c : Nat)
  /-- R169: VADD adds element-wise, with a stream, immediate or scalar operand. -/
  | vadd (c : Nat)
  /-- R169: VSUB subtracts element-wise. -/
  | vsub (c : Nat)
  /-- R169: VMUL multiplies element-wise. -/
  | vmul (c : Nat)
  /-- R169: VFMA computes a × b + d with one rounding. -/
  | vfma (c : Nat)
  /-- R169: VMIN writes the IEEE minimum. -/
  | vmin (c : Nat)
  /-- R169: VMAX writes the IEEE maximum. -/
  | vmax (c : Nat)
  /-- R169: VCMPLT compares for less than. -/
  | vcmplt (c : Nat)
  /-- R169: VCMPLE compares for less than or equal. -/
  | vcmple (c : Nat)
  /-- R169: VCMPEQ compares for equality. -/
  | vcmpeq (c : Nat)
  /-- R170: VIADD adds integers with wrapping. -/
  | viadd (c : Nat)
  /-- R170: VISUB subtracts integers. -/
  | visub (c : Nat)
  /-- R170: VIMUL writes the low 32 bits of the integer product. -/
  | vimul (c : Nat)
  /-- R170: VIMIN writes the signed integer minimum. -/
  | vimin (c : Nat)
  /-- R170: VIMAX writes the signed integer maximum. -/
  | vimax (c : Nat)
  /-- R170: VAND computes the bitwise AND. -/
  | vand (c : Nat)
  /-- R170: VOR computes the bitwise OR. -/
  | vor (c : Nat)
  /-- R170: VXOR computes the bitwise exclusive OR. -/
  | vxor (c : Nat)
  /-- R170: VSHL shifts left. -/
  | vshl (c : Nat)
  /-- R170: VSRA shifts right arithmetically. -/
  | vsra (c : Nat)
  /-- R171: VSF or VSFB EXP2 computes 2^u. -/
  | exp2 (c : Nat)
  /-- R171: VSF or VSFB EXP computes e^u. -/
  | exp (c : Nat)
  /-- R171: VSF or VSFB LOG2 computes log2 u. -/
  | log2 (c : Nat)
  /-- R171: VSF or VSFB LOG computes ln u. -/
  | log (c : Nat)
  /-- R171: VSF or VSFB RCP computes 1 ÷ u. -/
  | rcp (c : Nat)
  /-- R171: VSF or VSFB SQRT computes √u. -/
  | sqrt (c : Nat)
  /-- R171: VSF or VSFB RSQRT computes 1 ÷ √u. -/
  | rsqrt (c : Nat)
  /-- R171: VSF or VSFB TANH computes tanh u. -/
  | tanh (c : Nat)
  /-- R171: VSF or VSFB SIGMOID computes the logistic function. -/
  | sigmoid (c : Nat)
  /-- R171: VSF or VSFB SILU computes u ÷ (1 + e^−u). -/
  | silu (c : Nat)
  /-- R171: VSF or VSFB GELU computes u × Φ(u). -/
  | gelu (c : Nat)
  /-- R171: VSF or VSFB SINPI computes sin(πu). -/
  | sinpi (c : Nat)
  /-- R171: VSF or VSFB COSPI computes cos(πu). -/
  | cospi (c : Nat)
  /-- R174: VRED RSUM sums exactly with one rounding. -/
  | rsum (c : Nat)
  /-- R174: VRED RSUMSQ sums the squares. -/
  | rsumsq (c : Nat)
  /-- R174: VRED RMAX reduces to the maximum. -/
  | rmax (c : Nat)
  /-- R174: VRED RMIN reduces to the minimum. -/
  | rmin (c : Nat)
  /-- R174: VRED RMAXABS reduces to the largest magnitude. -/
  | rmaxabs (c : Nat)
  /-- R174: VRED RDOT computes the dot product of DA and DB. -/
  | rdot (c : Nat)
  /-- R175: VMOV copies bit for bit. -/
  | vmov (c : Nat)
  /-- R175: VCVT converts formats, including to and from MX. -/
  | vcvt (c : Nat)
  /-- R175: VFILL fills DD with an immediate. -/
  | vfill (c : Nat)
  /-- R175: VABS writes the absolute value. -/
  | vabs (c : Nat)
  /-- R175: VNEG writes the negated value. -/
  | vneg (c : Nat)
  /-- R176: VROT rotates value pairs by cosine and sine pairs. -/
  | vrot (c : Nat)
  /-- R179: A queued vector instruction begins reading once its issue, its predecessor's reads and any overlapping earlier writes are done. -/
  | vectorReadStart (c : Nat)
  /-- R180: A vector instruction's last write completes it, and any fault raises trap UNIT. -/
  | vectorComplete (c : Nat)
  /-- R198: SQOPEN opens a sequence context as READY. -/
  | sqopen (c : Nat)
  /-- R199: SQADMIT takes all the pages an admission needs, or none, and may wait. -/
  | sqadmit (c : Nat)
  /-- R198: SQCOMMIT adds tokens to LENGTH and can return the pages past it. -/
  | sqcommit (c : Nat)
  /-- R198: SQTRIM lowers LENGTH and returns the surplus pages. -/
  | sqtrim (c : Nat)
  /-- R198: SQCLOSE returns all pages and frees the context. -/
  | sqclose (c : Nat)
  /-- R198: SQEVICT returns all pages and sets EVICTED. -/
  | sqevict (c : Nat)
  /-- R198: SQGET reads one word of a context. -/
  | sqget (c : Nat)
  /-- R198: SQSET writes one word of a context in the states that allow it. -/
  | sqset (c : Nat)
  /-- R198: SQPAGE returns the DA of a token's K or V row. -/
  | sqpage (c : Nat)
  /-- R189: The context agent takes a SEQ operation whole and performs it on the context and its pool. -/
  | seqAgentRequest (c : Nat)
  /-- R202: The status of a SEQ instruction returns to the core and issue resumes. -/
  | seqStatusReturn (c : Nat)
  /-- R200: A waiting admission ends by being covered, evicted, broken or withdrawn. -/
  | sqadmitWake (c : Nat)
  /-- R206: KVLD reads the context, checks the walk and queues one DMA segment per page. -/
  | kvld (c : Nat)
  /-- R208: A walk segment reads its list entry, copies its rows into the ring and signals the cue. -/
  | kvldSegment (c ch : Nat)
  /-- R209: APOS writes a stream of positions. -/
  | apos (c : Nat)
  /-- R210: AROPE writes cosine and sine rotation pairs. -/
  | arope (c : Nat)
  /-- R212: AMASK sets invisible scores to −Inf. -/
  | amask (c : Nat)
  /-- R213: ASMX runs one chunk of the online softmax. -/
  | asmx (c : Nat)
  /-- R214: ASFIN writes each row's L and reciprocal sum. -/
  | asfin (c : Nat)
  /-- R215: ASREC recomputes probabilities from scores and L. -/
  | asrec (c : Nat)
  /-- R224: PWR writes V registers of the masked banks. -/
  | pwr (c : Nat)
  /-- R224: PRD copies bank registers to local memory. -/
  | prd (c : Nat)
  /-- R224: PCLR clears the registers of the masked banks. -/
  | pclr (c : Nat)
  /-- R226: PDOT computes dot products of bank rows with register vectors. -/
  | pdot (c : Nat)
  /-- R228: PCOL writes register lanes down a column of bank rows. -/
  | pcol (c : Nat)
  /-- R230: PMARK signals a cue once every earlier command of the port has completed. -/
  | pmark (c : Nat)
  /-- R230: PFENCE holds later port commands until earlier ones complete. -/
  | pfence (c : Nat)
  /-- R232: The slice controller dispatches a near-bank command to its bank under the window and cap rules, after its checks. -/
  | pimDispatch (c i : Nat)
  /-- R234: A command paused for refresh, an ordinary access or a lowered cap resumes. -/
  | pimResume (c i : Nat)
  /-- R236: A near-bank command completes, signals its cue and reports any fault. -/
  | pimComplete (c i : Nat) (perr : List (Nat × Nat))
  /-- R259: The slice controller accepts a read and returns the word, decoded under ECC. -/
  | sliceRead (who : Requester) (da n flips again slot : Nat) (cut : Bool)
  /-- R253: The slice controller accepts a write, probes the home cache and updates or verifies the block check value. -/
  | sliceWrite (who : Requester) (da n v : Nat) (chk : Option Nat)
  /-- R264: A row copy into a spare ends, the remap entry takes effect and waiting accesses proceed. -/
  | rowCopyDone (n key : Nat)
  /-- R249: A lane's count of corrected symbols reaches LANE_LIMIT, so the lane is repaired live or the core is retired. -/
  | laneFailing (n lane : Nat)
  /-- R249: The 1 ms interval for counting corrected symbols per lane ends. -/
  | laneIntervalEnd (n : Nat)
  /-- R254: Every 250 µs a layer sensor is sampled and the refresh rate is set, or the sample is handled as invalid. -/
  | layerTempSample (n layer : Nat) (temp : Option Int)
  /-- R256: A refresh falls due and refreshes one row of a bank. -/
  | refresh (n layer bank row : Nat)
  /-- R262: A scrub read falls due, and a corrected word is written back. -/
  | patrolScrub (w : ScrubAt) (flips again slot : Nat) (last : Bool)
  /-- R272: The memory-side adder performs an INT32 or FP32 add on one word. -/
  | adderOp (n : Nat)
  /-- R276: CORE_SLC_TEST_CMD NOP does nothing. -/
  | testNop (n : Nat)
  /-- R276: RAW_RD reads a word and its check symbols without decoding. -/
  | rawRd (n : Nat) (unmapped : Bool) (layer bank rowsel word : Nat)
  /-- R276: RAW_WR writes data and check symbols to an unmapped row. -/
  | rawWr (n : Nat) (unmapped : Bool) (layer bank rowsel word : Nat)
  /-- R276: DEC_RD reads and decodes an unmapped word. -/
  | decRd (n : Nat) (unmapped : Bool) (layer bank rowsel word : Nat)
  /-- R276: MARK_ROW marks a mapped row for repair. -/
  | markRow (n : Nat) (unmapped : Bool)
  /-- R276: FIX_LANE repairs a logical lane with its group's spare. -/
  | fixLane (n : Nat)
  /-- R277: A test command completes and sets RESULT. -/
  | testCmdDone (n : Nat)
  /-- R287: A cached read reaches the home cache tags, hits or misses, and allocates under its hint. -/
  | cacheRead (who : Requester) (da n : Nat) (hint : Option Nat) (err flip : Nat)
  /-- R287: A cached write reaches the home cache tags and is written under its hint. -/
  | cacheWrite (who : Requester) (da n v : Nat) (hint : Option Nat) (err flip : Nat)
  /-- R293: The slice data of a miss returns and fills the line. -/
  | cacheFillDone (g i : Nat)
  /-- R295: AADD adds atomically, with wrapping. -/
  | aadd (c : Nat)
  /-- R295: AMIN takes the signed minimum atomically. -/
  | amin (c : Nat)
  /-- R295: AMAX takes the signed maximum atomically. -/
  | amax (c : Nat)
  /-- R295: AMINU takes the unsigned minimum atomically. -/
  | aminu (c : Nat)
  /-- R295: AMAXU takes the unsigned maximum atomically. -/
  | amaxu (c : Nat)
  /-- R295: AAND applies a bitwise AND atomically. -/
  | aand (c : Nat)
  /-- R295: AOR applies a bitwise OR atomically. -/
  | aor (c : Nat)
  /-- R295: AXOR applies a bitwise exclusive OR atomically. -/
  | axor (c : Nat)
  /-- R295: ASWAP swaps atomically. -/
  | aswap (c : Nat)
  /-- R295: ACAS compares and swaps atomically. -/
  | acas (c : Nat)
  /-- R295: AFADD adds in FP32 atomically. -/
  | afadd (c : Nat)
  /-- R295: AHADD adds two BF16 lanes atomically. -/
  | ahadd (c : Nat)
  /-- R297: LRED adds 128 B of local data into a line, lane by lane. -/
  | lred (c : Nat)
  /-- R297: CWB writes back the DIRTY lines of a range. -/
  | cwb (c : Nat)
  /-- R298: An atomic, line reduction or CWB executes at the home cache or at the memory-side adder. -/
  | atomExecute (c i err flip : Nat)
  /-- R296: An atomic's result or completion returns to the core, writing rd or raising an atomic fault. -/
  | atomResult (c i : Nat)
  /-- R305: CL_CACHE_CMD WB_ALL writes back every DIRTY line. -/
  | wbAll (g : Nat)
  /-- R305: CL_CACHE_CMD PRELOAD fetches every line of a window. -/
  | preload (g win : Nat)
  /-- R305: CL_CACHE_CMD UNPIN releases the pins that a window gave. -/
  | unpin (g win : Nat)
  /-- R305: CL_CACHE_CMD WB_SLICE writes back the DIRTY lines of one slice. -/
  | wbSlice (g slice : Nat)
  /-- R305: CL_CACHE_CMD NOP does nothing. -/
  | cacheCmdNop (g : Nat)
  /-- R305: A cache command completes and BUSY clears. -/
  | cacheCmdDone (g : Nat)
  /-- R339: The SIGNAL instruction posts a cue signal of n. -/
  | signal (c : Nat)
  /-- R339: The WAIT instruction takes k from a cue, or queues and sleeps. -/
  | wait (c : Nat)
  /-- R339: The TAKE instruction subtracts k, ignoring waiters. -/
  | take (c : Nat)
  /-- R339: The TRYWAIT instruction takes k only when no waiter is queued and the count covers it. -/
  | trywait (c : Nat)
  /-- R339: The ARM instruction sets a cue's LIMIT. -/
  | arm (c : Nat)
  /-- R338: The CREAD instruction reads a cue's state. -/
  | cread (c : Nat)
  /-- R339: The CINIT instruction initialises a cue. -/
  | cinit (c : Nat)
  /-- R339: The CFREE instruction frees a cue. -/
  | cfree (c : Nat)
  /-- R337: The cue storage takes one operation, checks it, performs it and serves the waiter queue. -/
  | cueOpArrive (i : Nat)
  /-- R340: The result of a round-trip cue operation returns to the core, retiring it or taking trap CUE. -/
  | cueReply (c : Nat)
  /-- R343: A wake reaches the core and its WAIT retires, or a core inside a Curtain refuses it and k is added back. -/
  | cueWake (c : Nat)
  /-- R343: A cancel from a halt or Curtain removes the core's waiter entry. -/
  | cueCancel (c : Nat)
  /-- R342: A WAIT answered NACK is sent again after 64 MESH cycles. -/
  | waitNackResend (c : Nat)
  /-- R341: A refused posted SIGNAL returns and raises SIG_OVERFLOW or SIG_REFUSED as an imprecise trap. -/
  | signalRefused (c : Nat)
  /-- R357: Host CL_CUE_CMD INIT initialises a cue. -/
  | cueCmdInit (g j : Nat) (co : Bool)
  /-- R357: Host CL_CUE_CMD FREE frees a cue. -/
  | cueCmdFree (g j : Nat)
  /-- R357: Host CL_CUE_CMD BREAK puts a cue in BROKEN and wakes its waiters. -/
  | cueCmdBreak (g j : Nat)
  /-- R357: Host CL_CUE_CMD SIGNAL signals a cue by ARG0. -/
  | cueCmdSignal (g j : Nat)
  /-- R356: Host CL_CUE_CMD NOP does nothing. -/
  | cueCmdNop (g : Nat)
  /-- R351: BSYNC arrives and sleeps until the release. -/
  | bsync (c : Nat)
  /-- R351: BARRIVE arrives and continues. -/
  | barrive (c : Nat)
  /-- R351: BWAIT sleeps until GEN differs. -/
  | bwait (c : Nat)
  /-- R351: BREAD reads BARR_STATn. -/
  | bread (c : Nat)
  /-- R352, R355: A cluster's arrival reaches the barrier unit over the wake-wire bus. -/
  | barrierArrival (h n c : Nat) (par : BusParity)
  /-- R350: A write of EN = 1 opens a barrier context, or breaks it with CAUSE MEMBER. -/
  | barrEnable (h n v : Nat)
  /-- R350: A write of EN = 0 wakes waiters with BROKEN and turns the context OFF. -/
  | barrDisable (h n v : Nat)
  /-- R385: A fabric port aligns its PCS and becomes UP, rejoining the path sets. -/
  | fportLinkUp (p : Nat)
  /-- R385: A fabric port loses alignment or reaches FEC_LIMIT, goes DOWN, leaves the paths and retrains. -/
  | fportLinkDown (e : PortLoss)
  /-- R386: An ARP request for the port's address is answered. -/
  | arpRequest (r : ArpRx)
  /-- R386: An IPv6 Neighbour Solicitation for the port's address is answered. -/
  | neighborSolicitation (r : SolRx)
  /-- R387: A received PFC frame pauses or releases sending of PFC_PRIO. -/
  | pfcFrame (r : Rx) (quanta : Nat)
  /-- R404: A received WRITE packet writes its payload by the cached path and may signal its cue. -/
  | fftWrite (r : Rx) (f : Fft)
  /-- R404: A READ_REQ is served with READ_RSP packets. -/
  | fftReadReq (r : Rx) (f : Fft)
  /-- R404: A READ_RSP writes its payload at the requester. -/
  | fftReadRsp (r : Rx) (f : Fft)
  /-- R404: A SIGNAL packet signals its cue once every earlier packet is accepted. -/
  | fftSignal (r : Rx) (f : Fft)
  /-- R405: An ACK releases packets and completes WRs, and ECE marks lower the rate. -/
  | fftAck (r : Rx) (f : Fft)
  /-- R405: A SACK triggers selective resends and reports poison or a refused cue. -/
  | fftSack (r : Rx) (f : Fft)
  /-- R409: A received OPEN completes the handshake, is answered with the current epoch, or makes the stale side abort and reopen. -/
  | fftOpen (r : Rx) (f : Fft)
  /-- R409: A received OPEN_ACK moves an OPENING context to OPEN under its epoch. -/
  | fftOpenAck (r : Rx) (f : Fft)
  /-- R409: A received CLOSE ends the connection, and pending WRs complete ABORTED. -/
  | fftClose (r : Rx) (f : Fft)
  /-- R403: A received ABORT aborts the connection with cause PEER and poisons the blocks of incomplete WRs. -/
  | fftAbort (r : Rx) (f : Fft)
  /-- R417: A PROBE for this device is answered with PROBE_RSP. -/
  | fftProbe (r : Rx) (f : Fft)
  /-- R417: A PROBE_RSP records the round-trip time. -/
  | fftProbeRsp (r : Rx) (f : Fft)
  /-- R401: A write to FPORT_TE_DB posts WRs of a connection, or is discarded. -/
  | teDoorbell (h : Nat) (who : Requester) (v : Nat)
  /-- R401: A NOP work request does nothing. -/
  | wrNop (c : Nat)
  /-- R402: A WRITE work request is cut into sequenced WRITE packets. -/
  | wrWrite (c : Nat)
  /-- R402: A READ work request sends one READ_REQ. -/
  | wrRead (c : Nat)
  /-- R401: A SIGNAL work request sends a cue signal to the peer. -/
  | wrSignal (c : Nat)
  /-- R409: FPORT_TE_CMD OPEN starts opening a connection. -/
  | teOpen (h v : Nat)
  /-- R409: FPORT_TE_CMD CLOSE closes a connection once its WRs complete. -/
  | teClose (h v : Nat)
  /-- R403: FPORT_TE_CMD ABORT aborts a connection with cause LOCAL. -/
  | teAbort (h v : Nat)
  /-- R409: FPORT_TE_CMD FREE returns a CLOSED or ABORTED context to FREE. -/
  | teFree (h v : Nat)
  /-- R417: FPORT_TE_CMD PROBE sends a PROBE along one path. -/
  | teProbe (h v : Nat)
  /-- R410: FPORT_TE_CMD NOP does nothing. -/
  | teNop (h v : Nat)
  /-- R409: Every 100 µs an OPENING context sends OPEN again. -/
  | openResendTimer (c : Nat)
  /-- R409: After 1 s without OPEN_ACK the context goes ABORTED with cause RESET. -/
  | openTimeout (c : Nat)
  /-- R405: A packet's retransmission timer expires, so it is resent with a doubled timer, or the connection aborts with TIMEOUT. -/
  | retxTimeout (c psn : Nat)
  /-- R405: ACK_DELAY passes and an ACK is sent. -/
  | ackDelayExpiry (c : Nat)
  /-- R408: After 16 µs without a mark, RATE rises by INC_STEP. -/
  | rateIncreaseTimer (c : Nat)
  /-- R417: A PROBE unanswered for 1 ms sets its RTT to all ones. -/
  | probeTimeout (h : Nat)
  /-- R416: Every INTERVAL seconds the port sends an LLDPDU. -/
  | lldpSendTimer (p : Nat)
  /-- R416: A received LLDPDU becomes the port's neighbour. -/
  | lldpduReceive (r : Rx) (chSub ch chLen pSub pid pLen ttl : Nat)
  /-- R416: The neighbour's TTL expires and the neighbour is forgotten. -/
  | neighborTtlExpiry (p : Nat)
  /-- R415: A Sync received in SLAVE mode feeds the servo, which may lock, set OFFSET_HIGH or self-step. -/
  | ptpSyncReceive (r : Rx) (src dom : Nat) (twoStep : Bool) (t1 : Nat)
  /-- R413: A Follow_Up of a two-step Sync is accepted. -/
  | ptpFollowUpReceive (r : Rx) (src dom t1 : Nat)
  /-- R413: A SLAVE locks to the first master whose Announce it receives in DOMAIN. -/
  | ptpAnnounceReceive (r : Rx) (src dom : Nat)
  /-- R413: A MASTER answers a Delay_Req. -/
  | ptpDelayReqReceive (r : Rx) (dom : Nat)
  /-- R413: A SLAVE takes a Delay_Resp for its path delay. -/
  | ptpDelayRespReceive (r : Rx) (src dom t4 : Nat)
  /-- R413: A MASTER sends one-step Sync 8 times per second. -/
  | ptpSyncSendTimer
  /-- R413: A MASTER sends Announce once per second. -/
  | ptpAnnounceSendTimer
  /-- R413: A SLAVE sends Delay_Req 8 times per second. -/
  | ptpDelayReqSendTimer
  /-- R415: No Sync for 3 s puts the servo in HOLDOVER. -/
  | ptpHoldoverTimeout
  /-- R415: FAB_TIME_CMD.STEP adds FAB_TIME_STEP to fabric time in both halves. -/
  | timeStep
  /-- R412: Writing TX_AN switches the transmit association at the next frame boundary. -/
  | secTxAnWrite (p : Nat) (who : Requester) (v : Nat)
  /-- R412: Writing VALID = 1 installs an association's key, unless it is the active transmit association. -/
  | saValidWrite (p : Nat) (who : Requester) (i v : Nat)
  /-- R420: A collective-queue doorbell makes descriptors visible, or is discarded. -/
  | collDoorbell (h p : Nat) (who : Requester) (v : Nat)
  /-- R425: An ALLREDUCE descriptor starts an all-reduce collective. -/
  | allreduce (h p : Nat)
  /-- R425: A REDUCE_SCATTER descriptor starts a reduce-scatter collective. -/
  | reduceScatter (h p : Nat)
  /-- R425: An ALLGATHER descriptor starts an all-gather collective. -/
  | allgather (h p : Nat)
  /-- R425: A BROADCAST descriptor broadcasts from ROOT. -/
  | broadcast (h p : Nat)
  /-- R425: A REDUCE descriptor reduces to ROOT. -/
  | reduce (h p : Nat)
  /-- R425: An ALLTOALL descriptor exchanges parts directly. -/
  | alltoall (h p : Nat)
  /-- R424: A BARRIER descriptor synchronises the group. -/
  | collBarrier (h p : Nat)
  /-- R421: A NOP collective descriptor does nothing. -/
  | collNop (h p : Nat)
  /-- R427: A received COLL_DATA packet is reduced or written into the buffer, or dropped. -/
  | collData (r : Rx) (f : Fft)
  /-- R427: A received READY packet lets this rank send data to its sender. -/
  | collReady (r : Rx) (f : Fft)
  /-- R428: A collective completes, signals or breaks its cue, writes a record and on failure aborts its connections. -/
  | collComplete (id : Nat)
  /-- R431: FAB_AGREE_CMD JOIN starts a JOIN exchange with a peer. -/
  | agreeJoin (v : Nat)
  /-- R435: FAB_AGREE_CMD REJOIN starts an exchange that can end quarantine. -/
  | agreeRejoin (v : Nat)
  /-- R437: FAB_AGREE_CMD LEAVE sends DEPARTING and ends collectives with SELF_DEPARTED. -/
  | agreeLeave (v : Nat)
  /-- R439: FAB_AGREE_CMD FORGET returns a peer entry to UNKNOWN. -/
  | agreeForget (v : Nat)
  /-- R439: FAB_AGREE_CMD NOP does nothing. -/
  | agreeNop (v : Nat)
  /-- R431: A received JOIN is stamped and answered with JOIN_ACK. -/
  | join (r : Rx) (f : Fft)
  /-- R432: The initiator receives JOIN_ACK, computes θ, decides the outcome and sends JOIN_DONE. -/
  | joinAck (r : Rx) (f : Fft)
  /-- R431: The responder receives JOIN_DONE and applies the outcome. -/
  | joinDone (r : Rx) (f : Fft)
  /-- R431: JOIN is resent every 1 ms, and after 8 sends the exchange ends TIMEOUT. -/
  | joinResendTimer (dev : Nat)
  /-- R433: RECHECK ms after a STEP, the initiator runs the exchange again. -/
  | recheckTimer (dev : Nat)
  /-- R438: A received DEPARTING sets the peer DEPARTED, ends its collectives and aborts its connections. -/
  | departing (r : Rx) (f : Fft)
  /-- R437: DEPARTING is sent again 1 µs later on the next path, three times in all. -/
  | departingResend (dev : Nat)
  /-- R443: A PCIe link trains and comes up. -/
  | pcieLinkUp (h speed width : Nat) (flit : Bool)
  /-- R467: Loss of a PCIe link resets the tenants of its functions. -/
  | pcieLinkDown (h : Nat)
  /-- R507: PERST_A_N or PERST_B_N resets its half's PCIe controller, which acts as a link loss. -/
  | perstAssert (h : Nat)
  /-- R467: A hot reset of a link resets the tenants of its functions. -/
  | pcieHotReset (h : Nat)
  /-- R467: A Function Level Reset of a physical function resets its tenants and those of its VFs. -/
  | pfFlr (h : Nat)
  /-- R467: A Function Level Reset of a virtual function resets its tenants, VF_WIN and MSI-X state. -/
  | vfFlr (slot : Nat)
  /-- R450: An Invalidate Request completes once the requests using the translation have completed. -/
  | atsInvalidate (func : Nat)
  /-- R446: A host BAR2 access maps through its window and takes the cached path, or is refused. -/
  | bar2Access (func off n : Nat) (wr : Option Nat)
  /-- R457: A submission doorbell advances a queue pair's producer index, or is discarded. -/
  | hqSqDoorbell (func off bytes v : Nat)
  /-- R457: A completion doorbell frees completion entries, so waiting commands may start. -/
  | hqCqDoorbell (func off bytes v : Nat)
  /-- R459: A queue NOP completes. -/
  | hqNop (q entry : Nat)
  /-- R463: A queue COPY moves data through the host DMA engine. -/
  | hqCopy (q : Nat) (num : Option Nat) (v : Nat) (hostOk : Bool) (misses : Nat)
  /-- R459: A queue FILL writes a pattern over LEN bytes. -/
  | hqFill (q : Nat) (num : Option Nat) (entry : Nat)
  /-- R459: A queue START loads and starts a program on a core. -/
  | hqStart (q entry : Nat)
  /-- R459: A queue HALT delivers HALT_REQ. -/
  | hqHalt (q entry : Nat)
  /-- R459: A queue RESUME delivers RESUME. -/
  | hqResume (q entry : Nat)
  /-- R459: A queue SIGNAL signals a cue. -/
  | hqSignal (q entry : Nat)
  /-- R459: A queue SQEVICT evicts a context. -/
  | hqSqevict (q entry : Nat)
  /-- R459: A queue REGW writes a register under protection. -/
  | hqRegw (q entry : Nat)
  /-- R459: A queue REGR reads a register into the completion. -/
  | hqRegr (q entry : Nat)
  /-- R460: A queue command completes, writes its completion entry and may send the vector. -/
  | hqCommandComplete (q num : Nat)
  /-- R456: Clearing a queue pair's VALID drops unstarted commands and discards later completions. -/
  | hqQpValidWrite (q v : Nat)
  /-- R449: 4 µs after an entry's last message, folded events send the next message. -/
  | irqHoldoffExpiry (i : Nat)
  /-- R466: PART_CMD TENANT_RESET raises the Curtain on a tenant. -/
  | partTenantReset (v : Nat)
  /-- R505: PART_CMD PARTITION_RESET raises a partition Curtain, or returns NOT_VALID. -/
  | partPartitionReset (v : Nat)
  /-- R455: PART_CMD RELOAD refreshes the cached tenant entry. -/
  | partReload (v : Nat)
  /-- R472: PART_CMD NOP does nothing. -/
  | partNop
  /-- R452: A write that changes VALID in PART_Pp_CTRL raises a partition Curtain, and membership changes at LOWER. -/
  | partitionValidWrite (p v : Nat)
  /-- R484: A step-queue doorbell makes step descriptors visible. -/
  | chkDoorbell (p : Nat) (who : Requester) (v : Nat)
  /-- R479: A STEP descriptor is checked, selected and dispatched to its primary core. -/
  | chkStep (p : Nat)
  /-- R485: A NOP step descriptor does nothing. -/
  | chkStepNop (p : Nat)
  /-- R479: The primary halts, and the step either completes or takes an understudy for a replay. -/
  | primaryHalt (id : Nat)
  /-- R481: A waiting step finds a qualifying pool core and dispatches its replay or tiebreak. -/
  | understudyCoreAvailable (id : Nat)
  /-- R482: The replay halts and the service compares the regions. -/
  | replayHalt (id : Nat)
  /-- R480: A replay or tiebreak that runs past its limit is halted by HALT_REQ. -/
  | replayTimeout (id : Nat)
  /-- R482: The comparison ends, so the step commits, runs a tiebreak or fails. -/
  | compareDone (id : Nat)
  /-- R482: The tiebreak halts and decides which result, if any, is committed. -/
  | tiebreakHalt (id : Nat)
  /-- R489: CHK_REH_CMD RUN_CORE starts Rehearsal on one core. -/
  | rehRunCore (target mask : Nat)
  /-- R489: CHK_REH_CMD RUN_CLUSTER starts Rehearsal on every eligible core of a cluster. -/
  | rehRunCluster (target mask : Nat)
  /-- R501: CHK_REH_CMD STOP abandons every Rehearsal and clears AUTO. -/
  | rehStop
  /-- R501: CHK_REH_CMD NOP does nothing. -/
  | rehNop
  /-- R489: Every INTERVAL ms automatic Rehearsal starts on the next eligible core. -/
  | rehAutoTimer
  /-- R486: A Rehearsal kernel halts and is judged, and the next kernel starts or the result is written. -/
  | rehKernelHalt (c : Nat)
  /-- R486: A kernel that runs past LIMIT µs is halted by HALT_REQ. -/
  | rehLimitTimeout (c : Nat)
  /-- R488: A dispatch held 2 ms for a WITHDRAWN core abandons the Rehearsal. -/
  | rehHoldTimeout (c : Nat)
  /-- R493: The logger takes a record, merges it or assigns a SEQ, writes the registers and the ring, and raises an event. -/
  | errorRecord
  /-- R499: The hourly bucket rolls over, and UE_RATE is set when the window sum reaches LIMIT. -/
  | ueRateHour
  /-- R61: DARN_CMD RETIRE_CORE raises a core Curtain and sets the core RETIRING. -/
  | darnRetireCore (unit : Nat)
  /-- R61: DARN_CMD RETIRE_CLUSTER raises a cluster Curtain and sets the cluster and its cores RETIRING. -/
  | darnRetireCluster (unit : Nat)
  /-- R61: DARN_CMD RETIRE_LINK sets LINK_PEND at both ends of a link. -/
  | darnRetireLink (unit : Nat)
  /-- R61: DARN_CMD REPAIR_ROW switches an array's spare row in. -/
  | darnRepairRow (unit : Nat)
  /-- R61: DARN_CMD REPAIR_COL switches the spare column in and removes the checksum column. -/
  | darnRepairCol (unit : Nat)
  /-- R65: DARN_CMD COMMIT starts writing a snapshot of the pending queue into the Darn log. -/
  | darnCommit (unit : Nat)
  /-- R59: DARN_CMD NOP does nothing. -/
  | darnNop
  /-- R61: A Darn command other than COMMIT ends and writes DARN_CMD_RESULT. -/
  | darnCmdDone
  /-- R65: A COMMIT ends with DONE, PARTIAL or LOG_FULL, and committed units become RETIRED. -/
  | commitDone (verify : List Bool)
  /-- R540: Every 100 µs each regulator is polled, and alerts and link failures are noted. -/
  | avsPoll (n : Nat) (r : Option (Nat × Nat × Bool))
  /-- R545: Three failed transactions, or 1 ms without a poll, mark a regulator link lost. -/
  | regLinkLost (n : Nat)
  /-- R545: A link not back within 100 ms puts the rail in degraded mode. -/
  | regDegradedTimeout (n : Nat)
  /-- R544: The governor starts a change of OPP on a core rail. -/
  | dvfsStep (h : Nat)
  /-- R544: The regulator reports the new voltage and the step proceeds to relock. -/
  | dvfsVoltageReached (h : Nat)
  /-- R544: A voltage not reached within 200 µs abandons the step. -/
  | dvfsTimeout (h : Nat)
  /-- R544: The CORE PLL relocks at the new frequency. -/
  | pllRelockDone (h : Nat)
  /-- R547: Every 1 µs the governor estimates power and adjusts the near-bank cap, edge removal, grants and filler. -/
  | governorEstimateTick (est : Nat) (ks : List (Nat × Nat)) (rise fall : Bool)
  /-- R550: Every 1 ms the estimate is corrected, new settings take effect and OPP steps are decided. -/
  | governorMsTick (ests : List Nat)
  /-- R556: Every 1 ms the governing temperatures are formed, the cut is set and threshold events begin or end. -/
  | thermalTick
  /-- R551: Every 100 µs the logic sensors are sampled and judged suspect or lost. -/
  | logicSensorSample (h : Nat) (temps : List (Option Int × Option Int))
  /-- R554: Every 1 ms VDD_SOC is measured against both bandgaps, and a persistent disagreement marks them suspect. -/
  | bandgapMeasure (h mv0 mv1 : Nat)
  /-- R560: Every 100 ms the thermistors are read, setting INLET_RANGE and AUX_WARN. -/
  | thermistorSample (rs : List (Nat × Nat))
  /-- R560: Every second flow is computed from the pulse count and FLOW_LOW is set. -/
  | flowSample (pulses : Nat)
  /-- R561: A 10 s window ends and the heat-balance check sets or clears HEAT_BAL. -/
  | heatBalanceWindow
  /-- R562: Once per second the thermal cycle counter is updated. -/
  | thermalCycleCount
  /-- R597: The wear record is written hourly or at an event, to the next slot with verification. -/
  | wearWrite (hourly : Bool) (verify : List Bool)
  /-- R542: A fall of VAUX_1V8 or of a governed rail starts active discharge. -/
  | activeDischarge (vaux : Bool)
  /-- R571: A PLL loses lock, holds its control word and relocks, and a CLOCK record is written. -/
  | pllUnlock (n : Nat)
  /-- R575: The selected reference stops being present and the PLLs go to holdover. -/
  | referenceLost (r : Nat)
  /-- R575: The reference returns, the PLLs relock and HOLDOVER clears. -/
  | referenceReturn (r : Nat)
  /-- R577: Every 100 ms the drift monitor forms the consensus and sets WARN or SUSPECT. -/
  | driftWindow (devs : List (Option Int)) (rOther : Option Int)
  /-- R583: ENTDAA assigns the device a dynamic I3C address. -/
  | i3cEntdaa (dyn : Nat)
  /-- R583: SETDASA assigns a dynamic address from the static address. -/
  | i3cSetdasa (static dyn : Nat)
  /-- R584: The MCTP Set Endpoint ID request sets the EID. -/
  | setEndpointId (eid : Nat)
  /-- R584: The MCTP Get Endpoint ID request returns the EID. -/
  | getEndpointId
  /-- R584: The MCTP Get Endpoint UUID request returns the UUID. -/
  | getEndpointUuid
  /-- R584: The MCTP Get MCTP Version Support request returns the versions. -/
  | getMctpVersionSupport (typ : Nat)
  /-- R584: The MCTP Get Message Type Support request lists types 0, 1 and 5. -/
  | getMessageTypeSupport
  /-- R586: The PLDM GetTID request returns the terminus ID. -/
  | getTid
  /-- R586: The PLDM SetTID request sets the terminus ID. -/
  | setTid (tid : Nat)
  /-- R586: The PLDM GetPLDMVersion request returns the version. -/
  | getPldmVersion (typ : Nat)
  /-- R586: The PLDM GetPLDMTypes request returns the supported types. -/
  | getPldmTypes
  /-- R586: The PLDM GetPLDMCommands request returns the supported commands. -/
  | getPldmCommands (typ : Nat)
  /-- R586: The PLDM GetPDRRepositoryInfo request describes the fixed repository. -/
  | getPdrRepositoryInfo
  /-- R586: The PLDM GetPDR request returns a PDR. -/
  | getPdr (handle : Nat)
  /-- R587: The PLDM GetSensorReading request returns a numeric sensor. -/
  | getSensorReading (id : Nat)
  /-- R587: The PLDM GetStateSensorReadings request returns a state sensor. -/
  | getStateSensorReadings (id : Nat)
  /-- R588: Setting effecter 40 requests a warm or cold reset. -/
  | setStateEffecterStates (id st : Nat) (fails : List Nat) (verify : List Bool) (b : BootIn)
  /-- R586: The PLDM GetStateEffecterStates request returns effecter 40. -/
  | getStateEffecterStates (id : Nat)
  /-- R588: Setting effecter 41 writes PWR_ENV, clamped. -/
  | setNumericEffecterValue (id v : Nat)
  /-- R588: The PLDM GetNumericEffecterValue request returns the envelope taken. -/
  | getNumericEffecterValue (id : Nat)
  /-- R590: The firmware-update QueryDeviceIdentifiers request returns the identifiers. -/
  | queryDeviceIdentifiers
  /-- R590: The GetFirmwareParameters request returns the active and pending versions. -/
  | getFirmwareParameters
  /-- R590: RequestUpdate takes the update engine for PLDM, or answers ALREADY_IN_UPDATE_MODE. -/
  | requestUpdate
  /-- R590: The PassComponentTable request is accepted. -/
  | passComponentTable
  /-- R590: UpdateComponent starts writing the target copy. -/
  | updateComponent (comp size : Nat)
  /-- R590: A RequestFirmwareData response delivers a piece of the image to program. -/
  | firmwareDataReceive (data : List Byte)
  /-- R590: The TransferComplete exchange ends the transfer. -/
  | transferComplete
  /-- R590: The VerifyComplete exchange reports the checks of the image. -/
  | verifyComplete
  /-- R590: The ApplyComplete exchange ends the apply stage. -/
  | applyComplete
  /-- R590: ActivateFirmware succeeds at once, leaving the new copy pending until cold reset. -/
  | activateFirmware
  /-- R590: The GetStatus request returns the update state. -/
  | getStatus
  /-- R590: CancelUpdateComponent cancels writing the component. -/
  | cancelUpdateComponent
  /-- R590: CancelUpdate ends update mode. -/
  | cancelUpdate
  /-- R593: The SPDM GET_VERSION request is answered. -/
  | getVersion
  /-- R593: The SPDM GET_CAPABILITIES request is answered. -/
  | getCapabilities
  /-- R593: The SPDM NEGOTIATE_ALGORITHMS request selects P-384 and SHA-384. -/
  | negotiateAlgorithms (asym hash : Nat)
  /-- R593: The SPDM GET_DIGESTS request returns the certificate digests. -/
  | getDigests
  /-- R594: The SPDM GET_CERTIFICATE request returns the slot 0 chain. -/
  | getCertificate (slot off len : Nat)
  /-- R593: The SPDM CHALLENGE request is answered with a signature. -/
  | spdmChallenge (slot : Nat)
  /-- R595: The SPDM GET_MEASUREMENTS request returns the measurement blocks. -/
  | getMeasurements (index : Nat) (sign : Bool)
  /-- R591: MGT_UPD_CMD WRITE starts writing a staged copy from device memory. -/
  | updWrite
  /-- R604: MGT_UPD_CMD CANCEL cancels a host update. -/
  | updCancel
  /-- R604: MGT_UPD_CMD NOP does nothing. -/
  | updNop
  /-- R589: The engine finishes erasing, programming and verifying the target copy and reports the result. -/
  | updateDone (ok : Bool) (verify : List Bool)
  /-- R592: A keyed write to MGT_RB_CMD raises the fuse rollback level, or is refused. -/
  | rbCmd (v : Nat) (readA readB : Bool)
  /-- R599: MGT_DBG_CMD CHALLENGE draws a new nonce. -/
  | dbgChallenge
  /-- R600: MGT_DBG_CMD UNLOCK verifies a token and starts the erase, or refuses it. -/
  | dbgUnlock
  /-- R604: MGT_DBG_CMD NOP does nothing. -/
  | dbgNop
  /-- R602: The erase sequence ends and the debug port opens. -/
  | debugEraseDone (fails : List Nat) (verify : List Bool)
  /-- R599: A nonce expires 60 s after it was drawn. -/
  | nonceExpiry
  /-- R598: The TAP enters Test-Logic-Reset and selects IDCODE. -/
  | tapTestLogicReset
  /-- R598: EXTEST drives the boundary register, but only while CRST_N is asserted. -/
  | tapExtest (h v : Nat)
  /-- R598: IDCODE selects the identification register. -/
  | tapIdcode (h : Nat)
  /-- R598: SAMPLE/PRELOAD samples or preloads the boundary register. -/
  | tapSamplePreload (h balls v : Nat)
  /-- R598: CLAMP holds the boundary outputs and selects bypass. -/
  | tapClamp (h : Nat)
  /-- R598: HIGHZ releases the outputs and selects bypass. -/
  | tapHighz (h : Nat)
  /-- R598: DIETEST sets the bit that starts the half stand-alone at cold reset. -/
  | tapDietest (h : Nat) (b : Bool)
  /-- R600: DBG_UNLOCK shows the nonce on capture and submits a token on Update-DR. -/
  | tapDbgUnlock (capture : Bool) (token : Option Nat)
  /-- R601: DBG_ACCESS selects the 82-bit access register. -/
  | tapDbgAccess
  /-- R598: BYPASS, or an unlisted code, selects the bypass register. -/
  | tapBypass (h : Nat)
  /-- R601: DBG_ACCESS READ32 reads a DA as a physical function would. -/
  | dbgRead32 (da : Nat)
  /-- R601: DBG_ACCESS WRITE32 writes a DA as a physical function would. -/
  | dbgWrite32 (da v : Nat)
  /-- R601: DBG_ACCESS NOP does nothing. -/
  | dbgAccessNop
  /-- R387: The pause time in quanta that a received PFC frame set for PFC_PRIO runs out, and the port sends that priority again. -/
  | pfcPauseExpiry (p : Nat)
  /-- R571: A PLL that lost lock with its reference present relocks within 50 µs, and its domain leaves holdover for RUN. -/
  | pllLockRegained (n : Nat)
  /-- R330: The answer that a receiving core is not ENABLED, or runs another tenant, reaches the sender, and the message leaves the send queue as failed. -/
  | msgFailReply (c i : Nat)
  /-- R3: An MCTP, PLDM or SPDM request for a command that the chapter does not list is answered with the error response its standard defines. -/
  | unsupportedRequest (proto : Nat)
  /-- R574: After CRST_N is released with neither reference present, a reference becomes present, and the AUX PLLs lock and the boot begins. -/
  | referenceAppears (r : Nat)
  /-- R558: A cold boot held at stage CLOCKS after a thermal shutdown goes on once every governing temperature is 15 K below its shutdown threshold, and THERMTRIP_N is released. -/
  | coldBootContinue
  deriving DecidableEq, Repr

end Sys2Proof
end

