-- ==== Sys2Proof/Decode.lean ====
section
/-! DEFINITION. What a word spells. No row of the command table has bits: commands come as events and register accesses, and
only the writes of the register rows carry encoded fields, which Machine/Bus.lean reads. -/
namespace Sys2Proof

/-- The command that a word of `nbits` bits spells by the table: none, for every word. -/
def decodeTableWord (_nbits _w : Nat) : Option Instr := none

end Sys2Proof
end

