-- ==== Sys2Proof/Config.lean ====
section
/-! DEFINITION. What an implementation fixes and the spec leaves open: constants without a body. -/
namespace Sys2Proof

/-- A value the spec leaves open: of width `w`, the `n`th that the device draws. -/
opaque Config.freeValue (w : Nat) (n : Nat) : BitVec w

/-- The FP32 result of special function `fn` of R171 at the FP32 code `u`, where it is neither special nor exact:
deterministic (R172), known only to the bound of R171. -/
opaque Config.specialFn (fn u : Nat) : BitVec 32

end Sys2Proof
end

