-- ==== Sys2Proof/Machine/FMap.lean ====
section
/-! DEFINITION. Sparse maps as plain data: a list of (key, value) pairs with keys strictly rising. A key that is not
listed reads as the default its owner gives. Every register bank, memory and table of the model is one of these. -/
namespace Sys2Proof.Machine

/-- A sparse map from numbers. -/
abbrev FMap (α : Type) := List (Nat × α)

/-- The entry at `k`, if one is listed. -/
def FMap.find {α : Type} : FMap α → Nat → Option α
  | [], _ => none
  | (k', v) :: t, k => if k' = k then some v else FMap.find t k

/-- The entry at `k`, or `d` where none is listed. -/
def FMap.get {α : Type} (m : FMap α) (d : α) (k : Nat) : α := (FMap.find m k).getD d

/-- List `v` at `k`, keeping keys in rising order. -/
def FMap.set {α : Type} : FMap α → Nat → α → FMap α
  | [], k, v => [(k, v)]
  | (k', v') :: t, k, v =>
    if k < k' then (k, v) :: (k', v') :: t
    else if k' = k then (k, v) :: t
    else (k', v') :: FMap.set t k v

/-- Remove the entry at `k`. -/
def FMap.del {α : Type} (m : FMap α) (k : Nat) : FMap α := m.filter (fun p => p.1 != k)

/-- List `v` at `k`, or remove the entry when `v` is what an unlisted key reads as (the canonical form of memories). -/
def FMap.put {α : Type} [DecidableEq α] (m : FMap α) (d : α) (k : Nat) (v : α) : FMap α :=
  if v = d then FMap.del m k else FMap.set m k v

/-- Replace the value at `k` by `f` of it, reading `d` where none is listed. -/
def FMap.upd {α : Type} (m : FMap α) (d : α) (k : Nat) (f : α → α) : FMap α := FMap.set m k (f (FMap.get m d k))

/-- Remove every entry whose key satisfies `p`. -/
def FMap.drop {α : Type} (m : FMap α) (p : Nat → Bool) : FMap α := m.filter (fun e => !p e.1)

/-- Keys strictly rising. -/
def FMap.sorted {α : Type} : FMap α → Bool
  | [] => true
  | [_] => true
  | (a, _) :: (b, w) :: t => decide (a < b) && FMap.sorted ((b, w) :: t)

/-- Replace the element at position `n` of a list (unchanged when there is none). -/
def setNth {α : Type} : List α → Nat → α → List α
  | [], _, _ => []
  | _ :: t, 0, v => v :: t
  | h :: t, n + 1, v => h :: setNth t n v

/-- Remove the element at position `n` of a list. -/
def delNth {α : Type} : List α → Nat → List α
  | [], _ => []
  | _ :: t, 0 => t
  | h :: t, n + 1 => h :: delNth t n

/-- `f 0, f 1, …, f (n-1)` applied in turn. -/
def iter {α : Type} : Nat → (Nat → α → α) → α → α
  | 0, _, a => a
  | n + 1, f, a => f n (iter n f a)

end Sys2Proof.Machine
end

