-- ==== Sys2Proof/Machine/Regs.lean ====
section
/-! DEFINITION. The register map of R38 and the register tables of every chapter: one `Reg` per register name,
one `Fld` per named field, in the spec's own names, with the field's bits, access code, reset value and legal range.
Fields the tables leave unnamed are reserved: they read zero and ignore writes (R13).
A field's reset value is the Reset column's; F and X entries hold the values of assumptions 1 and 2, I entries the
image default of R517 and R564 (log entry 3). -/
namespace Sys2Proof.Machine

/-- R51. -/
def DARN_HDR : Reg := ⟨.dev, 0x50000, 1, 0x0, 1, 0x0, false, false⟩
def DARN_HDR.FORMAT : Fld := ⟨DARN_HDR, 31, 24, .ro, 1, none, false⟩
def DARN_HDR.MAP_GEN : Fld := ⟨DARN_HDR, 23, 0, .ro, 0, none, false⟩
/-- R52. -/
def DARN_SUM : Reg := ⟨.dev, 0x50004, 2, 0x4, 1, 0x0, false, false⟩
def DARN_SUM.CLUSTERS : Fld := ⟨DARN_SUM, 23, 16, .ro, 0x80, none, false⟩
def DARN_SUM.CORES : Fld := ⟨DARN_SUM, 11, 0, .ro, 0x800, none, false⟩
/-- R53. -/
def DARN_STAT : Reg := ⟨.dev, 0x5000C, 1, 0x0, 1, 0x0, false, false⟩
def DARN_STAT.REPLACE : Fld := ⟨DARN_STAT, 31, 31, .ro, 0, none, false⟩
def DARN_STAT.BELOW_MIN : Fld := ⟨DARN_STAT, 30, 30, .ro, 0, none, false⟩
def DARN_STAT.LOG_FULL : Fld := ⟨DARN_STAT, 29, 29, .ro, 0, none, false⟩
def DARN_STAT.CMD_BUSY : Fld := ⟨DARN_STAT, 28, 28, .ro, 0, none, false⟩
def DARN_STAT.COMMIT_BUSY : Fld := ⟨DARN_STAT, 27, 27, .ro, 0, none, false⟩
def DARN_STAT.CMD_LOST : Fld := ⟨DARN_STAT, 26, 26, .w1c, 0, none, false⟩
def DARN_STAT.QUEUE_OVF : Fld := ⟨DARN_STAT, 25, 25, .w1c, 0, none, false⟩
def DARN_STAT.LOG_USED : Fld := ⟨DARN_STAT, 24, 16, .ro, 0, none, false⟩
def DARN_STAT.PENDING : Fld := ⟨DARN_STAT, 6, 0, .ro, 0, none, false⟩
/-- R54. -/
def DARN_CL_STATE : Reg := ⟨.dev, 0x52000, 256, 0x20, 1, 0x0, false, false⟩
def DARN_CL_STATE.STATE : Fld := ⟨DARN_CL_STATE, 31, 30, .ro, 0, none, false⟩
def DARN_CL_STATE.CORES : Fld := ⟨DARN_CL_STATE, 29, 25, .ro, 0x10, none, false⟩
def DARN_CL_STATE.BELOW_MIN : Fld := ⟨DARN_CL_STATE, 24, 24, .ro, 0, none, false⟩
def DARN_CL_STATE.LINK_OK : Fld := ⟨DARN_CL_STATE, 21, 16, .ro, 0, none, false⟩
def DARN_CL_STATE.LINK_PEND : Fld := ⟨DARN_CL_STATE, 13, 8, .ro, 0, none, false⟩
def DARN_CL_STATE.WINGS_ACTIVE : Fld := ⟨DARN_CL_STATE, 1, 1, .ro, 0, none, false⟩
def DARN_CL_STATE.ROUTING : Fld := ⟨DARN_CL_STATE, 0, 0, .ro, 1, none, false⟩
/-- R54. -/
def DARN_CL_CORES : Reg := ⟨.dev, 0x52004, 256, 0x20, 1, 0x0, false, false⟩
def DARN_CL_CORES.RETIRED : Fld := ⟨DARN_CL_CORES, 31, 16, .ro, 0, none, false⟩
def DARN_CL_CORES.ENABLED : Fld := ⟨DARN_CL_CORES, 15, 0, .ro, 0xffff, none, false⟩
/-- R54. -/
def DARN_CL_CKCOL0 : Reg := ⟨.dev, 0x52008, 256, 0x20, 1, 0x0, false, false⟩
def DARN_CL_CKCOL0.CKCOL : Fld := ⟨DARN_CL_CKCOL0, 31, 0, .ro, 0xffffffff, none, false⟩
/-- R54. -/
def DARN_CL_CKCOL1 : Reg := ⟨.dev, 0x5200C, 256, 0x20, 1, 0x0, false, false⟩
def DARN_CL_CKCOL1.CKCOL : Fld := ⟨DARN_CL_CKCOL1, 31, 0, .ro, 0xffffffff, none, false⟩
/-- R54. -/
def DARN_CL_ORPHAN : Reg := ⟨.dev, 0x52010, 256, 0x20, 1, 0x0, false, false⟩
def DARN_CL_ORPHAN.LOST : Fld := ⟨DARN_CL_ORPHAN, 31, 16, .ro, 0, none, false⟩
def DARN_CL_ORPHAN.ORPHAN : Fld := ⟨DARN_CL_ORPHAN, 15, 0, .ro, 0, none, false⟩
/-- R55. -/
def DARN_CORE_STATE : Reg := ⟨.dev, 0x54000, 4096, 0x8, 1, 0x0, false, false⟩
def DARN_CORE_STATE.STATE : Fld := ⟨DARN_CORE_STATE, 31, 30, .ro, 0, none, false⟩
def DARN_CORE_STATE.BOND_USED : Fld := ⟨DARN_CORE_STATE, 29, 24, .ro, 0, none, false⟩
def DARN_CORE_STATE.CKCOL : Fld := ⟨DARN_CORE_STATE, 23, 20, .ro, 0xf, none, false⟩
def DARN_CORE_STATE.ROW_USED : Fld := ⟨DARN_CORE_STATE, 19, 16, .ro, 0, none, false⟩
def DARN_CORE_STATE.COL_USED : Fld := ⟨DARN_CORE_STATE, 15, 12, .ro, 0, none, false⟩
def DARN_CORE_STATE.CAUSE : Fld := ⟨DARN_CORE_STATE, 11, 8, .ro, 0, none, false⟩
def DARN_CORE_STATE.GOOD_GROUPS : Fld := ⟨DARN_CORE_STATE, 5, 0, .ro, 0x24, none, false⟩
/-- R55. -/
def DARN_CORE_SPARE : Reg := ⟨.dev, 0x54004, 4096, 0x8, 1, 0x0, false, false⟩
def DARN_CORE_SPARE.PLAIN_MIN : Fld := ⟨DARN_CORE_SPARE, 31, 27, .ro, 0x10, none, false⟩
def DARN_CORE_SPARE.PIM_MIN : Fld := ⟨DARN_CORE_SPARE, 26, 22, .ro, 0x10, none, false⟩
def DARN_CORE_SPARE.REMAP_HELD : Fld := ⟨DARN_CORE_SPARE, 21, 16, .ro, 0, none, false⟩
def DARN_CORE_SPARE.ROWS_REPAIRED : Fld := ⟨DARN_CORE_SPARE, 15, 0, .ro, 0, none, false⟩
/-- R59. -/
def DARN_CMD_ARG : Reg := ⟨.dev, 0x50100, 1, 0x0, 1, 0x0, false, false⟩
def DARN_CMD_ARG.INDEX : Fld := ⟨DARN_CMD_ARG, 3, 0, .rw, 0, none, false⟩
/-- R59. -/
def DARN_CMD : Reg := ⟨.dev, 0x50104, 1, 0x0, 1, 0x0, false, false⟩
def DARN_CMD.OP : Fld := ⟨DARN_CMD, 31, 29, .wo, 0, none, false⟩
def DARN_CMD.UNIT : Fld := ⟨DARN_CMD, 23, 0, .wo, 0, none, false⟩
/-- R59. -/
def DARN_CMD_RESULT : Reg := ⟨.dev, 0x50108, 1, 0x0, 1, 0x0, false, false⟩
def DARN_CMD_RESULT.CODE : Fld := ⟨DARN_CMD_RESULT, 31, 28, .ro, 0, none, false⟩
def DARN_CMD_RESULT.UNIT : Fld := ⟨DARN_CMD_RESULT, 23, 0, .ro, 0, none, false⟩
/-- R76. -/
def CORE_SEQ_CTRL : Reg := ⟨.core, 0x0, 1, 0x0, 1, 0x0, false, false⟩
def CORE_SEQ_CTRL.START : Fld := ⟨CORE_SEQ_CTRL, 31, 31, .wo, 0, none, false⟩
def CORE_SEQ_CTRL.HALT_REQ : Fld := ⟨CORE_SEQ_CTRL, 30, 30, .wo, 0, none, false⟩
def CORE_SEQ_CTRL.RESUME : Fld := ⟨CORE_SEQ_CTRL, 29, 29, .wo, 0, none, false⟩
def CORE_SEQ_CTRL.FP8_SAT : Fld := ⟨CORE_SEQ_CTRL, 0, 0, .rw, 1, none, false⟩
/-- R76. -/
def CORE_SEQ_STAT : Reg := ⟨.core, 0x4, 1, 0x0, 1, 0x0, false, false⟩
def CORE_SEQ_STAT.STATE : Fld := ⟨CORE_SEQ_STAT, 31, 30, .ro, 0, none, false⟩
def CORE_SEQ_STAT.SLEEPING : Fld := ⟨CORE_SEQ_STAT, 29, 29, .ro, 0, none, false⟩
def CORE_SEQ_STAT.IN_TRAP : Fld := ⟨CORE_SEQ_STAT, 28, 28, .ro, 0, none, false⟩
def CORE_SEQ_STAT.WITHDRAWN : Fld := ⟨CORE_SEQ_STAT, 27, 27, .ro, 0, none, false⟩
def CORE_SEQ_STAT.FP8_SAT : Fld := ⟨CORE_SEQ_STAT, 26, 26, .ro, 1, none, false⟩
def CORE_SEQ_STAT.CTRL_LOST : Fld := ⟨CORE_SEQ_STAT, 25, 25, .w1c, 0, none, false⟩
def CORE_SEQ_STAT.HALT_CAUSE : Fld := ⟨CORE_SEQ_STAT, 23, 16, .ro, 0, none, false⟩
def CORE_SEQ_STAT.LOOP_DEPTH : Fld := ⟨CORE_SEQ_STAT, 2, 0, .ro, 0, none, false⟩
/-- R76. -/
def CORE_SEQ_LOAD_LO : Reg := ⟨.core, 0x8, 1, 0x0, 1, 0x0, false, false⟩
def CORE_SEQ_LOAD_LO.DA_LO : Fld := ⟨CORE_SEQ_LOAD_LO, 31, 3, .rw, 0, none, false⟩
/-- R76. -/
def CORE_SEQ_LOAD_HI : Reg := ⟨.core, 0xC, 1, 0x0, 1, 0x0, false, false⟩
def CORE_SEQ_LOAD_HI.DA_HI : Fld := ⟨CORE_SEQ_LOAD_HI, 15, 0, .rw, 0, none, false⟩
/-- R76. -/
def CORE_SEQ_LOAD_LEN : Reg := ⟨.core, 0x10, 1, 0x0, 1, 0x0, false, false⟩
def CORE_SEQ_LOAD_LEN.COUNT : Fld := ⟨CORE_SEQ_LOAD_LEN, 11, 0, .rw, 1, some (1, 2048), false⟩
/-- R76. -/
def CORE_SEQ_ENTRY : Reg := ⟨.core, 0x14, 1, 0x0, 1, 0x0, false, false⟩
def CORE_SEQ_ENTRY.INDEX : Fld := ⟨CORE_SEQ_ENTRY, 10, 0, .rw, 0, none, false⟩
/-- R76. -/
def CORE_SEQ_TVEC : Reg := ⟨.core, 0x18, 1, 0x0, 1, 0x0, false, false⟩
def CORE_SEQ_TVEC.VALID : Fld := ⟨CORE_SEQ_TVEC, 31, 31, .rw, 0, none, false⟩
def CORE_SEQ_TVEC.INDEX : Fld := ⟨CORE_SEQ_TVEC, 10, 0, .rw, 0, none, false⟩
/-- R76. -/
def CORE_SEQ_TENANT : Reg := ⟨.core, 0x1C, 1, 0x0, 1, 0x0, false, false⟩
def CORE_SEQ_TENANT.TENANT : Fld := ⟨CORE_SEQ_TENANT, 11, 0, .rw, 0, none, false⟩
/-- R76. -/
def CORE_SEQ_ARGn : Reg := ⟨.core, 0x20, 4, 0x8, 1, 0x0, true, false⟩
def CORE_SEQ_ARGn.VALUE : Fld := ⟨CORE_SEQ_ARGn, 63, 0, .rw, 0, none, false⟩
/-- R76. -/
def CORE_SEQ_PC : Reg := ⟨.core, 0x40, 1, 0x0, 1, 0x0, false, false⟩
def CORE_SEQ_PC.PC : Fld := ⟨CORE_SEQ_PC, 10, 0, .ro, 0, none, false⟩
/-- R76. -/
def CORE_SEQ_TCAUSE : Reg := ⟨.core, 0x44, 1, 0x0, 1, 0x0, false, false⟩
def CORE_SEQ_TCAUSE.IMPRECISE : Fld := ⟨CORE_SEQ_TCAUSE, 31, 31, .ro, 0, none, false⟩
def CORE_SEQ_TCAUSE.CAUSE : Fld := ⟨CORE_SEQ_TCAUSE, 4, 0, .ro, 0, none, false⟩
/-- R76. -/
def CORE_SEQ_TPC : Reg := ⟨.core, 0x48, 1, 0x0, 1, 0x0, false, false⟩
def CORE_SEQ_TPC.TPC : Fld := ⟨CORE_SEQ_TPC, 10, 0, .ro, 0, none, false⟩
/-- R76. -/
def CORE_SEQ_EXIT : Reg := ⟨.core, 0x4C, 1, 0x0, 1, 0x0, false, false⟩
def CORE_SEQ_EXIT.CODE : Fld := ⟨CORE_SEQ_EXIT, 15, 0, .ro, 0, none, false⟩
/-- R76. -/
def CORE_SEQ_TVAL : Reg := ⟨.core, 0x50, 1, 0x0, 1, 0x0, true, false⟩
def CORE_SEQ_TVAL.TVAL : Fld := ⟨CORE_SEQ_TVAL, 63, 0, .ro, 0, none, false⟩
/-- R76. -/
def CORE_SEQ_CYCLES : Reg := ⟨.core, 0x58, 1, 0x0, 1, 0x0, true, false⟩
def CORE_SEQ_CYCLES.CYCLES : Fld := ⟨CORE_SEQ_CYCLES, 63, 0, .ro, 0, none, false⟩
/-- R76. -/
def CORE_SEQ_RETIRED : Reg := ⟨.core, 0x60, 1, 0x0, 1, 0x0, true, false⟩
def CORE_SEQ_RETIRED.RETIRED : Fld := ⟨CORE_SEQ_RETIRED, 63, 0, .ro, 0, none, false⟩
/-- R136. -/
def CORE_MNG_CTRL : Reg := ⟨.core, 0x2800, 1, 0x0, 1, 0x0, false, false⟩
def CORE_MNG_CTRL.ENTRY_FMT : Fld := ⟨CORE_MNG_CTRL, 0, 0, .rw, 0, none, false⟩
/-- R136. -/
def CORE_MNG_STAT : Reg := ⟨.core, 0x2804, 1, 0x0, 1, 0x0, false, false⟩
def CORE_MNG_STAT.BUSY : Fld := ⟨CORE_MNG_STAT, 31, 31, .ro, 0, none, false⟩
def CORE_MNG_STAT.UE_SEEN : Fld := ⟨CORE_MNG_STAT, 30, 30, .w1c, 0, none, false⟩
def CORE_MNG_STAT.NAN_SCALE_SEEN : Fld := ⟨CORE_MNG_STAT, 29, 29, .w1c, 0, none, false⟩
def CORE_MNG_STAT.RSVD_SEEN : Fld := ⟨CORE_MNG_STAT, 28, 28, .w1c, 0, none, false⟩
/-- R136. -/
def CORE_MNG_BLOCKS : Reg := ⟨.core, 0x2808, 1, 0x0, 1, 0x0, true, false⟩
def CORE_MNG_BLOCKS.BLOCKS : Fld := ⟨CORE_MNG_BLOCKS, 63, 0, .ro, 0, none, false⟩
/-- R136. -/
def CORE_MNG_UE_CNT : Reg := ⟨.core, 0x2810, 1, 0x0, 1, 0x0, false, false⟩
def CORE_MNG_UE_CNT.COUNT : Fld := ⟨CORE_MNG_UE_CNT, 15, 0, .rc, 0, none, false⟩
/-- R163. -/
def CORE_ARR_CTRL : Reg := ⟨.core, 0x1800, 1, 0x0, 1, 0x0, false, false⟩
def CORE_ARR_CTRL.CK_EN : Fld := ⟨CORE_ARR_CTRL, 31, 28, .rw, 0xf, none, false⟩
def CORE_ARR_CTRL.CK_TRAP : Fld := ⟨CORE_ARR_CTRL, 27, 27, .rw, 1, none, false⟩
def CORE_ARR_CTRL.TOL : Fld := ⟨CORE_ARR_CTRL, 20, 16, .rw, 0xa, some (4, 16), false⟩
/-- R163. -/
def CORE_ARR_STAT : Reg := ⟨.core, 0x1804, 1, 0x0, 1, 0x0, false, false⟩
def CORE_ARR_STAT.BUSY : Fld := ⟨CORE_ARR_STAT, 31, 31, .ro, 0, none, false⟩
def CORE_ARR_STAT.QUEUED : Fld := ⟨CORE_ARR_STAT, 30, 28, .ro, 0, none, false⟩
def CORE_ARR_STAT.CKCOL : Fld := ⟨CORE_ARR_STAT, 27, 24, .ro, 0xf, none, false⟩
def CORE_ARR_STAT.MISMATCH_SEEN : Fld := ⟨CORE_ARR_STAT, 23, 20, .w1c, 0, none, false⟩
def CORE_ARR_STAT.SKIP_SEEN : Fld := ⟨CORE_ARR_STAT, 19, 19, .w1c, 0, none, false⟩
def CORE_ARR_STAT.UE_SEEN : Fld := ⟨CORE_ARR_STAT, 18, 18, .w1c, 0, none, false⟩
/-- R163. -/
def CORE_ARR_CKFIRST : Reg := ⟨.core, 0x1808, 1, 0x0, 1, 0x0, false, false⟩
def CORE_ARR_CKFIRST.ARRAY : Fld := ⟨CORE_ARR_CKFIRST, 31, 30, .ro, 0, none, false⟩
def CORE_ARR_CKFIRST.STEP : Fld := ⟨CORE_ARR_CKFIRST, 15, 0, .ro, 0, none, false⟩
/-- R163. -/
def CORE_ARR_CKPC : Reg := ⟨.core, 0x180C, 1, 0x0, 1, 0x0, false, false⟩
def CORE_ARR_CKPC.INDEX : Fld := ⟨CORE_ARR_CKPC, 10, 0, .ro, 0, none, false⟩
/-- R163. -/
def CORE_ARR_CKCNT : Reg := ⟨.core, 0x1810, 1, 0x0, 1, 0x0, false, false⟩
def CORE_ARR_CKCNT.MISMATCH : Fld := ⟨CORE_ARR_CKCNT, 31, 16, .rc, 0, none, false⟩
def CORE_ARR_CKCNT.SKIPPED : Fld := ⟨CORE_ARR_CKCNT, 15, 0, .rc, 0, none, false⟩
/-- R163. -/
def CORE_ARR_CKVEC : Reg := ⟨.core, 0x1814, 1, 0x0, 1, 0x0, false, false⟩
def CORE_ARR_CKVEC.VEC : Fld := ⟨CORE_ARR_CKVEC, 15, 0, .ro, 0, none, false⟩
/-- R163. -/
def CORE_ARR_STEPS : Reg := ⟨.core, 0x1818, 1, 0x0, 1, 0x0, true, false⟩
def CORE_ARR_STEPS.STEPS : Fld := ⟨CORE_ARR_STEPS, 63, 0, .ro, 0, none, false⟩
/-- R163. -/
def CORE_ARR_VECS : Reg := ⟨.core, 0x1820, 1, 0x0, 1, 0x0, true, false⟩
def CORE_ARR_VECS.VECS : Fld := ⟨CORE_ARR_VECS, 63, 0, .ro, 0, none, false⟩
/-- R163. -/
def CORE_ARR_CHECKED : Reg := ⟨.core, 0x1828, 1, 0x0, 1, 0x0, true, false⟩
def CORE_ARR_CHECKED.CHECKED : Fld := ⟨CORE_ARR_CHECKED, 63, 0, .ro, 0, none, false⟩
/-- R163. -/
def CORE_ARR_FRZ_ACT : Reg := ⟨.core, 0x1830, 1, 0x0, 1, 0x0, true, false⟩
def CORE_ARR_FRZ_ACT.CYCLES : Fld := ⟨CORE_ARR_FRZ_ACT, 63, 0, .ro, 0, none, false⟩
/-- R163. -/
def CORE_ARR_FRZ_WGT : Reg := ⟨.core, 0x1838, 1, 0x0, 1, 0x0, true, false⟩
def CORE_ARR_FRZ_WGT.CYCLES : Fld := ⟨CORE_ARR_FRZ_WGT, 63, 0, .ro, 0, none, false⟩
/-- R163. -/
def CORE_ARR_FRZ_DRN : Reg := ⟨.core, 0x1840, 1, 0x0, 1, 0x0, true, false⟩
def CORE_ARR_FRZ_DRN.CYCLES : Fld := ⟨CORE_ARR_FRZ_DRN, 63, 0, .ro, 0, none, false⟩
/-- R186. -/
def CORE_VEC_CTRL : Reg := ⟨.core, 0x2000, 1, 0x0, 1, 0x0, false, false⟩
def CORE_VEC_CTRL.OVERLAP : Fld := ⟨CORE_VEC_CTRL, 0, 0, .rw, 1, none, false⟩
/-- R186. -/
def CORE_VEC_STAT : Reg := ⟨.core, 0x2004, 1, 0x0, 1, 0x0, false, false⟩
def CORE_VEC_STAT.BUSY : Fld := ⟨CORE_VEC_STAT, 31, 31, .ro, 0, none, false⟩
def CORE_VEC_STAT.QUEUED : Fld := ⟨CORE_VEC_STAT, 30, 27, .ro, 0, none, false⟩
def CORE_VEC_STAT.UE_SEEN : Fld := ⟨CORE_VEC_STAT, 26, 26, .w1c, 0, none, false⟩
/-- R186. -/
def CORE_VEC_UE_CNT : Reg := ⟨.core, 0x2008, 1, 0x0, 1, 0x0, false, false⟩
def CORE_VEC_UE_CNT.COUNT : Fld := ⟨CORE_VEC_UE_CNT, 15, 0, .rc, 0, none, false⟩
/-- R186. -/
def CORE_VEC_INSTR : Reg := ⟨.core, 0x2010, 1, 0x0, 1, 0x0, true, false⟩
def CORE_VEC_INSTR.INSTR : Fld := ⟨CORE_VEC_INSTR, 63, 0, .ro, 0, none, false⟩
/-- R186. -/
def CORE_VEC_VALUES : Reg := ⟨.core, 0x2018, 1, 0x0, 1, 0x0, true, false⟩
def CORE_VEC_VALUES.VALUES : Fld := ⟨CORE_VEC_VALUES, 63, 0, .ro, 0, none, false⟩
/-- R186. -/
def CORE_VEC_BUSY_CYC : Reg := ⟨.core, 0x2020, 1, 0x0, 1, 0x0, true, false⟩
def CORE_VEC_BUSY_CYC.CYCLES : Fld := ⟨CORE_VEC_BUSY_CYC, 63, 0, .ro, 0, none, false⟩
/-- R186. -/
def CORE_VEC_STALL_BANK : Reg := ⟨.core, 0x2028, 1, 0x0, 1, 0x0, true, false⟩
def CORE_VEC_STALL_BANK.CYCLES : Fld := ⟨CORE_VEC_STALL_BANK, 63, 0, .ro, 0, none, false⟩
/-- R186. -/
def CORE_VEC_STALL_ACC : Reg := ⟨.core, 0x2030, 1, 0x0, 1, 0x0, true, false⟩
def CORE_VEC_STALL_ACC.CYCLES : Fld := ⟨CORE_VEC_STALL_ACC, 63, 0, .ro, 0, none, false⟩
/-- R186. -/
def CORE_VEC_STALL_HAZ : Reg := ⟨.core, 0x2038, 1, 0x0, 1, 0x0, true, false⟩
def CORE_VEC_STALL_HAZ.CYCLES : Fld := ⟨CORE_VEC_STALL_HAZ, 63, 0, .ro, 0, none, false⟩
/-- R243. -/
def CORE_SLC_PIM_CTRL : Reg := ⟨.core, 0x3600, 1, 0x0, 1, 0x0, false, false⟩
def CORE_SLC_PIM_CTRL.WIN_BANKS : Fld := ⟨CORE_SLC_PIM_CTRL, 10, 8, .rw, 4, some (1, 4), false⟩
def CORE_SLC_PIM_CTRL.YIELD : Fld := ⟨CORE_SLC_PIM_CTRL, 4, 0, .rw, 0x10, some (4, 31), false⟩
/-- R243. -/
def CORE_SLC_PIM_STAT : Reg := ⟨.core, 0x3604, 1, 0x0, 1, 0x0, false, false⟩
def CORE_SLC_PIM_STAT.BUSY : Fld := ⟨CORE_SLC_PIM_STAT, 31, 31, .ro, 0, none, false⟩
def CORE_SLC_PIM_STAT.QUEUED : Fld := ⟨CORE_SLC_PIM_STAT, 30, 26, .ro, 0, none, false⟩
def CORE_SLC_PIM_STAT.GOV_BANKS : Fld := ⟨CORE_SLC_PIM_STAT, 25, 23, .ro, 4, none, false⟩
def CORE_SLC_PIM_STAT.L6_ACTIVE : Fld := ⟨CORE_SLC_PIM_STAT, 22, 20, .ro, 0, none, false⟩
def CORE_SLC_PIM_STAT.L7_ACTIVE : Fld := ⟨CORE_SLC_PIM_STAT, 19, 17, .ro, 0, none, false⟩
def CORE_SLC_PIM_STAT.UE_SEEN : Fld := ⟨CORE_SLC_PIM_STAT, 16, 16, .w1c, 0, none, false⟩
def CORE_SLC_PIM_STAT.POISON_SEEN : Fld := ⟨CORE_SLC_PIM_STAT, 15, 15, .w1c, 0, none, false⟩
def CORE_SLC_PIM_STAT.ADDR_SEEN : Fld := ⟨CORE_SLC_PIM_STAT, 14, 14, .w1c, 0, none, false⟩
def CORE_SLC_PIM_STAT.REG_UE_SEEN : Fld := ⟨CORE_SLC_PIM_STAT, 13, 13, .w1c, 0, none, false⟩
def CORE_SLC_PIM_STAT.TENANT_CLR : Fld := ⟨CORE_SLC_PIM_STAT, 12, 12, .w1c, 0, none, false⟩
/-- R243. -/
def CORE_SLC_PIM_UE_CNT : Reg := ⟨.core, 0x3608, 1, 0x0, 1, 0x0, false, false⟩
def CORE_SLC_PIM_UE_CNT.COUNT : Fld := ⟨CORE_SLC_PIM_UE_CNT, 15, 0, .rc, 0, none, false⟩
/-- R243. -/
def CORE_SLC_PIM_CMDS : Reg := ⟨.core, 0x3610, 1, 0x0, 1, 0x0, true, false⟩
def CORE_SLC_PIM_CMDS.CMDS : Fld := ⟨CORE_SLC_PIM_CMDS, 63, 0, .ro, 0, none, false⟩
/-- R243. -/
def CORE_SLC_PIM_WORDS : Reg := ⟨.core, 0x3618, 1, 0x0, 1, 0x0, true, false⟩
def CORE_SLC_PIM_WORDS.WORDS : Fld := ⟨CORE_SLC_PIM_WORDS, 63, 0, .ro, 0, none, false⟩
/-- R243. -/
def CORE_SLC_PIM_WIN_WAIT : Reg := ⟨.core, 0x3620, 1, 0x0, 1, 0x0, true, false⟩
def CORE_SLC_PIM_WIN_WAIT.CYCLES : Fld := ⟨CORE_SLC_PIM_WIN_WAIT, 63, 0, .ro, 0, none, false⟩
/-- R243. -/
def CORE_SLC_PIM_YIELD_CYC : Reg := ⟨.core, 0x3628, 1, 0x0, 1, 0x0, true, false⟩
def CORE_SLC_PIM_YIELD_CYC.CYCLES : Fld := ⟨CORE_SLC_PIM_YIELD_CYC, 63, 0, .ro, 0, none, false⟩
/-- R271. -/
def CL_WINGS_STAT : Reg := ⟨.cluster, 0x4000, 1, 0x0, 1, 0x0, false, false⟩
def CL_WINGS_STAT.ORPHAN : Fld := ⟨CL_WINGS_STAT, 31, 16, .ro, 0, none, false⟩
def CL_WINGS_STAT.ACTIVE : Fld := ⟨CL_WINGS_STAT, 0, 0, .ro, 0, none, false⟩
/-- R271. -/
def CL_WINGS_BYTES : Reg := ⟨.cluster, 0x4008, 1, 0x0, 1, 0x0, true, false⟩
def CL_WINGS_BYTES.BYTES : Fld := ⟨CL_WINGS_BYTES, 63, 0, .ro, 0, none, false⟩
/-- R271. -/
def CL_WINGS_WAIT : Reg := ⟨.cluster, 0x4010, 1, 0x0, 1, 0x0, true, false⟩
def CL_WINGS_WAIT.CYCLES : Fld := ⟨CL_WINGS_WAIT, 63, 0, .ro, 0, none, false⟩
/-- R275. -/
def CL_ADD_STAT : Reg := ⟨.cluster, 0x5000, 1, 0x0, 1, 0x0, false, false⟩
def CL_ADD_STAT.UE_SEEN : Fld := ⟨CL_ADD_STAT, 31, 16, .w1c, 0, none, false⟩
def CL_ADD_STAT.BUSY : Fld := ⟨CL_ADD_STAT, 15, 0, .ro, 0, none, false⟩
/-- R275. -/
def CL_ADD_OPS : Reg := ⟨.cluster, 0x5008, 1, 0x0, 1, 0x0, true, false⟩
def CL_ADD_OPS.OPS : Fld := ⟨CL_ADD_OPS, 63, 0, .ro, 0, none, false⟩
/-- R275. -/
def CL_ADD_POISON : Reg := ⟨.cluster, 0x5010, 1, 0x0, 1, 0x0, false, false⟩
def CL_ADD_POISON.COUNT : Fld := ⟨CL_ADD_POISON, 15, 0, .rc, 0, none, false⟩
/-- R278. -/
def CORE_SLC_STAT : Reg := ⟨.core, 0x3000, 1, 0x0, 1, 0x0, false, false⟩
def CORE_SLC_STAT.MODE : Fld := ⟨CORE_SLC_STAT, 31, 30, .ro, 0, none, false⟩
def CORE_SLC_STAT.GROUPS : Fld := ⟨CORE_SLC_STAT, 29, 24, .ro, 0x24, none, false⟩
def CORE_SLC_STAT.LANE_FIX : Fld := ⟨CORE_SLC_STAT, 23, 23, .w1c, 0, none, false⟩
def CORE_SLC_STAT.REMAP_FULL : Fld := ⟨CORE_SLC_STAT, 22, 22, .ro, 0, none, false⟩
def CORE_SLC_STAT.UE_SEEN : Fld := ⟨CORE_SLC_STAT, 21, 21, .w1c, 0, none, false⟩
def CORE_SLC_STAT.SENSOR_BAD : Fld := ⟨CORE_SLC_STAT, 20, 20, .ro, 0, none, false⟩
/-- R278. -/
def CORE_SLC_CTRL : Reg := ⟨.core, 0x3004, 1, 0x0, 1, 0x0, false, false⟩
def CORE_SLC_CTRL.LANE_LIMIT : Fld := ⟨CORE_SLC_CTRL, 23, 16, .rw, 0x10, some (1, 255), false⟩
def CORE_SLC_CTRL.ROW_LIMIT : Fld := ⟨CORE_SLC_CTRL, 11, 8, .rw, 4, some (1, 15), false⟩
def CORE_SLC_CTRL.RETRY : Fld := ⟨CORE_SLC_CTRL, 0, 0, .rw, 1, none, false⟩
/-- R278. -/
def CORE_SLC_LANE_WORST : Reg := ⟨.core, 0x3008, 1, 0x0, 1, 0x0, false, false⟩
def CORE_SLC_LANE_WORST.LANE : Fld := ⟨CORE_SLC_LANE_WORST, 26, 16, .ro, 0, none, false⟩
def CORE_SLC_LANE_WORST.COUNT : Fld := ⟨CORE_SLC_LANE_WORST, 7, 0, .ro, 0, none, false⟩
/-- R278. -/
def CORE_SLC_RD_BYTES : Reg := ⟨.core, 0x3010, 1, 0x0, 1, 0x0, true, false⟩
def CORE_SLC_RD_BYTES.BYTES : Fld := ⟨CORE_SLC_RD_BYTES, 63, 0, .ro, 0, none, false⟩
/-- R278. -/
def CORE_SLC_WR_BYTES : Reg := ⟨.core, 0x3018, 1, 0x0, 1, 0x0, true, false⟩
def CORE_SLC_WR_BYTES.BYTES : Fld := ⟨CORE_SLC_WR_BYTES, 63, 0, .ro, 0, none, false⟩
/-- R278. -/
def CORE_SLC_TEMP0 : Reg := ⟨.core, 0x3100, 1, 0x0, 1, 0x0, false, false⟩
def CORE_SLC_TEMP0.LAYERS : Fld := ⟨CORE_SLC_TEMP0, 31, 0, .ro, 0, none, false⟩
/-- R278. -/
def CORE_SLC_TEMP1 : Reg := ⟨.core, 0x3104, 1, 0x0, 1, 0x0, false, false⟩
def CORE_SLC_TEMP1.LAYERS : Fld := ⟨CORE_SLC_TEMP1, 31, 0, .ro, 0, none, false⟩
/-- R278. -/
def CORE_SLC_REFRATE : Reg := ⟨.core, 0x3108, 1, 0x0, 1, 0x0, false, false⟩
def CORE_SLC_REFRATE.RATE : Fld := ⟨CORE_SLC_REFRATE, 15, 0, .ro, 0xaaaa, none, false⟩
/-- R278. -/
def CORE_SLC_SCRUB : Reg := ⟨.core, 0x3200, 1, 0x0, 1, 0x0, false, false⟩
def CORE_SLC_SCRUB.EN : Fld := ⟨CORE_SLC_SCRUB, 31, 31, .rw, 1, none, false⟩
def CORE_SLC_SCRUB.PERIOD : Fld := ⟨CORE_SLC_SCRUB, 15, 8, .rw, 0x18, some (1, 168), false⟩
/-- R278. -/
def CORE_SLC_SCRUB_PASSES : Reg := ⟨.core, 0x3208, 1, 0x0, 1, 0x0, true, false⟩
def CORE_SLC_SCRUB_PASSES.PASSES : Fld := ⟨CORE_SLC_SCRUB_PASSES, 63, 0, .ro, 0, none, false⟩
/-- R278. -/
def CORE_SLC_CE_CNT : Reg := ⟨.core, 0x3300, 1, 0x0, 1, 0x0, false, false⟩
def CORE_SLC_CE_CNT.COUNT : Fld := ⟨CORE_SLC_CE_CNT, 31, 0, .rc, 0, none, false⟩
/-- R278. -/
def CORE_SLC_UE_CNT : Reg := ⟨.core, 0x3304, 1, 0x0, 1, 0x0, false, false⟩
def CORE_SLC_UE_CNT.COUNT : Fld := ⟨CORE_SLC_UE_CNT, 15, 0, .rc, 0, none, false⟩
/-- R278. -/
def CORE_SLC_UE_ADDR : Reg := ⟨.core, 0x3308, 1, 0x0, 1, 0x0, true, false⟩
def CORE_SLC_UE_ADDR.DA : Fld := ⟨CORE_SLC_UE_ADDR, 63, 0, .ro, 0, none, false⟩
/-- R278. -/
def CORE_SLC_REMAP : Reg := ⟨.core, 0x3400, 32, 0x4, 1, 0x0, false, false⟩
def CORE_SLC_REMAP.VALID : Fld := ⟨CORE_SLC_REMAP, 31, 31, .ro, 0, none, false⟩
def CORE_SLC_REMAP.LAYER : Fld := ⟨CORE_SLC_REMAP, 30, 28, .ro, 0, none, false⟩
def CORE_SLC_REMAP.BANK : Fld := ⟨CORE_SLC_REMAP, 27, 24, .ro, 0, none, false⟩
def CORE_SLC_REMAP.SPARE : Fld := ⟨CORE_SLC_REMAP, 23, 20, .ro, 0, none, false⟩
def CORE_SLC_REMAP.ROW : Fld := ⟨CORE_SLC_REMAP, 8, 0, .ro, 0, none, false⟩
/-- R278. -/
def CORE_SLC_TEST_CMD : Reg := ⟨.core, 0x3500, 1, 0x0, 1, 0x0, false, false⟩
def CORE_SLC_TEST_CMD.OP : Fld := ⟨CORE_SLC_TEST_CMD, 31, 29, .wo, 0, none, false⟩
def CORE_SLC_TEST_CMD.UNMAPPED : Fld := ⟨CORE_SLC_TEST_CMD, 28, 28, .wo, 0, none, false⟩
def CORE_SLC_TEST_CMD.LAYER : Fld := ⟨CORE_SLC_TEST_CMD, 27, 25, .wo, 0, none, false⟩
def CORE_SLC_TEST_CMD.BANK : Fld := ⟨CORE_SLC_TEST_CMD, 24, 21, .wo, 0, none, false⟩
def CORE_SLC_TEST_CMD.ROWSEL : Fld := ⟨CORE_SLC_TEST_CMD, 20, 16, .wo, 0, some (0, 16), false⟩
def CORE_SLC_TEST_CMD.WORD : Fld := ⟨CORE_SLC_TEST_CMD, 5, 0, .wo, 0, none, false⟩
/-- R278. -/
def CORE_SLC_TEST_ADDR : Reg := ⟨.core, 0x3508, 1, 0x0, 1, 0x0, true, false⟩
def CORE_SLC_TEST_ADDR.DA : Fld := ⟨CORE_SLC_TEST_ADDR, 63, 0, .rw, 0, none, false⟩
/-- R278. -/
def CORE_SLC_TEST_DATA : Reg := ⟨.core, 0x3510, 8, 0x4, 1, 0x0, false, false⟩
def CORE_SLC_TEST_DATA.DATA : Fld := ⟨CORE_SLC_TEST_DATA, 31, 0, .rw, 0, none, false⟩
/-- R278. -/
def CORE_SLC_TEST_CHK : Reg := ⟨.core, 0x3530, 1, 0x0, 1, 0x0, false, false⟩
def CORE_SLC_TEST_CHK.CHK : Fld := ⟨CORE_SLC_TEST_CHK, 31, 0, .rw, 0, none, false⟩
/-- R278. -/
def CORE_SLC_TEST_SYN : Reg := ⟨.core, 0x3534, 1, 0x0, 1, 0x0, false, false⟩
def CORE_SLC_TEST_SYN.SYN : Fld := ⟨CORE_SLC_TEST_SYN, 31, 0, .ro, 0, none, false⟩
/-- R278. -/
def CORE_SLC_TEST_STAT : Reg := ⟨.core, 0x3538, 1, 0x0, 1, 0x0, false, false⟩
def CORE_SLC_TEST_STAT.RESULT : Fld := ⟨CORE_SLC_TEST_STAT, 31, 28, .ro, 0, none, false⟩
def CORE_SLC_TEST_STAT.BUSY : Fld := ⟨CORE_SLC_TEST_STAT, 27, 27, .ro, 0, none, false⟩
def CORE_SLC_TEST_STAT.LOST : Fld := ⟨CORE_SLC_TEST_STAT, 26, 26, .w1c, 0, none, false⟩
def CORE_SLC_TEST_STAT.POS : Fld := ⟨CORE_SLC_TEST_STAT, 13, 8, .ro, 0, none, false⟩
def CORE_SLC_TEST_STAT.DEC : Fld := ⟨CORE_SLC_TEST_STAT, 1, 0, .ro, 0, none, false⟩
/-- R305. -/
def CL_CACHE_STAT : Reg := ⟨.cluster, 0x1000, 1, 0x0, 1, 0x0, false, false⟩
def CL_CACHE_STAT.BUSY : Fld := ⟨CL_CACHE_STAT, 31, 31, .ro, 0, none, false⟩
def CL_CACHE_STAT.MULTI_HIT : Fld := ⟨CL_CACHE_STAT, 30, 30, .rws, 0, none, false⟩
def CL_CACHE_STAT.PIN_OVF : Fld := ⟨CL_CACHE_STAT, 29, 29, .w1c, 0, none, false⟩
def CL_CACHE_STAT.UE_SEEN : Fld := ⟨CL_CACHE_STAT, 28, 28, .w1c, 0, none, false⟩
def CL_CACHE_STAT.CMD_LOST : Fld := ⟨CL_CACHE_STAT, 27, 27, .w1c, 0, none, false⟩
def CL_CACHE_STAT.PINNED : Fld := ⟨CL_CACHE_STAT, 13, 0, .ro, 0, none, false⟩
/-- R305. -/
def CL_CACHE_CMD : Reg := ⟨.cluster, 0x1004, 1, 0x0, 1, 0x0, false, false⟩
def CL_CACHE_CMD.OP : Fld := ⟨CL_CACHE_CMD, 31, 29, .wo, 0, none, false⟩
def CL_CACHE_CMD.SLICE : Fld := ⟨CL_CACHE_CMD, 7, 4, .wo, 0, none, false⟩
def CL_CACHE_CMD.WINDOW : Fld := ⟨CL_CACHE_CMD, 3, 0, .wo, 0, none, false⟩
/-- R305. -/
def CL_CACHE_CTRL : Reg := ⟨.cluster, 0x1008, 1, 0x0, 1, 0x0, false, false⟩
def CL_CACHE_CTRL.DEFHINT : Fld := ⟨CL_CACHE_CTRL, 1, 0, .rw, 0, none, false⟩
/-- R305. -/
def CL_CACHE_HITS : Reg := ⟨.cluster, 0x1040, 1, 0x0, 1, 0x0, true, false⟩
def CL_CACHE_HITS.HITS : Fld := ⟨CL_CACHE_HITS, 63, 0, .ro, 0, none, false⟩
/-- R305. -/
def CL_CACHE_MISSES : Reg := ⟨.cluster, 0x1048, 1, 0x0, 1, 0x0, true, false⟩
def CL_CACHE_MISSES.MISSES : Fld := ⟨CL_CACHE_MISSES, 63, 0, .ro, 0, none, false⟩
/-- R305. -/
def CL_CACHE_WBACKS : Reg := ⟨.cluster, 0x1050, 1, 0x0, 1, 0x0, true, false⟩
def CL_CACHE_WBACKS.LINES : Fld := ⟨CL_CACHE_WBACKS, 63, 0, .ro, 0, none, false⟩
/-- R305. -/
def CL_CACHE_ATOMS : Reg := ⟨.cluster, 0x1058, 1, 0x0, 1, 0x0, true, false⟩
def CL_CACHE_ATOMS.OPS : Fld := ⟨CL_CACHE_ATOMS, 63, 0, .ro, 0, none, false⟩
/-- R305. -/
def CL_CACHE_ADDER : Reg := ⟨.cluster, 0x1060, 1, 0x0, 1, 0x0, true, false⟩
def CL_CACHE_ADDER.OPS : Fld := ⟨CL_CACHE_ADDER, 63, 0, .ro, 0, none, false⟩
/-- R305. -/
def CL_CACHE_CE_CNT : Reg := ⟨.cluster, 0x1070, 1, 0x0, 1, 0x0, false, false⟩
def CL_CACHE_CE_CNT.COUNT : Fld := ⟨CL_CACHE_CE_CNT, 31, 0, .rc, 0, none, false⟩
/-- R305. -/
def CL_CACHE_UE_CNT : Reg := ⟨.cluster, 0x1074, 1, 0x0, 1, 0x0, false, false⟩
def CL_CACHE_UE_CNT.COUNT : Fld := ⟨CL_CACHE_UE_CNT, 15, 0, .rc, 0, none, false⟩
/-- R306. -/
def CL_CACHE_HINTWIN_CTRL : Reg := ⟨.cluster, 0x1100, 16, 0x10, 1, 0x0, false, true⟩
def CL_CACHE_HINTWIN_CTRL.VALID : Fld := ⟨CL_CACHE_HINTWIN_CTRL, 31, 31, .rw, 0, none, false⟩
def CL_CACHE_HINTWIN_CTRL.HINT : Fld := ⟨CL_CACHE_HINTWIN_CTRL, 30, 29, .rw, 0, none, false⟩
def CL_CACHE_HINTWIN_CTRL.PIN : Fld := ⟨CL_CACHE_HINTWIN_CTRL, 28, 28, .rw, 0, none, false⟩
def CL_CACHE_HINTWIN_CTRL.OWNER : Fld := ⟨CL_CACHE_HINTWIN_CTRL, 27, 16, .rw, 0, none, false⟩
def CL_CACHE_HINTWIN_CTRL.SLICES : Fld := ⟨CL_CACHE_HINTWIN_CTRL, 15, 0, .rw, 0, none, false⟩
/-- R306. -/
def CL_CACHE_HINTWIN_BASE : Reg := ⟨.cluster, 0x1104, 16, 0x10, 1, 0x0, false, true⟩
def CL_CACHE_HINTWIN_BASE.OFFSET : Fld := ⟨CL_CACHE_HINTWIN_BASE, 26, 7, .rw, 0, none, false⟩
/-- R306. -/
def CL_CACHE_HINTWIN_LIMIT : Reg := ⟨.cluster, 0x1108, 16, 0x10, 1, 0x0, false, true⟩
def CL_CACHE_HINTWIN_LIMIT.OFFSET : Fld := ⟨CL_CACHE_HINTWIN_LIMIT, 26, 7, .rw, 0, none, false⟩
/-- R314. -/
def CL_MESH_STAT : Reg := ⟨.cluster, 0x3000, 1, 0x0, 1, 0x0, false, false⟩
def CL_MESH_STAT.DOWN : Fld := ⟨CL_MESH_STAT, 29, 24, .ro, 0, none, false⟩
def CL_MESH_STAT.UP : Fld := ⟨CL_MESH_STAT, 21, 16, .ro, 0, none, false⟩
def CL_MESH_STAT.ERR_SEEN : Fld := ⟨CL_MESH_STAT, 1, 1, .w1c, 0, none, false⟩
def CL_MESH_STAT.DETOUR : Fld := ⟨CL_MESH_STAT, 0, 0, .ro, 0, none, false⟩
/-- R314. -/
def CL_MESH_CTRL : Reg := ⟨.cluster, 0x3004, 1, 0x0, 1, 0x0, false, false⟩
def CL_MESH_CTRL.ERR_LIMIT : Fld := ⟨CL_MESH_CTRL, 7, 0, .rw, 0x10, some (1, 255), false⟩
/-- R314. -/
def CL_MESH_FLITS : Reg := ⟨.cluster, 0x3040, 6, 0x8, 1, 0x0, true, false⟩
def CL_MESH_FLITS.FLITS : Fld := ⟨CL_MESH_FLITS, 63, 0, .ro, 0, none, false⟩
/-- R314. -/
def CL_MESH_RETRY : Reg := ⟨.cluster, 0x3080, 6, 0x4, 1, 0x0, false, false⟩
def CL_MESH_RETRY.COUNT : Fld := ⟨CL_MESH_RETRY, 15, 0, .rc, 0, none, false⟩
/-- R314. -/
def CL_MESH_ROUTE : Reg := ⟨.cluster, 0x3400, 144, 0x4, 1, 0x0, false, false⟩
def CL_MESH_ROUTE.ESC : Fld := ⟨CL_MESH_ROUTE, 3, 3, .ro, 0, none, false⟩
def CL_MESH_ROUTE.LINK : Fld := ⟨CL_MESH_ROUTE, 2, 0, .ro, 0, none, false⟩
/-- R328. -/
def CORE_DMA_CHn_STAT : Reg := ⟨.core, 0x800, 8, 0x40, 1, 0x0, true, false⟩
def CORE_DMA_CHn_STAT.STATUS : Fld := ⟨CORE_DMA_CHn_STAT, 63, 0, .ro, 0, none, false⟩
/-- R328. -/
def CORE_DMA_CHn_CMD : Reg := ⟨.core, 0x808, 8, 0x40, 1, 0x0, false, false⟩
def CORE_DMA_CHn_CMD.OP : Fld := ⟨CORE_DMA_CHn_CMD, 1, 0, .wo, 0, none, false⟩
/-- R328. -/
def CORE_DMA_CHn_FAULT : Reg := ⟨.core, 0x810, 8, 0x40, 1, 0x0, true, false⟩
def CORE_DMA_CHn_FAULT.ADDR : Fld := ⟨CORE_DMA_CHn_FAULT, 63, 0, .ro, 0, none, false⟩
/-- R328. -/
def CORE_DMA_CHn_BYTES : Reg := ⟨.core, 0x818, 8, 0x40, 1, 0x0, true, false⟩
def CORE_DMA_CHn_BYTES.BYTES : Fld := ⟨CORE_DMA_CHn_BYTES, 63, 0, .ro, 0, none, false⟩
/-- R328. -/
def CORE_DMA_UE_CNT : Reg := ⟨.core, 0xA00, 1, 0x0, 1, 0x0, false, false⟩
def CORE_DMA_UE_CNT.COUNT : Fld := ⟨CORE_DMA_UE_CNT, 15, 0, .rc, 0, none, false⟩
/-- R328. -/
def CORE_DMA_CHK_CNT : Reg := ⟨.core, 0xA04, 1, 0x0, 1, 0x0, false, false⟩
def CORE_DMA_CHK_CNT.COUNT : Fld := ⟨CORE_DMA_CHK_CNT, 15, 0, .rc, 0, none, false⟩
/-- R328. -/
def CORE_DMA_INFLIGHT : Reg := ⟨.core, 0xA08, 1, 0x0, 1, 0x0, false, false⟩
def CORE_DMA_INFLIGHT.REQS : Fld := ⟨CORE_DMA_INFLIGHT, 8, 0, .ro, 0, none, false⟩
/-- R332. -/
def CORE_MSG_CTRL : Reg := ⟨.core, 0x1000, 1, 0x0, 1, 0x0, false, false⟩
def CORE_MSG_CTRL.FAIL_TRAP : Fld := ⟨CORE_MSG_CTRL, 31, 31, .rw, 0, none, false⟩
def CORE_MSG_CTRL.BACKOFF : Fld := ⟨CORE_MSG_CTRL, 23, 16, .rw, 0x40, some (16, 255), false⟩
def CORE_MSG_CTRL.RETRY_LIMIT : Fld := ⟨CORE_MSG_CTRL, 15, 0, .rw, 0x4000, some (1, 65535), false⟩
/-- R332. -/
def CORE_MSG_STAT : Reg := ⟨.core, 0x1004, 1, 0x0, 1, 0x0, false, false⟩
def CORE_MSG_STAT.FAIL_SEEN : Fld := ⟨CORE_MSG_STAT, 31, 31, .w1c, 0, none, false⟩
def CORE_MSG_STAT.DROP_SEEN : Fld := ⟨CORE_MSG_STAT, 30, 30, .w1c, 0, none, false⟩
def CORE_MSG_STAT.SENDQ : Fld := ⟨CORE_MSG_STAT, 15, 12, .ro, 0, none, false⟩
def CORE_MSG_STAT.RECVQ : Fld := ⟨CORE_MSG_STAT, 5, 0, .ro, 0, none, false⟩
/-- R332. -/
def CORE_MSG_FAIL : Reg := ⟨.core, 0x1008, 1, 0x0, 1, 0x0, false, false⟩
def CORE_MSG_FAIL.CAUSE : Fld := ⟨CORE_MSG_FAIL, 31, 28, .ro, 0, none, false⟩
def CORE_MSG_FAIL.TAG : Fld := ⟨CORE_MSG_FAIL, 27, 20, .ro, 0, none, false⟩
def CORE_MSG_FAIL.DEST : Fld := ⟨CORE_MSG_FAIL, 11, 0, .ro, 0, none, false⟩
/-- R332. -/
def CORE_MSG_FAIL_CNT : Reg := ⟨.core, 0x100C, 1, 0x0, 1, 0x0, false, false⟩
def CORE_MSG_FAIL_CNT.COUNT : Fld := ⟨CORE_MSG_FAIL_CNT, 15, 0, .rc, 0, none, false⟩
/-- R332. -/
def CORE_MSG_SENT : Reg := ⟨.core, 0x1010, 1, 0x0, 1, 0x0, true, false⟩
def CORE_MSG_SENT.COUNT : Fld := ⟨CORE_MSG_SENT, 63, 0, .ro, 0, none, false⟩
/-- R332. -/
def CORE_MSG_RCVD : Reg := ⟨.core, 0x1018, 1, 0x0, 1, 0x0, true, false⟩
def CORE_MSG_RCVD.COUNT : Fld := ⟨CORE_MSG_RCVD, 63, 0, .ro, 0, none, false⟩
/-- R332. -/
def CORE_MSG_NACKS : Reg := ⟨.core, 0x1020, 1, 0x0, 1, 0x0, true, false⟩
def CORE_MSG_NACKS.COUNT : Fld := ⟨CORE_MSG_NACKS, 63, 0, .ro, 0, none, false⟩
/-- R356. -/
def CL_CUE_STAT : Reg := ⟨.cluster, 0x2000, 1, 0x0, 1, 0x0, false, false⟩
def CL_CUE_STAT.BUSY : Fld := ⟨CL_CUE_STAT, 31, 31, .ro, 0, none, false⟩
def CL_CUE_STAT.CMD_LOST : Fld := ⟨CL_CUE_STAT, 30, 30, .w1c, 0, none, false⟩
def CL_CUE_STAT.OVF_SEEN : Fld := ⟨CL_CUE_STAT, 29, 29, .w1c, 0, none, false⟩
def CL_CUE_STAT.UNF_SEEN : Fld := ⟨CL_CUE_STAT, 28, 28, .w1c, 0, none, false⟩
def CL_CUE_STAT.WQ_FULL_SEEN : Fld := ⟨CL_CUE_STAT, 27, 27, .w1c, 0, none, false⟩
def CL_CUE_STAT.RESULT : Fld := ⟨CL_CUE_STAT, 26, 24, .ro, 0, none, false⟩
def CL_CUE_STAT.WAITERS : Fld := ⟨CL_CUE_STAT, 8, 0, .ro, 0, none, false⟩
/-- R356. -/
def CL_CUE_CMD : Reg := ⟨.cluster, 0x2010, 1, 0x0, 1, 0x0, false, false⟩
def CL_CUE_CMD.OP : Fld := ⟨CL_CUE_CMD, 31, 29, .wo, 0, none, false⟩
def CL_CUE_CMD.CO : Fld := ⟨CL_CUE_CMD, 6, 6, .wo, 0, none, false⟩
def CL_CUE_CMD.CUE : Fld := ⟨CL_CUE_CMD, 5, 0, .wo, 0, none, false⟩
/-- R356. -/
def CL_CUE_ARG0 : Reg := ⟨.cluster, 0x2014, 1, 0x0, 1, 0x0, false, false⟩
def CL_CUE_ARG0.VALUE : Fld := ⟨CL_CUE_ARG0, 23, 0, .rw, 0, none, false⟩
/-- R356. -/
def CL_CUE_ARG1 : Reg := ⟨.cluster, 0x2018, 1, 0x0, 1, 0x0, false, false⟩
def CL_CUE_ARG1.LIMIT : Fld := ⟨CL_CUE_ARG1, 23, 0, .rw, 0, none, false⟩
/-- R356. -/
def CL_CUE_ARG2 : Reg := ⟨.cluster, 0x201C, 1, 0x0, 1, 0x0, false, false⟩
def CL_CUE_ARG2.OWNER_CORE : Fld := ⟨CL_CUE_ARG2, 23, 12, .rw, 0, none, false⟩
def CL_CUE_ARG2.TENANT : Fld := ⟨CL_CUE_ARG2, 11, 0, .rw, 0, none, false⟩
/-- R356. -/
def CL_CUE_OPS : Reg := ⟨.cluster, 0x2020, 1, 0x0, 1, 0x0, true, false⟩
def CL_CUE_OPS.OPS : Fld := ⟨CL_CUE_OPS, 63, 0, .ro, 0, none, false⟩
/-- R356. -/
def CL_CUE_DISC : Reg := ⟨.cluster, 0x2028, 1, 0x0, 1, 0x0, false, false⟩
def CL_CUE_DISC.COUNT : Fld := ⟨CL_CUE_DISC, 31, 0, .rc, 0, none, false⟩
/-- R356. -/
def CL_CUE_NACKS : Reg := ⟨.cluster, 0x2030, 1, 0x0, 1, 0x0, true, false⟩
def CL_CUE_NACKS.COUNT : Fld := ⟨CL_CUE_NACKS, 63, 0, .ro, 0, none, false⟩
/-- R356. -/
def CL_CUE_Sj : Reg := ⟨.cluster, 0x2400, 64, 0x10, 1, 0x0, false, false⟩
def CL_CUE_Sj.STATE : Fld := ⟨CL_CUE_Sj, 31, 29, .ro, 0, none, false⟩
def CL_CUE_Sj.CORE_OWNED : Fld := ⟨CL_CUE_Sj, 28, 28, .ro, 0, none, false⟩
def CL_CUE_Sj.WAITERS : Fld := ⟨CL_CUE_Sj, 27, 24, .ro, 0, none, false⟩
def CL_CUE_Sj.COUNT : Fld := ⟨CL_CUE_Sj, 23, 0, .ro, 0, none, false⟩
/-- R356. -/
def CL_CUE_Lj : Reg := ⟨.cluster, 0x2404, 64, 0x10, 1, 0x0, false, false⟩
def CL_CUE_Lj.LIMIT : Fld := ⟨CL_CUE_Lj, 23, 0, .ro, 0xffffff, none, false⟩
/-- R356. -/
def CL_CUE_Oj : Reg := ⟨.cluster, 0x2408, 64, 0x10, 1, 0x0, false, false⟩
def CL_CUE_Oj.OWNER_CORE : Fld := ⟨CL_CUE_Oj, 23, 12, .ro, 0, none, false⟩
def CL_CUE_Oj.TENANT : Fld := ⟨CL_CUE_Oj, 11, 0, .ro, 0, none, false⟩
/-- R358. -/
def BARR_STAT : Reg := ⟨.half, 0xB0000, 1, 0x0, 1, 0x0, false, false⟩
def BARR_STAT.BROKEN_SEEN : Fld := ⟨BARR_STAT, 31, 31, .w1c, 0, none, false⟩
def BARR_STAT.WR_LOST : Fld := ⟨BARR_STAT, 30, 30, .w1c, 0, none, false⟩
def BARR_STAT.OPEN : Fld := ⟨BARR_STAT, 6, 0, .ro, 0, none, false⟩
/-- R358. -/
def BARR_BUS_ERR : Reg := ⟨.half, 0xB0004, 1, 0x0, 1, 0x0, false, false⟩
def BARR_BUS_ERR.COUNT : Fld := ⟨BARR_BUS_ERR, 15, 0, .rc, 0, none, false⟩
/-- R358. -/
def BARR_CTRLn : Reg := ⟨.half, 0xB1000, 64, 0x200, 1, 0x0, false, false⟩
def BARR_CTRLn.EN : Fld := ⟨BARR_CTRLn, 31, 31, .rw, 0, none, false⟩
def BARR_CTRLn.SPAN : Fld := ⟨BARR_CTRLn, 30, 30, .rw, 0, none, false⟩
def BARR_CTRLn.RCUEV : Fld := ⟨BARR_CTRLn, 29, 29, .rw, 0, none, false⟩
def BARR_CTRLn.RCUE : Fld := ⟨BARR_CTRLn, 25, 12, .rw, 0, none, false⟩
def BARR_CTRLn.TENANT : Fld := ⟨BARR_CTRLn, 11, 0, .rw, 0, none, false⟩
/-- R358. -/
def BARR_STATn : Reg := ⟨.half, 0xB1004, 64, 0x200, 1, 0x0, false, false⟩
def BARR_STATn.STATE : Fld := ⟨BARR_STATn, 31, 30, .ro, 0, none, false⟩
def BARR_STATn.CAUSE : Fld := ⟨BARR_STATn, 29, 26, .ro, 0, none, false⟩
def BARR_STATn.ARRIVED : Fld := ⟨BARR_STATn, 23, 16, .ro, 0, none, false⟩
def BARR_STATn.GEN : Fld := ⟨BARR_STATn, 15, 0, .ro, 0, none, false⟩
/-- R358. -/
def BARR_CLMASKn_w : Reg := ⟨.half, 0xB1010, 64, 0x200, 4, 0x4, false, false⟩
def BARR_CLMASKn_w.CLUSTERS : Fld := ⟨BARR_CLMASKn_w, 31, 0, .rw, 0, none, false⟩
/-- R358. -/
def BARR_CMASKn_i : Reg := ⟨.half, 0xB1100, 64, 0x200, 64, 0x4, false, false⟩
def BARR_CMASKn_i.CORES_HI : Fld := ⟨BARR_CMASKn_i, 31, 16, .rw, 0, none, false⟩
def BARR_CMASKn_i.CORES_LO : Fld := ⟨BARR_CMASKn_i, 15, 0, .rw, 0, none, false⟩
/-- R381. -/
def HALF_ID : Reg := ⟨.half, 0x0, 1, 0x0, 1, 0x0, false, false⟩
def HALF_ID.ID_OPEN : Fld := ⟨HALF_ID, 2, 2, .ro, 0, none, false⟩
def HALF_ID.STANDALONE : Fld := ⟨HALF_ID, 1, 1, .ro, 0, none, false⟩
def HALF_ID.HALF : Fld := ⟨HALF_ID, 0, 0, .ro, 0, none, false⟩
/-- R381. -/
def HALF_STAT : Reg := ⟨.half, 0x4, 1, 0x0, 1, 0x0, false, false⟩
def HALF_STAT.CTRL_UP : Fld := ⟨HALF_STAT, 31, 31, .ro, 0, none, false⟩
def HALF_STAT.CTRL_LOST : Fld := ⟨HALF_STAT, 30, 30, .rws, 0, none, false⟩
def HALF_STAT.SHADOW_LOST : Fld := ⟨HALF_STAT, 29, 29, .w1c, 0, none, false⟩
/-- R381. -/
def HALF_HOME : Reg := ⟨.half, 0x8, 1, 0x0, 1, 0x0, false, false⟩
def HALF_HOME.SERVES : Fld := ⟨HALF_HOME, 9, 0, .ro, 0, none, false⟩
/-- R381. -/
def HALF_COMMIT : Reg := ⟨.half, 0x10, 1, 0x0, 1, 0x0, false, false⟩
def HALF_COMMIT.PHASE : Fld := ⟨HALF_COMMIT, 31, 30, .ro, 0, none, false⟩
def HALF_COMMIT.RESULT : Fld := ⟨HALF_COMMIT, 29, 27, .ro, 0, none, false⟩
def HALF_COMMIT.CAUSE : Fld := ⟨HALF_COMMIT, 26, 24, .ro, 0, none, false⟩
def HALF_COMMIT.BANK : Fld := ⟨HALF_COMMIT, 0, 0, .ro, 0, none, false⟩
/-- R381. -/
def HALF_COMMIT_TMO : Reg := ⟨.half, 0x14, 1, 0x0, 1, 0x0, false, false⟩
def HALF_COMMIT_TMO.MICROSEC : Fld := ⟨HALF_COMMIT_TMO, 9, 0, .rw, 0x64, some (10, 1000), false⟩
/-- R382. -/
def SEAM_STAT : Reg := ⟨.half, 0x90000, 1, 0x0, 1, 0x0, false, false⟩
def SEAM_STAT.UP : Fld := ⟨SEAM_STAT, 31, 16, .ro, 0, none, false⟩
def SEAM_STAT.DOWN : Fld := ⟨SEAM_STAT, 15, 0, .ro, 0, none, false⟩
/-- R382. -/
def SEAM_CTRL : Reg := ⟨.half, 0x90004, 1, 0x0, 1, 0x0, false, false⟩
def SEAM_CTRL.LOOP_LOST : Fld := ⟨SEAM_CTRL, 31, 31, .w1c, 0, none, false⟩
def SEAM_CTRL.ERR_SEEN : Fld := ⟨SEAM_CTRL, 30, 30, .w1c, 0, none, false⟩
def SEAM_CTRL.ERR_LIMIT : Fld := ⟨SEAM_CTRL, 7, 0, .rw, 0x10, some (1, 255), false⟩
/-- R382. -/
def SEAM_LOOP : Reg := ⟨.half, 0x90008, 1, 0x0, 1, 0x0, false, false⟩
def SEAM_LOOP.MODE : Fld := ⟨SEAM_LOOP, 31, 0, .rw, 0, none, false⟩
/-- R382. -/
def SEAM_PRBS : Reg := ⟨.half, 0x9000C, 1, 0x0, 1, 0x0, false, false⟩
def SEAM_PRBS.EN : Fld := ⟨SEAM_PRBS, 31, 31, .rw, 0, none, false⟩
def SEAM_PRBS.PORT : Fld := ⟨SEAM_PRBS, 3, 0, .rw, 0, none, false⟩
/-- R382. -/
def SEAM_Pn_FRAMES : Reg := ⟨.half, 0x90100, 16, 0x20, 1, 0x0, true, false⟩
def SEAM_Pn_FRAMES.FRAMES : Fld := ⟨SEAM_Pn_FRAMES, 63, 0, .ro, 0, none, false⟩
/-- R382. -/
def SEAM_Pn_REPLAY : Reg := ⟨.half, 0x90108, 16, 0x20, 1, 0x0, false, false⟩
def SEAM_Pn_REPLAY.COUNT : Fld := ⟨SEAM_Pn_REPLAY, 15, 0, .rc, 0, none, false⟩
/-- R382. -/
def SEAM_Pn_LANE : Reg := ⟨.half, 0x9010C, 16, 0x20, 1, 0x0, false, false⟩
def SEAM_Pn_LANE.WORST : Fld := ⟨SEAM_Pn_LANE, 22, 16, .ro, 0, none, false⟩
def SEAM_Pn_LANE.ERRS : Fld := ⟨SEAM_Pn_LANE, 15, 0, .rc, 0, none, false⟩
/-- R382. -/
def SEAM_Pn_CREDIT : Reg := ⟨.half, 0x90110, 16, 0x20, 1, 0x0, false, false⟩
def SEAM_Pn_CREDIT.REQ : Fld := ⟨SEAM_Pn_CREDIT, 31, 24, .ro, 0, none, false⟩
def SEAM_Pn_CREDIT.RSP : Fld := ⟨SEAM_Pn_CREDIT, 23, 16, .ro, 0, none, false⟩
def SEAM_Pn_CREDIT.MSG : Fld := ⟨SEAM_Pn_CREDIT, 15, 8, .ro, 0, none, false⟩
def SEAM_Pn_CREDIT.ESC : Fld := ⟨SEAM_Pn_CREDIT, 7, 0, .ro, 0, none, false⟩
/-- R389. -/
def FPORT_CTRL : Reg := ⟨.fport, 0x0, 1, 0x0, 1, 0x0, false, false⟩
def FPORT_CTRL.MODE : Fld := ⟨FPORT_CTRL, 31, 29, .rw, 0, some (0, 4), false⟩
def FPORT_CTRL.AN : Fld := ⟨FPORT_CTRL, 28, 28, .rw, 0, none, false⟩
def FPORT_CTRL.PFC_EN : Fld := ⟨FPORT_CTRL, 27, 27, .rw, 0, none, false⟩
def FPORT_CTRL.PFC_PRIO : Fld := ⟨FPORT_CTRL, 26, 24, .rw, 3, none, false⟩
def FPORT_CTRL.FEC_LIMIT : Fld := ⟨FPORT_CTRL, 23, 16, .rw, 0x40, some (1, 255), false⟩
/-- R389. -/
def FPORT_STAT : Reg := ⟨.fport, 0x4, 1, 0x0, 1, 0x0, false, false⟩
def FPORT_STAT.LINK : Fld := ⟨FPORT_STAT, 31, 30, .ro, 0, none, false⟩
def FPORT_STAT.MODE : Fld := ⟨FPORT_STAT, 29, 27, .ro, 0, none, false⟩
def FPORT_STAT.DOWN_SEEN : Fld := ⟨FPORT_STAT, 26, 26, .w1c, 0, none, false⟩
def FPORT_STAT.PFC_RX : Fld := ⟨FPORT_STAT, 25, 25, .w1c, 0, none, false⟩
/-- R389. -/
def FPORT_NEXTHOP_LO : Reg := ⟨.fport, 0x8, 1, 0x0, 1, 0x0, false, true⟩
def FPORT_NEXTHOP_LO.MAC : Fld := ⟨FPORT_NEXTHOP_LO, 31, 0, .rw, 0, none, false⟩
/-- R389. -/
def FPORT_NEXTHOP_HI : Reg := ⟨.fport, 0xC, 1, 0x0, 1, 0x0, false, true⟩
def FPORT_NEXTHOP_HI.MAC : Fld := ⟨FPORT_NEXTHOP_HI, 15, 0, .rw, 0, none, false⟩
/-- R389. -/
def FPORT_TX_FRAMES : Reg := ⟨.fport, 0x40, 1, 0x0, 1, 0x0, true, false⟩
def FPORT_TX_FRAMES.FRAMES : Fld := ⟨FPORT_TX_FRAMES, 63, 0, .ro, 0, none, false⟩
/-- R389. -/
def FPORT_RX_FRAMES : Reg := ⟨.fport, 0x48, 1, 0x0, 1, 0x0, true, false⟩
def FPORT_RX_FRAMES.FRAMES : Fld := ⟨FPORT_RX_FRAMES, 63, 0, .ro, 0, none, false⟩
/-- R389. -/
def FPORT_FEC_CORR : Reg := ⟨.fport, 0x50, 1, 0x0, 1, 0x0, true, false⟩
def FPORT_FEC_CORR.CW : Fld := ⟨FPORT_FEC_CORR, 63, 0, .ro, 0, none, false⟩
/-- R389. -/
def FPORT_FEC_UNCORR : Reg := ⟨.fport, 0x58, 1, 0x0, 1, 0x0, true, false⟩
def FPORT_FEC_UNCORR.CW : Fld := ⟨FPORT_FEC_UNCORR, 63, 0, .ro, 0, none, false⟩
/-- R389. -/
def FPORT_RX_DROP : Reg := ⟨.fport, 0x60, 1, 0x0, 1, 0x0, true, false⟩
def FPORT_RX_DROP.FRAMES : Fld := ⟨FPORT_RX_DROP, 63, 0, .ro, 0, none, false⟩
/-- R389. -/
def FPORT_CE : Reg := ⟨.fport, 0x68, 1, 0x0, 1, 0x0, true, false⟩
def FPORT_CE.FRAMES : Fld := ⟨FPORT_CE, 63, 0, .ro, 0, none, false⟩
/-- R389. -/
def FPORT_DROP : Reg := ⟨.fport, 0x70, 1, 0x0, 1, 0x0, false, false⟩
def FPORT_DROP.WHY : Fld := ⟨FPORT_DROP, 7, 0, .w1c, 0, none, false⟩
/-- R399. -/
def FAB_ID : Reg := ⟨.dev, 0x80000, 1, 0x0, 1, 0x0, false, false⟩
def FAB_ID.VALID : Fld := ⟨FAB_ID, 31, 31, .ro, 0, none, false⟩
def FAB_ID.DEV : Fld := ⟨FAB_ID, 9, 0, .ro, 0, none, false⟩
/-- R399. -/
def FAB_ENCAP : Reg := ⟨.dev, 0x80004, 1, 0x0, 1, 0x0, false, false⟩
def FAB_ENCAP.UDP_PORT : Fld := ⟨FAB_ENCAP, 31, 16, .ro, 0xe3f0, none, false⟩
def FAB_ENCAP.ETYPE : Fld := ⟨FAB_ENCAP, 15, 0, .ro, 0x88b5, none, false⟩
/-- R399. -/
def FAB_STAT : Reg := ⟨.dev, 0x80008, 1, 0x0, 1, 0x0, false, false⟩
def FAB_STAT.MULTI_HIT : Fld := ⟨FAB_STAT, 31, 31, .rws, 0, none, false⟩
def FAB_STAT.RT_MISS : Fld := ⟨FAB_STAT, 30, 30, .w1c, 0, none, false⟩
def FAB_STAT.DB_LOST : Fld := ⟨FAB_STAT, 29, 29, .w1c, 0, none, false⟩
def FAB_STAT.CFG_LOST : Fld := ⟨FAB_STAT, 28, 28, .w1c, 0, none, false⟩
/-- R399. -/
def FAB_MAC_TMPL_LO : Reg := ⟨.dev, 0x80010, 1, 0x0, 1, 0x0, false, false⟩
def FAB_MAC_TMPL_LO.MAC : Fld := ⟨FAB_MAC_TMPL_LO, 31, 13, .ro, 0, none, false⟩
/-- R399. -/
def FAB_MAC_TMPL_HI : Reg := ⟨.dev, 0x80014, 1, 0x0, 1, 0x0, false, false⟩
def FAB_MAC_TMPL_HI.MAC : Fld := ⟨FAB_MAC_TMPL_HI, 15, 0, .ro, 0, none, false⟩
/-- R399. -/
def FAB_IP_TMPL : Reg := ⟨.dev, 0x80020, 4, 0x4, 1, 0x0, false, false⟩
def FAB_IP_TMPL.IP : Fld := ⟨FAB_IP_TMPL, 31, 0, .ro, 0, none, false⟩
/-- R399. -/
def FAB_IPCFG : Reg := ⟨.dev, 0x80030, 1, 0x0, 1, 0x0, false, false⟩
def FAB_IPCFG.DSCP : Fld := ⟨FAB_IPCFG, 31, 26, .rw, 0x1a, none, false⟩
def FAB_IPCFG.HOPS : Fld := ⟨FAB_IPCFG, 23, 16, .rw, 0x40, some (1, 255), false⟩
/-- R399. -/
def FAB_PEER_BASE : Reg := ⟨.dev, 0x80040, 1, 0x0, 1, 0x0, true, false⟩
def FAB_PEER_BASE.DA : Fld := ⟨FAB_PEER_BASE, 47, 7, .rw, 0, none, false⟩
/-- R399. -/
def FAB_CC : Reg := ⟨.dev, 0x80050, 1, 0x0, 1, 0x0, false, false⟩
def FAB_CC.INIT_RATE : Fld := ⟨FAB_CC, 31, 20, .rw, 0x190, some (1, 3200), false⟩
def FAB_CC.BETA : Fld := ⟨FAB_CC, 19, 14, .rw, 8, some (1, 63), false⟩
def FAB_CC.INC_STEP : Fld := ⟨FAB_CC, 13, 8, .rw, 2, some (1, 63), false⟩
def FAB_CC.RTT_TARGET : Fld := ⟨FAB_CC, 7, 0, .rw, 0x14, some (1, 255), false⟩
/-- R399. -/
def FAB_RETX : Reg := ⟨.dev, 0x80054, 1, 0x0, 1, 0x0, false, false⟩
def FAB_RETX.RTO_MIN : Fld := ⟨FAB_RETX, 31, 24, .rw, 0x32, some (10, 255), false⟩
def FAB_RETX.RETRY_LIMIT : Fld := ⟨FAB_RETX, 23, 20, .rw, 7, some (1, 15), false⟩
def FAB_RETX.REORDER : Fld := ⟨FAB_RETX, 19, 16, .rw, 4, some (1, 15), false⟩
def FAB_RETX.ACK_EVERY : Fld := ⟨FAB_RETX, 15, 8, .rw, 8, some (1, 64), false⟩
def FAB_RETX.ACK_DELAY : Fld := ⟨FAB_RETX, 7, 0, .rw, 4, some (1, 255), false⟩
/-- R399. -/
def FAB_RANKp_i : Reg := ⟨.dev, 0x84000, 64, 0x80, 32, 0x4, false, true⟩
def FAB_RANKp_i.VALID1 : Fld := ⟨FAB_RANKp_i, 31, 31, .rw, 0, none, false⟩
def FAB_RANKp_i.DEV1 : Fld := ⟨FAB_RANKp_i, 25, 16, .rw, 0, none, false⟩
def FAB_RANKp_i.VALID0 : Fld := ⟨FAB_RANKp_i, 15, 15, .rw, 0, none, false⟩
def FAB_RANKp_i.DEV0 : Fld := ⟨FAB_RANKp_i, 9, 0, .rw, 0, none, false⟩
/-- R399. -/
def FAB_RTn_CTRL : Reg := ⟨.dev, 0x88000, 1024, 0x20, 1, 0x0, false, true⟩
def FAB_RTn_CTRL.VALID : Fld := ⟨FAB_RTn_CTRL, 31, 31, .rw, 0, none, false⟩
def FAB_RTn_CTRL.ENCAP : Fld := ⟨FAB_RTn_CTRL, 30, 29, .rw, 0, some (0, 2), false⟩
def FAB_RTn_CTRL.SPREAD : Fld := ⟨FAB_RTn_CTRL, 28, 27, .rw, 0, some (0, 2), false⟩
def FAB_RTn_CTRL.SUBPATHS : Fld := ⟨FAB_RTn_CTRL, 26, 25, .rw, 0, some (0, 2), false⟩
def FAB_RTn_CTRL.MASK : Fld := ⟨FAB_RTn_CTRL, 19, 10, .rw, 0, none, false⟩
def FAB_RTn_CTRL.DEV : Fld := ⟨FAB_RTn_CTRL, 9, 0, .rw, 0, none, false⟩
/-- R399. -/
def FAB_RTn_PORTS : Reg := ⟨.dev, 0x88004, 1024, 0x20, 1, 0x0, false, true⟩
def FAB_RTn_PORTS.PORTS : Fld := ⟨FAB_RTn_PORTS, 23, 16, .rw, 0, none, false⟩
def FAB_RTn_PORTS.PCP : Fld := ⟨FAB_RTn_PORTS, 15, 13, .rw, 0, none, false⟩
def FAB_RTn_PORTS.TAG : Fld := ⟨FAB_RTn_PORTS, 12, 12, .rw, 0, none, false⟩
def FAB_RTn_PORTS.VID : Fld := ⟨FAB_RTn_PORTS, 11, 0, .rw, 0, none, false⟩
/-- R399. -/
def FAB_RTn_MAC_LO : Reg := ⟨.dev, 0x88008, 1024, 0x20, 1, 0x0, false, true⟩
def FAB_RTn_MAC_LO.MAC : Fld := ⟨FAB_RTn_MAC_LO, 31, 13, .rw, 0, none, false⟩
/-- R399. -/
def FAB_RTn_MAC_HI : Reg := ⟨.dev, 0x8800C, 1024, 0x20, 1, 0x0, false, true⟩
def FAB_RTn_MAC_HI.MAC : Fld := ⟨FAB_RTn_MAC_HI, 15, 0, .rw, 0, none, false⟩
/-- R399. -/
def FAB_RTn_IP : Reg := ⟨.dev, 0x88010, 1024, 0x20, 4, 0x4, false, true⟩
def FAB_RTn_IP.IP : Fld := ⟨FAB_RTn_IP, 31, 0, .rw, 0, none, false⟩
/-- R410. -/
def FPORT_TE_DB : Reg := ⟨.fport, 0x8000, 1, 0x0, 1, 0x0, false, false⟩
def FPORT_TE_DB.CONN : Fld := ⟨FPORT_TE_DB, 28, 16, .wo, 0, none, false⟩
def FPORT_TE_DB.PI : Fld := ⟨FPORT_TE_DB, 15, 0, .wo, 0, none, false⟩
/-- R410. -/
def FPORT_TE_CMD : Reg := ⟨.fport, 0x8004, 1, 0x0, 1, 0x0, false, false⟩
def FPORT_TE_CMD.OP : Fld := ⟨FPORT_TE_CMD, 31, 29, .wo, 0, none, false⟩
def FPORT_TE_CMD.TARGET : Fld := ⟨FPORT_TE_CMD, 28, 16, .wo, 0, none, false⟩
def FPORT_TE_CMD.PATH : Fld := ⟨FPORT_TE_CMD, 4, 0, .wo, 0, none, false⟩
/-- R410. -/
def FPORT_TE_RESULT : Reg := ⟨.fport, 0x8008, 1, 0x0, 1, 0x0, false, false⟩
def FPORT_TE_RESULT.CODE : Fld := ⟨FPORT_TE_RESULT, 31, 28, .ro, 0, none, false⟩
def FPORT_TE_RESULT.BUSY : Fld := ⟨FPORT_TE_RESULT, 27, 27, .ro, 0, none, false⟩
def FPORT_TE_RESULT.CMD_LOST : Fld := ⟨FPORT_TE_RESULT, 26, 26, .w1c, 0, none, false⟩
def FPORT_TE_RESULT.TARGET : Fld := ⟨FPORT_TE_RESULT, 12, 0, .ro, 0, none, false⟩
/-- R410. -/
def FPORT_TE_PROBE_RTT : Reg := ⟨.fport, 0x800C, 1, 0x0, 1, 0x0, false, false⟩
def FPORT_TE_PROBE_RTT.NS : Fld := ⟨FPORT_TE_PROBE_RTT, 31, 0, .ro, 0, none, false⟩
/-- R410. -/
def FPORT_TE_STAT : Reg := ⟨.fport, 0x8010, 1, 0x0, 1, 0x0, false, false⟩
def FPORT_TE_STAT.OPEN : Fld := ⟨FPORT_TE_STAT, 12, 0, .ro, 0, none, false⟩
/-- R410. -/
def FPORT_TE_TX_PKTS : Reg := ⟨.fport, 0x8018, 1, 0x0, 1, 0x0, true, false⟩
def FPORT_TE_TX_PKTS.PKTS : Fld := ⟨FPORT_TE_TX_PKTS, 63, 0, .ro, 0, none, false⟩
/-- R410. -/
def FPORT_TE_RETX : Reg := ⟨.fport, 0x8020, 1, 0x0, 1, 0x0, true, false⟩
def FPORT_TE_RETX.PKTS : Fld := ⟨FPORT_TE_RETX, 63, 0, .ro, 0, none, false⟩
/-- R410. -/
def FPORT_TE_ABORTS : Reg := ⟨.fport, 0x8028, 1, 0x0, 1, 0x0, true, false⟩
def FPORT_TE_ABORTS.COUNT : Fld := ⟨FPORT_TE_ABORTS, 63, 0, .ro, 0, none, false⟩
/-- R412. -/
def FPORT_SEC_CTRL : Reg := ⟨.fport, 0x100, 1, 0x0, 1, 0x0, false, false⟩
def FPORT_SEC_CTRL.EN : Fld := ⟨FPORT_SEC_CTRL, 31, 31, .rw, 0, none, false⟩
def FPORT_SEC_CTRL.TX_AN : Fld := ⟨FPORT_SEC_CTRL, 29, 28, .rw, 0, none, false⟩
def FPORT_SEC_CTRL.REPLAY_WIN : Fld := ⟨FPORT_SEC_CTRL, 15, 0, .rw, 0x40, none, false⟩
/-- R412. -/
def FPORT_SEC_STAT : Reg := ⟨.fport, 0x104, 1, 0x0, 1, 0x0, false, false⟩
def FPORT_SEC_STAT.PN_WARN : Fld := ⟨FPORT_SEC_STAT, 31, 31, .w1c, 0, none, false⟩
def FPORT_SEC_STAT.PN_EXHAUST : Fld := ⟨FPORT_SEC_STAT, 30, 30, .ro, 0, none, false⟩
def FPORT_SEC_STAT.RX_VALID : Fld := ⟨FPORT_SEC_STAT, 29, 26, .ro, 0, none, false⟩
def FPORT_SEC_STAT.TX_VALID : Fld := ⟨FPORT_SEC_STAT, 25, 22, .ro, 0, none, false⟩
/-- R412. -/
def FPORT_SEC_DROP : Reg := ⟨.fport, 0x108, 1, 0x0, 1, 0x0, false, false⟩
def FPORT_SEC_DROP.COUNT : Fld := ⟨FPORT_SEC_DROP, 31, 0, .rc, 0, none, false⟩
/-- R412. -/
def FPORT_SA_d_a_KEY : Reg := ⟨.fport, 0x200, 8, 0x80, 8, 0x4, false, false⟩
def FPORT_SA_d_a_KEY.KEY : Fld := ⟨FPORT_SA_d_a_KEY, 31, 0, .wo, 0, none, false⟩
/-- R412. -/
def FPORT_SA_d_a_SALT : Reg := ⟨.fport, 0x220, 8, 0x80, 3, 0x4, false, false⟩
def FPORT_SA_d_a_SALT.SALT : Fld := ⟨FPORT_SA_d_a_SALT, 31, 0, .wo, 0, none, false⟩
/-- R412. -/
def FPORT_SA_d_a_SSCI : Reg := ⟨.fport, 0x22C, 8, 0x80, 1, 0x0, false, false⟩
def FPORT_SA_d_a_SSCI.SSCI : Fld := ⟨FPORT_SA_d_a_SSCI, 31, 0, .rw, 0, none, false⟩
/-- R412. -/
def FPORT_SA_d_a_PN : Reg := ⟨.fport, 0x230, 8, 0x80, 1, 0x0, true, false⟩
def FPORT_SA_d_a_PN.PN : Fld := ⟨FPORT_SA_d_a_PN, 63, 0, .rw, 1, none, false⟩
/-- R412. -/
def FPORT_SA_d_a_CTRL : Reg := ⟨.fport, 0x238, 8, 0x80, 1, 0x0, false, false⟩
def FPORT_SA_d_a_CTRL.VALID : Fld := ⟨FPORT_SA_d_a_CTRL, 31, 31, .rw, 0, none, false⟩
/-- R415. -/
def FAB_TIME_CTRL : Reg := ⟨.dev, 0x80100, 1, 0x0, 1, 0x0, false, false⟩
def FAB_TIME_CTRL.ROLE : Fld := ⟨FAB_TIME_CTRL, 31, 30, .rw, 0, some (0, 2), false⟩
def FAB_TIME_CTRL.DOMAIN : Fld := ⟨FAB_TIME_CTRL, 29, 22, .rw, 0, none, false⟩
def FAB_TIME_CTRL.PORTS : Fld := ⟨FAB_TIME_CTRL, 21, 14, .rw, 0, none, false⟩
/-- R415. -/
def FAB_TIME_STAT : Reg := ⟨.dev, 0x80104, 1, 0x0, 1, 0x0, false, false⟩
def FAB_TIME_STAT.STATE : Fld := ⟨FAB_TIME_STAT, 31, 30, .ro, 0, none, false⟩
def FAB_TIME_STAT.OFFSET_HIGH : Fld := ⟨FAB_TIME_STAT, 29, 29, .w1c, 0, none, false⟩
def FAB_TIME_STAT.PORT : Fld := ⟨FAB_TIME_STAT, 28, 26, .ro, 0, none, false⟩
/-- R415. -/
def FAB_TIME_OFFSET : Reg := ⟨.dev, 0x80108, 1, 0x0, 1, 0x0, false, false⟩
def FAB_TIME_OFFSET.NS : Fld := ⟨FAB_TIME_OFFSET, 31, 0, .ro, 0, none, false⟩
/-- R415. -/
def FAB_TIME_FREQ : Reg := ⟨.dev, 0x8010C, 1, 0x0, 1, 0x0, false, false⟩
def FAB_TIME_FREQ.PPB : Fld := ⟨FAB_TIME_FREQ, 31, 0, .ro, 0, none, false⟩
/-- R415. -/
def FAB_TIME_DELAY : Reg := ⟨.dev, 0x80110, 1, 0x0, 1, 0x0, false, false⟩
def FAB_TIME_DELAY.NS : Fld := ⟨FAB_TIME_DELAY, 31, 0, .ro, 0, none, false⟩
/-- R415. -/
def FAB_TIME_CMD : Reg := ⟨.dev, 0x80114, 1, 0x0, 1, 0x0, false, false⟩
def FAB_TIME_CMD.STEP : Fld := ⟨FAB_TIME_CMD, 31, 31, .wo, 0, none, false⟩
/-- R415. -/
def FAB_TIME_STEP : Reg := ⟨.dev, 0x80118, 1, 0x0, 1, 0x0, true, false⟩
def FAB_TIME_STEP.NS : Fld := ⟨FAB_TIME_STEP, 63, 0, .rw, 0, none, false⟩
/-- R416. -/
def FPORT_LLDP : Reg := ⟨.fport, 0x600, 1, 0x0, 1, 0x0, false, false⟩
def FPORT_LLDP.EN : Fld := ⟨FPORT_LLDP, 31, 31, .rw, 1, none, false⟩
def FPORT_LLDP.INTERVAL : Fld := ⟨FPORT_LLDP, 4, 0, .rw, 5, some (1, 30), false⟩
/-- R416. -/
def FPORT_NBR_STAT : Reg := ⟨.fport, 0x604, 1, 0x0, 1, 0x0, false, false⟩
def FPORT_NBR_STAT.VALID : Fld := ⟨FPORT_NBR_STAT, 31, 31, .ro, 0, none, false⟩
def FPORT_NBR_STAT.CH_SUB : Fld := ⟨FPORT_NBR_STAT, 30, 28, .ro, 0, none, false⟩
def FPORT_NBR_STAT.PORT_SUB : Fld := ⟨FPORT_NBR_STAT, 27, 25, .ro, 0, none, false⟩
def FPORT_NBR_STAT.CH_LEN : Fld := ⟨FPORT_NBR_STAT, 15, 8, .ro, 0, none, false⟩
def FPORT_NBR_STAT.PORT_LEN : Fld := ⟨FPORT_NBR_STAT, 7, 0, .ro, 0, none, false⟩
/-- R416. -/
def FPORT_NBR_CHASSIS : Reg := ⟨.fport, 0x610, 8, 0x4, 1, 0x0, false, false⟩
def FPORT_NBR_CHASSIS.BYTES : Fld := ⟨FPORT_NBR_CHASSIS, 31, 0, .ro, 0, none, false⟩
/-- R416. -/
def FPORT_NBR_PORT : Reg := ⟨.fport, 0x630, 8, 0x4, 1, 0x0, false, false⟩
def FPORT_NBR_PORT.BYTES : Fld := ⟨FPORT_NBR_PORT, 31, 0, .ro, 0, none, false⟩
/-- R439. -/
def FAB_PEERd : Reg := ⟨.dev, 0x81000, 1024, 0x4, 1, 0x0, false, false⟩
def FAB_PEERd.STATE : Fld := ⟨FAB_PEERd, 31, 29, .ro, 0, none, false⟩
def FAB_PEERd.CAUSE : Fld := ⟨FAB_PEERd, 28, 25, .ro, 0, none, false⟩
def FAB_PEERd.VMAJ : Fld := ⟨FAB_PEERd, 23, 20, .ro, 0, none, false⟩
def FAB_PEERd.VMIN : Fld := ⟨FAB_PEERd, 19, 16, .ro, 0, none, false⟩
def FAB_PEERd.STEPPED : Fld := ⟨FAB_PEERd, 15, 15, .ro, 0, none, false⟩
/-- R439. -/
def FAB_AGREE_CTRL : Reg := ⟨.dev, 0x82000, 1, 0x0, 1, 0x0, false, false⟩
def FAB_AGREE_CTRL.DIAG_EN : Fld := ⟨FAB_AGREE_CTRL, 31, 31, .rw, 0, none, false⟩
def FAB_AGREE_CTRL.DIAG_PART : Fld := ⟨FAB_AGREE_CTRL, 29, 24, .rw, 0x3f, none, false⟩
def FAB_AGREE_CTRL.RECHECK : Fld := ⟨FAB_AGREE_CTRL, 15, 0, .rw, 0x64, some (10, 10000), false⟩
/-- R439. -/
def FAB_AGREE_CMD : Reg := ⟨.dev, 0x82004, 1, 0x0, 1, 0x0, false, false⟩
def FAB_AGREE_CMD.OP : Fld := ⟨FAB_AGREE_CMD, 31, 29, .wo, 0, none, false⟩
def FAB_AGREE_CMD.TARGET : Fld := ⟨FAB_AGREE_CMD, 9, 0, .wo, 0, none, false⟩
/-- R439. -/
def FAB_AGREE_RESULT : Reg := ⟨.dev, 0x82008, 1, 0x0, 1, 0x0, false, false⟩
def FAB_AGREE_RESULT.CODE : Fld := ⟨FAB_AGREE_RESULT, 31, 28, .ro, 0, none, false⟩
def FAB_AGREE_RESULT.BUSY : Fld := ⟨FAB_AGREE_RESULT, 27, 27, .ro, 0, none, false⟩
def FAB_AGREE_RESULT.CMD_LOST : Fld := ⟨FAB_AGREE_RESULT, 26, 26, .w1c, 0, none, false⟩
def FAB_AGREE_RESULT.TARGET : Fld := ⟨FAB_AGREE_RESULT, 9, 0, .ro, 0, none, false⟩
/-- R439. -/
def FAB_AGREE_STAT : Reg := ⟨.dev, 0x8200C, 1, 0x0, 1, 0x0, false, false⟩
def FAB_AGREE_STAT.DEPARTED_SELF : Fld := ⟨FAB_AGREE_STAT, 31, 31, .ro, 0, none, false⟩
def FAB_AGREE_STAT.TIME_BAD : Fld := ⟨FAB_AGREE_STAT, 30, 30, .ro, 0, none, false⟩
def FAB_AGREE_STAT.AGREED : Fld := ⟨FAB_AGREE_STAT, 20, 10, .ro, 0, none, false⟩
def FAB_AGREE_STAT.QUAR : Fld := ⟨FAB_AGREE_STAT, 9, 0, .ro, 0, none, false⟩
/-- R439. -/
def FAB_PROTO : Reg := ⟨.dev, 0x82010, 1, 0x0, 1, 0x0, false, false⟩
def FAB_PROTO.MAJOR : Fld := ⟨FAB_PROTO, 7, 4, .ro, 1, none, false⟩
def FAB_PROTO.MINOR : Fld := ⟨FAB_PROTO, 3, 0, .ro, 0, none, false⟩
/-- R439. -/
def FAB_DIGEST : Reg := ⟨.dev, 0x82020, 4, 0x4, 1, 0x0, false, false⟩
def FAB_DIGEST.DIGEST : Fld := ⟨FAB_DIGEST, 31, 0, .ro, 0, none, false⟩
/-- R439. -/
def FAB_AGREE_THETA : Reg := ⟨.dev, 0x82030, 1, 0x0, 1, 0x0, true, false⟩
def FAB_AGREE_THETA.NS : Fld := ⟨FAB_AGREE_THETA, 63, 0, .ro, 0, none, false⟩
/-- R440. -/
def COLL_CTRL : Reg := ⟨.half, 0x80000, 1, 0x0, 1, 0x0, false, false⟩
def COLL_CTRL.EN : Fld := ⟨COLL_CTRL, 31, 31, .rw, 1, none, false⟩
def COLL_CTRL.TREE_MAX_LOG2 : Fld := ⟨COLL_CTRL, 4, 0, .rw, 0x10, some (7, 24), false⟩
/-- R440. -/
def COLL_STAT : Reg := ⟨.half, 0x80004, 1, 0x0, 1, 0x0, false, false⟩
def COLL_STAT.DB_LOST : Fld := ⟨COLL_STAT, 31, 31, .w1c, 0, none, false⟩
def COLL_STAT.FAIL_SEEN : Fld := ⟨COLL_STAT, 30, 30, .w1c, 0, none, false⟩
def COLL_STAT.ACTIVE : Fld := ⟨COLL_STAT, 6, 0, .ro, 0, none, false⟩
/-- R440. -/
def COLL_DONE : Reg := ⟨.half, 0x80040, 1, 0x0, 1, 0x0, true, false⟩
def COLL_DONE.COUNT : Fld := ⟨COLL_DONE, 63, 0, .ro, 0, none, false⟩
/-- R440. -/
def COLL_BYTES : Reg := ⟨.half, 0x80048, 1, 0x0, 1, 0x0, true, false⟩
def COLL_BYTES.BYTES : Fld := ⟨COLL_BYTES, 63, 0, .ro, 0, none, false⟩
/-- R440. -/
def COLL_FAILS : Reg := ⟨.half, 0x80050, 1, 0x0, 1, 0x0, false, false⟩
def COLL_FAILS.COUNT : Fld := ⟨COLL_FAILS, 31, 0, .rc, 0, none, false⟩
/-- R440. -/
def COLL_Qp_LO : Reg := ⟨.half, 0x81000, 64, 0x20, 1, 0x0, false, false⟩
def COLL_Qp_LO.DA : Fld := ⟨COLL_Qp_LO, 31, 0, .rw, 0, none, false⟩
/-- R440. -/
def COLL_Qp_HI : Reg := ⟨.half, 0x81004, 64, 0x20, 1, 0x0, false, false⟩
def COLL_Qp_HI.LOG2 : Fld := ⟨COLL_Qp_HI, 19, 16, .rw, 4, some (4, 12), false⟩
def COLL_Qp_HI.DA : Fld := ⟨COLL_Qp_HI, 15, 0, .rw, 0, none, false⟩
/-- R440. -/
def COLL_Qp_CQ_LO : Reg := ⟨.half, 0x81008, 64, 0x20, 1, 0x0, false, false⟩
def COLL_Qp_CQ_LO.DA : Fld := ⟨COLL_Qp_CQ_LO, 31, 0, .rw, 0, none, false⟩
/-- R440. -/
def COLL_Qp_CQ_HI : Reg := ⟨.half, 0x8100C, 64, 0x20, 1, 0x0, false, false⟩
def COLL_Qp_CQ_HI.DA : Fld := ⟨COLL_Qp_CQ_HI, 15, 0, .rw, 0, none, false⟩
/-- R440. -/
def COLL_Qp_DB : Reg := ⟨.half, 0x81010, 64, 0x20, 1, 0x0, false, false⟩
def COLL_Qp_DB.PI : Fld := ⟨COLL_Qp_DB, 15, 0, .wo, 0, none, false⟩
/-- R440. -/
def COLL_Qp_IDX : Reg := ⟨.half, 0x81014, 64, 0x20, 1, 0x0, false, false⟩
def COLL_Qp_IDX.CI : Fld := ⟨COLL_Qp_IDX, 31, 16, .ro, 0, none, false⟩
def COLL_Qp_IDX.CQ_PI : Fld := ⟨COLL_Qp_IDX, 15, 0, .ro, 0, none, false⟩
/-- R440. -/
def COLL_Qp_CQ_CI : Reg := ⟨.half, 0x81018, 64, 0x20, 1, 0x0, false, false⟩
def COLL_Qp_CQ_CI.CQ_CI : Fld := ⟨COLL_Qp_CQ_CI, 15, 0, .rw, 0, none, false⟩
/-- R469. -/
def PCIE_STAT : Reg := ⟨.half, 0x10000, 1, 0x0, 1, 0x0, false, false⟩
def PCIE_STAT.UP : Fld := ⟨PCIE_STAT, 31, 31, .ro, 0, none, false⟩
def PCIE_STAT.FLIT : Fld := ⟨PCIE_STAT, 30, 30, .ro, 0, none, false⟩
def PCIE_STAT.SPEED : Fld := ⟨PCIE_STAT, 29, 27, .ro, 0, none, false⟩
def PCIE_STAT.WIDTH : Fld := ⟨PCIE_STAT, 26, 24, .ro, 0, none, false⟩
def PCIE_STAT.DOWN_SEEN : Fld := ⟨PCIE_STAT, 23, 23, .w1c, 0, none, false⟩
/-- R469. -/
def PCIE_CTRL : Reg := ⟨.half, 0x10004, 1, 0x0, 1, 0x0, false, false⟩
def PCIE_CTRL.MAX_SPEED : Fld := ⟨PCIE_CTRL, 31, 29, .rw, 5, some (0, 5), false⟩
/-- R469. -/
def PCIE_SRIOV : Reg := ⟨.half, 0x10008, 1, 0x0, 1, 0x0, false, false⟩
def PCIE_SRIOV.SPLIT : Fld := ⟨PCIE_SRIOV, 6, 0, .ro, 0x40, none, false⟩
/-- R469. -/
def PCIE_ATC_MISS : Reg := ⟨.half, 0x10010, 1, 0x0, 1, 0x0, true, false⟩
def PCIE_ATC_MISS.COUNT : Fld := ⟨PCIE_ATC_MISS, 63, 0, .ro, 0, none, false⟩
/-- R469. -/
def PCIE_INVAL : Reg := ⟨.half, 0x10018, 1, 0x0, 1, 0x0, true, false⟩
def PCIE_INVAL.COUNT : Fld := ⟨PCIE_INVAL, 63, 0, .ro, 0, none, false⟩
/-- R469. -/
def PCIE_UR_CNT : Reg := ⟨.half, 0x10020, 1, 0x0, 1, 0x0, false, false⟩
def PCIE_UR_CNT.COUNT : Fld := ⟨PCIE_UR_CNT, 15, 0, .rc, 0, none, false⟩
/-- R470. -/
def HDMA_STAT : Reg := ⟨.half, 0x20000, 1, 0x0, 1, 0x0, false, false⟩
def HDMA_STAT.UE_SEEN : Fld := ⟨HDMA_STAT, 31, 31, .w1c, 0, none, false⟩
def HDMA_STAT.BUSY : Fld := ⟨HDMA_STAT, 6, 0, .ro, 0, none, false⟩
/-- R470. -/
def HDMA_BYTES_IN : Reg := ⟨.half, 0x20008, 1, 0x0, 1, 0x0, true, false⟩
def HDMA_BYTES_IN.BYTES : Fld := ⟨HDMA_BYTES_IN, 63, 0, .ro, 0, none, false⟩
/-- R470. -/
def HDMA_BYTES_OUT : Reg := ⟨.half, 0x20010, 1, 0x0, 1, 0x0, true, false⟩
def HDMA_BYTES_OUT.BYTES : Fld := ⟨HDMA_BYTES_OUT, 63, 0, .ro, 0, none, false⟩
/-- R470. -/
def HDMA_FAULT_CNT : Reg := ⟨.half, 0x20018, 1, 0x0, 1, 0x0, false, false⟩
def HDMA_FAULT_CNT.COUNT : Fld := ⟨HDMA_FAULT_CNT, 15, 0, .rc, 0, none, false⟩
/-- R471. -/
def HQ_STAT : Reg := ⟨.half, 0x30000, 1, 0x0, 1, 0x0, false, false⟩
def HQ_STAT.DB_LOST : Fld := ⟨HQ_STAT, 31, 31, .w1c, 0, none, false⟩
def HQ_STAT.MULTI_HIT : Fld := ⟨HQ_STAT, 30, 30, .rws, 0, none, false⟩
def HQ_STAT.WR_LOST : Fld := ⟨HQ_STAT, 29, 29, .w1c, 0, none, false⟩
def HQ_STAT.QPS : Fld := ⟨HQ_STAT, 10, 0, .ro, 0, none, false⟩
/-- R471. -/
def HQ_BAR2 : Reg := ⟨.half, 0x30008, 1, 0x0, 1, 0x0, false, false⟩
def HQ_BAR2.WIN : Fld := ⟨HQ_BAR2, 2, 0, .rw, 0, none, false⟩
/-- R471. -/
def HQ_CMDS : Reg := ⟨.half, 0x30010, 1, 0x0, 1, 0x0, true, false⟩
def HQ_CMDS.COUNT : Fld := ⟨HQ_CMDS, 63, 0, .ro, 0, none, false⟩
/-- R471. -/
def HQ_QPn_CTRL : Reg := ⟨.half, 0x38000, 1024, 0x20, 1, 0x0, false, false⟩
def HQ_QPn_CTRL.VALID : Fld := ⟨HQ_QPn_CTRL, 31, 31, .rw, 0, none, false⟩
def HQ_QPn_CTRL.IRQ_EN : Fld := ⟨HQ_QPn_CTRL, 30, 30, .rw, 0, none, false⟩
def HQ_QPn_CTRL.SLOT : Fld := ⟨HQ_QPn_CTRL, 29, 27, .rw, 0, none, false⟩
def HQ_QPn_CTRL.VECTOR : Fld := ⟨HQ_QPn_CTRL, 26, 16, .rw, 0, none, false⟩
def HQ_QPn_CTRL.TENANT : Fld := ⟨HQ_QPn_CTRL, 11, 0, .rw, 0, none, false⟩
/-- R471. -/
def HQ_QPn_SQ : Reg := ⟨.half, 0x38008, 1024, 0x20, 1, 0x0, true, false⟩
def HQ_QPn_SQ.ADDR : Fld := ⟨HQ_QPn_SQ, 63, 0, .rw, 0, none, false⟩
/-- R471. -/
def HQ_QPn_CQ : Reg := ⟨.half, 0x38010, 1024, 0x20, 1, 0x0, true, false⟩
def HQ_QPn_CQ.ADDR : Fld := ⟨HQ_QPn_CQ, 63, 0, .rw, 0, none, false⟩
/-- R471. -/
def HQ_QPn_SIZE : Reg := ⟨.half, 0x38018, 1024, 0x20, 1, 0x0, false, false⟩
def HQ_QPn_SIZE.SQ_LOG2 : Fld := ⟨HQ_QPn_SIZE, 19, 16, .rw, 4, some (4, 12), false⟩
def HQ_QPn_SIZE.CQ_LOG2 : Fld := ⟨HQ_QPn_SIZE, 3, 0, .rw, 4, some (4, 12), false⟩
/-- R471. -/
def HQ_QPn_IDX : Reg := ⟨.half, 0x3801C, 1024, 0x20, 1, 0x0, false, false⟩
def HQ_QPn_IDX.SQ_CI : Fld := ⟨HQ_QPn_IDX, 31, 16, .ro, 0, none, false⟩
def HQ_QPn_IDX.CQ_PI : Fld := ⟨HQ_QPn_IDX, 15, 0, .ro, 0, none, false⟩
/-- R472. -/
def PART_STAT : Reg := ⟨.dev, 0x70000, 1, 0x0, 1, 0x0, false, false⟩
def PART_STAT.PROT_MULTI : Fld := ⟨PART_STAT, 31, 31, .rws, 0, none, false⟩
def PART_STAT.IRQ_MULTI : Fld := ⟨PART_STAT, 30, 30, .rws, 0, none, false⟩
def PART_STAT.PART_MULTI : Fld := ⟨PART_STAT, 29, 29, .rws, 0, none, false⟩
def PART_STAT.WR_LOST : Fld := ⟨PART_STAT, 28, 28, .w1c, 0, none, false⟩
def PART_STAT.IRQ_MISS : Fld := ⟨PART_STAT, 27, 27, .w1c, 0, none, false⟩
def PART_STAT.VALID : Fld := ⟨PART_STAT, 6, 0, .ro, 0, none, false⟩
/-- R472. -/
def PART_CMD : Reg := ⟨.dev, 0x70004, 1, 0x0, 1, 0x0, false, false⟩
def PART_CMD.OP : Fld := ⟨PART_CMD, 31, 29, .wo, 0, none, false⟩
def PART_CMD.TARGET : Fld := ⟨PART_CMD, 11, 0, .wo, 0, none, false⟩
/-- R472. -/
def PART_RESULT : Reg := ⟨.dev, 0x70008, 1, 0x0, 1, 0x0, false, false⟩
def PART_RESULT.CODE : Fld := ⟨PART_RESULT, 31, 28, .ro, 0, none, false⟩
def PART_RESULT.BUSY : Fld := ⟨PART_RESULT, 27, 27, .ro, 0, none, false⟩
def PART_RESULT.CMD_LOST : Fld := ⟨PART_RESULT, 26, 26, .w1c, 0, none, false⟩
def PART_RESULT.TARGET : Fld := ⟨PART_RESULT, 11, 0, .ro, 0, none, false⟩
/-- R472. -/
def PART_TENANT_BASE : Reg := ⟨.dev, 0x70010, 1, 0x0, 1, 0x0, true, false⟩
def PART_TENANT_BASE.DA : Fld := ⟨PART_TENANT_BASE, 63, 16, .rw, 0, none, false⟩
/-- R472. -/
def PART_CLAMP_ANY : Reg := ⟨.dev, 0x70020, 1, 0x0, 1, 0x0, false, false⟩
def PART_CLAMP_ANY.SEEN : Fld := ⟨PART_CLAMP_ANY, 4, 0, .w1c, 0, none, false⟩
/-- R472. -/
def PART_Pp_CTRL : Reg := ⟨.dev, 0x71000, 64, 0x40, 1, 0x0, false, false⟩
def PART_Pp_CTRL.VALID : Fld := ⟨PART_Pp_CTRL, 31, 31, .rw, 0, none, false⟩
def PART_Pp_CTRL.BUSY : Fld := ⟨PART_Pp_CTRL, 30, 30, .ro, 0, none, false⟩
def PART_Pp_CTRL.PAGE_SIZE : Fld := ⟨PART_Pp_CTRL, 27, 26, .rw, 0, some (0, 2), false⟩
/-- R472. -/
def PART_Pp_SEQ_BASE : Reg := ⟨.dev, 0x71008, 64, 0x40, 1, 0x0, true, false⟩
def PART_Pp_SEQ_BASE.DA : Fld := ⟨PART_Pp_SEQ_BASE, 63, 0, .rw, 0, none, false⟩
/-- R472. -/
def PART_Pp_SEQ_RANGE : Reg := ⟨.dev, 0x71010, 64, 0x40, 1, 0x0, false, false⟩
def PART_Pp_SEQ_RANGE.COUNT : Fld := ⟨PART_Pp_SEQ_RANGE, 31, 16, .rw, 0, some (0, 32768), false⟩
def PART_Pp_SEQ_RANGE.FIRST : Fld := ⟨PART_Pp_SEQ_RANGE, 14, 0, .rw, 0, none, false⟩
/-- R472. -/
def PART_Pp_CLUSTERSw : Reg := ⟨.dev, 0x71020, 64, 0x40, 8, 0x4, false, false⟩
def PART_Pp_CLUSTERSw.MASK : Fld := ⟨PART_Pp_CLUSTERSw, 31, 0, .rw, 0, none, false⟩
/-- R472. -/
def PART_PROTr_CTRL : Reg := ⟨.dev, 0x72000, 128, 0x20, 1, 0x0, false, true⟩
def PART_PROTr_CTRL.VALID : Fld := ⟨PART_PROTr_CTRL, 31, 31, .rw, 0, none, false⟩
def PART_PROTr_CTRL.PERM : Fld := ⟨PART_PROTr_CTRL, 30, 29, .rw, 0, some (0, 2), false⟩
/-- R472. -/
def PART_PROTr_PARTS : Reg := ⟨.dev, 0x72008, 128, 0x20, 1, 0x0, true, true⟩
def PART_PROTr_PARTS.PARTS : Fld := ⟨PART_PROTr_PARTS, 63, 0, .rw, 0, none, false⟩
/-- R472. -/
def PART_PROTr_BASE : Reg := ⟨.dev, 0x72010, 128, 0x20, 1, 0x0, true, true⟩
def PART_PROTr_BASE.DA : Fld := ⟨PART_PROTr_BASE, 63, 0, .rw, 0, none, false⟩
/-- R472. -/
def PART_PROTr_LIMIT : Reg := ⟨.dev, 0x72018, 128, 0x20, 1, 0x0, true, true⟩
def PART_PROTr_LIMIT.DA : Fld := ⟨PART_PROTr_LIMIT, 63, 0, .rw, 0, none, false⟩
/-- R472. -/
def PART_IRQi : Reg := ⟨.dev, 0x73000, 64, 0x4, 1, 0x0, false, true⟩
def PART_IRQi.VALID : Fld := ⟨PART_IRQi, 31, 31, .rw, 0, none, false⟩
def PART_IRQi.CLASS : Fld := ⟨PART_IRQi, 30, 27, .rw, 0, some (0, 7), false⟩
def PART_IRQi.ALLPART : Fld := ⟨PART_IRQi, 26, 26, .rw, 0, none, false⟩
def PART_IRQi.PART : Fld := ⟨PART_IRQi, 25, 20, .rw, 0, none, false⟩
def PART_IRQi.FUNC : Fld := ⟨PART_IRQi, 19, 13, .rw, 0, some (0, 65), false⟩
def PART_IRQi.VECTOR : Fld := ⟨PART_IRQi, 7, 0, .rw, 0, none, false⟩
/-- R472. -/
def PART_CLAMP_DEVn : Reg := ⟨.dev, 0x74000, 10, 0x4, 1, 0x0, false, false⟩
def PART_CLAMP_DEVn.SEEN : Fld := ⟨PART_CLAMP_DEVn, 31, 31, .w1c, 0, none, false⟩
def PART_CLAMP_DEVn.COUNT : Fld := ⟨PART_CLAMP_DEVn, 30, 16, .rc, 0, none, false⟩
def PART_CLAMP_DEVn.LAST : Fld := ⟨PART_CLAMP_DEVn, 13, 0, .ro, 0, none, false⟩
/-- R472. -/
def PART_CLAMP_HBh_n : Reg := ⟨.dev, 0x74040, 2, 0x40, 12, 0x4, false, false⟩
def PART_CLAMP_HBh_n.SEEN : Fld := ⟨PART_CLAMP_HBh_n, 31, 31, .w1c, 0, none, false⟩
def PART_CLAMP_HBh_n.COUNT : Fld := ⟨PART_CLAMP_HBh_n, 30, 16, .rc, 0, none, false⟩
def PART_CLAMP_HBh_n.LAST : Fld := ⟨PART_CLAMP_HBh_n, 13, 0, .ro, 0, none, false⟩
/-- R472. -/
def PART_CLAMP_CLh_c : Reg := ⟨.dev, 0x74100, 256, 0x4, 1, 0x0, false, false⟩
def PART_CLAMP_CLh_c.SEEN : Fld := ⟨PART_CLAMP_CLh_c, 31, 31, .w1c, 0, none, false⟩
def PART_CLAMP_CLh_c.COUNT : Fld := ⟨PART_CLAMP_CLh_c, 30, 16, .rc, 0, none, false⟩
def PART_CLAMP_CLh_c.LAST : Fld := ⟨PART_CLAMP_CLh_c, 13, 0, .ro, 0, none, false⟩
/-- R500. -/
def ERR_CTRL : Reg := ⟨.dev, 0x60000, 1, 0x0, 1, 0x0, false, false⟩
def ERR_CTRL.EN : Fld := ⟨ERR_CTRL, 31, 31, .rw, 0, none, false⟩
def ERR_CTRL.OVERWRITE : Fld := ⟨ERR_CTRL, 30, 30, .rw, 1, none, false⟩
/-- R500. -/
def ERR_STAT : Reg := ⟨.dev, 0x60004, 1, 0x0, 1, 0x0, false, false⟩
def ERR_STAT.LOST_SEEN : Fld := ⟨ERR_STAT, 31, 31, .w1c, 0, none, false⟩
def ERR_STAT.DROP_SEEN : Fld := ⟨ERR_STAT, 30, 30, .w1c, 0, none, false⟩
def ERR_STAT.BASE_LOST : Fld := ⟨ERR_STAT, 29, 29, .w1c, 0, none, false⟩
/-- R500. -/
def ERR_RING_BASE : Reg := ⟨.dev, 0x60008, 1, 0x0, 1, 0x0, true, false⟩
def ERR_RING_BASE.DA : Fld := ⟨ERR_RING_BASE, 47, 17, .rw, 0, none, false⟩
/-- R500. -/
def ERR_PI : Reg := ⟨.dev, 0x60010, 1, 0x0, 1, 0x0, false, false⟩
def ERR_PI.SEQ : Fld := ⟨ERR_PI, 23, 0, .ro, 0, none, false⟩
/-- R500. -/
def ERR_CI : Reg := ⟨.dev, 0x60014, 1, 0x0, 1, 0x0, false, false⟩
def ERR_CI.SEQ : Fld := ⟨ERR_CI, 23, 0, .rw, 0, none, false⟩
/-- R500. -/
def ERR_LOST : Reg := ⟨.dev, 0x60018, 1, 0x0, 1, 0x0, false, false⟩
def ERR_LOST.COUNT : Fld := ⟨ERR_LOST, 31, 0, .rc, 0, none, false⟩
/-- R500. -/
def ERR_DROP : Reg := ⟨.dev, 0x6001C, 1, 0x0, 1, 0x0, false, false⟩
def ERR_DROP.COUNT : Fld := ⟨ERR_DROP, 31, 0, .rc, 0, none, false⟩
/-- R500. -/
def ERR_UE_CTRL : Reg := ⟨.dev, 0x60020, 1, 0x0, 1, 0x0, false, false⟩
def ERR_UE_CTRL.LIMIT : Fld := ⟨ERR_UE_CTRL, 31, 16, .rw, 0x40, some (1, 65535), false⟩
def ERR_UE_CTRL.WINDOW : Fld := ⟨ERR_UE_CTRL, 7, 0, .rw, 0x18, some (1, 168), false⟩
/-- R500. -/
def ERR_UE_COUNT : Reg := ⟨.dev, 0x60024, 1, 0x0, 1, 0x0, false, false⟩
def ERR_UE_COUNT.COUNT : Fld := ⟨ERR_UE_COUNT, 31, 0, .ro, 0, none, false⟩
/-- R500. -/
def ERR_SVC : Reg := ⟨.dev, 0x60030, 1, 0x0, 1, 0x0, false, false⟩
def ERR_SVC.CAUSE : Fld := ⟨ERR_SVC, 5, 0, .ro, 0, none, false⟩
/-- R500. -/
def ERR_RECi : Reg := ⟨.dev, 0x61000, 16, 0x20, 8, 0x4, false, false⟩
def ERR_RECi.RECORD : Fld := ⟨ERR_RECi, 31, 0, .ro, 0, none, false⟩
/-- R501. -/
def CHK_CTRL : Reg := ⟨.dev, 0x90000, 1, 0x0, 1, 0x0, false, false⟩
def CHK_CTRL.EN : Fld := ⟨CHK_CTRL, 31, 31, .rw, 1, none, false⟩
def CHK_CTRL.TIEBREAK : Fld := ⟨CHK_CTRL, 30, 30, .rw, 1, none, false⟩
def CHK_CTRL.FORCE_UNCHECKED : Fld := ⟨CHK_CTRL, 29, 29, .rw, 1, none, false⟩
/-- R501. -/
def CHK_STAT : Reg := ⟨.dev, 0x90004, 1, 0x0, 1, 0x0, false, false⟩
def CHK_STAT.DB_LOST : Fld := ⟨CHK_STAT, 31, 31, .w1c, 0, none, false⟩
def CHK_STAT.FAIL_SEEN : Fld := ⟨CHK_STAT, 30, 30, .w1c, 0, none, false⟩
def CHK_STAT.POOL_WAIT : Fld := ⟨CHK_STAT, 29, 29, .ro, 0, none, false⟩
def CHK_STAT.ACTIVE : Fld := ⟨CHK_STAT, 8, 0, .ro, 0, none, false⟩
/-- R501. -/
def CHK_FRACw : Reg := ⟨.dev, 0x90010, 8, 0x4, 1, 0x0, false, true⟩
def CHK_FRACw.FRAC0 : Fld := ⟨CHK_FRACw, 2, 0, .rw, 0, some (0, 4), false⟩
def CHK_FRACw.FRAC1 : Fld := ⟨CHK_FRACw, 6, 4, .rw, 0, some (0, 4), false⟩
def CHK_FRACw.FRAC2 : Fld := ⟨CHK_FRACw, 10, 8, .rw, 0, some (0, 4), false⟩
def CHK_FRACw.FRAC3 : Fld := ⟨CHK_FRACw, 14, 12, .rw, 0, some (0, 4), false⟩
def CHK_FRACw.FRAC4 : Fld := ⟨CHK_FRACw, 18, 16, .rw, 0, some (0, 4), false⟩
def CHK_FRACw.FRAC5 : Fld := ⟨CHK_FRACw, 22, 20, .rw, 0, some (0, 4), false⟩
def CHK_FRACw.FRAC6 : Fld := ⟨CHK_FRACw, 26, 24, .rw, 0, some (0, 4), false⟩
def CHK_FRACw.FRAC7 : Fld := ⟨CHK_FRACw, 30, 28, .rw, 0, some (0, 4), false⟩
/-- R501. -/
def CHK_STEPS : Reg := ⟨.dev, 0x90040, 1, 0x0, 1, 0x0, true, false⟩
def CHK_STEPS.COUNT : Fld := ⟨CHK_STEPS, 63, 0, .ro, 0, none, false⟩
/-- R501. -/
def CHK_REPLAYS : Reg := ⟨.dev, 0x90048, 1, 0x0, 1, 0x0, true, false⟩
def CHK_REPLAYS.COUNT : Fld := ⟨CHK_REPLAYS, 63, 0, .ro, 0, none, false⟩
/-- R501. -/
def CHK_TIEBREAKS : Reg := ⟨.dev, 0x90050, 1, 0x0, 1, 0x0, true, false⟩
def CHK_TIEBREAKS.COUNT : Fld := ⟨CHK_TIEBREAKS, 63, 0, .ro, 0, none, false⟩
/-- R501. -/
def CHK_FAILS : Reg := ⟨.dev, 0x90058, 1, 0x0, 1, 0x0, false, false⟩
def CHK_FAILS.COUNT : Fld := ⟨CHK_FAILS, 31, 0, .rc, 0, none, false⟩
/-- R501. -/
def CHK_REH_CTRL : Reg := ⟨.dev, 0x90100, 1, 0x0, 1, 0x0, false, false⟩
def CHK_REH_CTRL.AUTO : Fld := ⟨CHK_REH_CTRL, 31, 31, .rw, 0, none, false⟩
def CHK_REH_CTRL.TENANT : Fld := ⟨CHK_REH_CTRL, 27, 16, .rw, 0xfff, none, false⟩
def CHK_REH_CTRL.INTERVAL : Fld := ⟨CHK_REH_CTRL, 15, 0, .rw, 0x3e8, some (1, 65535), false⟩
/-- R501. -/
def CHK_REH_SET : Reg := ⟨.dev, 0x90108, 1, 0x0, 1, 0x0, true, false⟩
def CHK_REH_SET.DA : Fld := ⟨CHK_REH_SET, 47, 10, .rw, 0, none, false⟩
/-- R501. -/
def CHK_REH_SCRATCH : Reg := ⟨.dev, 0x90110, 1, 0x0, 1, 0x0, false, false⟩
def CHK_REH_SCRATCH.OFFSET : Fld := ⟨CHK_REH_SCRATCH, 26, 12, .rw, 0, none, false⟩
/-- R501. -/
def CHK_REH_CMD : Reg := ⟨.dev, 0x90114, 1, 0x0, 1, 0x0, false, false⟩
def CHK_REH_CMD.OP : Fld := ⟨CHK_REH_CMD, 31, 29, .wo, 0, none, false⟩
def CHK_REH_CMD.TARGET : Fld := ⟨CHK_REH_CMD, 27, 16, .wo, 0, none, false⟩
def CHK_REH_CMD.MASK : Fld := ⟨CHK_REH_CMD, 15, 0, .wo, 0, none, false⟩
/-- R501. -/
def CHK_REH_RESULT : Reg := ⟨.dev, 0x90118, 1, 0x0, 1, 0x0, false, false⟩
def CHK_REH_RESULT.CODE : Fld := ⟨CHK_REH_RESULT, 31, 28, .ro, 0, none, false⟩
def CHK_REH_RESULT.BUSY : Fld := ⟨CHK_REH_RESULT, 27, 27, .ro, 0, none, false⟩
def CHK_REH_RESULT.CMD_LOST : Fld := ⟨CHK_REH_RESULT, 26, 26, .w1c, 0, none, false⟩
def CHK_REH_RESULT.TARGET : Fld := ⟨CHK_REH_RESULT, 11, 0, .ro, 0, none, false⟩
/-- R501. -/
def CHK_REH_RUNS : Reg := ⟨.dev, 0x90120, 1, 0x0, 1, 0x0, true, false⟩
def CHK_REH_RUNS.COUNT : Fld := ⟨CHK_REH_RUNS, 63, 0, .ro, 0, none, false⟩
/-- R501. -/
def CHK_REH_FAILS : Reg := ⟨.dev, 0x90128, 1, 0x0, 1, 0x0, false, false⟩
def CHK_REH_FAILS.COUNT : Fld := ⟨CHK_REH_FAILS, 31, 0, .rc, 0, none, false⟩
/-- R502. -/
def CL_QUEUE_POOL : Reg := ⟨.cluster, 0x6000, 1, 0x0, 1, 0x0, false, true⟩
def CL_QUEUE_POOL.POOL : Fld := ⟨CL_QUEUE_POOL, 15, 0, .rw, 0, none, false⟩
/-- R502. -/
def CL_QUEUE_STAT : Reg := ⟨.cluster, 0x6004, 1, 0x0, 1, 0x0, false, false⟩
def CL_QUEUE_STAT.HOLD_SEEN : Fld := ⟨CL_QUEUE_STAT, 31, 31, .w1c, 0, none, false⟩
def CL_QUEUE_STAT.HELD : Fld := ⟨CL_QUEUE_STAT, 20, 16, .ro, 0, none, false⟩
def CL_QUEUE_STAT.WITHDRAWN : Fld := ⟨CL_QUEUE_STAT, 15, 0, .ro, 0, none, false⟩
/-- R502. -/
def CL_QUEUE_ABANDON : Reg := ⟨.cluster, 0x6008, 1, 0x0, 1, 0x0, false, false⟩
def CL_QUEUE_ABANDON.COUNT : Fld := ⟨CL_QUEUE_ABANDON, 15, 0, .rc, 0, none, false⟩
/-- R503. -/
def CORE_UNIT_CE_IMEM : Reg := ⟨.core, 0x3900, 1, 0x0, 1, 0x0, false, false⟩
def CORE_UNIT_CE_IMEM.COUNT : Fld := ⟨CORE_UNIT_CE_IMEM, 31, 0, .rc, 0, none, false⟩
/-- R503. -/
def CORE_UNIT_CE_SP : Reg := ⟨.core, 0x3904, 1, 0x0, 1, 0x0, false, false⟩
def CORE_UNIT_CE_SP.COUNT : Fld := ⟨CORE_UNIT_CE_SP, 31, 0, .rc, 0, none, false⟩
/-- R503. -/
def CORE_UNIT_CE_ACC : Reg := ⟨.core, 0x3908, 1, 0x0, 1, 0x0, false, false⟩
def CORE_UNIT_CE_ACC.COUNT : Fld := ⟨CORE_UNIT_CE_ACC, 31, 0, .rc, 0, none, false⟩
/-- R503. -/
def CORE_UNIT_CE_CB : Reg := ⟨.core, 0x390C, 1, 0x0, 1, 0x0, false, false⟩
def CORE_UNIT_CE_CB.COUNT : Fld := ⟨CORE_UNIT_CE_CB, 31, 0, .rc, 0, none, false⟩
/-- R503. -/
def CORE_UNIT_CE_MSG : Reg := ⟨.core, 0x3910, 1, 0x0, 1, 0x0, false, false⟩
def CORE_UNIT_CE_MSG.COUNT : Fld := ⟨CORE_UNIT_CE_MSG, 31, 0, .rc, 0, none, false⟩
/-- R503. -/
def CORE_UNIT_REH : Reg := ⟨.core, 0x3920, 1, 0x0, 1, 0x0, false, false⟩
def CORE_UNIT_REH.RESULT : Fld := ⟨CORE_UNIT_REH, 31, 30, .ro, 0, none, false⟩
def CORE_UNIT_REH.KERNEL : Fld := ⟨CORE_UNIT_REH, 29, 26, .ro, 0, none, false⟩
def CORE_UNIT_REH.WHY : Fld := ⟨CORE_UNIT_REH, 25, 24, .ro, 0, none, false⟩
/-- R503. -/
def CORE_UNIT_ROLE : Reg := ⟨.core, 0x3924, 1, 0x0, 1, 0x0, false, false⟩
def CORE_UNIT_ROLE.ROLE : Fld := ⟨CORE_UNIT_ROLE, 31, 30, .ro, 0, none, false⟩
/-- R537. -/
def SEQ_ID : Reg := ⟨.dev, 0x0, 1, 0x0, 1, 0x0, false, false⟩
def SEQ_ID.PART : Fld := ⟨SEQ_ID, 31, 16, .ro, 0x352, none, false⟩
def SEQ_ID.REV : Fld := ⟨SEQ_ID, 15, 8, .ro, 0xa1, none, false⟩
/-- R537. -/
def SEQ_SERIAL : Reg := ⟨.dev, 0x8, 1, 0x0, 1, 0x0, true, false⟩
def SEQ_SERIAL.SERIAL : Fld := ⟨SEQ_SERIAL, 63, 0, .ro, 0, none, false⟩
/-- R537. -/
def SEQ_STAT : Reg := ⟨.dev, 0x10, 1, 0x0, 1, 0x0, false, false⟩
def SEQ_STAT.STAGE : Fld := ⟨SEQ_STAT, 31, 28, .ro, 0, none, false⟩
def SEQ_STAT.READY : Fld := ⟨SEQ_STAT, 27, 27, .ro, 0, none, false⟩
def SEQ_STAT.JOINED : Fld := ⟨SEQ_STAT, 26, 26, .ro, 0, none, false⟩
def SEQ_STAT.RECOVERY : Fld := ⟨SEQ_STAT, 25, 25, .ro, 0, none, false⟩
def SEQ_STAT.COPY : Fld := ⟨SEQ_STAT, 24, 23, .ro, 0, none, false⟩
def SEQ_STAT.COMMIT_CUT : Fld := ⟨SEQ_STAT, 22, 22, .ro, 0, none, false⟩
def SEQ_STAT.ACCESS_LOST : Fld := ⟨SEQ_STAT, 21, 21, .w1c, 0, none, false⟩
/-- R537. -/
def SEQ_BOOT_US : Reg := ⟨.dev, 0x18, 1, 0x0, 1, 0x0, false, false⟩
def SEQ_BOOT_US.US : Fld := ⟨SEQ_BOOT_US, 31, 0, .ro, 0, none, false⟩
/-- R537. -/
def SEQ_JOIN : Reg := ⟨.dev, 0x1C, 1, 0x0, 1, 0x0, false, false⟩
def SEQ_JOIN.MISS : Fld := ⟨SEQ_JOIN, 31, 21, .ro, 0, none, false⟩
def SEQ_JOIN.MS : Fld := ⟨SEQ_JOIN, 20, 0, .ro, 0, none, false⟩
/-- R537. -/
def SEQ_IMG : Reg := ⟨.dev, 0x20, 1, 0x0, 1, 0x0, false, false⟩
def SEQ_IMG.SERIAL : Fld := ⟨SEQ_IMG, 31, 0, .ro, 0, none, false⟩
/-- R537. -/
def SEQ_IMG_STAT : Reg := ⟨.dev, 0x24, 1, 0x0, 1, 0x0, false, false⟩
def SEQ_IMG_STAT.A_RESULT : Fld := ⟨SEQ_IMG_STAT, 31, 28, .ro, 0, none, false⟩
def SEQ_IMG_STAT.B_RESULT : Fld := ⟨SEQ_IMG_STAT, 27, 24, .ro, 0, none, false⟩
def SEQ_IMG_STAT.UNKNOWN : Fld := ⟨SEQ_IMG_STAT, 23, 16, .ro, 0, none, false⟩
def SEQ_IMG_STAT.SKIPPED : Fld := ⟨SEQ_IMG_STAT, 15, 8, .ro, 0, none, false⟩
def SEQ_IMG_STAT.KEY_INDEX : Fld := ⟨SEQ_IMG_STAT, 7, 6, .ro, 0, none, false⟩
def SEQ_IMG_STAT.RB_FUSE : Fld := ⟨SEQ_IMG_STAT, 5, 0, .ro, 0, none, false⟩
/-- R537. -/
def SEQ_CAUSE : Reg := ⟨.dev, 0x30, 1, 0x0, 1, 0x0, false, false⟩
def SEQ_CAUSE.COLD : Fld := ⟨SEQ_CAUSE, 31, 28, .ro, 0, none, false⟩
def SEQ_CAUSE.WARM : Fld := ⟨SEQ_CAUSE, 27, 24, .ro, 0, none, false⟩
def SEQ_CAUSE.WARMS : Fld := ⟨SEQ_CAUSE, 15, 0, .ro, 0, none, false⟩
/-- R537. -/
def SEQ_RST_ARM : Reg := ⟨.dev, 0x40, 1, 0x0, 1, 0x0, false, false⟩
def SEQ_RST_ARM.KEY : Fld := ⟨SEQ_RST_ARM, 15, 0, .wo, 0, none, false⟩
/-- R537. -/
def SEQ_RST_CMD : Reg := ⟨.dev, 0x44, 1, 0x0, 1, 0x0, false, false⟩
def SEQ_RST_CMD.OP : Fld := ⟨SEQ_RST_CMD, 31, 29, .wo, 0, none, false⟩
def SEQ_RST_CMD.TARGET : Fld := ⟨SEQ_RST_CMD, 11, 0, .wo, 0, none, false⟩
/-- R537. -/
def SEQ_RST_RESULT : Reg := ⟨.dev, 0x48, 1, 0x0, 1, 0x0, false, false⟩
def SEQ_RST_RESULT.CODE : Fld := ⟨SEQ_RST_RESULT, 31, 28, .ro, 0, none, false⟩
def SEQ_RST_RESULT.BUSY : Fld := ⟨SEQ_RST_RESULT, 27, 27, .ro, 0, none, false⟩
def SEQ_RST_RESULT.CMD_LOST : Fld := ⟨SEQ_RST_RESULT, 26, 26, .w1c, 0, none, false⟩
def SEQ_RST_RESULT.TARGET : Fld := ⟨SEQ_RST_RESULT, 11, 0, .ro, 0, none, false⟩
/-- R537. -/
def SEQ_EPOCH : Reg := ⟨.dev, 0x80, 1, 0x0, 1, 0x0, false, false⟩
def SEQ_EPOCH.EPOCH : Fld := ⟨SEQ_EPOCH, 31, 0, .ro, 0, none, false⟩
/-- R537. -/
def SEQ_EPOCH_CMD : Reg := ⟨.dev, 0x84, 1, 0x0, 1, 0x0, false, false⟩
def SEQ_EPOCH_CMD.OP : Fld := ⟨SEQ_EPOCH_CMD, 31, 30, .wo, 0, none, false⟩
/-- R537. -/
def SEQ_EPOCH_STAT : Reg := ⟨.dev, 0x88, 1, 0x0, 1, 0x0, false, false⟩
def SEQ_EPOCH_STAT.DIRTY : Fld := ⟨SEQ_EPOCH_STAT, 31, 31, .ro, 0, none, false⟩
def SEQ_EPOCH_STAT.WAITING : Fld := ⟨SEQ_EPOCH_STAT, 30, 30, .ro, 0, none, false⟩
def SEQ_EPOCH_STAT.CMD_LOST : Fld := ⟨SEQ_EPOCH_STAT, 29, 29, .w1c, 0, none, false⟩
/-- R567. -/
def PWR_ENV : Reg := ⟨.dev, 0x10000, 1, 0x0, 1, 0x0, false, false⟩
def PWR_ENV.WATTS : Fld := ⟨PWR_ENV, 10, 0, .rw, 0x2bc, some (700, 1600), false⟩
/-- R567. -/
def PWR_FLOOR : Reg := ⟨.dev, 0x10004, 1, 0x0, 1, 0x0, false, false⟩
def PWR_FLOOR.SMOOTH : Fld := ⟨PWR_FLOOR, 31, 31, .rw, 0, none, false⟩
def PWR_FLOOR.DECAY : Fld := ⟨PWR_FLOOR, 13, 8, .rw, 0x14, some (1, 20), false⟩
def PWR_FLOOR.PCT : Fld := ⟨PWR_FLOOR, 5, 0, .rw, 0, some (0, 60), false⟩
/-- R567. -/
def PWR_CTRL : Reg := ⟨.dev, 0x10008, 1, 0x0, 1, 0x0, false, false⟩
def PWR_CTRL.OPP_MAX : Fld := ⟨PWR_CTRL, 2, 0, .rw, 6, none, false⟩
/-- R567. -/
def PWR_STAT : Reg := ⟨.dev, 0x1000C, 1, 0x0, 1, 0x0, false, false⟩
def PWR_STAT.AT_LIMIT : Fld := ⟨PWR_STAT, 31, 31, .ro, 0, none, false⟩
def PWR_STAT.RAMPING : Fld := ⟨PWR_STAT, 30, 30, .ro, 0, none, false⟩
def PWR_STAT.FILLING : Fld := ⟨PWR_STAT, 29, 29, .ro, 0, none, false⟩
def PWR_STAT.DEGRADED : Fld := ⟨PWR_STAT, 28, 28, .ro, 0, none, false⟩
def PWR_STAT.RAMP_SEEN : Fld := ⟨PWR_STAT, 27, 27, .w1c, 0, none, false⟩
def PWR_STAT.LINK_SEEN : Fld := ⟨PWR_STAT, 26, 26, .w1c, 0, none, false⟩
def PWR_STAT.LIMIT : Fld := ⟨PWR_STAT, 11, 0, .ro, 0, none, false⟩
/-- R567. -/
def PWR_POWER : Reg := ⟨.dev, 0x10010, 1, 0x0, 1, 0x0, false, false⟩
def PWR_POWER.FLOOR : Fld := ⟨PWR_POWER, 27, 16, .ro, 0, none, false⟩
def PWR_POWER.WATTS : Fld := ⟨PWR_POWER, 11, 0, .ro, 0, none, false⟩
/-- R567. -/
def PWR_OPP : Reg := ⟨.dev, 0x10014, 1, 0x0, 1, 0x0, false, false⟩
def PWR_OPP.SKIP_A : Fld := ⟨PWR_OPP, 27, 24, .ro, 0, none, false⟩
def PWR_OPP.SKIP_B : Fld := ⟨PWR_OPP, 23, 20, .ro, 0, none, false⟩
def PWR_OPP.OPP_A : Fld := ⟨PWR_OPP, 6, 4, .ro, 0, none, false⟩
def PWR_OPP.OPP_B : Fld := ⟨PWR_OPP, 2, 0, .ro, 0, none, false⟩
/-- R567. -/
def PWR_VOFS : Reg := ⟨.dev, 0x10018, 1, 0x0, 1, 0x0, false, false⟩
def PWR_VOFS.MV : Fld := ⟨PWR_VOFS, 7, 0, .rw, 0, some (-40, 40), true⟩
/-- R567. -/
def PWR_GAIN : Reg := ⟨.dev, 0x1001C, 1, 0x0, 1, 0x0, false, false⟩
def PWR_GAIN.PCT : Fld := ⟨PWR_GAIN, 7, 0, .rw, 0, some (-10, 10), true⟩
/-- R567. -/
def PWR_OPPn : Reg := ⟨.dev, 0x10040, 8, 0x4, 1, 0x0, false, false⟩
def PWR_OPPn.MHZ : Fld := ⟨PWR_OPPn, 31, 20, .ro, 0, none, false⟩
def PWR_OPPn.MV : Fld := ⟨PWR_OPPn, 9, 0, .ro, 0, none, false⟩
/-- R567. -/
def PWR_REGn_STAT : Reg := ⟨.dev, 0x10100, 6, 0x10, 1, 0x0, false, false⟩
def PWR_REGn_STAT.LINK : Fld := ⟨PWR_REGn_STAT, 31, 30, .ro, 0, none, false⟩
def PWR_REGn_STAT.LOST_SEEN : Fld := ⟨PWR_REGn_STAT, 29, 29, .w1c, 0, none, false⟩
def PWR_REGn_STAT.FAULT_SEEN : Fld := ⟨PWR_REGn_STAT, 28, 28, .w1c, 0, none, false⟩
def PWR_REGn_STAT.SET_MV : Fld := ⟨PWR_REGn_STAT, 10, 0, .ro, 0, none, false⟩
/-- R567. -/
def PWR_REGn_TELEM : Reg := ⟨.dev, 0x10104, 6, 0x10, 1, 0x0, false, false⟩
def PWR_REGn_TELEM.AMPS : Fld := ⟨PWR_REGn_TELEM, 31, 16, .ro, 0, none, false⟩
def PWR_REGn_TELEM.MV : Fld := ⟨PWR_REGn_TELEM, 10, 0, .ro, 0, none, false⟩
/-- R567. -/
def PWR_RAMP_US : Reg := ⟨.dev, 0x10200, 1, 0x0, 1, 0x0, true, false⟩
def PWR_RAMP_US.US : Fld := ⟨PWR_RAMP_US, 63, 0, .ro, 0, none, false⟩
/-- R567. -/
def PWR_FILL_US : Reg := ⟨.dev, 0x10208, 1, 0x0, 1, 0x0, true, false⟩
def PWR_FILL_US.US : Fld := ⟨PWR_FILL_US, 63, 0, .ro, 0, none, false⟩
/-- R568. -/
def THM_STAT : Reg := ⟨.dev, 0x20000, 1, 0x0, 1, 0x0, false, false⟩
def THM_STAT.DRAM : Fld := ⟨THM_STAT, 31, 30, .ro, 0, none, false⟩
def THM_STAT.LOGIC : Fld := ⟨THM_STAT, 29, 28, .ro, 0, none, false⟩
def THM_STAT.SHUTDOWN : Fld := ⟨THM_STAT, 27, 27, .ro, 0, none, false⟩
def THM_STAT.FLOW_LOW : Fld := ⟨THM_STAT, 26, 26, .ro, 0, none, false⟩
def THM_STAT.INLET_RANGE : Fld := ⟨THM_STAT, 25, 25, .ro, 0, none, false⟩
def THM_STAT.HEAT_BAL : Fld := ⟨THM_STAT, 24, 24, .ro, 0, none, false⟩
def THM_STAT.AUX_WARN : Fld := ⟨THM_STAT, 23, 23, .ro, 0, none, false⟩
def THM_STAT.EVENT_SEEN : Fld := ⟨THM_STAT, 22, 22, .w1c, 0, none, false⟩
/-- R568. -/
def THM_TEMP : Reg := ⟨.dev, 0x20004, 1, 0x0, 1, 0x0, false, false⟩
def THM_TEMP.DRAM : Fld := ⟨THM_TEMP, 31, 16, .ro, 0, none, false⟩
def THM_TEMP.LOGIC : Fld := ⟨THM_TEMP, 15, 0, .ro, 0, none, false⟩
/-- R568. -/
def THM_HOT_DRAM : Reg := ⟨.dev, 0x20008, 1, 0x0, 1, 0x0, false, false⟩
def THM_HOT_DRAM.LAYER : Fld := ⟨THM_HOT_DRAM, 26, 24, .ro, 0, none, false⟩
def THM_HOT_DRAM.UNIT : Fld := ⟨THM_HOT_DRAM, 23, 0, .ro, 0, none, false⟩
/-- R568. -/
def THM_HOT_LOGIC : Reg := ⟨.dev, 0x2000C, 1, 0x0, 1, 0x0, false, false⟩
def THM_HOT_LOGIC.UNIT : Fld := ⟨THM_HOT_LOGIC, 23, 0, .ro, 0, none, false⟩
/-- R568. -/
def THM_CUT : Reg := ⟨.dev, 0x20010, 1, 0x0, 1, 0x0, false, false⟩
def THM_CUT.WATTS : Fld := ⟨THM_CUT, 11, 0, .ro, 0, none, false⟩
/-- R568. -/
def THM_CTRL : Reg := ⟨.dev, 0x20014, 1, 0x0, 1, 0x0, false, false⟩
def THM_CTRL.RATE : Fld := ⟨THM_CTRL, 31, 24, .rw, 0x3c, some (20, 200), false⟩
def THM_CTRL.DRAM_LOWER : Fld := ⟨THM_CTRL, 20, 16, .rw, 0, some (0, 20), false⟩
def THM_CTRL.LOGIC_LOWER : Fld := ⟨THM_CTRL, 12, 8, .rw, 0, some (0, 20), false⟩
/-- R568. -/
def THM_THRESH : Reg := ⟨.dev, 0x20018, 1, 0x0, 1, 0x0, false, false⟩
def THM_THRESH.DRAM_WARN : Fld := ⟨THM_THRESH, 31, 24, .ro, 0x5c, none, false⟩
def THM_THRESH.DRAM_THROT : Fld := ⟨THM_THRESH, 23, 16, .ro, 0x5f, none, false⟩
def THM_THRESH.LOGIC_WARN : Fld := ⟨THM_THRESH, 15, 8, .ro, 0x5f, none, false⟩
def THM_THRESH.LOGIC_THROT : Fld := ⟨THM_THRESH, 7, 0, .ro, 0x62, none, false⟩
/-- R568. -/
def THM_OFS : Reg := ⟨.dev, 0x2001C, 1, 0x0, 1, 0x0, false, false⟩
def THM_OFS.DRAM_OFS : Fld := ⟨THM_OFS, 15, 8, .rw, 0, some (-64, 64), true⟩
def THM_OFS.LOGIC_OFS : Fld := ⟨THM_OFS, 7, 0, .rw, 0, some (-64, 64), true⟩
/-- R568. -/
def THM_COOL_CTRL : Reg := ⟨.dev, 0x20020, 1, 0x0, 1, 0x0, false, false⟩
def THM_COOL_CTRL.FLOW_EN : Fld := ⟨THM_COOL_CTRL, 31, 31, .rw, 0, none, false⟩
def THM_COOL_CTRL.IN_EN : Fld := ⟨THM_COOL_CTRL, 30, 30, .rw, 0, none, false⟩
def THM_COOL_CTRL.OUT_EN : Fld := ⟨THM_COOL_CTRL, 29, 29, .rw, 0, none, false⟩
def THM_COOL_CTRL.BOARD_EN : Fld := ⟨THM_COOL_CTRL, 28, 28, .rw, 0, none, false⟩
def THM_COOL_CTRL.SPARE_EN : Fld := ⟨THM_COOL_CTRL, 27, 27, .rw, 0, none, false⟩
def THM_COOL_CTRL.BAL_EN : Fld := ⟨THM_COOL_CTRL, 26, 26, .rw, 0, none, false⟩
def THM_COOL_CTRL.BOARD_WARN : Fld := ⟨THM_COOL_CTRL, 15, 8, .rw, 0x55, none, false⟩
def THM_COOL_CTRL.SPARE_WARN : Fld := ⟨THM_COOL_CTRL, 7, 0, .rw, 0x55, none, false⟩
/-- R568. -/
def THM_FLOW_CAL : Reg := ⟨.dev, 0x20024, 1, 0x0, 1, 0x0, false, false⟩
def THM_FLOW_CAL.PULSES : Fld := ⟨THM_FLOW_CAL, 31, 16, .rw, 0x7d0, some (100, 65535), false⟩
def THM_FLOW_CAL.CP : Fld := ⟨THM_FLOW_CAL, 15, 0, .rw, 0x1040, some (3000, 4300), false⟩
/-- R568. -/
def THM_NTC_CAL : Reg := ⟨.dev, 0x20028, 1, 0x0, 1, 0x0, false, false⟩
def THM_NTC_CAL.B : Fld := ⟨THM_NTC_CAL, 31, 16, .rw, 0xd6b, some (2000, 5000), false⟩
def THM_NTC_CAL.R25 : Fld := ⟨THM_NTC_CAL, 15, 0, .rw, 0x3e8, some (100, 65535), false⟩
/-- R568. -/
def THM_HEAT : Reg := ⟨.dev, 0x20030, 1, 0x0, 1, 0x0, false, false⟩
def THM_HEAT.Q : Fld := ⟨THM_HEAT, 31, 16, .ro, 0, none, false⟩
def THM_HEAT.IMB : Fld := ⟨THM_HEAT, 15, 8, .ro, 0, none, false⟩
/-- R568. -/
def THM_FLOW : Reg := ⟨.dev, 0x20034, 1, 0x0, 1, 0x0, false, false⟩
def THM_FLOW.ML_MIN : Fld := ⟨THM_FLOW, 15, 0, .ro, 0, none, false⟩
/-- R568. -/
def THM_LAYER_LOST : Reg := ⟨.dev, 0x20038, 1, 0x0, 1, 0x0, false, false⟩
def THM_LAYER_LOST.COUNT : Fld := ⟨THM_LAYER_LOST, 15, 0, .ro, 0, none, false⟩
/-- R568. -/
def THM_CYC : Reg := ⟨.dev, 0x20080, 1, 0x0, 1, 0x0, false, false⟩
def THM_CYC.COUNT : Fld := ⟨THM_CYC, 31, 0, .ro, 0, none, false⟩
/-- R568. -/
def THM_CYC_BIG : Reg := ⟨.dev, 0x20084, 1, 0x0, 1, 0x0, false, false⟩
def THM_CYC_BIG.COUNT : Fld := ⟨THM_CYC_BIG, 31, 0, .ro, 0, none, false⟩
/-- R568. -/
def THM_HOT_S : Reg := ⟨.dev, 0x20088, 1, 0x0, 1, 0x0, false, false⟩
def THM_HOT_S.SECONDS : Fld := ⟨THM_HOT_S, 31, 0, .ro, 0, none, false⟩
/-- R568. -/
def THM_THROT_MS : Reg := ⟨.dev, 0x20090, 1, 0x0, 1, 0x0, true, false⟩
def THM_THROT_MS.MS : Fld := ⟨THM_THROT_MS, 63, 0, .ro, 0, none, false⟩
/-- R569. -/
def SFE_STAT : Reg := ⟨.half, 0xA0000, 1, 0x0, 1, 0x0, false, false⟩
def SFE_STAT.BG_SUSPECT : Fld := ⟨SFE_STAT, 31, 31, .ro, 0, none, false⟩
def SFE_STAT.BG_SEL : Fld := ⟨SFE_STAT, 30, 30, .ro, 0, none, false⟩
def SFE_STAT.AUTO_BG : Fld := ⟨SFE_STAT, 29, 29, .ro, 0, none, false⟩
def SFE_STAT.SUSPECT_SEEN : Fld := ⟨SFE_STAT, 28, 28, .w1c, 0, none, false⟩
def SFE_STAT.LOST_SEEN : Fld := ⟨SFE_STAT, 27, 27, .w1c, 0, none, false⟩
def SFE_STAT.LOST : Fld := ⟨SFE_STAT, 7, 0, .ro, 0, none, false⟩
/-- R569. -/
def SFE_BG : Reg := ⟨.half, 0xA0004, 1, 0x0, 1, 0x0, false, false⟩
def SFE_BG.BG1_MV : Fld := ⟨SFE_BG, 31, 16, .ro, 0, none, false⟩
def SFE_BG.BG0_MV : Fld := ⟨SFE_BG, 15, 0, .ro, 0, none, false⟩
/-- R569. -/
def SFE_Sn : Reg := ⟨.half, 0xA0100, 64, 0x4, 1, 0x0, false, false⟩
def SFE_Sn.STATE : Fld := ⟨SFE_Sn, 31, 30, .ro, 3, none, false⟩
def SFE_Sn.VALUE : Fld := ⟨SFE_Sn, 15, 0, .ro, 0, none, false⟩
/-- R581. -/
def CLK_CTRL : Reg := ⟨.dev, 0x30000, 1, 0x0, 1, 0x0, false, false⟩
def CLK_CTRL.SEL_MODE : Fld := ⟨CLK_CTRL, 31, 30, .rw, 0, some (0, 2), false⟩
def CLK_CTRL.PCIE_EN : Fld := ⟨CLK_CTRL, 29, 29, .rw, 0, none, false⟩
/-- R581. -/
def CLK_STAT : Reg := ⟨.dev, 0x30004, 1, 0x0, 1, 0x0, false, false⟩
def CLK_STAT.SEL : Fld := ⟨CLK_STAT, 31, 31, .ro, 0, none, false⟩
def CLK_STAT.REF0_PRESENT : Fld := ⟨CLK_STAT, 30, 30, .ro, 0, none, false⟩
def CLK_STAT.REF1_PRESENT : Fld := ⟨CLK_STAT, 29, 29, .ro, 0, none, false⟩
def CLK_STAT.MON : Fld := ⟨CLK_STAT, 28, 27, .ro, 0, none, false⟩
def CLK_STAT.SUSPECT : Fld := ⟨CLK_STAT, 26, 26, .ro, 0, none, false⟩
def CLK_STAT.OTHER_SUSPECT : Fld := ⟨CLK_STAT, 25, 25, .ro, 0, none, false⟩
def CLK_STAT.HOLDOVER : Fld := ⟨CLK_STAT, 24, 24, .ro, 0, none, false⟩
def CLK_STAT.FALLBACK : Fld := ⟨CLK_STAT, 23, 23, .ro, 0, none, false⟩
def CLK_STAT.SWITCHED : Fld := ⟨CLK_STAT, 22, 22, .ro, 0, none, false⟩
def CLK_STAT.WARN_SEEN : Fld := ⟨CLK_STAT, 21, 21, .w1c, 0, none, false⟩
def CLK_STAT.SUSPECT_SEEN : Fld := ⟨CLK_STAT, 20, 20, .w1c, 0, none, false⟩
def CLK_STAT.LOST_SEEN : Fld := ⟨CLK_STAT, 19, 19, .w1c, 0, none, false⟩
/-- R581. -/
def CLK_DEV : Reg := ⟨.dev, 0x30008, 1, 0x0, 1, 0x0, false, false⟩
def CLK_DEV.OTHER : Fld := ⟨CLK_DEV, 31, 16, .ro, 0x8000, none, false⟩
def CLK_DEV.SEL : Fld := ⟨CLK_DEV, 15, 0, .ro, 0x8000, none, false⟩
/-- R581. -/
def CLK_MON_SRC : Reg := ⟨.dev, 0x3000C, 1, 0x0, 1, 0x0, false, false⟩
def CLK_MON_SRC.OUTLIER : Fld := ⟨CLK_MON_SRC, 25, 16, .ro, 0, none, false⟩
def CLK_MON_SRC.USED : Fld := ⟨CLK_MON_SRC, 9, 0, .ro, 0, none, false⟩
/-- R581. -/
def CLK_TIME_SYNC : Reg := ⟨.dev, 0x30010, 1, 0x0, 1, 0x0, false, false⟩
def CLK_TIME_SYNC.NS : Fld := ⟨CLK_TIME_SYNC, 15, 0, .ro, 0, none, false⟩
/-- R581. -/
def CLK_SRCn : Reg := ⟨.dev, 0x30040, 10, 0x4, 1, 0x0, false, false⟩
def CLK_SRCn.DEV : Fld := ⟨CLK_SRCn, 15, 0, .ro, 0x8000, none, false⟩
/-- R581. -/
def CLK_DOMn : Reg := ⟨.dev, 0x30100, 26, 0x4, 1, 0x0, false, false⟩
def CLK_DOMn.STATE : Fld := ⟨CLK_DOMn, 31, 30, .ro, 0, none, false⟩
def CLK_DOMn.UNLOCK_SEEN : Fld := ⟨CLK_DOMn, 29, 29, .w1c, 0, none, false⟩
def CLK_DOMn.MHZ : Fld := ⟨CLK_DOMn, 15, 0, .ro, 0, none, false⟩
/-- R604. -/
def MGT_STAT : Reg := ⟨.dev, 0x40000, 1, 0x0, 1, 0x0, false, false⟩
def MGT_STAT.EID : Fld := ⟨MGT_STAT, 31, 24, .ro, 0, none, false⟩
def MGT_STAT.I3C : Fld := ⟨MGT_STAT, 23, 23, .ro, 1, none, false⟩
def MGT_STAT.UPD_OWNER : Fld := ⟨MGT_STAT, 22, 21, .ro, 0, none, false⟩
/-- R604. -/
def MGT_UPD_SRC : Reg := ⟨.dev, 0x40010, 1, 0x0, 1, 0x0, true, false⟩
def MGT_UPD_SRC.DA : Fld := ⟨MGT_UPD_SRC, 47, 3, .rw, 0, none, false⟩
/-- R604. -/
def MGT_UPD_LEN : Reg := ⟨.dev, 0x40018, 1, 0x0, 1, 0x0, false, false⟩
def MGT_UPD_LEN.BYTES : Fld := ⟨MGT_UPD_LEN, 20, 0, .rw, 0, some (768, 1048576), false⟩
/-- R604. -/
def MGT_UPD_CMD : Reg := ⟨.dev, 0x4001C, 1, 0x0, 1, 0x0, false, false⟩
def MGT_UPD_CMD.OP : Fld := ⟨MGT_UPD_CMD, 31, 29, .wo, 0, none, false⟩
/-- R604. -/
def MGT_UPD_RESULT : Reg := ⟨.dev, 0x40020, 1, 0x0, 1, 0x0, false, false⟩
def MGT_UPD_RESULT.CODE : Fld := ⟨MGT_UPD_RESULT, 31, 28, .ro, 0, none, false⟩
def MGT_UPD_RESULT.BUSY : Fld := ⟨MGT_UPD_RESULT, 27, 27, .ro, 0, none, false⟩
def MGT_UPD_RESULT.CMD_LOST : Fld := ⟨MGT_UPD_RESULT, 26, 26, .w1c, 0, none, false⟩
def MGT_UPD_RESULT.CHECK : Fld := ⟨MGT_UPD_RESULT, 25, 22, .ro, 0, none, false⟩
def MGT_UPD_RESULT.COPY : Fld := ⟨MGT_UPD_RESULT, 21, 20, .ro, 0, none, false⟩
/-- R604. -/
def MGT_RB_CMD : Reg := ⟨.dev, 0x40024, 1, 0x0, 1, 0x0, false, false⟩
def MGT_RB_CMD.KEY : Fld := ⟨MGT_RB_CMD, 31, 16, .wo, 0, none, false⟩
def MGT_RB_CMD.LEVEL : Fld := ⟨MGT_RB_CMD, 5, 0, .wo, 0, none, false⟩
/-- R604. -/
def MGT_RB_RESULT : Reg := ⟨.dev, 0x40028, 1, 0x0, 1, 0x0, false, false⟩
def MGT_RB_RESULT.CODE : Fld := ⟨MGT_RB_RESULT, 31, 28, .ro, 0, none, false⟩
def MGT_RB_RESULT.LEVEL : Fld := ⟨MGT_RB_RESULT, 5, 0, .ro, 0, none, false⟩
/-- R604. -/
def MGT_DBG_CMD : Reg := ⟨.dev, 0x40040, 1, 0x0, 1, 0x0, false, false⟩
def MGT_DBG_CMD.OP : Fld := ⟨MGT_DBG_CMD, 31, 29, .wo, 0, none, false⟩
/-- R604. -/
def MGT_DBG_STAT : Reg := ⟨.dev, 0x40044, 1, 0x0, 1, 0x0, false, false⟩
def MGT_DBG_STAT.STATE : Fld := ⟨MGT_DBG_STAT, 31, 30, .ro, 0, none, false⟩
def MGT_DBG_STAT.RESULT : Fld := ⟨MGT_DBG_STAT, 29, 28, .ro, 0, none, false⟩
def MGT_DBG_STAT.BUSY : Fld := ⟨MGT_DBG_STAT, 27, 27, .ro, 0, none, false⟩
def MGT_DBG_STAT.CMD_LOST : Fld := ⟨MGT_DBG_STAT, 26, 26, .w1c, 0, none, false⟩
/-- R604. -/
def MGT_DBG_TOKEN : Reg := ⟨.dev, 0x40048, 1, 0x0, 1, 0x0, true, false⟩
def MGT_DBG_TOKEN.DA : Fld := ⟨MGT_DBG_TOKEN, 63, 0, .rw, 0, none, false⟩
/-- R604. -/
def MGT_DBG_NONCE : Reg := ⟨.dev, 0x40060, 8, 0x4, 1, 0x0, false, false⟩
def MGT_DBG_NONCE.NONCE : Fld := ⟨MGT_DBG_NONCE, 31, 0, .ro, 0, none, false⟩
/-- R604. -/
def MGT_WEAR : Reg := ⟨.dev, 0x40100, 10, 0x4, 1, 0x0, false, false⟩
def MGT_WEAR.VALUE : Fld := ⟨MGT_WEAR, 31, 0, .ro, 0, none, false⟩
/-- R465. -/
def CORE_UNIT_CLAMP : Reg := ⟨.core, 0x3800, 1, 0x0, 1, 0x0, false, false⟩
def CORE_UNIT_CLAMP.SEEN : Fld := ⟨CORE_UNIT_CLAMP, 31, 31, .w1c, 0, none, false⟩
def CORE_UNIT_CLAMP.COUNT : Fld := ⟨CORE_UNIT_CLAMP, 30, 16, .rc, 0, none, false⟩
def CORE_UNIT_CLAMP.LAST : Fld := ⟨CORE_UNIT_CLAMP, 13, 0, .ro, 0, none, false⟩
/-- R50. -/
def DARN_CLEN : Reg := ⟨.dev, 0x50010, 2, 0x10, 4, 0x4, false, false⟩
def DARN_CLEN.MASK : Fld := ⟨DARN_CLEN, 31, 0, .ro, 0xffffffff, none, false⟩
/-- R484. -/
def CHK_Qp_LO : Reg := ⟨.dev, 0x91000, 64, 0x20, 1, 0x0, false, false⟩
def CHK_Qp_LO.DA : Fld := ⟨CHK_Qp_LO, 31, 0, .rw, 0, none, false⟩
/-- R484. -/
def CHK_Qp_HI : Reg := ⟨.dev, 0x91004, 64, 0x20, 1, 0x0, false, false⟩
def CHK_Qp_HI.LOG2 : Fld := ⟨CHK_Qp_HI, 19, 16, .rw, 4, some (4, 12), false⟩
def CHK_Qp_HI.DA : Fld := ⟨CHK_Qp_HI, 15, 0, .rw, 0, none, false⟩
/-- R484. -/
def CHK_Qp_CQ_LO : Reg := ⟨.dev, 0x91008, 64, 0x20, 1, 0x0, false, false⟩
def CHK_Qp_CQ_LO.DA : Fld := ⟨CHK_Qp_CQ_LO, 31, 0, .rw, 0, none, false⟩
/-- R484. -/
def CHK_Qp_CQ_HI : Reg := ⟨.dev, 0x9100C, 64, 0x20, 1, 0x0, false, false⟩
def CHK_Qp_CQ_HI.DA : Fld := ⟨CHK_Qp_CQ_HI, 15, 0, .rw, 0, none, false⟩
/-- R484. -/
def CHK_Qp_DB : Reg := ⟨.dev, 0x91010, 64, 0x20, 1, 0x0, false, false⟩
def CHK_Qp_DB.PI : Fld := ⟨CHK_Qp_DB, 15, 0, .wo, 0, none, false⟩
/-- R484. -/
def CHK_Qp_IDX : Reg := ⟨.dev, 0x91014, 64, 0x20, 1, 0x0, false, false⟩
def CHK_Qp_IDX.CI : Fld := ⟨CHK_Qp_IDX, 31, 16, .ro, 0, none, false⟩
def CHK_Qp_IDX.CQ_PI : Fld := ⟨CHK_Qp_IDX, 15, 0, .ro, 0, none, false⟩
/-- R484. -/
def CHK_Qp_CQ_CI : Reg := ⟨.dev, 0x91018, 64, 0x20, 1, 0x0, false, false⟩
def CHK_Qp_CQ_CI.CQ_CI : Fld := ⟨CHK_Qp_CQ_CI, 15, 0, .rw, 0, none, false⟩
/-- R67. -/
def DARN_LOG : Reg := ⟨.dev, 0x5C000, 256, 0x10, 4, 0x4, false, false⟩
def DARN_LOG.WORD : Fld := ⟨DARN_LOG, 31, 0, .ro, 0, none, false⟩
def regTable_dev_0 : List (Reg × List Fld) := [
  (DARN_HDR, [DARN_HDR.FORMAT, DARN_HDR.MAP_GEN]),
  (DARN_SUM, [DARN_SUM.CLUSTERS, DARN_SUM.CORES]),
  (DARN_STAT, [DARN_STAT.REPLACE, DARN_STAT.BELOW_MIN, DARN_STAT.LOG_FULL, DARN_STAT.CMD_BUSY, DARN_STAT.COMMIT_BUSY, DARN_STAT.CMD_LOST, DARN_STAT.QUEUE_OVF, DARN_STAT.LOG_USED, DARN_STAT.PENDING]),
  (DARN_CL_STATE, [DARN_CL_STATE.STATE, DARN_CL_STATE.CORES, DARN_CL_STATE.BELOW_MIN, DARN_CL_STATE.LINK_OK, DARN_CL_STATE.LINK_PEND, DARN_CL_STATE.WINGS_ACTIVE, DARN_CL_STATE.ROUTING]),
  (DARN_CL_CORES, [DARN_CL_CORES.RETIRED, DARN_CL_CORES.ENABLED]),
  (DARN_CL_CKCOL0, [DARN_CL_CKCOL0.CKCOL]),
  (DARN_CL_CKCOL1, [DARN_CL_CKCOL1.CKCOL]),
  (DARN_CL_ORPHAN, [DARN_CL_ORPHAN.LOST, DARN_CL_ORPHAN.ORPHAN]),
  (DARN_CORE_STATE, [DARN_CORE_STATE.STATE, DARN_CORE_STATE.BOND_USED, DARN_CORE_STATE.CKCOL, DARN_CORE_STATE.ROW_USED, DARN_CORE_STATE.COL_USED, DARN_CORE_STATE.CAUSE, DARN_CORE_STATE.GOOD_GROUPS]),
  (DARN_CORE_SPARE, [DARN_CORE_SPARE.PLAIN_MIN, DARN_CORE_SPARE.PIM_MIN, DARN_CORE_SPARE.REMAP_HELD, DARN_CORE_SPARE.ROWS_REPAIRED]),
  (DARN_CMD_ARG, [DARN_CMD_ARG.INDEX]),
  (DARN_CMD, [DARN_CMD.OP, DARN_CMD.UNIT])]
def regTable_dev_1 : List (Reg × List Fld) := [
  (DARN_CMD_RESULT, [DARN_CMD_RESULT.CODE, DARN_CMD_RESULT.UNIT]),
  (FAB_ID, [FAB_ID.VALID, FAB_ID.DEV]),
  (FAB_ENCAP, [FAB_ENCAP.UDP_PORT, FAB_ENCAP.ETYPE]),
  (FAB_STAT, [FAB_STAT.MULTI_HIT, FAB_STAT.RT_MISS, FAB_STAT.DB_LOST, FAB_STAT.CFG_LOST]),
  (FAB_MAC_TMPL_LO, [FAB_MAC_TMPL_LO.MAC]),
  (FAB_MAC_TMPL_HI, [FAB_MAC_TMPL_HI.MAC]),
  (FAB_IP_TMPL, [FAB_IP_TMPL.IP]),
  (FAB_IPCFG, [FAB_IPCFG.DSCP, FAB_IPCFG.HOPS]),
  (FAB_PEER_BASE, [FAB_PEER_BASE.DA]),
  (FAB_CC, [FAB_CC.INIT_RATE, FAB_CC.BETA, FAB_CC.INC_STEP, FAB_CC.RTT_TARGET]),
  (FAB_RETX, [FAB_RETX.RTO_MIN, FAB_RETX.RETRY_LIMIT, FAB_RETX.REORDER, FAB_RETX.ACK_EVERY, FAB_RETX.ACK_DELAY]),
  (FAB_RANKp_i, [FAB_RANKp_i.VALID1, FAB_RANKp_i.DEV1, FAB_RANKp_i.VALID0, FAB_RANKp_i.DEV0])]
def regTable_dev_2 : List (Reg × List Fld) := [
  (FAB_RTn_CTRL, [FAB_RTn_CTRL.VALID, FAB_RTn_CTRL.ENCAP, FAB_RTn_CTRL.SPREAD, FAB_RTn_CTRL.SUBPATHS, FAB_RTn_CTRL.MASK, FAB_RTn_CTRL.DEV]),
  (FAB_RTn_PORTS, [FAB_RTn_PORTS.PORTS, FAB_RTn_PORTS.PCP, FAB_RTn_PORTS.TAG, FAB_RTn_PORTS.VID]),
  (FAB_RTn_MAC_LO, [FAB_RTn_MAC_LO.MAC]),
  (FAB_RTn_MAC_HI, [FAB_RTn_MAC_HI.MAC]),
  (FAB_RTn_IP, [FAB_RTn_IP.IP]),
  (FAB_TIME_CTRL, [FAB_TIME_CTRL.ROLE, FAB_TIME_CTRL.DOMAIN, FAB_TIME_CTRL.PORTS]),
  (FAB_TIME_STAT, [FAB_TIME_STAT.STATE, FAB_TIME_STAT.OFFSET_HIGH, FAB_TIME_STAT.PORT]),
  (FAB_TIME_OFFSET, [FAB_TIME_OFFSET.NS]),
  (FAB_TIME_FREQ, [FAB_TIME_FREQ.PPB]),
  (FAB_TIME_DELAY, [FAB_TIME_DELAY.NS]),
  (FAB_TIME_CMD, [FAB_TIME_CMD.STEP]),
  (FAB_TIME_STEP, [FAB_TIME_STEP.NS])]
def regTable_dev_3 : List (Reg × List Fld) := [
  (FAB_PEERd, [FAB_PEERd.STATE, FAB_PEERd.CAUSE, FAB_PEERd.VMAJ, FAB_PEERd.VMIN, FAB_PEERd.STEPPED]),
  (FAB_AGREE_CTRL, [FAB_AGREE_CTRL.DIAG_EN, FAB_AGREE_CTRL.DIAG_PART, FAB_AGREE_CTRL.RECHECK]),
  (FAB_AGREE_CMD, [FAB_AGREE_CMD.OP, FAB_AGREE_CMD.TARGET]),
  (FAB_AGREE_RESULT, [FAB_AGREE_RESULT.CODE, FAB_AGREE_RESULT.BUSY, FAB_AGREE_RESULT.CMD_LOST, FAB_AGREE_RESULT.TARGET]),
  (FAB_AGREE_STAT, [FAB_AGREE_STAT.DEPARTED_SELF, FAB_AGREE_STAT.TIME_BAD, FAB_AGREE_STAT.AGREED, FAB_AGREE_STAT.QUAR]),
  (FAB_PROTO, [FAB_PROTO.MAJOR, FAB_PROTO.MINOR]),
  (FAB_DIGEST, [FAB_DIGEST.DIGEST]),
  (FAB_AGREE_THETA, [FAB_AGREE_THETA.NS]),
  (PART_STAT, [PART_STAT.PROT_MULTI, PART_STAT.IRQ_MULTI, PART_STAT.PART_MULTI, PART_STAT.WR_LOST, PART_STAT.IRQ_MISS, PART_STAT.VALID]),
  (PART_CMD, [PART_CMD.OP, PART_CMD.TARGET]),
  (PART_RESULT, [PART_RESULT.CODE, PART_RESULT.BUSY, PART_RESULT.CMD_LOST, PART_RESULT.TARGET]),
  (PART_TENANT_BASE, [PART_TENANT_BASE.DA])]
def regTable_dev_4 : List (Reg × List Fld) := [
  (PART_CLAMP_ANY, [PART_CLAMP_ANY.SEEN]),
  (PART_Pp_CTRL, [PART_Pp_CTRL.VALID, PART_Pp_CTRL.BUSY, PART_Pp_CTRL.PAGE_SIZE]),
  (PART_Pp_SEQ_BASE, [PART_Pp_SEQ_BASE.DA]),
  (PART_Pp_SEQ_RANGE, [PART_Pp_SEQ_RANGE.COUNT, PART_Pp_SEQ_RANGE.FIRST]),
  (PART_Pp_CLUSTERSw, [PART_Pp_CLUSTERSw.MASK]),
  (PART_PROTr_CTRL, [PART_PROTr_CTRL.VALID, PART_PROTr_CTRL.PERM]),
  (PART_PROTr_PARTS, [PART_PROTr_PARTS.PARTS]),
  (PART_PROTr_BASE, [PART_PROTr_BASE.DA]),
  (PART_PROTr_LIMIT, [PART_PROTr_LIMIT.DA]),
  (PART_IRQi, [PART_IRQi.VALID, PART_IRQi.CLASS, PART_IRQi.ALLPART, PART_IRQi.PART, PART_IRQi.FUNC, PART_IRQi.VECTOR]),
  (PART_CLAMP_DEVn, [PART_CLAMP_DEVn.SEEN, PART_CLAMP_DEVn.COUNT, PART_CLAMP_DEVn.LAST]),
  (PART_CLAMP_HBh_n, [PART_CLAMP_HBh_n.SEEN, PART_CLAMP_HBh_n.COUNT, PART_CLAMP_HBh_n.LAST])]
def regTable_dev_5 : List (Reg × List Fld) := [
  (PART_CLAMP_CLh_c, [PART_CLAMP_CLh_c.SEEN, PART_CLAMP_CLh_c.COUNT, PART_CLAMP_CLh_c.LAST]),
  (ERR_CTRL, [ERR_CTRL.EN, ERR_CTRL.OVERWRITE]),
  (ERR_STAT, [ERR_STAT.LOST_SEEN, ERR_STAT.DROP_SEEN, ERR_STAT.BASE_LOST]),
  (ERR_RING_BASE, [ERR_RING_BASE.DA]),
  (ERR_PI, [ERR_PI.SEQ]),
  (ERR_CI, [ERR_CI.SEQ]),
  (ERR_LOST, [ERR_LOST.COUNT]),
  (ERR_DROP, [ERR_DROP.COUNT]),
  (ERR_UE_CTRL, [ERR_UE_CTRL.LIMIT, ERR_UE_CTRL.WINDOW]),
  (ERR_UE_COUNT, [ERR_UE_COUNT.COUNT]),
  (ERR_SVC, [ERR_SVC.CAUSE]),
  (ERR_RECi, [ERR_RECi.RECORD])]
def regTable_dev_6 : List (Reg × List Fld) := [
  (CHK_CTRL, [CHK_CTRL.EN, CHK_CTRL.TIEBREAK, CHK_CTRL.FORCE_UNCHECKED]),
  (CHK_STAT, [CHK_STAT.DB_LOST, CHK_STAT.FAIL_SEEN, CHK_STAT.POOL_WAIT, CHK_STAT.ACTIVE]),
  (CHK_FRACw, [CHK_FRACw.FRAC0, CHK_FRACw.FRAC1, CHK_FRACw.FRAC2, CHK_FRACw.FRAC3, CHK_FRACw.FRAC4, CHK_FRACw.FRAC5, CHK_FRACw.FRAC6, CHK_FRACw.FRAC7]),
  (CHK_STEPS, [CHK_STEPS.COUNT]),
  (CHK_REPLAYS, [CHK_REPLAYS.COUNT]),
  (CHK_TIEBREAKS, [CHK_TIEBREAKS.COUNT]),
  (CHK_FAILS, [CHK_FAILS.COUNT]),
  (CHK_REH_CTRL, [CHK_REH_CTRL.AUTO, CHK_REH_CTRL.TENANT, CHK_REH_CTRL.INTERVAL]),
  (CHK_REH_SET, [CHK_REH_SET.DA]),
  (CHK_REH_SCRATCH, [CHK_REH_SCRATCH.OFFSET]),
  (CHK_REH_CMD, [CHK_REH_CMD.OP, CHK_REH_CMD.TARGET, CHK_REH_CMD.MASK]),
  (CHK_REH_RESULT, [CHK_REH_RESULT.CODE, CHK_REH_RESULT.BUSY, CHK_REH_RESULT.CMD_LOST, CHK_REH_RESULT.TARGET])]
def regTable_dev_7 : List (Reg × List Fld) := [
  (CHK_REH_RUNS, [CHK_REH_RUNS.COUNT]),
  (CHK_REH_FAILS, [CHK_REH_FAILS.COUNT]),
  (SEQ_ID, [SEQ_ID.PART, SEQ_ID.REV]),
  (SEQ_SERIAL, [SEQ_SERIAL.SERIAL]),
  (SEQ_STAT, [SEQ_STAT.STAGE, SEQ_STAT.READY, SEQ_STAT.JOINED, SEQ_STAT.RECOVERY, SEQ_STAT.COPY, SEQ_STAT.COMMIT_CUT, SEQ_STAT.ACCESS_LOST]),
  (SEQ_BOOT_US, [SEQ_BOOT_US.US]),
  (SEQ_JOIN, [SEQ_JOIN.MISS, SEQ_JOIN.MS]),
  (SEQ_IMG, [SEQ_IMG.SERIAL]),
  (SEQ_IMG_STAT, [SEQ_IMG_STAT.A_RESULT, SEQ_IMG_STAT.B_RESULT, SEQ_IMG_STAT.UNKNOWN, SEQ_IMG_STAT.SKIPPED, SEQ_IMG_STAT.KEY_INDEX, SEQ_IMG_STAT.RB_FUSE]),
  (SEQ_CAUSE, [SEQ_CAUSE.COLD, SEQ_CAUSE.WARM, SEQ_CAUSE.WARMS]),
  (SEQ_RST_ARM, [SEQ_RST_ARM.KEY]),
  (SEQ_RST_CMD, [SEQ_RST_CMD.OP, SEQ_RST_CMD.TARGET])]
def regTable_dev_8 : List (Reg × List Fld) := [
  (SEQ_RST_RESULT, [SEQ_RST_RESULT.CODE, SEQ_RST_RESULT.BUSY, SEQ_RST_RESULT.CMD_LOST, SEQ_RST_RESULT.TARGET]),
  (SEQ_EPOCH, [SEQ_EPOCH.EPOCH]),
  (SEQ_EPOCH_CMD, [SEQ_EPOCH_CMD.OP]),
  (SEQ_EPOCH_STAT, [SEQ_EPOCH_STAT.DIRTY, SEQ_EPOCH_STAT.WAITING, SEQ_EPOCH_STAT.CMD_LOST]),
  (PWR_ENV, [PWR_ENV.WATTS]),
  (PWR_FLOOR, [PWR_FLOOR.SMOOTH, PWR_FLOOR.DECAY, PWR_FLOOR.PCT]),
  (PWR_CTRL, [PWR_CTRL.OPP_MAX]),
  (PWR_STAT, [PWR_STAT.AT_LIMIT, PWR_STAT.RAMPING, PWR_STAT.FILLING, PWR_STAT.DEGRADED, PWR_STAT.RAMP_SEEN, PWR_STAT.LINK_SEEN, PWR_STAT.LIMIT]),
  (PWR_POWER, [PWR_POWER.FLOOR, PWR_POWER.WATTS]),
  (PWR_OPP, [PWR_OPP.SKIP_A, PWR_OPP.SKIP_B, PWR_OPP.OPP_A, PWR_OPP.OPP_B]),
  (PWR_VOFS, [PWR_VOFS.MV]),
  (PWR_GAIN, [PWR_GAIN.PCT])]
def regTable_dev_9 : List (Reg × List Fld) := [
  (PWR_OPPn, [PWR_OPPn.MHZ, PWR_OPPn.MV]),
  (PWR_REGn_STAT, [PWR_REGn_STAT.LINK, PWR_REGn_STAT.LOST_SEEN, PWR_REGn_STAT.FAULT_SEEN, PWR_REGn_STAT.SET_MV]),
  (PWR_REGn_TELEM, [PWR_REGn_TELEM.AMPS, PWR_REGn_TELEM.MV]),
  (PWR_RAMP_US, [PWR_RAMP_US.US]),
  (PWR_FILL_US, [PWR_FILL_US.US]),
  (THM_STAT, [THM_STAT.DRAM, THM_STAT.LOGIC, THM_STAT.SHUTDOWN, THM_STAT.FLOW_LOW, THM_STAT.INLET_RANGE, THM_STAT.HEAT_BAL, THM_STAT.AUX_WARN, THM_STAT.EVENT_SEEN]),
  (THM_TEMP, [THM_TEMP.DRAM, THM_TEMP.LOGIC]),
  (THM_HOT_DRAM, [THM_HOT_DRAM.LAYER, THM_HOT_DRAM.UNIT]),
  (THM_HOT_LOGIC, [THM_HOT_LOGIC.UNIT]),
  (THM_CUT, [THM_CUT.WATTS]),
  (THM_CTRL, [THM_CTRL.RATE, THM_CTRL.DRAM_LOWER, THM_CTRL.LOGIC_LOWER]),
  (THM_THRESH, [THM_THRESH.DRAM_WARN, THM_THRESH.DRAM_THROT, THM_THRESH.LOGIC_WARN, THM_THRESH.LOGIC_THROT])]
def regTable_dev_10 : List (Reg × List Fld) := [
  (THM_OFS, [THM_OFS.DRAM_OFS, THM_OFS.LOGIC_OFS]),
  (THM_COOL_CTRL, [THM_COOL_CTRL.FLOW_EN, THM_COOL_CTRL.IN_EN, THM_COOL_CTRL.OUT_EN, THM_COOL_CTRL.BOARD_EN, THM_COOL_CTRL.SPARE_EN, THM_COOL_CTRL.BAL_EN, THM_COOL_CTRL.BOARD_WARN, THM_COOL_CTRL.SPARE_WARN]),
  (THM_FLOW_CAL, [THM_FLOW_CAL.PULSES, THM_FLOW_CAL.CP]),
  (THM_NTC_CAL, [THM_NTC_CAL.B, THM_NTC_CAL.R25]),
  (THM_HEAT, [THM_HEAT.Q, THM_HEAT.IMB]),
  (THM_FLOW, [THM_FLOW.ML_MIN]),
  (THM_LAYER_LOST, [THM_LAYER_LOST.COUNT]),
  (THM_CYC, [THM_CYC.COUNT]),
  (THM_CYC_BIG, [THM_CYC_BIG.COUNT]),
  (THM_HOT_S, [THM_HOT_S.SECONDS]),
  (THM_THROT_MS, [THM_THROT_MS.MS]),
  (CLK_CTRL, [CLK_CTRL.SEL_MODE, CLK_CTRL.PCIE_EN])]
def regTable_dev_11 : List (Reg × List Fld) := [
  (CLK_STAT, [CLK_STAT.SEL, CLK_STAT.REF0_PRESENT, CLK_STAT.REF1_PRESENT, CLK_STAT.MON, CLK_STAT.SUSPECT, CLK_STAT.OTHER_SUSPECT, CLK_STAT.HOLDOVER, CLK_STAT.FALLBACK, CLK_STAT.SWITCHED, CLK_STAT.WARN_SEEN, CLK_STAT.SUSPECT_SEEN, CLK_STAT.LOST_SEEN]),
  (CLK_DEV, [CLK_DEV.OTHER, CLK_DEV.SEL]),
  (CLK_MON_SRC, [CLK_MON_SRC.OUTLIER, CLK_MON_SRC.USED]),
  (CLK_TIME_SYNC, [CLK_TIME_SYNC.NS]),
  (CLK_SRCn, [CLK_SRCn.DEV]),
  (CLK_DOMn, [CLK_DOMn.STATE, CLK_DOMn.UNLOCK_SEEN, CLK_DOMn.MHZ]),
  (MGT_STAT, [MGT_STAT.EID, MGT_STAT.I3C, MGT_STAT.UPD_OWNER]),
  (MGT_UPD_SRC, [MGT_UPD_SRC.DA]),
  (MGT_UPD_LEN, [MGT_UPD_LEN.BYTES]),
  (MGT_UPD_CMD, [MGT_UPD_CMD.OP]),
  (MGT_UPD_RESULT, [MGT_UPD_RESULT.CODE, MGT_UPD_RESULT.BUSY, MGT_UPD_RESULT.CMD_LOST, MGT_UPD_RESULT.CHECK, MGT_UPD_RESULT.COPY]),
  (MGT_RB_CMD, [MGT_RB_CMD.KEY, MGT_RB_CMD.LEVEL])]
def regTable_dev_12 : List (Reg × List Fld) := [
  (MGT_RB_RESULT, [MGT_RB_RESULT.CODE, MGT_RB_RESULT.LEVEL]),
  (MGT_DBG_CMD, [MGT_DBG_CMD.OP]),
  (MGT_DBG_STAT, [MGT_DBG_STAT.STATE, MGT_DBG_STAT.RESULT, MGT_DBG_STAT.BUSY, MGT_DBG_STAT.CMD_LOST]),
  (MGT_DBG_TOKEN, [MGT_DBG_TOKEN.DA]),
  (MGT_DBG_NONCE, [MGT_DBG_NONCE.NONCE]),
  (MGT_WEAR, [MGT_WEAR.VALUE]),
  (DARN_CLEN, [DARN_CLEN.MASK]),
  (CHK_Qp_LO, [CHK_Qp_LO.DA]),
  (CHK_Qp_HI, [CHK_Qp_HI.LOG2, CHK_Qp_HI.DA]),
  (CHK_Qp_CQ_LO, [CHK_Qp_CQ_LO.DA]),
  (CHK_Qp_CQ_HI, [CHK_Qp_CQ_HI.DA]),
  (CHK_Qp_DB, [CHK_Qp_DB.PI])]
def regTable_dev_13 : List (Reg × List Fld) := [
  (CHK_Qp_IDX, [CHK_Qp_IDX.CI, CHK_Qp_IDX.CQ_PI]),
  (CHK_Qp_CQ_CI, [CHK_Qp_CQ_CI.CQ_CI]),
  (DARN_LOG, [DARN_LOG.WORD])]
/-- Every register of this scope with its named fields. -/
def regTable_dev : List (Reg × List Fld) :=
  regTable_dev_0 ++ regTable_dev_1 ++ regTable_dev_2 ++ regTable_dev_3 ++ regTable_dev_4 ++ regTable_dev_5 ++ regTable_dev_6 ++ regTable_dev_7 ++ regTable_dev_8 ++ regTable_dev_9 ++ regTable_dev_10 ++ regTable_dev_11 ++ regTable_dev_12 ++ regTable_dev_13
def regTable_half_0 : List (Reg × List Fld) := [
  (BARR_STAT, [BARR_STAT.BROKEN_SEEN, BARR_STAT.WR_LOST, BARR_STAT.OPEN]),
  (BARR_BUS_ERR, [BARR_BUS_ERR.COUNT]),
  (BARR_CTRLn, [BARR_CTRLn.EN, BARR_CTRLn.SPAN, BARR_CTRLn.RCUEV, BARR_CTRLn.RCUE, BARR_CTRLn.TENANT]),
  (BARR_STATn, [BARR_STATn.STATE, BARR_STATn.CAUSE, BARR_STATn.ARRIVED, BARR_STATn.GEN]),
  (BARR_CLMASKn_w, [BARR_CLMASKn_w.CLUSTERS]),
  (BARR_CMASKn_i, [BARR_CMASKn_i.CORES_HI, BARR_CMASKn_i.CORES_LO]),
  (HALF_ID, [HALF_ID.ID_OPEN, HALF_ID.STANDALONE, HALF_ID.HALF]),
  (HALF_STAT, [HALF_STAT.CTRL_UP, HALF_STAT.CTRL_LOST, HALF_STAT.SHADOW_LOST]),
  (HALF_HOME, [HALF_HOME.SERVES]),
  (HALF_COMMIT, [HALF_COMMIT.PHASE, HALF_COMMIT.RESULT, HALF_COMMIT.CAUSE, HALF_COMMIT.BANK]),
  (HALF_COMMIT_TMO, [HALF_COMMIT_TMO.MICROSEC]),
  (SEAM_STAT, [SEAM_STAT.UP, SEAM_STAT.DOWN])]
def regTable_half_1 : List (Reg × List Fld) := [
  (SEAM_CTRL, [SEAM_CTRL.LOOP_LOST, SEAM_CTRL.ERR_SEEN, SEAM_CTRL.ERR_LIMIT]),
  (SEAM_LOOP, [SEAM_LOOP.MODE]),
  (SEAM_PRBS, [SEAM_PRBS.EN, SEAM_PRBS.PORT]),
  (SEAM_Pn_FRAMES, [SEAM_Pn_FRAMES.FRAMES]),
  (SEAM_Pn_REPLAY, [SEAM_Pn_REPLAY.COUNT]),
  (SEAM_Pn_LANE, [SEAM_Pn_LANE.WORST, SEAM_Pn_LANE.ERRS]),
  (SEAM_Pn_CREDIT, [SEAM_Pn_CREDIT.REQ, SEAM_Pn_CREDIT.RSP, SEAM_Pn_CREDIT.MSG, SEAM_Pn_CREDIT.ESC]),
  (COLL_CTRL, [COLL_CTRL.EN, COLL_CTRL.TREE_MAX_LOG2]),
  (COLL_STAT, [COLL_STAT.DB_LOST, COLL_STAT.FAIL_SEEN, COLL_STAT.ACTIVE]),
  (COLL_DONE, [COLL_DONE.COUNT]),
  (COLL_BYTES, [COLL_BYTES.BYTES]),
  (COLL_FAILS, [COLL_FAILS.COUNT])]
def regTable_half_2 : List (Reg × List Fld) := [
  (COLL_Qp_LO, [COLL_Qp_LO.DA]),
  (COLL_Qp_HI, [COLL_Qp_HI.LOG2, COLL_Qp_HI.DA]),
  (COLL_Qp_CQ_LO, [COLL_Qp_CQ_LO.DA]),
  (COLL_Qp_CQ_HI, [COLL_Qp_CQ_HI.DA]),
  (COLL_Qp_DB, [COLL_Qp_DB.PI]),
  (COLL_Qp_IDX, [COLL_Qp_IDX.CI, COLL_Qp_IDX.CQ_PI]),
  (COLL_Qp_CQ_CI, [COLL_Qp_CQ_CI.CQ_CI]),
  (PCIE_STAT, [PCIE_STAT.UP, PCIE_STAT.FLIT, PCIE_STAT.SPEED, PCIE_STAT.WIDTH, PCIE_STAT.DOWN_SEEN]),
  (PCIE_CTRL, [PCIE_CTRL.MAX_SPEED]),
  (PCIE_SRIOV, [PCIE_SRIOV.SPLIT]),
  (PCIE_ATC_MISS, [PCIE_ATC_MISS.COUNT]),
  (PCIE_INVAL, [PCIE_INVAL.COUNT])]
def regTable_half_3 : List (Reg × List Fld) := [
  (PCIE_UR_CNT, [PCIE_UR_CNT.COUNT]),
  (HDMA_STAT, [HDMA_STAT.UE_SEEN, HDMA_STAT.BUSY]),
  (HDMA_BYTES_IN, [HDMA_BYTES_IN.BYTES]),
  (HDMA_BYTES_OUT, [HDMA_BYTES_OUT.BYTES]),
  (HDMA_FAULT_CNT, [HDMA_FAULT_CNT.COUNT]),
  (HQ_STAT, [HQ_STAT.DB_LOST, HQ_STAT.MULTI_HIT, HQ_STAT.WR_LOST, HQ_STAT.QPS]),
  (HQ_BAR2, [HQ_BAR2.WIN]),
  (HQ_CMDS, [HQ_CMDS.COUNT]),
  (HQ_QPn_CTRL, [HQ_QPn_CTRL.VALID, HQ_QPn_CTRL.IRQ_EN, HQ_QPn_CTRL.SLOT, HQ_QPn_CTRL.VECTOR, HQ_QPn_CTRL.TENANT]),
  (HQ_QPn_SQ, [HQ_QPn_SQ.ADDR]),
  (HQ_QPn_CQ, [HQ_QPn_CQ.ADDR]),
  (HQ_QPn_SIZE, [HQ_QPn_SIZE.SQ_LOG2, HQ_QPn_SIZE.CQ_LOG2])]
def regTable_half_4 : List (Reg × List Fld) := [
  (HQ_QPn_IDX, [HQ_QPn_IDX.SQ_CI, HQ_QPn_IDX.CQ_PI]),
  (SFE_STAT, [SFE_STAT.BG_SUSPECT, SFE_STAT.BG_SEL, SFE_STAT.AUTO_BG, SFE_STAT.SUSPECT_SEEN, SFE_STAT.LOST_SEEN, SFE_STAT.LOST]),
  (SFE_BG, [SFE_BG.BG1_MV, SFE_BG.BG0_MV]),
  (SFE_Sn, [SFE_Sn.STATE, SFE_Sn.VALUE])]
/-- Every register of this scope with its named fields. -/
def regTable_half : List (Reg × List Fld) :=
  regTable_half_0 ++ regTable_half_1 ++ regTable_half_2 ++ regTable_half_3 ++ regTable_half_4
def regTable_fport_0 : List (Reg × List Fld) := [
  (FPORT_CTRL, [FPORT_CTRL.MODE, FPORT_CTRL.AN, FPORT_CTRL.PFC_EN, FPORT_CTRL.PFC_PRIO, FPORT_CTRL.FEC_LIMIT]),
  (FPORT_STAT, [FPORT_STAT.LINK, FPORT_STAT.MODE, FPORT_STAT.DOWN_SEEN, FPORT_STAT.PFC_RX]),
  (FPORT_NEXTHOP_LO, [FPORT_NEXTHOP_LO.MAC]),
  (FPORT_NEXTHOP_HI, [FPORT_NEXTHOP_HI.MAC]),
  (FPORT_TX_FRAMES, [FPORT_TX_FRAMES.FRAMES]),
  (FPORT_RX_FRAMES, [FPORT_RX_FRAMES.FRAMES]),
  (FPORT_FEC_CORR, [FPORT_FEC_CORR.CW]),
  (FPORT_FEC_UNCORR, [FPORT_FEC_UNCORR.CW]),
  (FPORT_RX_DROP, [FPORT_RX_DROP.FRAMES]),
  (FPORT_CE, [FPORT_CE.FRAMES]),
  (FPORT_DROP, [FPORT_DROP.WHY]),
  (FPORT_TE_DB, [FPORT_TE_DB.CONN, FPORT_TE_DB.PI])]
def regTable_fport_1 : List (Reg × List Fld) := [
  (FPORT_TE_CMD, [FPORT_TE_CMD.OP, FPORT_TE_CMD.TARGET, FPORT_TE_CMD.PATH]),
  (FPORT_TE_RESULT, [FPORT_TE_RESULT.CODE, FPORT_TE_RESULT.BUSY, FPORT_TE_RESULT.CMD_LOST, FPORT_TE_RESULT.TARGET]),
  (FPORT_TE_PROBE_RTT, [FPORT_TE_PROBE_RTT.NS]),
  (FPORT_TE_STAT, [FPORT_TE_STAT.OPEN]),
  (FPORT_TE_TX_PKTS, [FPORT_TE_TX_PKTS.PKTS]),
  (FPORT_TE_RETX, [FPORT_TE_RETX.PKTS]),
  (FPORT_TE_ABORTS, [FPORT_TE_ABORTS.COUNT]),
  (FPORT_SEC_CTRL, [FPORT_SEC_CTRL.EN, FPORT_SEC_CTRL.TX_AN, FPORT_SEC_CTRL.REPLAY_WIN]),
  (FPORT_SEC_STAT, [FPORT_SEC_STAT.PN_WARN, FPORT_SEC_STAT.PN_EXHAUST, FPORT_SEC_STAT.RX_VALID, FPORT_SEC_STAT.TX_VALID]),
  (FPORT_SEC_DROP, [FPORT_SEC_DROP.COUNT]),
  (FPORT_SA_d_a_KEY, [FPORT_SA_d_a_KEY.KEY]),
  (FPORT_SA_d_a_SALT, [FPORT_SA_d_a_SALT.SALT])]
def regTable_fport_2 : List (Reg × List Fld) := [
  (FPORT_SA_d_a_SSCI, [FPORT_SA_d_a_SSCI.SSCI]),
  (FPORT_SA_d_a_PN, [FPORT_SA_d_a_PN.PN]),
  (FPORT_SA_d_a_CTRL, [FPORT_SA_d_a_CTRL.VALID]),
  (FPORT_LLDP, [FPORT_LLDP.EN, FPORT_LLDP.INTERVAL]),
  (FPORT_NBR_STAT, [FPORT_NBR_STAT.VALID, FPORT_NBR_STAT.CH_SUB, FPORT_NBR_STAT.PORT_SUB, FPORT_NBR_STAT.CH_LEN, FPORT_NBR_STAT.PORT_LEN]),
  (FPORT_NBR_CHASSIS, [FPORT_NBR_CHASSIS.BYTES]),
  (FPORT_NBR_PORT, [FPORT_NBR_PORT.BYTES])]
/-- Every register of this scope with its named fields. -/
def regTable_fport : List (Reg × List Fld) :=
  regTable_fport_0 ++ regTable_fport_1 ++ regTable_fport_2
def regTable_cluster_0 : List (Reg × List Fld) := [
  (CL_WINGS_STAT, [CL_WINGS_STAT.ORPHAN, CL_WINGS_STAT.ACTIVE]),
  (CL_WINGS_BYTES, [CL_WINGS_BYTES.BYTES]),
  (CL_WINGS_WAIT, [CL_WINGS_WAIT.CYCLES]),
  (CL_ADD_STAT, [CL_ADD_STAT.UE_SEEN, CL_ADD_STAT.BUSY]),
  (CL_ADD_OPS, [CL_ADD_OPS.OPS]),
  (CL_ADD_POISON, [CL_ADD_POISON.COUNT]),
  (CL_CACHE_STAT, [CL_CACHE_STAT.BUSY, CL_CACHE_STAT.MULTI_HIT, CL_CACHE_STAT.PIN_OVF, CL_CACHE_STAT.UE_SEEN, CL_CACHE_STAT.CMD_LOST, CL_CACHE_STAT.PINNED]),
  (CL_CACHE_CMD, [CL_CACHE_CMD.OP, CL_CACHE_CMD.SLICE, CL_CACHE_CMD.WINDOW]),
  (CL_CACHE_CTRL, [CL_CACHE_CTRL.DEFHINT]),
  (CL_CACHE_HITS, [CL_CACHE_HITS.HITS]),
  (CL_CACHE_MISSES, [CL_CACHE_MISSES.MISSES]),
  (CL_CACHE_WBACKS, [CL_CACHE_WBACKS.LINES])]
def regTable_cluster_1 : List (Reg × List Fld) := [
  (CL_CACHE_ATOMS, [CL_CACHE_ATOMS.OPS]),
  (CL_CACHE_ADDER, [CL_CACHE_ADDER.OPS]),
  (CL_CACHE_CE_CNT, [CL_CACHE_CE_CNT.COUNT]),
  (CL_CACHE_UE_CNT, [CL_CACHE_UE_CNT.COUNT]),
  (CL_CACHE_HINTWIN_CTRL, [CL_CACHE_HINTWIN_CTRL.VALID, CL_CACHE_HINTWIN_CTRL.HINT, CL_CACHE_HINTWIN_CTRL.PIN, CL_CACHE_HINTWIN_CTRL.OWNER, CL_CACHE_HINTWIN_CTRL.SLICES]),
  (CL_CACHE_HINTWIN_BASE, [CL_CACHE_HINTWIN_BASE.OFFSET]),
  (CL_CACHE_HINTWIN_LIMIT, [CL_CACHE_HINTWIN_LIMIT.OFFSET]),
  (CL_MESH_STAT, [CL_MESH_STAT.DOWN, CL_MESH_STAT.UP, CL_MESH_STAT.ERR_SEEN, CL_MESH_STAT.DETOUR]),
  (CL_MESH_CTRL, [CL_MESH_CTRL.ERR_LIMIT]),
  (CL_MESH_FLITS, [CL_MESH_FLITS.FLITS]),
  (CL_MESH_RETRY, [CL_MESH_RETRY.COUNT]),
  (CL_MESH_ROUTE, [CL_MESH_ROUTE.ESC, CL_MESH_ROUTE.LINK])]
def regTable_cluster_2 : List (Reg × List Fld) := [
  (CL_CUE_STAT, [CL_CUE_STAT.BUSY, CL_CUE_STAT.CMD_LOST, CL_CUE_STAT.OVF_SEEN, CL_CUE_STAT.UNF_SEEN, CL_CUE_STAT.WQ_FULL_SEEN, CL_CUE_STAT.RESULT, CL_CUE_STAT.WAITERS]),
  (CL_CUE_CMD, [CL_CUE_CMD.OP, CL_CUE_CMD.CO, CL_CUE_CMD.CUE]),
  (CL_CUE_ARG0, [CL_CUE_ARG0.VALUE]),
  (CL_CUE_ARG1, [CL_CUE_ARG1.LIMIT]),
  (CL_CUE_ARG2, [CL_CUE_ARG2.OWNER_CORE, CL_CUE_ARG2.TENANT]),
  (CL_CUE_OPS, [CL_CUE_OPS.OPS]),
  (CL_CUE_DISC, [CL_CUE_DISC.COUNT]),
  (CL_CUE_NACKS, [CL_CUE_NACKS.COUNT]),
  (CL_CUE_Sj, [CL_CUE_Sj.STATE, CL_CUE_Sj.CORE_OWNED, CL_CUE_Sj.WAITERS, CL_CUE_Sj.COUNT]),
  (CL_CUE_Lj, [CL_CUE_Lj.LIMIT]),
  (CL_CUE_Oj, [CL_CUE_Oj.OWNER_CORE, CL_CUE_Oj.TENANT]),
  (CL_QUEUE_POOL, [CL_QUEUE_POOL.POOL])]
def regTable_cluster_3 : List (Reg × List Fld) := [
  (CL_QUEUE_STAT, [CL_QUEUE_STAT.HOLD_SEEN, CL_QUEUE_STAT.HELD, CL_QUEUE_STAT.WITHDRAWN]),
  (CL_QUEUE_ABANDON, [CL_QUEUE_ABANDON.COUNT])]
/-- Every register of this scope with its named fields. -/
def regTable_cluster : List (Reg × List Fld) :=
  regTable_cluster_0 ++ regTable_cluster_1 ++ regTable_cluster_2 ++ regTable_cluster_3
def regTable_core_0 : List (Reg × List Fld) := [
  (CORE_SEQ_CTRL, [CORE_SEQ_CTRL.START, CORE_SEQ_CTRL.HALT_REQ, CORE_SEQ_CTRL.RESUME, CORE_SEQ_CTRL.FP8_SAT]),
  (CORE_SEQ_STAT, [CORE_SEQ_STAT.STATE, CORE_SEQ_STAT.SLEEPING, CORE_SEQ_STAT.IN_TRAP, CORE_SEQ_STAT.WITHDRAWN, CORE_SEQ_STAT.FP8_SAT, CORE_SEQ_STAT.CTRL_LOST, CORE_SEQ_STAT.HALT_CAUSE, CORE_SEQ_STAT.LOOP_DEPTH]),
  (CORE_SEQ_LOAD_LO, [CORE_SEQ_LOAD_LO.DA_LO]),
  (CORE_SEQ_LOAD_HI, [CORE_SEQ_LOAD_HI.DA_HI]),
  (CORE_SEQ_LOAD_LEN, [CORE_SEQ_LOAD_LEN.COUNT]),
  (CORE_SEQ_ENTRY, [CORE_SEQ_ENTRY.INDEX]),
  (CORE_SEQ_TVEC, [CORE_SEQ_TVEC.VALID, CORE_SEQ_TVEC.INDEX]),
  (CORE_SEQ_TENANT, [CORE_SEQ_TENANT.TENANT]),
  (CORE_SEQ_ARGn, [CORE_SEQ_ARGn.VALUE]),
  (CORE_SEQ_PC, [CORE_SEQ_PC.PC]),
  (CORE_SEQ_TCAUSE, [CORE_SEQ_TCAUSE.IMPRECISE, CORE_SEQ_TCAUSE.CAUSE]),
  (CORE_SEQ_TPC, [CORE_SEQ_TPC.TPC])]
def regTable_core_1 : List (Reg × List Fld) := [
  (CORE_SEQ_EXIT, [CORE_SEQ_EXIT.CODE]),
  (CORE_SEQ_TVAL, [CORE_SEQ_TVAL.TVAL]),
  (CORE_SEQ_CYCLES, [CORE_SEQ_CYCLES.CYCLES]),
  (CORE_SEQ_RETIRED, [CORE_SEQ_RETIRED.RETIRED]),
  (CORE_MNG_CTRL, [CORE_MNG_CTRL.ENTRY_FMT]),
  (CORE_MNG_STAT, [CORE_MNG_STAT.BUSY, CORE_MNG_STAT.UE_SEEN, CORE_MNG_STAT.NAN_SCALE_SEEN, CORE_MNG_STAT.RSVD_SEEN]),
  (CORE_MNG_BLOCKS, [CORE_MNG_BLOCKS.BLOCKS]),
  (CORE_MNG_UE_CNT, [CORE_MNG_UE_CNT.COUNT]),
  (CORE_ARR_CTRL, [CORE_ARR_CTRL.CK_EN, CORE_ARR_CTRL.CK_TRAP, CORE_ARR_CTRL.TOL]),
  (CORE_ARR_STAT, [CORE_ARR_STAT.BUSY, CORE_ARR_STAT.QUEUED, CORE_ARR_STAT.CKCOL, CORE_ARR_STAT.MISMATCH_SEEN, CORE_ARR_STAT.SKIP_SEEN, CORE_ARR_STAT.UE_SEEN]),
  (CORE_ARR_CKFIRST, [CORE_ARR_CKFIRST.ARRAY, CORE_ARR_CKFIRST.STEP]),
  (CORE_ARR_CKPC, [CORE_ARR_CKPC.INDEX])]
def regTable_core_2 : List (Reg × List Fld) := [
  (CORE_ARR_CKCNT, [CORE_ARR_CKCNT.MISMATCH, CORE_ARR_CKCNT.SKIPPED]),
  (CORE_ARR_CKVEC, [CORE_ARR_CKVEC.VEC]),
  (CORE_ARR_STEPS, [CORE_ARR_STEPS.STEPS]),
  (CORE_ARR_VECS, [CORE_ARR_VECS.VECS]),
  (CORE_ARR_CHECKED, [CORE_ARR_CHECKED.CHECKED]),
  (CORE_ARR_FRZ_ACT, [CORE_ARR_FRZ_ACT.CYCLES]),
  (CORE_ARR_FRZ_WGT, [CORE_ARR_FRZ_WGT.CYCLES]),
  (CORE_ARR_FRZ_DRN, [CORE_ARR_FRZ_DRN.CYCLES]),
  (CORE_VEC_CTRL, [CORE_VEC_CTRL.OVERLAP]),
  (CORE_VEC_STAT, [CORE_VEC_STAT.BUSY, CORE_VEC_STAT.QUEUED, CORE_VEC_STAT.UE_SEEN]),
  (CORE_VEC_UE_CNT, [CORE_VEC_UE_CNT.COUNT]),
  (CORE_VEC_INSTR, [CORE_VEC_INSTR.INSTR])]
def regTable_core_3 : List (Reg × List Fld) := [
  (CORE_VEC_VALUES, [CORE_VEC_VALUES.VALUES]),
  (CORE_VEC_BUSY_CYC, [CORE_VEC_BUSY_CYC.CYCLES]),
  (CORE_VEC_STALL_BANK, [CORE_VEC_STALL_BANK.CYCLES]),
  (CORE_VEC_STALL_ACC, [CORE_VEC_STALL_ACC.CYCLES]),
  (CORE_VEC_STALL_HAZ, [CORE_VEC_STALL_HAZ.CYCLES]),
  (CORE_SLC_PIM_CTRL, [CORE_SLC_PIM_CTRL.WIN_BANKS, CORE_SLC_PIM_CTRL.YIELD]),
  (CORE_SLC_PIM_STAT, [CORE_SLC_PIM_STAT.BUSY, CORE_SLC_PIM_STAT.QUEUED, CORE_SLC_PIM_STAT.GOV_BANKS, CORE_SLC_PIM_STAT.L6_ACTIVE, CORE_SLC_PIM_STAT.L7_ACTIVE, CORE_SLC_PIM_STAT.UE_SEEN, CORE_SLC_PIM_STAT.POISON_SEEN, CORE_SLC_PIM_STAT.ADDR_SEEN, CORE_SLC_PIM_STAT.REG_UE_SEEN, CORE_SLC_PIM_STAT.TENANT_CLR]),
  (CORE_SLC_PIM_UE_CNT, [CORE_SLC_PIM_UE_CNT.COUNT]),
  (CORE_SLC_PIM_CMDS, [CORE_SLC_PIM_CMDS.CMDS]),
  (CORE_SLC_PIM_WORDS, [CORE_SLC_PIM_WORDS.WORDS]),
  (CORE_SLC_PIM_WIN_WAIT, [CORE_SLC_PIM_WIN_WAIT.CYCLES]),
  (CORE_SLC_PIM_YIELD_CYC, [CORE_SLC_PIM_YIELD_CYC.CYCLES])]
def regTable_core_4 : List (Reg × List Fld) := [
  (CORE_SLC_STAT, [CORE_SLC_STAT.MODE, CORE_SLC_STAT.GROUPS, CORE_SLC_STAT.LANE_FIX, CORE_SLC_STAT.REMAP_FULL, CORE_SLC_STAT.UE_SEEN, CORE_SLC_STAT.SENSOR_BAD]),
  (CORE_SLC_CTRL, [CORE_SLC_CTRL.LANE_LIMIT, CORE_SLC_CTRL.ROW_LIMIT, CORE_SLC_CTRL.RETRY]),
  (CORE_SLC_LANE_WORST, [CORE_SLC_LANE_WORST.LANE, CORE_SLC_LANE_WORST.COUNT]),
  (CORE_SLC_RD_BYTES, [CORE_SLC_RD_BYTES.BYTES]),
  (CORE_SLC_WR_BYTES, [CORE_SLC_WR_BYTES.BYTES]),
  (CORE_SLC_TEMP0, [CORE_SLC_TEMP0.LAYERS]),
  (CORE_SLC_TEMP1, [CORE_SLC_TEMP1.LAYERS]),
  (CORE_SLC_REFRATE, [CORE_SLC_REFRATE.RATE]),
  (CORE_SLC_SCRUB, [CORE_SLC_SCRUB.EN, CORE_SLC_SCRUB.PERIOD]),
  (CORE_SLC_SCRUB_PASSES, [CORE_SLC_SCRUB_PASSES.PASSES]),
  (CORE_SLC_CE_CNT, [CORE_SLC_CE_CNT.COUNT]),
  (CORE_SLC_UE_CNT, [CORE_SLC_UE_CNT.COUNT])]
def regTable_core_5 : List (Reg × List Fld) := [
  (CORE_SLC_UE_ADDR, [CORE_SLC_UE_ADDR.DA]),
  (CORE_SLC_REMAP, [CORE_SLC_REMAP.VALID, CORE_SLC_REMAP.LAYER, CORE_SLC_REMAP.BANK, CORE_SLC_REMAP.SPARE, CORE_SLC_REMAP.ROW]),
  (CORE_SLC_TEST_CMD, [CORE_SLC_TEST_CMD.OP, CORE_SLC_TEST_CMD.UNMAPPED, CORE_SLC_TEST_CMD.LAYER, CORE_SLC_TEST_CMD.BANK, CORE_SLC_TEST_CMD.ROWSEL, CORE_SLC_TEST_CMD.WORD]),
  (CORE_SLC_TEST_ADDR, [CORE_SLC_TEST_ADDR.DA]),
  (CORE_SLC_TEST_DATA, [CORE_SLC_TEST_DATA.DATA]),
  (CORE_SLC_TEST_CHK, [CORE_SLC_TEST_CHK.CHK]),
  (CORE_SLC_TEST_SYN, [CORE_SLC_TEST_SYN.SYN]),
  (CORE_SLC_TEST_STAT, [CORE_SLC_TEST_STAT.RESULT, CORE_SLC_TEST_STAT.BUSY, CORE_SLC_TEST_STAT.LOST, CORE_SLC_TEST_STAT.POS, CORE_SLC_TEST_STAT.DEC]),
  (CORE_DMA_CHn_STAT, [CORE_DMA_CHn_STAT.STATUS]),
  (CORE_DMA_CHn_CMD, [CORE_DMA_CHn_CMD.OP]),
  (CORE_DMA_CHn_FAULT, [CORE_DMA_CHn_FAULT.ADDR]),
  (CORE_DMA_CHn_BYTES, [CORE_DMA_CHn_BYTES.BYTES])]
def regTable_core_6 : List (Reg × List Fld) := [
  (CORE_DMA_UE_CNT, [CORE_DMA_UE_CNT.COUNT]),
  (CORE_DMA_CHK_CNT, [CORE_DMA_CHK_CNT.COUNT]),
  (CORE_DMA_INFLIGHT, [CORE_DMA_INFLIGHT.REQS]),
  (CORE_MSG_CTRL, [CORE_MSG_CTRL.FAIL_TRAP, CORE_MSG_CTRL.BACKOFF, CORE_MSG_CTRL.RETRY_LIMIT]),
  (CORE_MSG_STAT, [CORE_MSG_STAT.FAIL_SEEN, CORE_MSG_STAT.DROP_SEEN, CORE_MSG_STAT.SENDQ, CORE_MSG_STAT.RECVQ]),
  (CORE_MSG_FAIL, [CORE_MSG_FAIL.CAUSE, CORE_MSG_FAIL.TAG, CORE_MSG_FAIL.DEST]),
  (CORE_MSG_FAIL_CNT, [CORE_MSG_FAIL_CNT.COUNT]),
  (CORE_MSG_SENT, [CORE_MSG_SENT.COUNT]),
  (CORE_MSG_RCVD, [CORE_MSG_RCVD.COUNT]),
  (CORE_MSG_NACKS, [CORE_MSG_NACKS.COUNT]),
  (CORE_UNIT_CE_IMEM, [CORE_UNIT_CE_IMEM.COUNT]),
  (CORE_UNIT_CE_SP, [CORE_UNIT_CE_SP.COUNT])]
def regTable_core_7 : List (Reg × List Fld) := [
  (CORE_UNIT_CE_ACC, [CORE_UNIT_CE_ACC.COUNT]),
  (CORE_UNIT_CE_CB, [CORE_UNIT_CE_CB.COUNT]),
  (CORE_UNIT_CE_MSG, [CORE_UNIT_CE_MSG.COUNT]),
  (CORE_UNIT_REH, [CORE_UNIT_REH.RESULT, CORE_UNIT_REH.KERNEL, CORE_UNIT_REH.WHY]),
  (CORE_UNIT_ROLE, [CORE_UNIT_ROLE.ROLE]),
  (CORE_UNIT_CLAMP, [CORE_UNIT_CLAMP.SEEN, CORE_UNIT_CLAMP.COUNT, CORE_UNIT_CLAMP.LAST])]
/-- Every register of this scope with its named fields. -/
def regTable_core : List (Reg × List Fld) :=
  regTable_core_0 ++ regTable_core_1 ++ regTable_core_2 ++ regTable_core_3 ++ regTable_core_4 ++ regTable_core_5 ++ regTable_core_6 ++ regTable_core_7
/-- The register table of a scope (R38). -/
def regTable : Scope → List (Reg × List Fld)
  | .dev => regTable_dev
  | .half => regTable_half
  | .fport => regTable_fport
  | .cluster => regTable_cluster
  | .core => regTable_core

end Sys2Proof.Machine
end

