-- ==== Sys2Proof/Machine/State.lean ====
section
/-! DEFINITION. The state of the device: everything the spec gives the machine, as plain data, and the state after a
cold reset. -/
namespace Sys2Proof.Machine

/-- Byte-addressed memory in canonical form (`FMap.put` with default 0): keys rising, no entry equal to 0.
An unlisted byte reads as zero (R267: the cold boot writes zero to every word). -/
abbrev Memory := List Host.Cell

/-- The canonical form of a memory. -/
abbrev Memory.wf (m : Memory) : Prop := FMap.sorted m = true ∧ ∀ c ∈ m, c.2 ≠ 0

/-- One entry of the loop stack (R94). -/
structure Loop where
  start : Nat
  fin : Nat
  left : Nat
  deriving DecidableEq, Repr

/-- Where a message in the send queue stands (R329): to be sent, answered ACK or NACK FULL, failing with a cause of R330
on its way back, or waiting for BACKOFF. -/
inductive MsgPhase where
  | queued
  | acked
  | nacked
  | failing (cause : Nat)
  | backoff
  deriving DecidableEq, Repr

/-- A message (R100, R101): payload, header fields, sender's tenant; `tries` counts NACK FULL answers; the index of its
MSEND. -/
structure Msg where
  dst : Nat
  src : Nat
  tenant : Nat
  tag : Nat
  len : Nat
  data : List Byte
  phase : MsgPhase
  tries : Nat
  pcIdx : Nat
  deriving DecidableEq, Repr

/-- What a core's issue is stalled on. Instructions that are issued again after a wait (R81, R102) leave `none`. -/
inductive Wait where
  /-- issuing normally -/
  | run
  /-- a REG access in flight (R91): write, 64-bit, register DA, store data, destination, BANK at its issue (R374) -/
  | reg (write wide : Bool) (da : Nat) (val : Nat) (rd bank : Nat)
  /-- FENCE waiting for the classes of its mask (R105) -/
  | fence (mask : Nat)
  /-- a round-trip cue instruction (R338): its FN, cue, destination register, NOTRAP, and whether a cancel is out (R343) -/
  | cue (fn cue rd : Nat) (notrap cancelled : Bool)
  /-- BSYNC or BWAIT asleep on a context of the core's half (R351): the generation it waits to leave -/
  | barrier (ctx rd gen : Nat) (notrap : Bool)
  /-- a sequence-context instruction waiting for its status (R200) -/
  | seq (rd : Nat)
  deriving DecidableEq, Repr

/-- A matrix instruction in the matrix unit (R148, R151): its word and index, copies of its descriptors
(DACC, DW, DX, DWS, DXS), and what it sampled when it issued: CORE_ARR_CTRL and ENTRY_FMT (R134, R162). -/
structure MxJob where
  word : W64
  pcIdx : Nat
  dacc : Nat
  dw : Nat
  dx : Nat
  dws : Nat
  dxs : Nat
  ckEn : Nat
  ckTrap : Bool
  tol : Nat
  entryFmt : Nat
  deriving DecidableEq, Repr

/-- What MCKS returns and clears (R152). -/
structure Mcks where
  ue : Bool
  skipped : Bool
  unchecked : Nat
  mismatch : Nat
  deriving DecidableEq, Repr

/-- A vector instruction waiting to read (R166, R179): its word and index, copies of DD, DA, DB and DS, the scalar
operand of VOPS, and what it sampled at issue: the FP8 mode and OVERLAP. -/
structure VJob where
  word : W64
  pcIdx : Nat
  dd : Nat
  da : Nat
  db : Nat
  ds : Nat
  scalar : Nat
  sat : Bool
  overlap : Bool
  deriving DecidableEq, Repr

/-- A vector instruction that has read its streams and is writing: its writes (local address, bytes, value), spans
written, values written, and the fault codes it raised. -/
structure VPend where
  pcIdx : Nat
  writes : List (Nat × Nat × Nat)
  spans : List (Int × Int)
  nvals : Nat
  destRead : Bool
  codes : List Nat
  deriving DecidableEq, Repr

/-- Where an atomic stands (R296, R298): queued; at the adders with so many operations still to come back, the old
value and the fault code so far; or executed, with what it returns. -/
inductive AtomPhase where
  | queued
  | adder (left old code : Nat)
  | done (old code : Nat)
  deriving DecidableEq, Repr

/-- An atomic, line reduction or write-back command in a core's atomic queue (R294-R297): FN 0-11 of ATOM, 12 for LRED
and 13 for CWB; width, FETCH, LRED TYPE, destination, target, operand (for LRED the 128 B read at issue, for CWB the
lines), compare value, instruction index, its number among the core's atomics, the poison mark of its completion (R274), and
the BANK under which it was issued (R374). -/
structure AtomJob where
  fn : Nat
  wide : Bool
  fetch : Bool
  typ : Nat
  rd : Nat
  da : Nat
  opnd : Nat
  cmp : Nat
  pcIdx : Nat
  aid : Nat
  phase : AtomPhase
  poison : Bool
  bank : Nat
  deriving DecidableEq, Repr

/-- An operation queued at a memory-side adder (R272), and the atomic of a core that it serves. -/
structure AddOp where
  da : Nat
  opnd : Nat
  mask : Nat
  fp : Bool
  fetch : Bool
  core : Nat
  aid : Nat
  deriving DecidableEq, Repr

/-- Who sends a cue operation (R340, R345): a core's instruction at an index; a core's unit, whose refusals are reported
at the cue only; the context agent for a core; a barrier release. -/
inductive CueReq where
  | core (c pcIdx : Nat)
  | unit (c : Nat)
  | agent (c : Nat)
  | barrier
  deriving DecidableEq, Repr

/-- A cue operation on its way to its cue storage: FN of R338, cue number, operand, CO, tenant, and the partition it is
checked against. -/
structure CueOp where
  req : CueReq
  fn : Nat
  cue : Nat
  arg : Nat
  co : Bool
  tenant : Nat
  part : Option Nat
  deriving DecidableEq, Repr

/-- A waiter entry (R342): cue, core, k, and whether the context agent waits for the core. -/
structure Waiter where
  cue : Nat
  core : Nat
  k : Nat
  agent : Bool
  deriving DecidableEq, Repr

/-- What comes back to a core from a cue storage: the value of a round trip; a fault kind; a NACK of a WAIT; a wake with
the k its grant subtracted, or with the fault kind that ended the wait. -/
inductive CueAns where
  | value (v : Nat)
  | refused (kind cue : Nat)
  | nack (op : CueOp)
  | wake (cue k kind : Nat)
  deriving DecidableEq, Repr

/-- A segment of a KVLD walk (R208): the DA of its list entry, its first row within the page, its rows, log2 of the row
size, V rows or K rows, the page size, the ring's base and size, the first row's number in the walk, and its cue. -/
structure KvSeg where
  entry : Nat
  first : Nat
  rows : Nat
  rowLog2 : Nat
  vRows : Bool
  pageSize : Nat
  base : Nat
  ring : Nat
  r0 : Nat
  cue : Option Nat
  deriving DecidableEq, Repr

/-- A SEQ instruction on its way to the context agent (R198): FN, the values of RA and RB, IMM32. -/
structure SeqReq where
  fn : Nat
  ra : Nat
  rb : Nat
  imm : Nat
  deriving DecidableEq, Repr

/-- An admission of a core that waits (R199): its context, the context's DA, the pages it needs, the pool cue, and the home
cluster of the pool record. -/
structure SeqHeld where
  ctx : Nat
  da : Nat
  need : Nat
  cue : Nat
  home : Nat
  deriving DecidableEq, Repr

/-- Where a near-bank command of a port stands (R222, R232, R234): to be dispatched, in its slice controller's queue, in
its bank, paused there, or discarded with a fault code. -/
inductive PimPhase where
  | queued
  | waiting
  | running
  | paused
  | discarded (code : Nat)
  deriving DecidableEq, Repr

/-- A near-bank command in a core's port (R222): its word and index, the values of RA and RB and a copy of its result
descriptor, taken at issue; and its numbers in the order of arrival at its slice controller and of start there. -/
structure PimJob where
  word : W64
  pcIdx : Nat
  ra : Nat
  rb : Nat
  dd : Nat
  phase : PimPhase
  arr : Nat
  start : Nat
  deriving DecidableEq, Repr

/-- The bank registers of a near-bank unit and the tenant that last wrote them (R218, R219). -/
structure PimUnit where
  tenant : Option Nat
  v : FMap (BitVec 256)
  a : FMap (BitVec 512)
  deriving DecidableEq, Repr

def PimUnit.init : PimUnit := { tenant := none, v := [], a := [] }

/-- An entry of a DMA channel's queue: a descriptor's eight words (R316), the local address of an uncorrectable granule
met while copying it (R319), a DMAC's DA value that addresses nothing (R26), or a walk segment. -/
structure DmaEnt where
  raw : Nat
  ue : Option Nat
  badDa : Option Nat
  kv : Option KvSeg
  deriving DecidableEq, Repr

/-- A DMA channel (R315, R326): its queue, whether the current descriptor has begun and how many of its bytes are done,
and the parts of the status word that are not derived. -/
structure DmaCh where
  q : List DmaEnt
  begun : Bool
  pos : Nat
  doneCnt : Nat
  cause : Nat
  lost : Bool
  poison : Bool
  halted : Bool
  /-- words that the current MOVE has overwritten and that it may yet read, by DA / 32, as they were (R325) -/
  snap : FMap (BitVec 256)
  deriving DecidableEq, Repr

def DmaCh.init : DmaCh :=
  { q := [], begun := false, pos := 0, doneCnt := 0, cause := 0, lost := false, poison := false, halted := false,
    snap := [] }

/-- The core state R70 gives a program, and the queues of the core's units. Status fields with a register of their own
(pc, STATE, IN_TRAP, TPC, TCAUSE, TVAL, FP8 mode, counters) live in the register bank. -/
structure CoreSt where
  s : FMap W64
  desc : FMap (BitVec 256)
  loops : List Loop
  shadowLoops : List Loop
  /-- tenant of the previous program; none after a cold reset or core reset (R78) -/
  prevTenant : Option Nat
  wait : Wait
  /-- HALT_CAUSE of a halt that is draining (R82), or of a HALT_REQ taken while LOADING -/
  halting : Option Nat
  /-- TVAL of imprecise traps due at the next instruction boundary (R108) -/
  traps : List Nat
  /-- the matrix unit: the executing instruction first (R151) -/
  mxq : List MxJob
  mcks : Mcks
  /-- the vector engine: instructions waiting to read, and those writing (R179) -/
  vq : List VJob
  vwr : List VPend
  sendq : List Msg
  recvq : List Msg
  /-- the atomic queue, oldest first, and how many atomics the core has issued -/
  atomq : List AtomJob
  atomN : Nat
  dma : FMap DmaCh
  /-- answers from cue storages on their way to the core -/
  cueAns : List CueAns
  /-- refused SIGNALs on their way back: fault kind, index of the SIGNAL and cue (R341) -/
  sigRef : List (Nat × Nat × Nat)
  /-- a SEQ instruction on its way to the context agent, its result (value and fault code) on the way back, and the
  admission that waits (R189, R199) -/
  seqReq : Option SeqReq
  seqAns : Option (Nat × Nat)
  seqHeld : Option SeqHeld
  /-- the near-bank command port, oldest first -/
  pimq : List PimJob
  deriving DecidableEq, Repr

def CoreSt.init : CoreSt :=
  { s := [], desc := [], loops := [], shadowLoops := [], prevTenant := none, wait := .run, halting := none, traps := [], mxq := [], vq := [], vwr := [], mcks := ⟨false, false, 0, 0⟩,
    sendq := [], recvq := [], atomq := [], atomN := 0, dma := [], cueAns := [], sigRef := [],
    seqReq := none, seqAns := none, seqHeld := none, pimq := [] }

/-- The stored check value of a 4 KiB block that is not the CRC-32C of the block and its DA (R473-R475): the poison
pattern, or the true value with these bits wrong. -/
inductive BlkMark where
  | poison
  | off (delta : W32)
  deriving DecidableEq, Repr

/-- What a slice controller holds below the address map (R249, R263-R266, R276). Rows are numbered
(layer · 16 + bank) · 512 + row. -/
structure SliceSt where
  /-- rows with corrected words, oldest first, with their counts (R263) -/
  rowCnt : List (Nat × Nat)
  /-- corrected symbols by logical lane, in this 1 ms interval and since cold boot (R249, R278) -/
  laneCnt : FMap Nat
  laneTot : FMap Nat
  /-- the lane each group's spare stands in for (R41), and the groups that are lost (R43) -/
  spareLane : FMap Nat
  lostGroups : List Nat
  /-- spare rows in use, by bank (R264) -/
  spareUsed : FMap (List Nat)
  /-- rows that found no spare or no remap entry (R266) -/
  unrepaired : List Nat
  /-- rows whose copy into a spare is not finished, with the spare taken -/
  copying : List (Nat × Nat)
  /-- spare and test rows by ((layer·16 + bank)·17 + row select)·64 + word: data and check symbols, 288 bits (R276) -/
  raw : FMap (BitVec 288)
  /-- the RESULT of the test command that is running (R277) -/
  test : Option Nat
  /-- operations queued at the memory-side adder (R272) -/
  addq : List AddOp
  /-- near-bank units by (layer - 6) · 16 + bank -/
  pim : FMap PimUnit
  /-- arrivals and starts of near-bank commands so far, the model's own count of their order (R221, R234) -/
  pimSeq : Nat
  deriving DecidableEq, Repr

def SliceSt.init : SliceSt :=
  { rowCnt := [], laneCnt := [], laneTot := [], spareLane := [], lostGroups := [], spareUsed := [], unrepaired := [], copying := [],
    raw := [], test := none, addq := [], pim := [], pimSeq := 0 }

/-- A line of a home cache (R281): slice, line number within the slice (DA[26:7]), data, state, hint class, the windows
that pin it (R290), and its place in the order of use (higher is more recent). -/
structure Line where
  core : Nat
  idx : Nat
  data : BitVec 1024
  dirty : Bool
  hint : Nat
  pin : List Nat
  age : Int
  deriving DecidableEq, Repr

/-- A cached access waiting for a fill (R286, R287), in order of arrival: requester, DA and bytes of the access, the value
of a write, and the hint class and pinning window it took when it reached the tags (R304). -/
structure Fill where
  who : Requester
  da : Nat
  bytes : Nat
  wr : Option Nat
  cls : Nat
  win : Option Nat
  deriving DecidableEq, Repr

/-- A cluster's home cache. Lines are keyed by set · 16 + way; an unlisted way is INVALID. -/
structure CacheSt where
  lines : FMap Line
  fills : List Fill
  /-- the CL_CACHE_CMD command that is running: its OP, SLICE and WINDOW -/
  cmd : Option (Nat × Nat × Nat)
  deriving DecidableEq, Repr

def CacheSt.init : CacheSt := { lines := [], fills := [], cmd := none }

/-- What raised a Curtain, and so where it reports when it lowers: SEQ_RST_CMD, PART_CMD, a Darn command, a write of a
partition's VALID; or nothing does (link and function events, automatic retirement). -/
inductive CurSrc where
  | rst (target : Nat)
  | part (target : Nat)
  | darn
  | valid (p : Nat)
  | auto
  deriving DecidableEq, Repr

/-- A Curtain that has not lowered: its scope, the clusters inside it, the cores that ran for its tenants, its source, and
the larger Curtain it has merged into (R529). -/
structure Curtain where
  scope : CScope
  clusters : List Nat
  cores : List Nat
  src : CurSrc
  into : Option CScope
  deriving DecidableEq, Repr

/-- An error record before the logger takes it (R490): its class and operation codes, Unit ID, address and the moment. -/
structure ErrRec where
  cls : Nat
  op : Nat
  unit : Nat
  addr : Nat
  time : Nat
  deriving DecidableEq, Repr

/-- A PTP message with its time stamp (R413). -/
inductive PtpMsg where
  | sync (time : Nat)
  | announce
  | delayReq
  | delayResp (time : Nat)
  deriving DecidableEq, Repr

/-- A frame the device sends that is no FFT packet: replies to ARP (sender MAC and IP, target MAC and IP) and to a Neighbour
Solicitation (target, its MAC, the Solicited and Override flags) (R386), a PFC frame (priority, quanta; R387), an LLDPDU
(R416: Chassis ID, Port ID, TTL, port and device numbers), and a PTP message in a domain (R413). -/
inductive FrameOut where
  | arpReply (enc : Encap) (sha spa tha tpa : Nat)
  | neighborAdvert (enc : Encap) (target lla : Nat) (solicited override : Bool)
  | pfc (prio quanta : Nat)
  | lldp (chassis portId ttl port dev : Nat)
  | ptp (enc : Encap) (dom : Nat) (m : PtpMsg)
  deriving DecidableEq, Repr

/-- A sequenced packet in a connection's stream (R402-R405): its PSN and TYPE; the ring index of its work request, or
none for a READ_RSP and for a collective's packet, which names its collective; the pieces (DA, bytes) that its payload
is read from, or for a READ_REQ the destination DA it carries; AUX, RDA, LEN and CUE of its header; FIRST, LAST, WHOLE allowed, ACKREQ; and how
it was last sent: path, timeouts so far, moment; whether the peer has accepted it. -/
structure TxPkt where
  psn : Nat
  typ : Nat
  wr : Option Nat
  coll : Option Nat
  src : List (Nat × Nat)
  aux : Nat
  rda : Nat
  len : Nat
  cue : Nat
  first : Bool
  last : Bool
  whole : Bool
  ackreq : Bool
  sent : Bool
  path : Nat
  tries : Nat
  time : Nat
  acked : Bool
  deriving DecidableEq, Repr

/-- A started work request (R401, R403): ring index, OP, CQE, local cue, TAG, destination DA, bytes of a READ still to
be accepted, and the status so far. -/
structure WrRun where
  idx : Nat
  op : Nat
  cqe : Bool
  lcue : Option Nat
  tag : Nat
  lda : Nat
  len : Nat
  left : Nat
  status : Nat
  deriving DecidableEq, Repr

/-- A WRITE, READ_RSP or COLL_DATA packet accepted from the peer, kept until its work request is complete here (R407):
PSN, FIRST, LAST and the block written. -/
structure RxMark where
  psn : Nat
  first : Bool
  last : Bool
  blk : Nat
  deriving DecidableEq, Repr

/-- The engine's state of a connection that is not FREE (R400-R409): its context as read when it was opened; STATE, CAUSE, EPOCH, indices, RATE; the next work
request to start; the next PSN and the packets not released; E and the PSNs accepted above it; marks of incomplete work
requests; signals that wait for lower PSNs; sequenced packets since the last ACK; started work requests; round robin;
last mark; marks by path and moment; whether a TE command waits for it. -/
structure Conn where
  ctx : Nat
  st : Nat
  cause : Nat
  epoch : Nat
  sqCi : Nat
  sqPi : Nat
  cqPi : Nat
  rate : Nat
  next : Nat
  txPsn : Nat
  txq : List TxPkt
  rxE : Nat
  rxSet : List Nat
  rxMarks : List RxMark
  held : List (Nat × Nat × Nat)
  sinceAck : Nat
  wrs : List WrRun
  rr : Nat
  lastMark : Option Nat
  marks : List (Nat × Nat)
  cmd : Bool
  deriving DecidableEq, Repr

/-- A running collective (R421-R428): its number, half, partition and ring index, descriptor, the group record as read at
start, the device of each rank in the bank read at start, the algorithm (1 RING, 2 TREE, 3 DIRECT), SEQ; ranks whose READY has come, granules still to send, line
offsets accepted by receive, packets that wait for their turn in the order of reductions; whether a block is poisoned. -/
structure Coll where
  id : Nat
  half : Nat
  part : Nat
  slot : Nat
  desc : Nat
  group : Nat
  devs : List Nat
  alg : Nat
  seq : Nat
  ready : List Nat
  todo : List (Nat × Nat)
  got : FMap (List Nat)
  early : List (Nat × Nat × Nat × Nat × Bool × Bool)
  poison : Bool
  deriving DecidableEq, Repr

/-- A JOIN exchange this device has started (R431): whether a command waits for it, whether it is a REJOIN, follows a
step, is ceded to the peer; sends so far and the departure stamp of the last. -/
structure Exch where
  cmd : Bool
  rejoin : Bool
  after : Bool
  ceded : Bool
  sends : Nat
  t1 : Nat
  deriving DecidableEq, Repr

/-- A connection entry of a JOIN record (R430). -/
structure JoinEntry where
  st : Nat
  peerConn : Nat
  conn : Nat
  epoch : Nat
  deriving DecidableEq, Repr

/-- What a peer's last JOIN record said (R430): digest, versions, TREF, TIME_BAD, entries, T2 and T3. -/
structure JoinRec where
  digest : Nat
  vmaj : Nat
  vmin : Nat
  tref : Nat
  timeBad : Bool
  entries : List JoinEntry
  t2 : Nat
  t3 : Nat
  deriving DecidableEq, Repr

/-- The PTP servo (R413-R415, R434): the master locked to, good offsets in a row, a two-step Sync whose Follow_Up is due
(its arrival), the departure stamp of the last Delay_Req, t1 and t2 of the last Sync, the moment of the last self-step. -/
structure Ptp where
  master : Option Nat
  good : Nat
  twoStep : Option Nat
  t3 : Option Nat
  sync : Option (Nat × Nat)
  lastStep : Option Nat
  deriving DecidableEq, Repr

def Ptp.init : Ptp :=
  { master := none, good := 0, twoStep := none, t3 := none, sync := none, lastStep := none }

/-- A command that a queue pair has started (R460): its number, tenant, entry, bytes moved; for a START the core it waits
for; once it has ended, its STATUS, completion word 2 and the bytes of word 3; whether its completion is discarded. -/
structure HqCmd where
  num : Nat
  tenant : Nat
  entry : Nat
  pos : Nat
  core : Option Nat
  ended : Option (Nat × Nat × Nat)
  drop : Bool
  deriving DecidableEq, Repr

/-- A queue pair beyond its registers (R456-R460): submission producer and completion consumer indices, the number of its
next command, the status that entries below an index complete with unread (R466), and the started commands. -/
structure HqSt where
  sqPi : Nat
  cqCi : Nat
  num : Nat
  flush : Option (Nat × Nat)
  cmds : List HqCmd
  deriving DecidableEq, Repr

def HqSt.init : HqSt := { sqPi := 0, cqCi := 0, num := 0, flush := none, cmds := [] }

/-- Where a step of the Understudy service stands (R479): its dispatch waits; the primary runs; it waits for a replay
core; the replay runs; the comparison runs; it waits for a tiebreak core; the tiebreak runs. -/
inductive StepAt where
  | held
  | primary
  | wantReplay
  | replay
  | compare
  | wantTie
  | tie
  deriving DecidableEq, Repr

/-- A step (R478-R485): its number, partition, ring index, descriptor, SEQ and selection; where it stands; the replay and
tiebreak cores; the primary's HALT code; blocks that differed; the replay's run digest, HALT code and whether it halted
PROGRAM. -/
structure ChkStep where
  id : Nat
  part : Nat
  slot : Nat
  desc : Nat
  seq : Nat
  selected : Bool
  stage : StepAt
  under : Option Nat
  tie : Option Nat
  exit : Nat
  diff : Nat
  repDigest : Nat
  repExit : Nat
  repOk : Bool
  deriving DecidableEq, Repr

/-- What a core that runs a step may write (R480): the region's DA and bytes, and for a replay or tiebreak the primary
whose near-bank reach it has. -/
structure ChkRun where
  base : Nat
  bytes : Nat
  primary : Option Nat
  deriving DecidableEq, Repr

/-- A core under Rehearsal (R486): the kernel that runs, its entry of the set, those still to run, whether a command or
AUTO started it, whether its limit passed, and whether it was abandoned and only has to halt. -/
structure Reh where
  core : Nat
  kernel : Nat
  entry : Nat
  todo : List Nat
  cmd : Bool
  limit : Bool
  gone : Bool
  deriving DecidableEq, Repr

/-- A temperature sensor, or a coolant input (R551-R553): its last sample in °C × 8 (mL/min for flow), none when invalid;
0 OK, 1 SUSPECT, 2 LOST; consecutive samples as SUSPECT and good ones among them; moments it became suspect. -/
structure Sensor where
  raw : Option Int
  st : Nat
  run : Nat
  good : Nat
  times : List Nat
  deriving DecidableEq, Repr

def Sensor.init : Sensor := { raw := none, st := 0, run := 0, good := 0, times := [] }

/-- What a heat-balance window has summed so far (R561): inlet and outlet temperatures, flow pulses and package power, with
how many samples of each; whether a sample met an input that is not OK, or BAL_EN at 0. -/
structure Heat where
  tIn : Int
  tOut : Int
  nT : Nat
  pulses : Nat
  nF : Nat
  watts : Nat
  nP : Nat
  bad : Bool
  deriving DecidableEq, Repr

def Heat.init : Heat := { tIn := 0, tOut := 0, nT := 0, pulses := 0, nF := 0, watts := 0, nP := 0, bad := false }

/-- The governor (R546-R550): the settings it has taken, the tracked floor in 10 µW, the last estimate in mW, k by cluster,
microseconds in a row with k of 8 or more by cluster, and the DVFS steps decided: whether up, by half. -/
structure Governor where
  env : Nat
  pct : Nat
  decay : Nat
  smooth : Bool
  oppMax : Nat
  track : Nat
  est : Nat
  ks : FMap Nat
  kHigh : FMap Nat
  want : FMap Bool
  deriving DecidableEq, Repr

def Governor.init : Governor :=
  { env := 700, pct := 0, decay := 20, smooth := false, oppMax := 6, track := 0, est := 0, ks := [], kHigh := [], want := [] }

/-- A regulator's link (R540, R545): transactions failed in a row, the moment of the last good poll, whether the link is up
again in degraded mode, and the higher of the two voltages where a step was cut. -/
structure RegLink where
  fails : Nat
  last : Nat
  up : Bool
  hold : Option Nat
  deriving DecidableEq, Repr

def RegLink.init : RegLink := { fails := 0, last := 0, up := true, hold := none }

/-- A DVFS step under way (R544): the OPPs, and whether the PLL relocks (else the voltage is being set). -/
structure Dvfs where
  src : Nat
  dst : Nat
  relock : Bool
  deriving DecidableEq, Repr

/-- The drift monitor beyond its registers (R576, R577): whether a warning stands, and windows in a row at 90 ppm or more
of the selected and of the other reference. -/
structure Drift where
  warn : Bool
  sel : Nat
  other : Nat
  deriving DecidableEq, Repr

/-- A slot of the wear record (R596): its generation number and the record; a slot that failed verification is invalid. -/
structure WearSlot where
  gen : Nat
  words : List Nat
  ok : Bool
  deriving DecidableEq, Repr

/-- The wear record (R596, R597): the record with what has been added to it, its slots, the last slot written, failures in
a row, whether writing has stopped, whether an event has made a write due; THM_CYC, THM_CYC_BIG and THM_HOT_S at the last
write; the highest governing DRAM temperature in °C × 8. -/
structure Wear where
  words : List Nat
  slots : FMap WearSlot
  last : Nat
  fails : Nat
  off : Bool
  due : Bool
  cyc : Nat
  big : Nat
  hot : Nat
  peak : Option Int
  deriving DecidableEq, Repr

def Wear.init : Wear :=
  { words := [0, 0, 0, 0, 0, 0, 0, 0, 0, 0], slots := [], last := 63, fails := 0, off := false, due := false,
    cyc := 0, big := 0, hot := 0, peak := none }

/-- What the sequencer keeps of the loaded copy until the next cold reset (R519, R521, R595): its settings, presets and join
list, the digests of the copy and of its agreement section. -/
structure Image where
  sets : List (Nat × Nat)
  presets : List (Nat × Nat)
  joins : List Nat
  digest : Nat
  agreement : Nat
  deriving DecidableEq, Repr

/-- Automatic joins (R520): whether they run, peers without an outcome, peers whose exchange has not started, and peers
whose exchange ended TIMEOUT. -/
structure Joins where
  on : Bool
  left : List Nat
  todo : List Nat
  retry : List Nat
  deriving DecidableEq, Repr

def Joins.init : Joins := { on := false, left := [], todo := [], retry := [] }

/-- Why a warm reset waits: for the COMMIT entry being programmed (R531) or for cooling (R558). -/
inductive WarmWait where
  | entry
  | cooling
  deriving DecidableEq, Repr

/-- A part without defects, with no key slot programmed. -/
def cleanPart : Part :=
  { serial := 0, keys := [(none, false), (none, false), (none, false), (none, false)],
    dbgKeys := [(none, false), (none, false)], rollback := 0, fields := [], chain := [], lanes := [], groups := [], rows := [] }

/-- What a management responder answers (R584-R595): a success with its data, a sensor's reading (none when unavailable), a
request that the device sends in an exchange of firmware update (its command, with the offset it asks for or its result),
ERROR_NOT_READY, Busy, UnexpectedRequest,
ALREADY_IN_UPDATE_MODE, the standard's code for a command it does not support, for an operand outside those listed, and for
a command out of its state. -/
inductive Answer where
  | ok (data : List Nat)
  | reading (value : Option Int)
  | request (cmd arg : Nat)
  | notReady
  | busy
  | unexpected
  | alreadyInUpdate
  | unsupported
  | invalid
  | badState
  deriving DecidableEq, Repr

/-- Stages of a PLDM firmware update (R590, DSP0267). -/
inductive UpdStage where
  | idle
  | learn
  | ready
  | download
  | verify
  | apply
  deriving DecidableEq, Repr

/-- The update engine (R589-R591): the stage of a PLDM update and the size of its component, the bytes that have come for
the target copy while it writes, the R515 result once they are verified and whether the copy passed, and the serial of a
copy that waits for a cold reset. -/
structure Update where
  stage : UpdStage
  size : Nat
  job : Option (List Byte)
  check : Option (Nat × Bool)
  next : Option Nat
  deriving DecidableEq, Repr

def Update.init : Update := { stage := .idle, size := 0, job := none, check := none, next := none }

/-- The responders and the debug unlock (R583-R602): the I3C dynamic address, the PLDM terminus ID, the update engine, the
current nonce, whether the attestation key is erased, and whether an erase runs. -/
structure Mgmt where
  i3c : Option Nat
  tid : Nat
  upd : Update
  nonce : Option Nat
  keyErased : Bool
  erasing : Bool
  deriving DecidableEq, Repr

def Mgmt.init : Mgmt := { i3c := none, tid := 0, upd := Update.init, nonce := none, keyErased := false, erasing := false }

/-- The test access port (R598, R601): the instruction and the boundary register of each half, and STATUS and data of the
last debug access. -/
structure Tap where
  ir : FMap Nat
  bnd : FMap Nat
  res : Nat × Nat
  deriving DecidableEq, Repr

def Tap.init : Tap := { ir := [], bnd := [], res := (0, 0) }

/-- What the device does that the outside sees, oldest first. -/
inductive Output where
  /-- the value a register read returns -/
  | regData (who : Requester) (addr : Nat) (bytes : Nat) (val : Nat)
  /-- a register or memory access ended with an error completion -/
  | errCompletion (who : Requester) (addr : Nat)
  /-- an MSI-X message -/
  | msix (func vec : Nat)
  /-- read data: value, marked uncorrectable, marked with the poison check value -/
  | memData (who : Requester) (da bytes : Nat) (val : Nat) (ue poison : Bool)
  /-- an output pin's level -/
  | pin (name : String) (level : Bool)
  /-- an FFT packet leaves a fabric port: its MACsec association and packet number when protected, and its encapsulation -/
  | fft (port : Nat) (sec : Option (Nat × Nat)) (enc : Encap) (pkt : Fft)
  /-- another frame leaves a fabric port -/
  | frame (port : Nat) (sec : Option (Nat × Nat)) (f : FrameOut)
  /-- a write to host memory with a function's requester ID and, where the tenant has one, a PASID (R450) -/
  | hostWrite (func : Nat) (pasid : Option Nat) (addr bytes val : Nat)
  /-- the answer of a responder to the management controller: 0 MCTP control, 1 PLDM, 5 SPDM, 16 the I3C bus -/
  | reply (proto : Nat) (a : Answer)
  /-- an in-band interrupt of the I3C bus, with its mandatory data byte -/
  | inBand (mdb : Nat)
  /-- a data register captured by the TAP of a half -/
  | tdo (half val : Nat)
  /-- the boundary outputs of a half: driven with a value, or released -/
  | boundary (half : Nat) (val : Option Nat)
  deriving DecidableEq, Repr

/-- A frame of a Seam port, field by field (R363). -/
structure SeamFrame where
  kind : Nat
  vc : Nat
  first : Bool
  last : Bool
  bank : Nat
  seq : Nat
  cred : Nat
  ack : Nat
  data : Nat
  phdr : Nat
  deriving DecidableEq, Repr

/-- A DATA frame in the replay buffer, with how many sends of it in a row have failed (R367, R369). -/
structure SeamSent where
  frame : SeamFrame
  fails : Nat
  deriving DecidableEq, Repr

/-- The rest of a packet whose first frame has been sent: its channel, the frames left, its BANK (R365). -/
structure SeamPacket where
  vc : Nat
  left : Nat
  bank : Nat
  deriving DecidableEq, Repr

/-- One end of a Seam port (R363-R369): the next new SEQ, the SEQ to send next, frames sent and not acknowledged, the
packet that is being sent, the SEQ expected, whether the end accepts nothing until it arrives, whether a NAK is still to
be sent, frames in each VC's receive buffers, PRBS errors by lane. -/
structure SeamEnd where
  txSeq : Nat
  pos : Nat
  replay : List SeamSent
  packet : Option SeamPacket
  rxExp : Nat
  nakOut : Bool
  nakDue : Bool
  rxBuf : FMap (List SeamFrame)
  prbs : FMap Nat
  deriving DecidableEq, Repr

def SeamEnd.init : SeamEnd :=
  { txSeq := 0, pos := 0, replay := [], packet := none, rxExp := 0, nakOut := false, nakDue := false, rxBuf := [], prbs := [] }

/-- An epoch switch under way (R374, R376): the halves that are its parties, their answers to PREPARE (none READY, else the
cause of ABORT), FLIP and CANCEL sent, and the halves that have flipped and drained. -/
structure Switch where
  parties : List Nat
  answers : FMap (Option Nat)
  flip : Bool
  cancel : Bool
  flipped : List Nat
  drained : List Nat
  deriving DecidableEq, Repr

/-- The device. -/
structure Dev where
  /-- register fields that do not hold their reset value, by field key -/
  regs : FMap Nat
  /-- device memory by DA -/
  mem : Memory
  /-- stored words of device memory in error, by DA/32: the symbols that differ, 288 bits (R258, R261) -/
  badw : FMap (BitVec 288)
  /-- check values that are not the true ones, by DA/4096 -/
  blk : FMap BlkMark
  slices : FMap SliceSt
  caches : FMap CacheSt
  /-- scratchpad, accumulators and codebook tables by core number · 2^20 + local address (R73) -/
  lmem : Memory
  /-- uncorrectable words of those memories, by the same key of their first byte (R90) -/
  lue : FMap Unit
  /-- words of those memories that hold a correctable error, and the running counts of R494 by Unit ID -/
  lce : FMap Unit
  ceRun : FMap Nat
  /-- instruction memories by core number · 2048 + index -/
  imem : FMap W64
  cores : FMap CoreSt
  /-- Curtains raised and not lowered -/
  curtains : List Curtain
  /-- cue operations on their way, oldest first, and the waiter entries of all cue storages, in order of acceptance -/
  cueOps : List CueOp
  waiters : List Waiter
  /-- barrier contexts by half · 64 + number: the member cores that have arrived at their cluster's storage in this
  generation, and the clusters whose arrival has reached the barrier unit (R352) -/
  barrCores : FMap (List Nat)
  barrCls : FMap (List Nat)
  /-- mesh links retired by the Darn map, as (cluster, link), both ends listed (R310) -/
  linkRet : List (Nat × Nat)
  /-- moments of the resends and replays of the last 1 ms: mesh link 8·cluster + link, Seam port 4096 + 16·half + port -/
  resends : FMap (List Nat)
  /-- ends of the Seam ports by half · 16 + port -/
  seams : FMap SeamEnd
  /-- the epoch switch under way -/
  switch : Option Switch
  /-- the shadow bank: banked fields whose shadow value differs, or may differ, from the active one (R533) -/
  shadow : FMap Nat
  /-- the partitions whose membership is in force: VALID as of the last LOWER of its Curtain (R452) -/
  partIn : List Nat
  /-- changes waiting for a COMMIT: kind, unit and detail of the log entry each will become (R59, R67) -/
  darnQ : List (Nat × Nat × Nat)
  /-- the result and UNIT of the Darn command that runs, and the UNIT and snapshot of the COMMIT that runs (R61, R65) -/
  darnCmd : Option (Nat × Nat)
  commit : Option (Nat × List (Nat × Nat × Nat))
  /-- fuses: the Darn log by slot · 4 + word; and, by core · 128 + bank, the rows that a COMMIT has had the layers' own
  repair fuses map, each with its spare row (R65, R265) -/
  darnLog : FMap Nat
  /-- cold boots, as the wear record counts them (R67, R595) -/
  boots : Nat
  ppr : FMap (List (Nat × Nat))
  /-- interrupt routing entries inside their 4 µs: true when an event has been folded (R449) -/
  irqHold : FMap Bool
  /-- connections that are not FREE, by number -/
  conns : FMap Conn
  /-- tenant entries the device has cached, words 0 and 1; none for an unreadable one (R454, R455) -/
  tenants : FMap (Option Nat)
  /-- the PROBE out from each half: device, path, when it left (R417) -/
  probes : FMap (Nat × Nat × Nat)
  /-- active MODE of each fabric port, and those with priority flow control active and their priority (R385, R387) -/
  pfcOn : FMap Nat
  /-- fabric ports whose PFC priority is paused, with the packets that wait -/
  pfcHeld : FMap (List Output)
  /-- ports that have paused their link partner and not released it (R387) -/
  pfcSent : List Nat
  /-- TTL of each port's neighbour in seconds (R416) -/
  nbrTtl : FMap Nat
  /-- MACsec keys in use by port · 8 + direction · 4 + association: SAK and salt; highest packet numbers accepted -/
  sak : FMap (Nat × Nat)
  secHigh : FMap Nat
  ptp : Ptp
  /-- running collectives in order of start; the number of the next; producer index and next descriptor by half · 64 +
  partition -/
  colls : List Coll
  collN : Nat
  collQ : FMap (Nat × Nat)
  /-- JOIN exchanges started here, peers' records, and pieces of records that have arrived, by device (R430, R431) -/
  exchs : FMap Exch
  joinRecs : FMap JoinRec
  joinRx : FMap (Nat × Nat)
  /-- peers whose initiator here is due to run the exchange again (R433) -/
  rechecks : List Nat
  /-- DEPARTING notices still to be sent: device, cause, copies left, next path (R437) -/
  departs : List (Nat × Nat × Nat × Nat)
  /-- error records raised and not yet taken by the logger; records that Half A holds while the control channel is lost;
  whether a record was dropped since the last one written, or kept out of the ring since the last one in it (R495, R496) -/
  recs : List ErrRec
  heldRecs : List ErrRec
  dropped : Bool
  /-- the control channel is lost, until the next warm or cold reset (R373) -/
  ctrlDown : Bool
  ringLost : Bool
  /-- occurrences of class UNCORRECTABLE by hour, the current one first (R499) -/
  ueHours : List Nat
  /-- WIN of each virtual function's VF_WIN, by slot (R446) -/
  vfWin : FMap Nat
  /-- queue pairs by device queue number -/
  hqs : FMap HqSt
  /-- the Understudy service: steps in order of start, the next one's number, producer and next index by partition, next
  SEQ by partition, and running cores' write regions -/
  steps : List ChkStep
  stepN : Nat
  chkQ : FMap (Nat × Nat)
  chkSeq : FMap Nat
  /-- queued descriptors of a partition that a tenant Curtain has already ended (R504) -/
  chkSkip : FMap (List Nat)
  chkRuns : FMap ChkRun
  /-- Rehearsals, and the last core that AUTO tested -/
  rehs : List Reh
  rehLast : Nat
  /-- SEQ_RST_ARM holds the key (R506) -/
  armed : Bool
  /-- register fields with Reset entry I as the loaded image set them, by field key (R523) -/
  imgRegs : FMap Nat
  /-- MSI-X tables: function code · 4096 + word (R448) -/
  msix : FMap Nat
  /-- DRAM layer sensors by core · 8 + layer; logic sensors, thermistors and the flow input by half · 64 + instance (R551) -/
  layerS : FMap Sensor
  frontS : FMap Sensor
  /-- measurements in a row at which the bandgaps of a half disagreed; seconds in a row without a flow pulse -/
  bgRun : FMap Nat
  flowIdle : Nat
  /-- the heat-balance window, and lo, hi and armed of the thermal cycle count (R561, R562) -/
  heat : Heat
  cyc : Option (Int × Int × Bool)
  /-- the governor, the regulators' links, DVFS steps under way and the moment of the last one by half -/
  gov : Governor
  regLinks : FMap RegLink
  dvfs : FMap Dvfs
  dvfsLast : FMap Nat
  /-- active discharge runs (R542); the latch that drives THERMTRIP_N (R611) -/
  discharge : Bool
  trip : Bool
  drift : Drift
  /-- the clock domains other than REF, CTRL, MGMT and TIME are stopped: before a boot has passed CLOCKS, and at thermal shutdown -/
  stopped : Bool
  /-- CRST_N is asserted -/
  crst : Bool
  /-- ring copies of the register records: the DA, by record index (R493, R496) -/
  ringed : FMap Nat
  /-- the fuses of the part, the fuse rollback level that MGT_RB_CMD has set, and the two copies in flash, by copy (R512; unlisted bytes read 0xFF) -/
  part : Part
  rbFuse : Nat
  flash : FMap (List Byte)
  /-- what is kept of the loaded copy; a cold boot that waits, and a warm reset that waits, with its SEQ_CAUSE code -/
  image : Option Image
  boot : Option BootIn
  warm : Option (WarmWait × Nat)
  /-- automatic joins -/
  joins : Joins
  /-- the wear record -/
  wear : Wear
  /-- halves whose DIETEST bit is set (R598) -/
  dieTest : List Nat
  /-- the half that each die reads from its identity connection, none when it is open; a die not listed reads its own (R361) -/
  ident : FMap (Option Nat)
  /-- image settings that load no register field, by ID (R517, R583, R589, R599) -/
  opts : FMap Nat
  /-- low words of 64-bit registers that a requester has written, and high words that a read has captured: requester, register, value (R17) -/
  held : List (Requester × Nat × Nat)
  capt : List (Requester × Nat × Nat)
  /-- AN in force by fabric port (R384, R385); every port is held OFF until the next cold reset (R602) -/
  anOn : FMap Bool
  portsOff : Bool
  /-- the management responders and the debug unlock, and the test access port -/
  mgmt : Mgmt
  tap : Tap
  out : List Output
  /-- fabric time in ns as Half A counts it, 64 bits; how far Half B's count is ahead of it; nanoseconds, below 10^6, that
  Half B has counted alone since that last changed (R578) -/
  now : Nat
  skew : Int
  lone : Nat
  /-- how many free values have been drawn -/
  free : Nat
  deriving DecidableEq, Repr

/-- The state of the block: the device and the commands that wait. -/
structure State where
  pending : List Instr
  dev : Dev
  deriving DecidableEq, Repr

/-- No command of this model ends in a fault. -/
inductive Fault where
  /-- raised by nothing -/
  | none
  deriving DecidableEq, Repr

/-- Why a command is turned away. -/
inductive Refusal where
  /-- raised only by an arm of `exec` whose command has no meaning yet (safe) -/
  | notModelled (mnemonic : String)
  deriving DecidableEq, Repr

/-- The device after a cold reset: every register field at its Reset entry. -/
def Dev.reset : Dev :=
  { regs := [], mem := [], badw := [], blk := [], slices := [], caches := [], lmem := [], lue := [], lce := [], ceRun := [], imem := [], cores := [], curtains := [], cueOps := [], waiters := [], barrCores := [], barrCls := [], linkRet := [], resends := [], seams := [], switch := none, shadow := [], partIn := [], darnQ := [], irqHold := [], conns := [], tenants := [], probes := [], pfcOn := [], pfcHeld := [], pfcSent := [], nbrTtl := [], sak := [], secHigh := [], ptp := Ptp.init,
    colls := [], collN := 0, collQ := [], exchs := [], joinRecs := [], joinRx := [], rechecks := [], departs := [], recs := [], heldRecs := [], dropped := false, ctrlDown := false, ringLost := false, ueHours := [0], vfWin := [],
    hqs := [], steps := [], stepN := 0, chkQ := [], chkSeq := [], chkSkip := [], chkRuns := [], rehs := [], rehLast := 4095, armed := false, darnCmd := none, commit := none, darnLog := [], boots := 0, ppr := [], imgRegs := [], msix := [],
    layerS := [], frontS := [], bgRun := [], flowIdle := 0, heat := Heat.init, cyc := none, gov := Governor.init, regLinks := [], dvfs := [], dvfsLast := [], discharge := false, trip := false, drift := { warn := false, sel := 0, other := 0 }, stopped := false, crst := false,
    ringed := [],
    part := cleanPart, rbFuse := 0, flash := [], image := none, boot := none, warm := none, joins := Joins.init, wear := Wear.init, dieTest := [], ident := [],
    opts := [],
    held := [], capt := [], anOn := [], portsOff := false,
    mgmt := Mgmt.init, tap := Tap.init,
    out := [],
    now := 0, skew := 0, lone := 0, free := 0 }

/-- The state after a cold reset, with no command waiting. -/
def State.reset : State := { pending := [], dev := Dev.reset }

end Sys2Proof.Machine
end

