-- ==== Sys2Proof/Machine/Ops.lean ====
section
/-! DEFINITION. The operations every unit shares: register fields, memories, Unit IDs, error records, traps. -/
namespace Sys2Proof.Machine
open Sys2Proof

/-- The outcome of a command. -/
abbrev Out := Host.Outcome State Fault Refusal

/-- A command whose effect is a change of the device. Its units stand still while their clocks are stopped (R557, R508). -/
def act (s : State) (f : Dev → Dev) : Out := .next (if s.dev.stopped then s else { s with dev := f s.dev })

/-- CTRL, MGMT and TIME stand still: CRST_N is asserted, or a boot waits for a reference (R574). -/
def Dev.dark (d : Dev) : Bool := d.crst || d.boot.any (fun b => !b.ref0 && !b.ref1)

/-- A command of the CTRL, MGMT and TIME domains. -/
def ctl (s : State) (f : Dev → Dev) : Out := .next (if s.dev.dark then s else { s with dev := f s.dev })

/-! ### Units (R19, R31, R32) -/

def coreHalf (n : Nat) : Nat := n / 2048
/-- The global cluster number h·128 + c of a core. -/
def coreCluster (n : Nat) : Nat := n / 16
def clusterX (g : Nat) : Nat := g % 16
def clusterY (g : Nat) : Nat := g % 128 / 16

/-- Unit ID of a block of core `n` (R31). -/
def unitCore (n kind inst : Nat) : Nat := (n / 16) * 65536 + (n % 16) * 2048 + kind * 64 + inst
/-- Unit ID of a cluster-common block of cluster `g`. -/
def unitCluster (g kind inst : Nat) : Nat := g * 65536 + 16 * 2048 + kind * 64 + inst
/-- Unit ID of a half-common block. -/
def unitHalf (h kind inst : Nat) : Nat := h * 8388608 + 31 * 2048 + kind * 64 + inst
/-- Unit ID of a device block. -/
def unitDev (kind inst : Nat) : Nat := 127 * 65536 + 31 * 2048 + kind * 64 + inst

/-! ### Register fields (R11, R17, R38) -/

/-- BAR0 offset of the window of unit `u` of a scope (R38). Ports are numbered 4h + i, clusters h·128 + c and cores by
their global core number. -/
def scopeBase : Scope → Nat → Nat
  | .dev, _ => 0
  | .half, h => 0x100000 + h * 0x100000
  | .fport, p => 0x100000 + (p / 4) * 0x100000 + 0x40000 + (p % 4) * 0x10000
  | .cluster, g => 0x1000000 + g * 0x80000
  | .core, n => 0x1000000 + (n / 16) * 0x80000 + 0x10000 + (n % 16) * 0x4000

/-- BAR0 offset of a register: element `i`, `j` of its array in unit `u`. -/
def Reg.addr (r : Reg) (u i j : Nat) : Nat := scopeBase r.scope u + r.off + i * r.stride + j * r.stride2

/-- Width of a field in bits. -/
def Fld.width (f : Fld) : Nat := f.hi + 1 - f.lo

/-- The key of a field in a register bank: BAR0 offsets are multiples of 4, so the low bit's number fits below. -/
def Fld.key (f : Fld) (u i j : Nat) : Nat := f.reg.addr u i j * 16 + f.lo

/-- A field's value. -/
def Dev.rd (d : Dev) (f : Fld) (u : Nat := 0) (i : Nat := 0) (j : Nat := 0) : Nat :=
  FMap.get d.regs f.reset (f.key u i j)

/-- Set a field, keeping as many low bits of the value as it holds. -/
def Dev.wr (d : Dev) (f : Fld) (v : Nat) (u : Nat := 0) (i : Nat := 0) (j : Nat := 0) : Dev :=
  { d with regs := FMap.set d.regs (f.key u i j) (v % 2 ^ f.width) }

/-- Whether a one-bit field is set. -/
def Dev.bit (d : Dev) (f : Fld) (u : Nat := 0) (i : Nat := 0) (j : Nat := 0) : Bool := d.rd f u i j != 0

/-- Set bit `x` of a field, or clear it. -/
def Dev.setBit (d : Dev) (f : Fld) (x : Nat) (b : Bool) (u : Nat := 0) (i : Nat := 0) (j : Nat := 0) : Dev :=
  let v := d.rd f u i j
  d.wr f (if b then v ||| 2 ^ x else v - (if v.testBit x then 2 ^ x else 0)) u i j

/-- Add to a counter that wraps. -/
def Dev.add (d : Dev) (f : Fld) (k : Nat) (u : Nat := 0) (i : Nat := 0) (j : Nat := 0) : Dev :=
  d.wr f (d.rd f u i j + k) u i j

/-- Add to a counter that saturates. -/
def Dev.addSat (d : Dev) (f : Fld) (k : Nat) (u : Nat := 0) (i : Nat := 0) (j : Nat := 0) : Dev :=
  d.wr f (min (d.rd f u i j + k) (2 ^ f.width - 1)) u i j

/-- Return a field to its Reset entry. -/
def Dev.rst (d : Dev) (f : Fld) (u : Nat := 0) (i : Nat := 0) (j : Nat := 0) : Dev :=
  { d with regs := FMap.del d.regs (f.key u i j) }

/-- The word that a register's fields make up. -/
def Dev.word (d : Dev) (fs : List Fld) (u : Nat := 0) (i : Nat := 0) (j : Nat := 0) : Nat :=
  fs.foldl (fun v f => v + d.rd f u i j * 2 ^ f.lo) 0

/-! ### Banks (R372, R374, R533, R534) -/

/-- Half of a register by its BAR0 offset: device blocks belong to their home half (R372). -/
def halfOf (addr : Nat) : Nat :=
  if addr < 0x100000 then
    let n := addr / 0x10000
    if n = 5 ∨ n = 6 ∨ n = 7 ∨ n = 8 ∨ n = 9 then 1 else 0
  else if addr < 0x200000 then 0
  else if addr < 0x1000000 then 1
  else (addr - 0x1000000) / 0x80000 / 128 % 2

/-- A field's value in the shadow bank. -/
def Dev.shadowRd (d : Dev) (f : Fld) (u i j : Nat) : Nat := FMap.get d.shadow (d.rd f u i j) (f.key u i j)

/-- A field of a banked table in bank `b`: HALF_COMMIT.BANK of the table's home half says which of the two is active there,
and the other one is its shadow. -/
def Dev.bankAt (d : Dev) (b : Nat) (f : Fld) (u : Nat := 0) (i : Nat := 0) (j : Nat := 0) : Nat :=
  if b = d.rd HALF_COMMIT.BANK (halfOf (f.reg.addr u i j)) then d.rd f u i j else d.shadowRd f u i j

/-- The bank that half `h` applies, and under which it issues requests. -/
def Dev.epochBank (d : Dev) (h : Nat) : Nat := d.rd HALF_COMMIT.BANK h

/-- A field of a banked table as half `h` applies it: a half that has flipped alone applies the bank that is still the
shadow in the table's home half. -/
def Dev.bankRd (d : Dev) (h : Nat) (f : Fld) (u : Nat := 0) (i : Nat := 0) (j : Nat := 0) : Nat := d.bankAt (d.epochBank h) f u i j

def Dev.bankBit (d : Dev) (h : Nat) (f : Fld) (u : Nat := 0) (i : Nat := 0) (j : Nat := 0) : Bool := d.bankRd h f u i j != 0

/-! ### Free values -/

/-- Draw a free value: the device with the draw counted, and the value. -/
def Dev.draw (d : Dev) (w : Nat) : BitVec w × Dev := (Config.freeValue w d.free, { d with free := d.free + 1 })

/-- A counter moves by a free amount. -/
def Dev.advance (d : Dev) (f : Fld) (u : Nat := 0) (i : Nat := 0) : Dev :=
  let r := d.draw 64
  r.2.add f r.1.toNat u i

/-! ### Outputs and error records -/

def Dev.emit (d : Dev) (o : Output) : Dev := { d with out := d.out ++ [o] }

/-- Fabric time as half `h` counts it (R578). -/
def Dev.timeOf (d : Dev) (h : Nat) : Nat := if h = 1 then (((d.now : Int) + d.skew) % 2 ^ 64).toNat else d.now

/-- The half that a Unit ID belongs to; device blocks belong to their home half (R31, R372). -/
def unitHalfOf (unit : Nat) : Nat :=
  if unit / 65536 = 127 ∧ unit / 2048 % 32 = 31 then (if unit / 64 % 32 < 30 then 0 else 1) else unit / 2 ^ 23 % 2

/-- A record is dropped: it is counted, and the next record written carries OVERRUN (R495). -/
def Dev.dropRec (d : Dev) : Dev :=
  { ((d.addSat ERR_DROP.COUNT 1).wr ERR_STAT.DROP_SEEN 1) with dropped := true }

/-- A record reaches the logger's queue of 64 (R495). -/
def Dev.queueRec (d : Dev) (r : ErrRec) : Dev := if 64 ≤ d.recs.length then d.dropRec else { d with recs := d.recs ++ [r] }

/-- Raise an error record (R490). Half A holds up to 64 of its own while the control channel is lost (R495). -/
def Dev.err (d : Dev) (cls op unit addr : Nat) : Dev :=
  let r : ErrRec := { cls := cls, op := op, unit := unit, addr := addr, time := d.timeOf (unitHalfOf unit) }
  if d.ctrlDown && unitHalfOf unit == 0 then
    (if 64 ≤ d.heldRecs.length then d.dropRec else { d with heldRecs := d.heldRecs ++ [r] })
  else d.queueRec r

/-! ### Cores -/

def Dev.core (d : Dev) (c : Nat) : CoreSt := FMap.get d.cores CoreSt.init c
def Dev.updCore (d : Dev) (c : Nat) (f : CoreSt → CoreSt) : Dev := { d with cores := FMap.upd d.cores CoreSt.init c f }

/-- Scalar register `r` of core `c`; s0 reads as zero (R70). -/
def Dev.sreg (d : Dev) (c r : Nat) : W64 := if r = 0 then 0 else FMap.get (d.core c).s 0 r

/-- Write scalar register `r`; a write to s0 is discarded (R70). -/
def Dev.setS (d : Dev) (c r : Nat) (v : W64) : Dev :=
  if r = 0 then d else d.updCore c (fun k => { k with s := FMap.set k.s r v })

/-! ### Local memory (R73, R74, R90) -/

/-- Which memory of R73 a local address lies in: 0 scratchpad, 1 accumulator memory, 2 codebook table. -/
def localSeg (a : Nat) : Option Nat :=
  if a < 0x30000 then some 0
  else if 0x40000 ≤ a ∧ a < 0x50000 then some 1
  else if 0x50000 ≤ a ∧ a < 0x54000 then some 2
  else none

/-- The `n ≥ 1` bytes from `a` lie in one mapped memory (R74). -/
def spanOk (a n : Nat) : Bool := localSeg a != none && localSeg (a + n - 1) == localSeg a

def lkey (c a : Nat) : Nat := c * 0x100000 + a

/-- The little-endian value of `n` bytes of local memory (R10). -/
def Dev.lrd (d : Dev) (c a : Nat) : Nat → Nat
  | 0 => 0
  | n + 1 => (FMap.get d.lmem 0 (lkey c a)).toNat + 256 * Dev.lrd d c (a + 1) n

/-- Store the low byte of a value at one local address. -/
def Dev.lput (d : Dev) (c a : Nat) (v : Byte) : Dev := { d with lmem := FMap.put d.lmem 0 (lkey c a) v }

/-- A store that covers all of a word makes it correctable again (R90). -/
def clearLue (lue : FMap Unit) (c a n : Nat) : FMap Unit :=
  lue.filter (fun e => !(decide (lkey c a ≤ e.1) && decide (e.1 + 4 ≤ lkey c (a + n))))

/-- Store `n` bytes, little-endian, at local address `a`. -/
def Dev.lwrN (d : Dev) (c a v : Nat) : Nat → Dev
  | 0 => d
  | n + 1 => Dev.lwrN (d.lput c a (BitVec.ofNat 8 v)) c (a + 1) (v / 256) n

def Dev.lwr (d : Dev) (c a n v : Nat) : Dev :=
  let d' := d.lwrN c a v n
  { d' with lue := clearLue d'.lue c a n, lce := clearLue d'.lce c a n }

/-- Some word the `n` bytes from `a` touch is uncorrectable. -/
def Dev.lbad (d : Dev) (c a n : Nat) : Bool :=
  d.lue.any (fun e => decide (lkey c a < e.1 + 4) && decide (e.1 < lkey c (a + n)))

/-- The Unit ID of the memory that holds a local address (R90); the scratchpad bank of an address is its bits [10:6] (R181). -/
def unitLocal (c a : Nat) : Nat :=
  if a < 0x30000 then unitCore c 3 (a / 64 % 32)
  else if a < 0x50000 then unitCore c 4 ((a - 0x40000) / 0x4000)
  else unitCore c 5 0

/-- One corrected error of a local memory (R90, R494): its counter, the running count, and a CORRECTED record at each
multiple of 4,096. -/
def Dev.localCe (d : Dev) (c a : Nat) : Dev :=
  let f := match localSeg a with
    | some 0 => CORE_UNIT_CE_SP.COUNT
    | some 1 => CORE_UNIT_CE_ACC.COUNT
    | _ => CORE_UNIT_CE_CB.COUNT
  let unit := unitLocal c a
  let d := d.addSat f 1 c
  let run := FMap.get d.ceRun 0 unit + 1
  let d := { d with ceRun := FMap.set d.ceRun unit run }
  if run % 4096 = 0 then d.err 1 1 unit 0 else d

/-- Count the correctable errors among the words that `n` bytes from `a` touch. -/
def Dev.countLce (d : Dev) (c a n : Nat) : Dev :=
  (d.lce.filter (fun e => decide (lkey c a < e.1 + 4) && decide (e.1 < lkey c (a + n)))).foldl
    (fun d e => d.localCe c (e.1 - lkey c 0)) d

/-- Count the correctable errors that a unit meets in the 32 B granules of the bytes it reads: each word once for the
instruction (R90; log entry 22). -/
def Dev.countGran (d : Dev) (c : Nat) (reads : List Nat) : Dev :=
  (d.lce.filter (fun e => e.1 / 0x100000 == c && reads.any (fun a => a / 32 == e.1 % 0x100000 / 32))).foldl
    (fun d e => d.localCe c (e.1 % 0x100000)) d

/-- A store of fewer than 4 bytes within a word: the word is read first, and a correctable error in it is counted and
written back corrected (R90). -/
def Dev.lwrPart (d : Dev) (c a n v : Nat) : Dev :=
  let d := (d.countLce c a n).lwrN c a v n
  { d with lce := clearLue d.lce c (a / 4 * 4) 4 }

/-- Fields of `bits` bits packed into one number, the first lowest. -/
def lanesVal (xs : List Nat) (bits : Nat) : Nat := xs.foldr (fun x v => x + v * 2 ^ bits) 0

/-! ### Partitions (R451) -/

/-- Cluster `g` is in the mask of partition `p`. -/
def Dev.partHas (d : Dev) (p g : Nat) : Bool := (d.rd PART_Pp_CLUSTERSw.MASK 0 p (g / 32)).testBit (g % 32)

/-- The partition of a cluster: the lowest-numbered one in force whose mask includes it. -/
def Dev.partOf (d : Dev) (g : Nat) : Option Nat :=
  (List.range 64).find? (fun p => d.partIn.contains p && d.partHas p g)

/-- The partition of a core's cluster. -/
def Dev.corePart (d : Dev) (c : Nat) : Option Nat := d.partOf (coreCluster c)

end Sys2Proof.Machine
end

