-- ==== Sys2Proof/Machine/Events.lean ====
section
/-! DEFINITION. Interrupt routing (R449), changes to the Darn map (R56, R59, R60) and replace requests (R498). -/
namespace Sys2Proof.Machine
open Sys2Proof

/-- The half whose link carries a function (R445). -/
def Dev.funcHalf (d : Dev) (func : Nat) : Nat :=
  if func < 2 then func else if func - 2 < d.rd PCIE_SRIOV.SPLIT 0 then 0 else 1

/-- Send an MSI-X message, or drop it when the function's link is down (R449). -/
def Dev.sendMsix (d : Dev) (func vec : Nat) : Dev :=
  if d.bit PCIE_STAT.UP (d.funcHalf func) then d.emit (.msix func vec) else d.wr PART_STAT.IRQ_MISS 1

/-- Vectors of a function: 256 for a physical one, 16 for a virtual one (R448). -/
def vectorOf (func v : Nat) : Nat := if func < 2 then v else min v 15

/-- Entry `i` of the routing table matches an event. -/
def Dev.irqMatches (d : Dev) (cls : Nat) (part : Option Nat) (i : Nat) : Bool :=
  d.bit PART_IRQi.VALID 0 i && d.rd PART_IRQi.CLASS 0 i == cls &&
  (d.bit PART_IRQi.ALLPART 0 i || part == some (d.rd PART_IRQi.PART 0 i))

/-- Entry `i` sends its message and starts its 4 µs, or folds the event into the next one. -/
def Dev.irqSend (d : Dev) (i : Nat) : Dev :=
  match FMap.find d.irqHold i with
  | some _ => { d with irqHold := FMap.set d.irqHold i true }
  | none =>
    let d := { d with irqHold := FMap.set d.irqHold i false }
    let f := d.rd PART_IRQi.FUNC 0 i
    d.sendMsix f (vectorOf f (d.rd PART_IRQi.VECTOR 0 i))

/-- Route a device event (R449). -/
def Dev.event (d : Dev) (cls : Nat) (part : Option Nat) : Dev :=
  match (List.range 64).filter (d.irqMatches cls part) with
  | [] => d.wr PART_STAT.IRQ_MISS 1
  | [i] => d.irqSend i
  | i :: _ => (d.wr PART_STAT.IRQ_MULTI 1).irqSend i

/-- Set a cause of ERR_SVC (R498). SVC_REQ_N is asserted, and an event of class 3 raised, when the first cause sets. -/
def Dev.svc (d : Dev) (bit : Nat) : Dev :=
  let old := d.rd ERR_SVC.CAUSE
  let d := d.wr ERR_SVC.CAUSE (old ||| 2 ^ bit)
  if old = 0 then (d.emit (.pin "SVC_REQ_N" false)).event 3 none else d

/-- Add to a word of the wear record, which makes a write due (R597). -/
def Dev.wearAdd (d : Dev) (w k : Nat) : Dev :=
  { d with wear := { d.wear with words := setNth d.wear.words w ((d.wear.words.getD w 0 + k) % 2 ^ 32), due := true } }

/-- A condition of R60 has come to hold. DARN_STAT.REPLACE follows the conditions (`Dev.replaceHolds`). -/
def Dev.replace (d : Dev) : Dev := d.svc 0

/-- A change to the Darn map: MAP_GEN advances, a REPAIR record is written under the unit, an event of class 2 (R56). -/
def Dev.mapChange (d : Dev) (unit : Nat) : Dev :=
  ((d.add DARN_HDR.MAP_GEN 1).err 6 8 unit 0).event 2 none

/-- Place a change in the pending queue (R59); when it is full the change stays live and is not committed (R63).
Answers whether it was queued. -/
def Dev.darnPend (d : Dev) (kind unit detail : Nat) : Dev × Bool :=
  if 64 ≤ d.darnQ.length then ((d.wr DARN_STAT.QUEUE_OVF 1).replace, false)
  else
    let d := { d with darnQ := d.darnQ ++ [(kind, unit, detail)] }
    (if d.bit DARN_STAT.LOG_FULL then d.replace else d, true)

/-- STATE of a core in the Darn map: 0 ENABLED (R55). -/
def Dev.coreEnabled (d : Dev) (n : Nat) : Bool := decide (n < 4096) && d.rd DARN_CORE_STATE.STATE 0 n == 0
/-- STATE of a cluster (R54). -/
def Dev.clusterEnabled (d : Dev) (g : Nat) : Bool := decide (g < 256) && d.rd DARN_CL_STATE.STATE 0 g == 0

/-- The slice of core `n` is served through the Wings port, or is lost (R54). -/
def Dev.orphan (d : Dev) (n : Nat) : Bool := (d.rd DARN_CL_ORPHAN.ORPHAN 0 (n / 16)).testBit (n % 16)
def Dev.lost (d : Dev) (n : Nat) : Bool := (d.rd DARN_CL_ORPHAN.LOST 0 (n / 16)).testBit (n % 16)

end Sys2Proof.Machine
end

