-- ==== Sys2Proof/Machine/Clamps.lean ====
section
/-! DEFINITION. Clamped values and their counters (R16, R464, R465). -/
namespace Sys2Proof.Machine
open Sys2Proof

/-- Count a clamp in a clamp register, given by its fields: event class 7 when SEEN sets, and the group's bit of
PART_CLAMP_ANY. -/
def Dev.clampIn (d : Dev) (seen count last : Fld) (u i j group word : Nat) (part : Option Nat) : Dev :=
  let first := !d.bit seen u i j
  let d := ((d.wr seen 1 u i j).addSat count 1 u i j).wr last word u i j
  let d := d.setBit PART_CLAMP_ANY.SEEN group true
  if first then d.event 7 part else d

/-- A clamp in half-common block `n` of half `h`. -/
def Dev.clampHalf (d : Dev) (h n word : Nat) : Dev :=
  d.clampIn PART_CLAMP_HBh_n.SEEN PART_CLAMP_HBh_n.COUNT PART_CLAMP_HBh_n.LAST 0 h n (1 + h) word none

/-- A field of a queue command was clamped by a half: block 3 (R465). No register was written, so LAST is open. -/
def Dev.clampQueue (d : Dev) (h : Nat) : Dev := let r := d.draw 14; r.2.clampHalf h 3 r.1.toNat

/-- A field of the register at a BAR0 offset was clamped. -/
def Dev.noteClamp (d : Dev) (a : Nat) : Dev :=
  if a < 0x100000 then
    d.clampIn PART_CLAMP_DEVn.SEEN PART_CLAMP_DEVn.COUNT PART_CLAMP_DEVn.LAST 0 (a / 0x10000) 0 0 (a % 0x10000 / 4) none
  else if a < 0x300000 then d.clampHalf ((a - 0x100000) / 0x100000) (a % 0x100000 / 0x10000) (a % 0x10000 / 4)
  else
    let g := (a - 0x1000000) / 0x80000
    let o := a % 0x80000
    if o < 0x10000 then
      d.clampIn PART_CLAMP_CLh_c.SEEN PART_CLAMP_CLh_c.COUNT PART_CLAMP_CLh_c.LAST 0 g 0 3 (o % 0x1000 / 4) (d.partOf g)
    else
      d.clampIn CORE_UNIT_CLAMP.SEEN CORE_UNIT_CLAMP.COUNT CORE_UNIT_CLAMP.LAST (g * 16 + (o - 0x10000) / 0x4000) 0 0 4
        ((o - 0x10000) % 0x800 / 4) (d.partOf g)

/-- The legal value nearest to `v` in a range; the lower of two (R16). -/
def nearRange (v lo hi : Int) : Int := if v < lo then lo else if hi < v then hi else v

/-- The multiple of `m` nearest to `v`; the lower of two. -/
def nearMul (m v : Nat) : Nat := if 2 * (v % m) ≤ m then v - v % m else v + (m - v % m)

/-- A 16-bit index at most one ring of 2^`lg` entries ahead of `old`, and whether it was clamped. -/
def ringAhead (old new lg : Nat) : Nat × Bool :=
  let ahead := (new % 2 ^ 16 + 2 ^ 16 - old % 2 ^ 16) % 2 ^ 16
  if 2 ^ lg < ahead then ((old + 2 ^ lg) % 2 ^ 16, true) else (new % 2 ^ 16, false)

end Sys2Proof.Machine
end

