-- ==== Sys2Proof/Machine/Mesh.lean ====
section
/-! DEFINITION. The mesh: routes around links out of service, resends and links that go down (R307-R312, R369). -/
namespace Sys2Proof.Machine
open Sys2Proof

/-! ### Links (R307, R310) -/

/-- Link `l` exists at the router of cluster `g`. -/
def linkExists (g l : Nat) : Bool :=
  match l with
  | 0 => decide (clusterY g < 7)
  | 1 => decide (clusterX g < 15)
  | 2 => decide (0 < clusterY g)
  | 3 => decide (0 < clusterX g)
  | 4 => true
  | 5 => clusterY g == 7
  | _ => false

/-- The cluster at the other end of a link; the local link has none. -/
def linkPeer (g l : Nat) : Option Nat :=
  if !linkExists g l then none
  else
    match l with
    | 0 => some (g + 16)
    | 1 => some (g + 1)
    | 2 => some (g - 16)
    | 3 => some (g - 1)
    | 5 => some (if g < 128 then g + 128 else g - 128)
    | _ => none

/-- The number of a link at its other end. -/
def linkBack (l : Nat) : Nat := match l with | 0 => 2 | 1 => 3 | 2 => 0 | 3 => 1 | n => n

/-- The link exists and is not retired: its LINK_OK bit in the Darn map, from which routes are computed (R54, R310). -/
def Dev.linkOk (d : Dev) (g l : Nat) : Bool := linkExists g l && !d.linkRet.contains (g, l)

/-- The DOWN bit of a link (R312). -/
def Dev.linkDown (d : Dev) (g l : Nat) : Bool := (d.rd CL_MESH_STAT.DOWN g).testBit l

/-! ### Route tables (R309, R310) -/

def gridCluster (h x y : Nat) : Nat := h * 128 + y * 16 + x

/-- The neighbouring row or column nearer to the middle of a grid of `n`. -/
def towardMiddle (n x : Nat) : Nat := if x < n / 2 then x + 1 else x - 1

/-- One step from `a` towards `b`. -/
def stepTo (a b : Nat) : Nat := if a < b then a + 1 else if b < a then a - 1 else a

/-- The link of one step of a coordinate: `up` and `down` are the links that raise and lower it. -/
def dirLink (a b up down : Nat) : Nat := if a < b then up else down

/-- The dimension-ordered route along x from column `x` to `xd` in row `y`: a link on it is out of service. -/
def Dev.badX (d : Dev) (h y xd : Nat) : Nat → Nat → Bool
  | 0, _ => false
  | fuel + 1, x =>
    if x = xd then false
    else !d.linkOk (gridCluster h x y) (dirLink x xd 1 3) || Dev.badX d h y xd fuel (stepTo x xd)

/-- The same along y in column `x`. -/
def Dev.badY (d : Dev) (h x yd : Nat) : Nat → Nat → Bool
  | 0, _ => false
  | fuel + 1, y =>
    if y = yd then false
    else !d.linkOk (gridCluster h x y) (dirLink y yd 0 2) || Dev.badY d h x yd fuel (stepTo y yd)

/-- The entry of the route table of router `g` for a place (xd, yd) of its own half: ESC and the output link. -/
def Dev.routeTo (d : Dev) (g xd yd : Nat) : Bool × Nat :=
  let h := g / 128
  let x := clusterX g
  let y := clusterY g
  if x = xd ∧ y = yd then (false, 4)
  else if d.badX h y xd 16 x then (true, dirLink y (towardMiddle 8 y) 0 2)
  else if d.badY h xd yd 8 y then
    let xm := towardMiddle 16 xd
    if x = xm then (true, dirLink y yd 0 2) else (true, dirLink x xm 1 3)
  else if x = xd then (false, dirLink y yd 0 2)
  else (false, dirLink x xd 1 3)

/-- The Seam column that serves column `x`: itself, or the nearest in service, the lower of two equally near. -/
def Dev.seamColumn (d : Dev) (h x : Nat) : Option Nat :=
  (List.range 16).foldl (fun best k =>
    -- candidates at distance k, the lower column first
    match best with
    | some b => some b
    | none =>
      if k ≤ x ∧ d.linkOk (gridCluster h (x - k) 7) 5 then some (x - k)
      else if x + k < 16 ∧ d.linkOk (gridCluster h (x + k) 7) 5 then some (x + k)
      else none) none

/-- Entry `e` of the route table of router `g`: 0-127 a cluster of its half, 128-143 a Seam column. -/
def Dev.routeEntry (d : Dev) (g e : Nat) : Bool × Nat :=
  if e < 128 then d.routeTo g (e % 16) (e / 16)
  else
    match d.seamColumn (g / 128) (e - 128) with
    | none => (false, 5)
    | some x =>
      if clusterX g = x ∧ clusterY g = 7 then (decide (x ≠ e - 128), 5)
      else
        let r := d.routeTo g x 7
        (r.1 || decide (x ≠ e - 128), r.2)

/-- The route from `g` to cluster `t` uses a link that is down, or finds no Seam port in service. -/
def Dev.routeDown (d : Dev) : Nat → Nat → Nat → Bool
  | 0, _, _ => false
  | fuel + 1, g, t =>
    if g = t then false
    else
      let e := if g / 128 = t / 128 then t % 128 else 128 + clusterX t
      let l := (d.routeEntry g e).2
      match linkPeer g l with
      | none => true
      | some g' => d.linkDown g l || (l == 5 && (d.rd SEAM_STAT.DOWN (g / 128)).testBit (clusterX g)) ||
          (l == 5 && (d.seamColumn (g / 128) (clusterX t)).isNone) || Dev.routeDown d fuel g' t

/-! ### Stand-alone halves (R378, R379) -/


/-- The loop-back mode of Seam port `x` in half `h`. -/
def Dev.loopMode (d : Dev) (h x : Nat) : Nat := d.rd SEAM_LOOP.MODE h / 4 ^ x % 4

/-- Half `h` runs stand-alone. -/
def Dev.alone (d : Dev) (h : Nat) : Bool := d.bit HALF_ID.STANDALONE h

/-- Port `x` of a stand-alone half sends what it is given back into its own half: mode REFLECT. -/
def Dev.reflects (d : Dev) (h x : Nat) : Bool := d.alone h && d.loopMode h x == 3

/-- The cluster at which a packet of half `h` for cluster `t` arrives: one that a port reflects arrives in its own half. -/
def Dev.seenAt (d : Dev) (h t : Nat) : Nat :=
  if t / 128 ≠ h && (d.seamColumn h (clusterX t)).any (d.reflects h) then (t + 128) % 256 else t

/-- The memory DA at which a request of half `h` for a DA is served. -/
def Dev.seenDa (d : Dev) (h da : Nat) : Nat := d.seenAt h (da / 2 ^ 31) * 2 ^ 31 + da % 2 ^ 31

/-- Traffic of a stand-alone half for the other half is lost, but where its port reflects it: it then needs the way to the
port, and from there to the cluster that stands in. -/
def Dev.loopLost (d : Dev) (g t : Nat) : Bool :=
  match d.seamColumn (g / 128) (clusterX t) with
  | none => true
  | some x =>
    let p := gridCluster (g / 128) x 7
    let t' := (t + 128) % 256
    !d.reflects (g / 128) x || d.linkDown g 4 || d.linkDown t' 4 || d.linkDown p 5 || d.routeDown 64 g p ||
      d.routeDown 64 p t' || d.routeDown 64 t' g

/-- The LINK_OK bit as it reads: a stand-alone half has no Seam port in service (R54, R360). -/
def Dev.linkServes (d : Dev) (g l : Nat) : Bool := d.linkOk g l && !(l == 5 && d.alone (g / 128))

/-- A request that enters half `h` from outside it, for cluster `t`, finds no way: its stand-alone half reflects none. -/
def Dev.halfLost (d : Dev) (h t : Nat) : Bool := d.alone h && t / 128 != h && d.seenAt h t == t

/-- Traffic between two clusters completes with LOST (R312, R369): the way out or the way back is down, the local links of
both routers with it. Within a cluster it crosses the crossbar only. -/
def Dev.meshLost (d : Dev) (g t : Nat) : Bool :=
  if t / 128 ≠ g / 128 ∧ d.alone (g / 128) = true then d.loopLost g t
  else g != t && (d.linkDown g 4 || d.linkDown t 4 || d.routeDown 64 g t || d.routeDown 64 t g)

/-! ### Flits and links -/

/-- A resend on a link or port: kept for 1 ms, and answered when there have been `limit` of them. -/
def Dev.noteResend (d : Dev) (key limit : Nat) : Bool × Dev :=
  let l := (FMap.get d.resends [] key).filter (fun t => decide (d.now < t + 1000000)) ++ [d.now]
  if limit ≤ l.length then (true, { d with resends := FMap.set d.resends key [] })
  else (false, { d with resends := FMap.set d.resends key l })

/-- A flit sent on link `l` of router `g` arrives; with a bad CRC it is resent from the sender's replay buffer, and
ERR_LIMIT resends within 1 ms write a record (R311). -/
def meshFlit (g l : Nat) (crcOk : Bool) (d : Dev) : Dev :=
  if !linkExists g l then d
  else if crcOk then d.add CL_MESH_FLITS.FLITS 1 g l
  else
    let d := d.addSat CL_MESH_RETRY.COUNT 1 g l
    let r := d.noteResend (8 * g + l) (d.rd CL_MESH_CTRL.ERR_LIMIT g)
    if r.1 then (r.2.err 1 9 (unitCluster g 14 l) 0).wr CL_MESH_STAT.ERR_SEEN 1 g else r.2

def execMeshFlitReceive (g l : Nat) (crcOk : Bool) (s : State) : Out := act s (meshFlit g l crcOk)

/-- Set the DOWN bit of a link at one end. -/
def Dev.setDown (d : Dev) (g l : Nat) : Dev := d.wr CL_MESH_STAT.DOWN (d.rd CL_MESH_STAT.DOWN g ||| 2 ^ l) g

/-- A link goes down, in both its directions (R312). -/
def Dev.linkGoesDown (d : Dev) (g l : Nat) : Dev :=
  let d := d.setDown g l
  match linkPeer g l with
  | some g' => d.setDown g' (linkBack l)
  | none => d

end Sys2Proof.Machine
end

