-- ==== Sys2Proof/Machine/Operands.lean ====
section
/-! DEFINITION. Operand forms: the fields of an instruction word (R83), stream descriptors (R96-R98). -/
namespace Sys2Proof.Machine
open Sys2Proof

/-! ### Instruction fields (R83) -/

/-- Bits [hi:lo] of a word. -/
def W64.bits (w : W64) (hi lo : Nat) : Nat := w.toNat / 2 ^ lo % 2 ^ (hi + 1 - lo)

def opOf (w : W64) : Nat := W64.bits w 63 58
def rdOf (w : W64) : Nat := W64.bits w 57 53
def raOf (w : W64) : Nat := W64.bits w 52 48
def rbOf (w : W64) : Nat := W64.bits w 47 43
def fnOf (w : W64) : Nat := W64.bits w 42 38
def immOf (w : W64) : Nat := W64.bits w 31 0
def targetOf (w : W64) : Nat := W64.bits w 10 0
/-- IMM32 sign-extended to 64 bits. -/
def simm32 (w : W64) : W64 := (BitVec.extractLsb' 0 32 w).signExtend 64
/-- IMM48 sign-extended to 64 bits. -/
def simm48 (w : W64) : W64 := (BitVec.extractLsb' 0 48 w).signExtend 64

/-- R84: of the register fields RD, RA and RB those the instruction does not use are zero, and so are bits [37:32]
in formats A, M and B. -/
def regsOk (w : W64) (rd ra rb : Bool) : Bool :=
  (rd || rdOf w == 0) && (ra || raOf w == 0) && (rb || rbOf w == 0) && W64.bits w 37 32 == 0

/-- Format A: nothing below bit 38. -/
def formatAOk (w : W64) : Bool := W64.bits w 37 0 == 0
/-- Format M whose IMM32 must be zero from bit `k` up (`k = 0`: IMM32 is not used). -/
def immBelow (w : W64) (k : Nat) : Bool := immOf w < 2 ^ k
/-- Format B: bits [31:11] are reserved. -/
def formatBOk (w : W64) : Bool := W64.bits w 37 11 == 0

/-! ### Stream descriptors (R96) -/

/-- A descriptor's fields. -/
structure Desc where
  format : Nat
  base : Nat
  count0 : Nat
  count1 : Nat
  count2 : Nat
  stride0 : Int
  stride1 : Int
  stride2 : Int
  ring : Nat
  deriving DecidableEq, Repr

/-- Word `k` of a 32-byte object. -/
def word32 (v : Nat) (k : Nat) : Nat := v / 2 ^ (32 * k) % 2 ^ 32

/-- Replace word `k` of a 32-byte object. -/
def setWord32 (v k x : Nat) : Nat := v - word32 v k * 2 ^ (32 * k) + (x % 2 ^ 32) * 2 ^ (32 * k)

/-- A two's-complement value of `n` bits. -/
def signed (n v : Nat) : Int := let x := v % 2 ^ n; if x < 2 ^ (n - 1) then (x : Int) else (x : Int) - 2 ^ n

/-- The ring size a RING field gives (R96): 0 for none, 32 from 1 to 31, else the largest power of two not above it. -/
def ringSize (r : Nat) : Nat := if r = 0 then 0 else if r < 32 then 32 else 2 ^ Nat.log2 r

/-- The fields of the 32 bytes of a descriptor. -/
def Desc.ofBits (v : Nat) : Desc :=
  { format := word32 v 0 / 2 ^ 28, base := word32 v 0 % 2 ^ 20,
    count1 := word32 v 1 / 2 ^ 16, count0 := word32 v 1 % 2 ^ 16, count2 := word32 v 2 % 2 ^ 16,
    stride0 := signed 20 (word32 v 3), stride1 := signed 20 (word32 v 4), stride2 := signed 20 (word32 v 5),
    ring := ringSize (word32 v 6 % 2 ^ 20) }

/-- Descriptor `n` of core `c`, as its 256 bits. -/
def Dev.descBits (d : Dev) (c n : Nat) : Nat := (FMap.get (d.core c).desc 0 n).toNat
def Dev.desc (d : Dev) (c n : Nat) : Desc := Desc.ofBits (d.descBits c n)
def Dev.setDesc (d : Dev) (c n v : Nat) : Dev :=
  d.updCore c (fun k => { k with desc := FMap.set k.desc n (BitVec.ofNat 256 v) })

/-- Number of elements of a stream. -/
def Desc.size (e : Desc) : Nat := e.count0 * e.count1 * e.count2

/-- An address folded into the ring block of `base` (R97); two's complement of 20 bits. -/
def ringAddr (base ring : Nat) (a : Int) : Int :=
  if ring = 0 then a else ((base / ring * ring : Nat) : Int) + a % (ring : Int)

/-- The local address of the element at position `i0, i1, i2` (R97). -/
def Desc.at (e : Desc) (i0 i1 i2 : Nat) : Int :=
  ringAddr e.base e.ring ((e.base : Int) + i0 * e.stride0 + i1 * e.stride1 + i2 * e.stride2)

/-- The local address of the `k`th element visited. -/
def Desc.nth (e : Desc) (k : Nat) : Nat :=
  (e.at (k % e.count0) (k / e.count0 % e.count1) (k / (e.count0 * e.count1))).toNat

/-- Every address of the stream, in order. -/
def Desc.addrs (e : Desc) : List Nat := (List.range e.size).map e.nth

/-- Extent of one dimension below and above its start. -/
def dimLo (n : Nat) (st : Int) : Int := min 0 (((n : Int) - 1) * st)
def dimHi (n : Nat) (st : Int) : Int := max 0 (((n : Int) - 1) * st)

/-- The checked span of a stream (R98), first byte and one past the last: its ring block, or the bytes between the
lowest and the highest element visited. -/
def Desc.span (e : Desc) (esz : Nat) : Int × Int :=
  if e.ring = 0 then
    ((e.base : Int) + dimLo e.count0 e.stride0 + dimLo e.count1 e.stride1 + dimLo e.count2 e.stride2,
     (e.base : Int) + dimHi e.count0 e.stride0 + dimHi e.count1 e.stride1 + dimHi e.count2 e.stride2 + esz)
  else (((e.base / e.ring * e.ring : Nat) : Int), ((e.base / e.ring * e.ring + e.ring : Nat) : Int))

/-- What R98 finds wrong with a descriptor whose elements are `esz` bytes: none, 4 MISALIGN or 3 LOCAL_RANGE.
An empty stream is not checked. -/
def Desc.check (e : Desc) (esz : Nat) : Option Nat :=
  if e.size = 0 then none
  else if e.base % esz != 0 || e.stride0 % (esz : Int) != 0 || e.stride1 % (esz : Int) != 0 || e.stride2 % (esz : Int) != 0
  then some 4
  else if (e.span esz).1 < 0 then some 3
  else if spanOk (e.span esz).1.toNat ((e.span esz).2 - (e.span esz).1).toNat then none else some 3

end Sys2Proof.Machine
end

