-- ==== Sys2Proof/Machine/Issue.lean ====
section
/-! DEFINITION. Issue, retirement and traps of a core (R82, R84-R86, R95, R105, R108-R111). -/
namespace Sys2Proof.Machine
open Sys2Proof

/-- pc of a core. -/
def Dev.pc (d : Dev) (c : Nat) : Nat := d.rd CORE_SEQ_PC.PC c

/-- STATE is RUNNING (R76). -/
def Dev.running (d : Dev) (c : Nat) : Bool := d.rd CORE_SEQ_STAT.STATE c == 2

/-- The core may issue: RUNNING, not stalled in an instruction, not halting, no imprecise trap due. -/
def Dev.canIssue (d : Dev) (c : Nat) : Bool :=
  d.running c && (d.core c).wait == .run && (d.core c).halting == none && (d.core c).traps == []

/-- Instruction `i` of core `c`'s instruction memory. -/
def Dev.imemAt (d : Dev) (c i : Nat) : W64 := FMap.get d.imem 0 (c * 2048 + i)

/-- The instruction a core is about to issue. -/
def Dev.instr (d : Dev) (c : Nat) : W64 := d.imemAt c (d.pc c)

/-- Clock-gating of a wait (R76). -/
def Dev.sleep (d : Dev) (c : Nat) (b : Bool) : Dev := d.wr CORE_SEQ_STAT.SLEEPING (if b then 1 else 0) c

def Dev.setWait (d : Dev) (c : Nat) (w : Wait) : Dev := d.updCore c (fun k => { k with wait := w })

/-! ### Halts and traps -/

/-- The core stops issuing and drains; it reaches HALTED when its units are empty (R82, HALT_DRAIN_DONE). -/
def Dev.beginHalt (d : Dev) (c cause : Nat) : Dev :=
  (d.sleep c false).updCore c (fun k => { k with halting := some cause, wait := .run })

/-- A halt that also writes an error record of class HALT under the core sequencer (R79, R111). -/
def Dev.beginHaltRec (d : Dev) (c cause : Nat) : Dev := (d.beginHalt c cause).err 12 0 (unitCore c 0 0) 0

/-- Taking a trap (R109). TPC is the core's pc: the faulting instruction for a precise trap, the next one not yet
issued for an imprecise one. -/
def Dev.trap (d : Dev) (c cause : Nat) (tval : Nat) (imprecise : Bool := false) : Dev :=
  if d.bit CORE_SEQ_STAT.IN_TRAP c then d.beginHaltRec c 4
  else if !d.bit CORE_SEQ_TVEC.VALID c then d.beginHaltRec c 3
  else
    let d := d.wr CORE_SEQ_TCAUSE.CAUSE cause c
    let d := d.wr CORE_SEQ_TCAUSE.IMPRECISE (if imprecise then 1 else 0) c
    let d := d.wr CORE_SEQ_TVAL.TVAL tval c
    let d := d.wr CORE_SEQ_TPC.TPC (d.pc c) c
    let d := d.updCore c (fun k => { k with shadowLoops := k.loops, loops := [] })
    let d := d.wr CORE_SEQ_STAT.IN_TRAP 1 c
    let d := d.sleep c false
    d.wr CORE_SEQ_PC.PC (d.rd CORE_SEQ_TVEC.INDEX c) c

/-- ILLEGAL (R84): TVAL is the instruction word. -/
def Dev.illegal (d : Dev) (c : Nat) (w : W64) : Dev := d.trap c 1 w.toNat

/-- Take the imprecise traps that are due, oldest first, until the core halts; a core that HALT_REQ is halting takes
them first (R81). -/
def Dev.takeTraps (d : Dev) (c : Nat) : Dev :=
  (d.core c).traps.foldl (fun d t => if (d.core c).halting = none ∨ (d.core c).halting = some 2 then d.trap c 11 t true else d)
    (d.updCore c (fun k => { k with traps := [] }))

/-- An imprecise trap of cause UNIT (R108). It is taken at an instruction boundary, so a core inside an instruction
takes it when that instruction ends. A core draining to a halt by HALT_REQ takes it before it halts (R81); a core that
is not running, or ends its program, does not take it. -/
def Dev.unitTrap (d : Dev) (c tval : Nat) : Dev :=
  if !d.running c then d
  else if (d.core c).wait != .run then d.updCore c (fun k => { k with traps := k.traps ++ [tval] })
  else if (d.core c).halting != none && (d.core c).halting != some 2 then d
  else d.trap c 11 tval true

/-- A unit reports a fault code of the instruction at an index (R108). -/
def Dev.unitFault (d : Dev) (c code pcIdx : Nat) : Dev := d.unitTrap c (code * 65536 + pcIdx)

/-- An instruction that stalled issue has ended: the core issues again, and takes the imprecise traps due. -/
def Dev.endWait (d : Dev) (c : Nat) : Dev := ((d.sleep c false).setWait c .run).takeTraps c

/-- An instruction that stalled issue ends in a precise trap. -/
def Dev.endWaitTrap (d : Dev) (c cause tval : Nat) : Dev :=
  (((d.sleep c false).setWait c .run).trap c cause tval).takeTraps c

/-! ### Retirement (R95) -/

/-- Where the sequencer goes after the instruction at `pc` retires without redirecting it, and the loop stack then
(innermost entry first). An entry that ends is popped, and the one around it ends at the same instruction or goes on. -/
def loopNext (pc : Nat) : List Loop → Nat × List Loop
  | [] => ((pc + 1) % 2048, [])
  | l :: t =>
    if pc = l.fin then
      if l.left ≤ 1 then loopNext pc t else (l.start, { l with left := l.left - 1 } :: t)
    else ((pc + 1) % 2048, l :: t)

/-- The instruction retires and pc moves to the next one. -/
def Dev.retire (d : Dev) (c : Nat) : Dev :=
  let n := loopNext (d.pc c) (d.core c).loops
  let d := d.updCore c (fun k => { k with loops := n.2 })
  let d := d.add CORE_SEQ_RETIRED.RETIRED 1 c
  (d.sleep c false).wr CORE_SEQ_PC.PC n.1 c

/-- The instruction retires with pc redirected: entries whose body does not hold the new pc are popped (R95). -/
def Dev.retireTo (d : Dev) (c pc : Nat) : Dev :=
  let d := d.updCore c (fun k => { k with loops := k.loops.filter (fun l => l.start ≤ pc && pc ≤ l.fin) })
  let d := d.add CORE_SEQ_RETIRED.RETIRED 1 c
  d.wr CORE_SEQ_PC.PC pc c

/-- The register fields of an instruction that name scalar registers (R83, and the classes that name descriptors). -/
def scalarRegs (w : W64) : List Nat :=
  let op := opOf w
  if op = 3 then [rdOf w]
  else if op = 0xC then [rdOf w, raOf w]
  else if op = 0x21 then [rdOf w]
  else if op = 0x2A ∨ op = 0x32 then [rbOf w]
  else if op = 0x35 ∨ op = 0x36 ∨ op = 0x34 then [raOf w, rbOf w]
  else if (0x20 ≤ op ∧ op < 0x30) ∨ op = 0x33 then []
  else [rdOf w, raOf w, rbOf w]

/-- The interlock of R72: a register the instruction names is still to be written by an atomic with FETCH (R296). -/
def Dev.interlocked (d : Dev) (c : Nat) (w : W64) : Bool :=
  (d.core c).atomq.any (fun a => a.fetch && a.rd != 0 && (scalarRegs w).contains a.rd)

/-- It is core `c`'s turn: when it can issue and its next instruction is of the row's kind, the row executes it. -/
def Dev.issue (d : Dev) (c : Nat) (isRow : W64 → Bool) (f : Dev → W64 → Dev) : Dev :=
  if d.canIssue c && isRow (d.instr c) && !d.interlocked c (d.instr c) then f d (d.instr c) else d

/-- A row of major opcode `op`, function `fn`. -/
def isOpFn (op fn : Nat) (w : W64) : Bool := opOf w == op && fnOf w == fn

/-- Execute after the field checks of R84. -/
def Dev.checked (d : Dev) (c : Nat) (w : W64) (ok : Bool) (f : Dev → Dev) : Dev := if ok then f d else d.illegal c w

end Sys2Proof.Machine
end

