-- ==== Sys2Proof/Machine/CoreIsa.lean ====
section
/-! DEFINITION. Scalar, load and store, branch, loop, descriptor and system instructions (R87-R99, R106-R111). -/
namespace Sys2Proof.Machine
open Sys2Proof

/-! ### Arithmetic (R71, R87) -/

/-- Signed quotient rounded towards zero; division by zero gives all ones (R71). -/
def sdiv64 (a b : W64) : W64 := if b = 0 then BitVec.allOnes 64 else BitVec.ofInt 64 (a.toInt.tdiv b.toInt)
def udiv64 (a b : W64) : W64 := if b = 0 then BitVec.allOnes 64 else BitVec.ofNat 64 (a.toNat / b.toNat)
/-- Remainder with the sign of the dividend; by zero it is the dividend (R71). -/
def srem64 (a b : W64) : W64 := if b = 0 then a else BitVec.ofInt 64 (a.toInt.tmod b.toInt)
def urem64 (a b : W64) : W64 := if b = 0 then a else BitVec.ofNat 64 (a.toNat % b.toNat)
def clz64 (a : W64) : W64 := if a = 0 then 64 else BitVec.ofNat 64 (63 - Nat.log2 a.toNat)
def popc64 (a : W64) : W64 := BitVec.ofNat 64 ((List.range 64).filter (fun i => a.getLsbD i)).length

/-- The ALU functions by their FN code (R87). -/
def aluFn : Nat → W64 → W64 → W64
  | 0, a, b => a + b
  | 1, a, b => a - b
  | 2, a, b => a &&& b
  | 3, a, b => a ||| b
  | 4, a, b => a ^^^ b
  | 5, a, b => a <<< (b.toNat % 64)
  | 6, a, b => a >>> (b.toNat % 64)
  | 7, a, b => a.sshiftRight (b.toNat % 64)
  | 8, a, b => if a.slt b then 1 else 0
  | 9, a, b => if a.ult b then 1 else 0
  | 10, a, b => if a.slt b then a else b
  | 11, a, b => if a.slt b then b else a
  | 12, a, b => if a.ult b then a else b
  | 13, a, b => if a.ult b then b else a
  | 14, a, b => a * b
  | 15, a, b => BitVec.ofInt 64 (a.toInt * b.toInt / 2 ^ 64)
  | 16, a, b => BitVec.ofNat 64 (a.toNat * b.toNat / 2 ^ 64)
  | 17, a, b => sdiv64 a b
  | 18, a, b => udiv64 a b
  | 19, a, b => srem64 a b
  | 20, a, b => urem64 a b
  | 21, a, _ => clz64 a
  | 22, a, _ => popc64 a
  | _, _, _ => 0

/-- OP 0x01 takes rb, OP 0x02 takes IMM32 (R87). -/
def isAlu (fn : Nat) (w : W64) : Bool := (opOf w == 1 || opOf w == 2) && fnOf w == fn

/-- R84 and R87: format A has nothing below FN; format M has no RB; CLZ and POPC have no second operand. -/
def aluOk (w : W64) : Bool :=
  if opOf w = 1 then regsOk w true true (decide (fnOf w < 21)) && formatAOk w
  else regsOk w true true false && (decide (fnOf w < 21) || immOf w == 0)

/-- rd = ra op b. -/
def aluStep (fn c : Nat) (d : Dev) : Dev :=
  d.issue c (isAlu fn) (fun d w => d.checked c w (aluOk w) (fun d =>
    let b := if opOf w = 1 then d.sreg c (rbOf w) else simm32 w
    (d.setS c (rdOf w) (aluFn fn (d.sreg c (raOf w)) b)).retire c))

def execAdd (c : Nat) (s : State) : Out := act s (aluStep 0 c)
def execSub (c : Nat) (s : State) : Out := act s (aluStep 1 c)
def execAnd (c : Nat) (s : State) : Out := act s (aluStep 2 c)
def execOr (c : Nat) (s : State) : Out := act s (aluStep 3 c)
def execXor (c : Nat) (s : State) : Out := act s (aluStep 4 c)
def execSll (c : Nat) (s : State) : Out := act s (aluStep 5 c)
def execSrl (c : Nat) (s : State) : Out := act s (aluStep 6 c)
def execSra (c : Nat) (s : State) : Out := act s (aluStep 7 c)
def execSlt (c : Nat) (s : State) : Out := act s (aluStep 8 c)
def execSltu (c : Nat) (s : State) : Out := act s (aluStep 9 c)
def execMin (c : Nat) (s : State) : Out := act s (aluStep 10 c)
def execMax (c : Nat) (s : State) : Out := act s (aluStep 11 c)
def execMinu (c : Nat) (s : State) : Out := act s (aluStep 12 c)
def execMaxu (c : Nat) (s : State) : Out := act s (aluStep 13 c)
def execMul (c : Nat) (s : State) : Out := act s (aluStep 14 c)
def execMulh (c : Nat) (s : State) : Out := act s (aluStep 15 c)
def execMulhu (c : Nat) (s : State) : Out := act s (aluStep 16 c)
def execDiv (c : Nat) (s : State) : Out := act s (aluStep 17 c)
def execDivu (c : Nat) (s : State) : Out := act s (aluStep 18 c)
def execRem (c : Nat) (s : State) : Out := act s (aluStep 19 c)
def execRemu (c : Nat) (s : State) : Out := act s (aluStep 20 c)
def execClz (c : Nat) (s : State) : Out := act s (aluStep 21 c)
def execPopc (c : Nat) (s : State) : Out := act s (aluStep 22 c)

/-- R88: rd = sign-extended IMM48. -/
def execLiw (c : Nat) (s : State) : Out :=
  act s (fun d => d.issue c (fun w => opOf w == 3) (fun d w =>
    d.checked c w (raOf w == 0) (fun d => (d.setS c (rdOf w) (simm48 w)).retire c)))

/-! ### Loads and stores (R74, R89, R90) -/

/-- The checks of a scalar access of `n` bytes at a computed address: the trap cause, if any. Alignment comes first. -/
def scalarCheck (a : W64) (n : Nat) : Option Nat :=
  if a.toNat % n != 0 then some 4
  else if 2 ^ 20 ≤ a.toNat ∨ spanOk a.toNat n = false then some 3
  else none

/-- A record of an uncorrectable word of a local memory, and the trap DATA_UE (R90). -/
def Dev.dataUe (d : Dev) (c a op : Nat) : Dev := (d.err 2 op (unitLocal c a) 0).trap c 5 a

/-- rd = the `n` bytes at ra + IMM32, extended by `ext`. -/
def loadStep (fn n : Nat) (ext : Nat → W64) (c : Nat) (d : Dev) : Dev :=
  d.issue c (isOpFn 5 fn) (fun d w => d.checked c w (regsOk w true true false) (fun d =>
    let a := d.sreg c (raOf w) + simm32 w
    match scalarCheck a n with
    | some cause => d.trap c cause a.toNat
    | none =>
      if d.lbad c a.toNat n then d.dataUe c a.toNat 1
      else ((d.countLce c a.toNat n).setS c (rdOf w) (ext (d.lrd c a.toNat n))).retire c))

def zext (v : Nat) : W64 := BitVec.ofNat 64 v
/-- Sign extension from `b` bits. -/
def sext (b : Nat) (v : Nat) : W64 := (BitVec.ofNat b v).signExtend 64

/-- The low `n` bytes of rb go to ra + IMM32. A store narrower than 4 B reads its word first (R90). -/
def storeStep (fn n : Nat) (c : Nat) (d : Dev) : Dev :=
  d.issue c (isOpFn 6 fn) (fun d w => d.checked c w (regsOk w false true true) (fun d =>
    let a := d.sreg c (raOf w) + simm32 w
    match scalarCheck a n with
    | some cause => d.trap c cause a.toNat
    | none =>
      if n < 4 && d.lbad c a.toNat n then d.dataUe c a.toNat 2
      else (if n < 4 then d.lwrPart c a.toNat n (d.sreg c (rbOf w)).toNat
            else d.lwr c a.toNat n (d.sreg c (rbOf w)).toNat).retire c))

def execLd8u (c : Nat) (s : State) : Out := act s (loadStep 0 1 zext c)
def execLd8s (c : Nat) (s : State) : Out := act s (loadStep 1 1 (sext 8) c)
def execLd16u (c : Nat) (s : State) : Out := act s (loadStep 2 2 zext c)
def execLd16s (c : Nat) (s : State) : Out := act s (loadStep 3 2 (sext 16) c)
def execLd32u (c : Nat) (s : State) : Out := act s (loadStep 4 4 zext c)
def execLd32s (c : Nat) (s : State) : Out := act s (loadStep 5 4 (sext 32) c)
def execLd64 (c : Nat) (s : State) : Out := act s (loadStep 6 8 zext c)
def execSt8 (c : Nat) (s : State) : Out := act s (storeStep 0 1 c)
def execSt16 (c : Nat) (s : State) : Out := act s (storeStep 2 2 c)
def execSt32 (c : Nat) (s : State) : Out := act s (storeStep 4 4 c)
def execSt64 (c : Nat) (s : State) : Out := act s (storeStep 6 8 c)

/-! ### Branches and loops (R92-R95) -/

/-- Branch conditions by FN (R92). -/
def brCond : Nat → W64 → W64 → Bool
  | 0, a, b => a == b
  | 1, a, b => a != b
  | 2, a, b => a.slt b
  | 3, a, b => !a.slt b
  | 4, a, b => a.ult b
  | _, a, b => !a.ult b

def branchStep (fn c : Nat) (d : Dev) : Dev :=
  d.issue c (isOpFn 8 fn) (fun d w => d.checked c w (regsOk w false true true && formatBOk w) (fun d =>
    if brCond fn (d.sreg c (raOf w)) (d.sreg c (rbOf w)) then d.retireTo c (targetOf w) else d.retire c))

def execBeq (c : Nat) (s : State) : Out := act s (branchStep 0 c)
def execBne (c : Nat) (s : State) : Out := act s (branchStep 1 c)
def execBlt (c : Nat) (s : State) : Out := act s (branchStep 2 c)
def execBge (c : Nat) (s : State) : Out := act s (branchStep 3 c)
def execBltu (c : Nat) (s : State) : Out := act s (branchStep 4 c)
def execBgeu (c : Nat) (s : State) : Out := act s (branchStep 5 c)

/-- R93: rd = pc + 1, pc = TARGET. -/
def execJal (c : Nat) (s : State) : Out :=
  act s (fun d => d.issue c (isOpFn 9 0) (fun d w =>
    d.checked c w (regsOk w true false false && formatBOk w) (fun d =>
      (d.setS c (rdOf w) (BitVec.ofNat 64 (d.pc c + 1))).retireTo c (targetOf w))))

/-- R93: pc = ra, or trap PC_RANGE. -/
def execJr (c : Nat) (s : State) : Out :=
  act s (fun d => d.issue c (isOpFn 10 0) (fun d w =>
    d.checked c w (regsOk w false true false && W64.bits w 37 0 == 0) (fun d =>
      let a := (d.sreg c (raOf w)).toNat
      if 2048 ≤ a then d.trap c 6 a else d.retireTo c a)))

/-- R94. -/
def loopStep (c : Nat) (d : Dev) (w : W64) : Dev :=
  let stack := (d.core c).loops
  let n := (d.sreg c (raOf w)).toNat
  let t := targetOf w
  if t ≤ d.pc c then d.illegal c w
  else if stack.head?.any (fun l => decide (l.fin < t)) then d.illegal c w
  else if n = 0 then (d.add CORE_SEQ_RETIRED.RETIRED 1 c).wr CORE_SEQ_PC.PC (t + 1) c
  else if stack.length = 4 then d.trap c 7 0
  else
    let pc := d.pc c
    let d := d.updCore c (fun k => { k with loops := { start := pc + 1, fin := t, left := n } :: k.loops })
    (d.add CORE_SEQ_RETIRED.RETIRED 1 c).wr CORE_SEQ_PC.PC (pc + 1) c

def execLoop (c : Nat) (s : State) : Out :=
  act s (fun d => d.issue c (isOpFn 11 0) (fun d w =>
    d.checked c w (regsOk w false true false && formatBOk w) (fun d => loopStep c d w)))

/-! ### Descriptors (R99) -/

/-- The descriptor an instruction names in RB, 0 to 15 (R84). -/
def descOk (w : W64) : Bool := decide (rbOf w < 16)

/-- The checks of a 32-byte access of DLD and DST. -/
def descAddr (d : Dev) (c : Nat) (w : W64) : W64 := d.sreg c (raOf w) + simm32 w

def execDld (c : Nat) (s : State) : Out :=
  act s (fun d => d.issue c (isOpFn 12 0) (fun d w =>
    d.checked c w (regsOk w false true true && descOk w) (fun d =>
      let a := descAddr d c w
      match scalarCheck a 32 with
      | some cause => d.trap c cause a.toNat
      | none =>
        if d.lbad c a.toNat 32 then d.dataUe c a.toNat 1
        else ((d.countLce c a.toNat 32).setDesc c (rbOf w) (d.lrd c a.toNat 32)).retire c)))

def execDst (c : Nat) (s : State) : Out :=
  act s (fun d => d.issue c (isOpFn 12 1) (fun d w =>
    d.checked c w (regsOk w false true true && descOk w) (fun d =>
      let a := descAddr d c w
      match scalarCheck a 32 with
      | some cause => d.trap c cause a.toNat
      | none => (d.lwr c a.toNat 32 (d.descBits c (rbOf w))).retire c)))

/-- Replace BASE of a descriptor. -/
def setBase (v base : Nat) : Nat := setWord32 v 0 (word32 v 0 / 2 ^ 20 * 2 ^ 20 + base % 2 ^ 20)

def execDsetb (c : Nat) (s : State) : Out :=
  act s (fun d => d.issue c (isOpFn 12 2) (fun d w =>
    d.checked c w (regsOk w false true true && descOk w) (fun d =>
      let n := rbOf w
      (d.setDesc c n (setBase (d.descBits c n) (descAddr d c w).toNat)).retire c)))

/-- BASE + ra + IMM32, kept in its ring block when RING is not zero (R99). -/
def daddbBase (e : Desc) (x : W64) : Nat :=
  let a := (e.base + x.toNat) % 2 ^ 20
  if e.ring = 0 then a else e.base / e.ring * e.ring + a % e.ring

def execDaddb (c : Nat) (s : State) : Out :=
  act s (fun d => d.issue c (isOpFn 12 3) (fun d w =>
    d.checked c w (regsOk w false true true && descOk w) (fun d =>
      let n := rbOf w
      (d.setDesc c n (setBase (d.descBits c n) (daddbBase (d.desc c n) (descAddr d c w)))).retire c)))

def execDsetw (c : Nat) (s : State) : Out :=
  act s (fun d => d.issue c (isOpFn 12 4) (fun d w =>
    d.checked c w (regsOk w false true true && descOk w && immBelow w 3) (fun d =>
      let n := rbOf w
      (d.setDesc c n (setWord32 (d.descBits c n) (immOf w) (d.sreg c (raOf w)).toNat)).retire c)))

def execDgetw (c : Nat) (s : State) : Out :=
  act s (fun d => d.issue c (isOpFn 12 5) (fun d w =>
    d.checked c w (regsOk w true false true && descOk w && immBelow w 3) (fun d =>
      (d.setS c (rdOf w) (BitVec.ofNat 64 (word32 (d.descBits c (rbOf w)) (immOf w)))).retire c)))

/-! ### System instructions (R106, R107, R110) -/

def execNop (c : Nat) (s : State) : Out :=
  act s (fun d => d.issue c (isOpFn 0x1C 0) (fun d w =>
    d.checked c w (regsOk w false false false && immOf w == 0) (fun d => d.retire c)))

/-- HALT: the exit code is written, the instruction retires and the core drains to HALTED. -/
def execHalt (c : Nat) (s : State) : Out :=
  act s (fun d => d.issue c (isOpFn 0x1C 1) (fun d w =>
    d.checked c w (regsOk w false false false) (fun d =>
      ((d.wr CORE_SEQ_EXIT.CODE (immOf w % 65536) c).retire c).beginHalt c 1)))

def execTrap (c : Nat) (s : State) : Out :=
  act s (fun d => d.issue c (isOpFn 0x1C 2) (fun d w =>
    d.checked c w (regsOk w false false false) (fun d => d.trap c 12 (simm32 w).toNat)))

/-- R110: pc is an 11-bit index, so TPC + 1 wraps. -/
def execTret (c : Nat) (s : State) : Out :=
  act s (fun d => d.issue c (isOpFn 0x1C 3) (fun d w =>
    d.checked c w (regsOk w false false false && d.bit CORE_SEQ_STAT.IN_TRAP c) (fun d =>
      let pc := (d.rd CORE_SEQ_TPC.TPC c + immOf w % 2) % 2048
      let d := d.updCore c (fun k => { k with loops := k.shadowLoops, shadowLoops := [] })
      (d.wr CORE_SEQ_STAT.IN_TRAP 0 c).retireTo c pc)))

/-- The system values of R107. CYCLES counts time, which the model leaves out: it has moved by a free amount. -/
def sysValue (d : Dev) (c sel : Nat) : W64 × Dev :=
  match sel with
  | 0 => (let d := d.advance CORE_SEQ_CYCLES.CYCLES c
          (BitVec.ofNat 64 (d.rd CORE_SEQ_CYCLES.CYCLES c), d))
  | 1 => (BitVec.ofNat 64 (d.rd CORE_SEQ_RETIRED.RETIRED c), d)
  | 2 => (BitVec.ofNat 64 (d.timeOf (coreHalf c)), d)
  | 3 => (BitVec.ofNat 64 c, d)
  | 4 => (BitVec.ofNat 64 (d.rd CORE_SEQ_TENANT.TENANT c), d)
  | _ => ((match d.partOf (coreCluster c) with
          | some p => BitVec.ofNat 64 p
          | none => BitVec.allOnes 64), d)

def execRdsys (c : Nat) (s : State) : Out :=
  act s (fun d => d.issue c (isOpFn 0x1C 4) (fun d w =>
    d.checked c w (regsOk w true false false && decide (immOf w % 16 < 6)) (fun d =>
      let v := sysValue d c (immOf w % 16)
      (v.2.setS c (rdOf w) v.1).retire c)))

def execSetmode (c : Nat) (s : State) : Out :=
  act s (fun d => d.issue c (isOpFn 0x1C 5) (fun d w =>
    d.checked c w (regsOk w false true false && immOf w == 0) (fun d =>
      (d.wr CORE_SEQ_STAT.FP8_SAT ((d.sreg c (raOf w)).toNat % 2) c).retire c)))

/-! ### Fetch errors and illegal opcodes -/

/-- R111: an uncorrectable error in the fetched instruction writes a record and traps with IFETCH_UE. -/
def execIfetchUe (c : Nat) (s : State) : Out :=
  act s (fun d => if d.canIssue c then (d.err 2 5 (unitCore c 0 0) 0).trap c 2 (d.pc c) else d)

/-- The FN codes each major opcode defines; none for a reserved major opcode (R85 and the owning chapters). -/
def fnDefined : Nat → Nat → Bool
  | 1, f => decide (f < 23)
  | 2, f => decide (f < 23)
  | 3, _ => true
  | 5, f => decide (f < 7)
  | 6, f => f == 0 || f == 2 || f == 4 || f == 6
  | 7, f => decide (f < 4)
  | 8, f => decide (f < 6)
  | 9, f => f == 0
  | 10, f => f == 0
  | 11, f => f == 0
  | 12, f => decide (f < 6)
  | 0x10, f => decide (f < 3)
  | 0x14, f => decide (f < 5)
  | 0x18, f => f == 0
  | 0x1C, f => decide (f < 6)
  | _, _ => false

end Sys2Proof.Machine
end

