-- ==== Sys2Proof/Machine/Memory.lean ====
section
/-! DEFINITION. Device memory as the slice controllers serve it: addresses, protection, words under ECC, block check
values (R26-R28, R251-R266, R453, R473-R475). -/
namespace Sys2Proof.Machine
open Sys2Proof

/-! ### Addresses (R26-R28) -/

/-- The DA a 64-bit value names; none when it names nothing (R26). -/
def daOf (v : Nat) : Option Nat :=
  if v < 2 ^ 48 then some v
  else if v / 2 ^ 47 = 2 ^ 17 - 1 then some (v % 2 ^ 48)
  else none

/-- The global core number whose slice a memory DA lies in, and its slice offset. -/
def daCore (da : Nat) : Nat := da / 2 ^ 27
def daOff (da : Nat) : Nat := da % 2 ^ 27

/-- A memory DA that addresses a backed byte (R27, R28). -/
def daBacked (da : Nat) : Bool := decide (da < 2 ^ 39) && decide (daOff da < 0x5800000)

/-- The DA of byte `off` of the slice of core `n`. -/
def sliceDa (n off : Nat) : Nat := n * 2 ^ 27 + off

/-- Layer of a slice offset (R27). -/
def layerOf (off : Nat) : Nat := if off < 0x4800000 then off / 0xC00000 else 6 + (off - 0x4800000) / 0x800000
/-- Offset within the layer. -/
def layerOff (off : Nat) : Nat := if off < 0x4800000 then off % 0xC00000 else (off - 0x4800000) % 0x800000
/-- Bank and row of a slice offset (R251). -/
def bankOf (off : Nat) : Nat :=
  if off < 0x4800000 then layerOff off / 256 % 16 else layerOff off / 0x80000
def rowOf (off : Nat) : Nat :=
  if off < 0x4800000 then layerOff off / 32768 else layerOff off / 2048 % 256
/-- The number a row has within its slice. -/
def rowKey (off : Nat) : Nat := (layerOf off * 16 + bankOf off) * 512 + rowOf off

/-- Unit ID of a bank (R32). -/
def unitBank (n layer bank : Nat) : Nat :=
  if layer < 4 then unitCore n 8 (layer * 16 + bank) else unitCore n 9 ((layer - 4) * 16 + bank)

/-! ### Partition protection (R453) -/

/-- Region `r`, in the bank `b` that a request carries (R534), decides accesses of partition `p` to the 128 B line
of `da`. -/
def Dev.protHas (d : Dev) (b p da r : Nat) : Bool :=
  d.bankAt b PART_PROTr_CTRL.VALID 0 r != 0 && (d.bankAt b PART_PROTr_PARTS.PARTS 0 r).testBit p &&
  decide (d.bankAt b PART_PROTr_BASE.DA 0 r % 2 ^ 48 / 128 ≤ da / 128) &&
  decide (da / 128 ≤ d.bankAt b PART_PROTr_LIMIT.DA 0 r % 2 ^ 48 / 128)

/-- Cluster whose window a register offset lies in. -/
def offCluster (off : Nat) : Option Nat :=
  if 0x1000000 ≤ off ∧ off < 0x9000000 then some ((off - 0x1000000) / 0x80000) else none

/-- The default rule: memory of the partition's clusters and registers inside their windows. -/
def Dev.protDefault (d : Dev) (p da : Nat) : Bool :=
  if da < 2 ^ 47 then d.partOf (da / 2 ^ 31) == some p
  else (offCluster (da % 2 ^ 28)).any (fun g => d.partOf g == some p)

/-- Whether partition protection, in the bank `b` that a request carries, allows it for a partition to a line; a second matching
region is noted. An access without a partition is refused (R451). -/
def Dev.protAt (d : Dev) (b : Nat) (part : Option Nat) (da : Nat) (write : Bool) : Bool × Dev :=
  match part with
  | none => (false, d)
  | some p =>
    match (List.range 128).filter (d.protHas b p da) with
    | [] => (d.protDefault p da, d)
    | r :: more =>
      let perm := d.bankAt b PART_PROTr_CTRL.PERM 0 r
      (if write then decide (2 ≤ perm) else decide (1 ≤ perm),
       if more.isEmpty then d else d.wr PART_STAT.PROT_MULTI 1)

/-- The same for a request that half `h` issues now. -/
def Dev.prot (d : Dev) (h : Nat) (part : Option Nat) (da : Nat) (write : Bool) : Bool × Dev := d.protAt (d.epochBank h) part da write

/-- Protection of an access by core `c`'s program or channels, issued under bank `b`: a core that runs a step writes memory
only in its run's region (R480). -/
def Dev.protCoreAt (d : Dev) (b c da : Nat) (write : Bool) : Bool × Dev :=
  let outside := match FMap.find d.chkRuns c with
    | some r => write && decide (da < 2 ^ 47) && !(decide (r.base ≤ da) && decide (da < r.base + r.bytes))
    | none => false
  if outside then (false, d) else d.protAt b (d.corePart c) da write

/-- The same for an access that is issued now. -/
def Dev.protCore (d : Dev) (c da : Nat) (write : Bool) : Bool × Dev := d.protCoreAt (d.epochBank (coreHalf c)) c da write

/-! ### Raw storage -/

/-- `n` bytes of memory from `da`, little-endian. -/
def Dev.mrd (d : Dev) (da : Nat) : Nat → Nat
  | 0 => 0
  | n + 1 => (FMap.get d.mem 0 da).toNat + 256 * Dev.mrd d (da + 1) n

def Dev.mput (d : Dev) (da : Nat) (v : Byte) : Dev := { d with mem := FMap.put d.mem 0 da v }

/-- Store `n` bytes, little-endian. -/
def Dev.mwrN (d : Dev) (da v : Nat) : Nat → Dev
  | 0 => d
  | n + 1 => Dev.mwrN (d.mput da (BitVec.ofNat 8 v)) (da + 1) (v / 256) n

/-! ### Block check values (R473-R475) -/

def crcBit (poly : W32) (c : W32) : W32 := if c.getLsbD 0 then (c >>> 1) ^^^ poly else c >>> 1
def crcByte (c : W32) (b : Byte) : W32 :=
  let x := c ^^^ b.setWidth 32
  iter 8 (fun _ v => crcBit 0x82F63B78 v) x
/-- CRC-32C over bytes (R473). -/
def crc32c (bs : List Byte) : W32 := (bs.foldl crcByte 0xFFFFFFFF) ^^^ 0xFFFFFFFF

/-- The `n` bytes of a number, least significant first. -/
def bytesOf (v : Nat) : Nat → List Byte
  | 0 => []
  | n + 1 => BitVec.ofNat 8 v :: bytesOf (v / 256) n

/-- The check value of a block's data at a DA. -/
def blockCheck (da data : Nat) : W32 := crc32c (bytesOf data 4096 ++ bytesOf da 6 ++ [0, 0])

/-- The mark on the block of a DA. -/
def Dev.blkOf (d : Dev) (da : Nat) : Option BlkMark := FMap.find d.blk (da / 4096)
def Dev.poisoned (d : Dev) (da : Nat) : Bool := d.blkOf da == some .poison
def Dev.setPoison (d : Dev) (da : Nat) : Dev := { d with blk := FMap.set d.blk (da / 4096) .poison }
def Dev.clearBlk (d : Dev) (da : Nat) : Dev := { d with blk := FMap.del d.blk (da / 4096) }

/-! ### The code on words (R258, R259) -/

/-- Multiply by α in GF(2^8) with x^8 + x^4 + x^3 + x^2 + 1. -/
def gfX (a : Nat) : Nat := if a < 128 then 2 * a else (2 * a) ^^^ 0x11D
def gfMulAux : Nat → Nat → Nat → Nat
  | 0, _, _ => 0
  | k + 1, a, b => (if b % 2 = 1 then a else 0) ^^^ gfMulAux k (gfX a) (b / 2)
def gfMul (a b : Nat) : Nat := gfMulAux 8 a b
/-- α^k. -/
def gfPow (k : Nat) : Nat := iter k (fun _ a => gfX a) 1

/-- Syndrome j of 41 symbols, the first the highest power (Horner's rule). -/
def syndrome (syms : List Nat) (j : Nat) : Nat := syms.foldl (fun s c => gfMul s (gfPow j) ^^^ c) 0

/-- What a decode finds: 0 clean, 1 corrected (position 0-40 and value), 2 uncorrectable, 3 fell on a fold symbol. -/
structure Dec where
  kind : Nat
  pos : Nat
  val : Nat
  deriving DecidableEq, Repr

/-- Decode 41 symbols: five fold, 32 data, four check (R258, R259). -/
def rsDecode (syms : List Nat) : Dec :=
  let s0 := syndrome syms 0
  let s1 := syndrome syms 1
  let s2 := syndrome syms 2
  let s3 := syndrome syms 3
  if s0 = 0 ∧ s1 = 0 ∧ s2 = 0 ∧ s3 = 0 then ⟨0, 0, 0⟩
  else
    match (List.range 41).find? (fun p =>
      let x := gfPow (40 - p)
      s0 != 0 && gfMul s0 x == s1 && gfMul s1 x == s2 && gfMul s2 x == s3) with
    | none => ⟨2, 0, 0⟩
    | some p => if p < 5 then ⟨3, p, s0⟩ else ⟨1, p, s0⟩

/-- The four check symbols that make 37 symbols a code word: the remainder by the generator polynomial. -/
def rsEncode (syms : List Nat) : List Nat :=
  -- (x+1)(x+α)(x+α²)(x+α³) = x⁴ + g3 x³ + g2 x² + g1 x + g0
  let mulRoot (p : List Nat) (r : Nat) : List Nat :=
    (List.range (p.length + 1)).map (fun i => p.getD i 0 ^^^ (if i = 0 then 0 else gfMul r (p.getD (i - 1) 0)))
  let g := [0, 1, 2, 3].foldl (fun p k => mulRoot p (gfPow k)) [1]
  syms.foldl (fun r s =>
    let f := s ^^^ r.getD 0 0
    (List.range 4).map (fun i => r.getD (i + 1) 0 ^^^ gfMul f (g.getD (i + 1) 0))) [0, 0, 0, 0]

/-- The five fold symbols of a DA (R258). -/
def foldSyms (da : Nat) : List Nat :=
  [da / 2 ^ 5 % 256, da / 2 ^ 13 % 256, da / 2 ^ 21 % 256, da / 2 ^ 29 % 256, da / 2 ^ 37 % 4]

/-- The 36 stored symbols of a number, data first. -/
def symsOf (v n : Nat) : List Nat := (List.range n).map (fun i => v / 256 ^ i % 256)

/-- Decode an error pattern over the stored symbols: the code is linear, so the pattern alone decides (R259). -/
def decodePattern (e : BitVec 288) : Dec :=
  if e = 0 then ⟨0, 0, 0⟩ else rsDecode ([0, 0, 0, 0, 0] ++ symsOf e.toNat 36)

/-! ### Slice controllers -/

def Dev.slice (d : Dev) (n : Nat) : SliceSt := FMap.get d.slices SliceSt.init n
def Dev.updSlice (d : Dev) (n : Nat) (f : SliceSt → SliceSt) : Dev :=
  { d with slices := FMap.upd d.slices SliceSt.init n f }

/-- Spare rows left in a bank, 16 less those in use, and the lowest free one (R264). -/
def SliceSt.spareLeft (s : SliceSt) (bank : Nat) : Nat := 16 - (FMap.get s.spareUsed [] bank).length
def SliceSt.freeSpare (s : SliceSt) (bank : Nat) : Option Nat :=
  (List.range 16).find? (fun i => !(FMap.get s.spareUsed [] bank).contains i)

/-- The lowest free entry of the volatile remap table, and how many entries are in use (R264). -/
def Dev.freeRemap (d : Dev) (n : Nat) : Option Nat := (List.range 32).find? (fun i => !d.bit CORE_SLC_REMAP.VALID n i)
def Dev.remapHeld (d : Dev) (n : Nat) : Nat := ((List.range 32).filter (fun i => d.bit CORE_SLC_REMAP.VALID n i)).length

/-- The entry of the volatile remap table that holds row `key` of slice `n`. -/
def Dev.remapAt (d : Dev) (n key : Nat) : Option Nat :=
  (List.range 32).find? (fun i => d.bit CORE_SLC_REMAP.VALID n i && d.rd CORE_SLC_REMAP.LAYER n i == key / 512 / 16 &&
    d.rd CORE_SLC_REMAP.BANK n i == key / 512 % 16 && d.rd CORE_SLC_REMAP.ROW n i == key % 512)

/-- Rows of a bank that the layers' own fuses map to a spare, at the factory or by a COMMIT (R65, R265). -/
def Dev.fusedRows (d : Dev) (n bank : Nat) : List (Nat × Nat) :=
  ((d.part.rows.filter (fun e => e.1 == n * 128 + bank)).map Prod.snd) ++ FMap.get d.ppr [] (n * 128 + bank)

/-- PLAIN_MIN or PIM_MIN falls to the spare rows left in a bank, where it was higher (R55). -/
def Dev.noteSpares (d : Dev) (n bank : Nat) : Dev :=
  let f := if bank < 96 then DARN_CORE_SPARE.PLAIN_MIN else DARN_CORE_SPARE.PIM_MIN
  d.wr f (min (d.rd f 0 n) ((d.slice n).spareLeft bank)) 0 n

/-- Unit ID of the bank of a row. -/
def unitRow (n key : Nat) : Nat := unitBank n (key / 512 / 16) (key / 512 % 16)

/-- Mark a row for repair (R264, R266): the lowest free spare of its bank is taken and the copy begins. `key` numbers the
row in the slice of core `n`. A row already in the remap table keeps its entry. A marking during the copy is ignored. -/
def Dev.markRow (d : Dev) (n key : Nat) : Dev :=
  let s := d.slice n
  let bank := key / 512
  let due := (s.copying.filter (fun c => (d.remapAt n c.1).isNone)).length
  if s.unrepaired.contains key || s.copying.any (fun c => c.1 == key) then d
  else
    match (if (d.remapAt n key).isSome || decide (d.remapHeld n + due < 32) then s.freeSpare bank else none) with
    | none => ((d.updSlice n (fun s => { s with unrepaired := key :: s.unrepaired })).err 6 8 (unitRow n key) 0).replace
    | some spare =>
      d.updSlice n (fun s => { s with spareUsed := FMap.upd s.spareUsed [] bank (fun l => spare :: l),
                                      copying := s.copying ++ [(key, spare)] })

/-- Words of row `key` of slice `n` that the code corrects are correct from here on (R264). -/
def Dev.fixRow (d : Dev) (n key : Nat) : Dev :=
  { d with badw := d.badw.filter (fun e => !(daCore (e.1 * 32) == n && rowKey (daOff (e.1 * 32)) == key &&
                                             (decodePattern e.2).kind == 1)) }

/-- The copy of a row into its spare ends (R264): correctable words were copied corrected, the row enters the volatile
remap table, the change is queued and recorded, and the map shows it. -/
def Dev.rowCopied (d : Dev) (n key : Nat) : Dev :=
  match (d.slice n).copying.find? (fun c => c.1 == key) with
  | none => d
  | some c =>
    let bank := key / 512
    let old := d.remapAt n key
    let i := old.getD ((d.freeRemap n).getD 0)
    let new := old.isNone && !(d.fusedRows n bank).any (fun r => r.1 == key % 512)
    let d := (d.updSlice n (fun s => { s with copying := s.copying.filter (fun c => c.1 != key) })).fixRow n key
    let d := d.wr CORE_SLC_REMAP.VALID 1 n i
    let d := d.wr CORE_SLC_REMAP.LAYER (bank / 16) n i
    let d := d.wr CORE_SLC_REMAP.BANK (bank % 16) n i
    let d := d.wr CORE_SLC_REMAP.SPARE c.2 n i
    let d := d.wr CORE_SLC_REMAP.ROW (key % 512) n i
    let d := (d.darnPend 7 (unitRow n key) (key % 512)).1
    let d := (d.wr DARN_CORE_SPARE.REMAP_HELD (d.remapHeld n) 0 n).noteSpares n bank
    let d := (if new then d.add DARN_CORE_SPARE.ROWS_REPAIRED 1 0 n else d).mapChange (unitRow n key)
    if (d.freeRemap n).isNone then (d.wr CORE_SLC_STAT.REMAP_FULL 1 n).replace else d

/-- An access to `n` bytes from `da`, within one slice, waits for the copy of a row that it touches (R264, R279): the copy
ends before the access is served. -/
def Dev.rowWait (d : Dev) (da n : Nat) : Dev :=
  (d.slice (daCore da)).copying.foldl (fun d c =>
    if (List.range (n / 32 + 2)).any (fun i => decide (i * 32 < n + da % 32) &&
        rowKey (daOff (da / 32 * 32 + i * 32)) == c.1) then d.rowCopied (daCore da) c.1 else d) d

/-- Count a corrected word of a row (R263) and mark the row when its count reaches ROW_LIMIT. -/
def Dev.countRow (d : Dev) (n key : Nat) : Dev :=
  let s := d.slice n
  let old := (s.rowCnt.find? (fun r => r.1 == key)).map Prod.snd
  let least := s.rowCnt.foldl (fun m r => min m r.2) (2 ^ 32)
  let victim := (s.rowCnt.find? (fun r => r.2 == least)).map Prod.fst
  let rows := match old with
    | some k => s.rowCnt.map (fun r => if r.1 == key then (key, k + 1) else r)
    | none => (if s.rowCnt.length < 64 then s.rowCnt
               else s.rowCnt.filter (fun r => some r.1 != victim)) ++ [(key, 1)]
  let d := d.updSlice n (fun s => { s with rowCnt := rows })
  if d.rd CORE_SLC_CTRL.ROW_LIMIT n = old.getD 0 + 1 then d.markRow n key else d

/-- Count a corrected symbol of lane `lane` (R249) and keep the worst lane of R278. -/
def Dev.countLane (d : Dev) (n lane : Nat) : Dev :=
  let s := d.slice n
  let tot := FMap.get s.laneTot 0 lane + 1
  let d := d.updSlice n (fun s => { s with laneCnt := FMap.set s.laneCnt lane (FMap.get s.laneCnt 0 lane + 1),
                                           laneTot := FMap.set s.laneTot lane tot })
  if FMap.get s.laneTot 0 (d.rd CORE_SLC_LANE_WORST.LANE n) < tot then
    (d.wr CORE_SLC_LANE_WORST.LANE lane n).wr CORE_SLC_LANE_WORST.COUNT (min tot 255) n
  else d

/-- The groups that narrow mode uses: the five healthy ones with the lowest numbers (R247). -/
def SliceSt.narrowGroups (s : SliceSt) : List Nat := ((List.range 36).filter (fun g => !s.lostGroups.contains g)).take 5

/-- The logical lane that carries symbol `pos` (0-35) of the word at place `slot` of its frame. In full mode the place is the
lane within the symbol's group (R245); in narrow mode groups 0-3 carry the data symbols of one word each, and the fifth the
four check symbols of each (R247). -/
def Dev.laneOf (d : Dev) (n pos slot : Nat) : Nat :=
  if d.rd CORE_SLC_STAT.MODE n = 1 then
    let gs := (d.slice n).narrowGroups
    if pos < 32 then gs.getD (slot % 4) 0 * 32 + pos else gs.getD 4 0 * 32 + slot % 4 * 4 + (pos - 32)
  else pos * 32 + slot % 32

/-- A corrected word of a row: its counter, and the counts of its lane and row. -/
def Dev.correctedRow (d : Dev) (n key pos slot : Nat) : Dev :=
  ((d.addSat CORE_SLC_CE_CNT.COUNT 1 n).countLane n (d.laneOf n pos slot)).countRow n key

/-- A corrected word at a slice offset: `pos` is the corrected symbol and `slot` the word's place in its frame. -/
def Dev.correctedWord (d : Dev) (n off pos slot : Nat) : Dev := d.correctedRow n (rowKey off) pos slot

/-- Steps 2 to 5 of R261 for a word of row `key`, recorded with the DA of its word. -/
def Dev.uncorrectableRow (d : Dev) (da key op : Nat) : Dev :=
  let n := daCore da
  let d := d.setPoison da
  let d := d.err 2 op (unitRow n key) (da / 32 * 32)
  let d := d.addSat CORE_SLC_UE_CNT.COUNT 1 n
  let d := if d.bit CORE_SLC_STAT.UE_SEEN n then d else d.wr CORE_SLC_UE_ADDR.DA (da / 32 * 32) n
  (d.wr CORE_SLC_STAT.UE_SEEN 1 n).markRow n key

/-- Steps 2 to 5 of R261 for the word of a DA. -/
def Dev.uncorrectable (d : Dev) (da : Nat) (op : Nat := 1) : Dev := d.uncorrectableRow da (rowKey (daOff da)) op

/-- What a memory read returns: the value, whether a word of it is uncorrectable, whether its block is poisoned. -/
structure MRes where
  val : Nat
  ue : Bool
  poison : Bool
  deriving DecidableEq, Repr

/-- The data part of an error pattern. -/
def patData (e : BitVec 288) : Nat := e.toNat % 2 ^ 256

/-- Read one aligned 32 B word, decoded under the code (R259-R261). `flips` are symbols disturbed on this read;
`again` are those disturbed on the second read of R260; `slot` is the word's place in its frame. A word that decodes as
uncorrectable reads so until it is written whole. -/
def Dev.readWord (d : Dev) (da : Nat) (flips again : BitVec 288 := 0) (slot : Nat := 0) (op : Nat := 1) :
    MRes × Dev :=
  let d := d.rowWait da 1
  let w := da / 32 * 32
  let stored := FMap.get d.badw 0 (da / 32)
  let raw := d.mrd w 32
  let p := d.poisoned da
  let e1 := stored ^^^ flips
  let dec1 := decodePattern e1
  let retry := dec1.kind ≥ 2 && d.bit CORE_SLC_CTRL.RETRY (daCore da)
  let e := if retry then stored ^^^ again else e1
  let dec := if retry then decodePattern e else dec1
  if dec.kind = 0 then (⟨raw ^^^ patData e, false, p⟩,
    if retry then d.addSat CORE_SLC_CE_CNT.COUNT 1 (daCore da) else d)
  else if dec.kind = 1 then
    -- the corrected symbol is dec.pos - 5 of the stored 36
    let fixed := e.toNat ^^^ (dec.val * 256 ^ (dec.pos - 5))
    (⟨raw ^^^ (fixed % 2 ^ 256), false, p⟩, d.correctedWord (daCore da) (daOff da) (dec.pos - 5) slot)
  else (⟨raw ^^^ patData e, true, true⟩, { d with badw := FMap.set d.badw (da / 32) e }.uncorrectable da op)

/-- Bytes that pass the Wings port, when it serves slice `n` (R269, R271). -/
def Dev.countWings (d : Dev) (n bytes : Nat) : Dev :=
  if d.orphan n then d.add CL_WINGS_BYTES.BYTES bytes (n / 16) else d

/-- Bytes read from or written to slice `n` over its bond (R278), which pass the Wings port when it serves the slice. -/
def Dev.countBytes (d : Dev) (f : Fld) (n bytes : Nat) : Dev := (d.add f bytes n).countWings n bytes

/-- Read `n` bytes that lie in one slice, word by word (the direct path of R282), for an operation code of R492. -/
def Dev.readBytesAux (op : Nat) (d : Dev) (da n : Nat) : Nat → MRes × Dev
  | 0 => (⟨0, false, false⟩, d)
  | fuel + 1 =>
    if n = 0 then (⟨0, false, false⟩, d)
    else
      let o := da % 32
      let k := min n (32 - o)
      let r := d.readWord da 0 0 0 op
      let rest := Dev.readBytesAux op r.2 (da + k) (n - k) fuel
      (⟨r.1.val / 256 ^ o % 256 ^ k + 256 ^ k * rest.1.val, r.1.ue || rest.1.ue, r.1.poison || rest.1.poison⟩, rest.2)

def Dev.readDirect (d : Dev) (da n : Nat) (op : Nat := 1) : MRes × Dev :=
  let r := Dev.readBytesAux op d da n (n / 32 + 2)
  (r.1, r.2.countBytes CORE_SLC_RD_BYTES.BYTES (daCore da) n)

/-- The stored check value of the block of a DA (R473-R475). -/
def Dev.chkOf (d : Dev) (da : Nat) : W32 :=
  let b := da / 4096 * 4096
  match d.blkOf da with
  | some .poison => 0xA5C33C5A
  | some (.off e) => blockCheck b (d.mrd b 4096) ^^^ e
  | none => blockCheck b (d.mrd b 4096)

/-- A block whose check value has become the poison pattern is a poisoned block (R474). -/
def Dev.notePoison (d : Dev) (da : Nat) : Dev := if d.chkOf da = 0xA5C33C5A then d.setPoison da else d

/-- Store `n` bytes: a word covered whole stores new check symbols and is correctable again (R261); a partial write
leaves an uncorrectable word uncorrectable. Check values follow the old and new bytes (R229), so marks stay. -/
def Dev.storeIn (d : Dev) (da n v : Nat) : Dev :=
  let d := (d.rowWait da n).mwrN da v n
  let d := { d with badw := d.badw.filter (fun e => !(decide (da ≤ e.1 * 32) && decide (e.1 * 32 + 32 ≤ da + n))) }
  (d.notePoison da).notePoison (da + n - 1)

/-- A store that crosses the bond. -/
def Dev.store (d : Dev) (da n v : Nat) : Dev := (d.storeIn da n v).countBytes CORE_SLC_WR_BYTES.BYTES (daCore da) n

/-- A whole block arrives with a check value (R261, R324): the block takes it. `poison` stores the poison pattern. -/
def Dev.storeBlock (d : Dev) (da v : Nat) (poison : Bool) : Dev :=
  let d := d.clearBlk da
  if poison then (d.store da 4096 v).setPoison da else d.store da 4096 v

end Sys2Proof.Machine
end

