-- ==== Sys2Proof/Machine/Numbers.lean ====
section
/-! DEFINITION. Number formats (R112-R126): exact values, decoding, rounding and encoding, arithmetic with one rounding. -/
namespace Sys2Proof.Machine
open Sys2Proof

/-- An exact value of the device's arithmetic: NaN, an infinity, or a signed m · 2^e (zero keeps its sign). -/
inductive Num where
  | nan
  | inf (neg : Bool)
  | fin (neg : Bool) (m : Nat) (e : Int)
  deriving DecidableEq, Repr

/-- A binary format of R115: exponent bits, mantissa bits, bias and special encodings
(0 none, 1 infinities and NaNs of IEEE 754, 2 the single NaN of E4M3). -/
structure FFmt where
  ew : Nat
  mw : Nat
  bias : Nat
  special : Nat
  deriving DecidableEq, Repr

/-- Whether a FORMAT code is a floating-point format, and its layout (R112, R115). -/
def ffmt : Nat → Option FFmt
  | 0 => some ⟨8, 23, 127, 1⟩
  | 1 => some ⟨8, 7, 127, 1⟩
  | 2 => some ⟨5, 10, 15, 1⟩
  | 3 => some ⟨4, 3, 7, 2⟩
  | 4 => some ⟨5, 2, 15, 1⟩
  | 5 => some ⟨3, 2, 3, 0⟩
  | 6 => some ⟨2, 3, 1, 0⟩
  | 7 => some ⟨2, 1, 1, 0⟩
  | _ => none

/-- Element size in bytes of a FORMAT code; 0 for a reserved one (R112). -/
def elemSize : Nat → Nat
  | 0 => 4
  | 1 => 2
  | 2 => 2
  | 3 => 1
  | 4 => 1
  | 5 => 1
  | 6 => 1
  | 7 => 1
  | 8 => 1
  | 9 => 4
  | 10 => 1
  | 11 => 32
  | 12 => 32
  | _ => 0

/-- Values per element (R112, R113). -/
def valsPerElem (f : Nat) : Nat := if f = 7 then 2 else 1

/-- The value of an encoding of a floating-point format (R115). -/
def FFmt.decode (f : FFmt) (v : Nat) : Num :=
  let s := v / 2 ^ (f.ew + f.mw) % 2 == 1
  let ex := v / 2 ^ f.mw % 2 ^ f.ew
  let m := v % 2 ^ f.mw
  if f.special = 1 ∧ ex = 2 ^ f.ew - 1 then (if m = 0 then .inf s else .nan)
  else if f.special = 2 ∧ ex = 2 ^ f.ew - 1 ∧ m = 2 ^ f.mw - 1 then .nan
  else if ex = 0 then .fin s m (1 - f.bias - f.mw)
  else .fin s (2 ^ f.mw + m) ((ex : Int) - f.bias - f.mw)

/-- A signed integer as a value. -/
def Num.ofInt (x : Int) : Num := .fin (decide (x < 0)) x.natAbs 0

/-- The value of an encoding of a FORMAT code (R115, R116); `w` bits are read by the caller. -/
def decodeNum (fmt v : Nat) : Num :=
  match ffmt fmt with
  | some f => f.decode v
  | none =>
    if fmt = 8 then Num.ofInt (if v % 256 < 128 then (v % 256 : Nat) else (v % 256 : Nat) - 256)
    else if fmt = 9 then Num.ofInt (if v % 2 ^ 32 < 2 ^ 31 then (v % 2 ^ 32 : Nat) else (v % 2 ^ 32 : Nat) - 2 ^ 32)
    else if v % 256 = 255 then .nan else .fin false 1 ((v % 256 : Nat) - 127)

/-- m / 2^k rounded to nearest, ties to even (R118). -/
def rne (m k : Nat) : Nat :=
  let q := m / 2 ^ k
  let r := m % 2 ^ k
  if k = 0 then m
  else if 2 ^ (k - 1) < r ∨ (r = 2 ^ (k - 1) ∧ q % 2 = 1) then q + 1 else q

/-- Round m · 2^e to a multiple of 2^q. -/
def roundAt (m : Nat) (e q : Int) : Nat := if q ≤ e then m * 2 ^ (e - q).toNat else rne m (q - e).toNat

/-- The canonical NaN of a format (R119, R122). -/
def nanCode : Nat → Nat
  | 0 => 0x7FC00000
  | 1 => 0x7FC0
  | 2 => 0x7E00
  | 3 => 0x7F
  | 4 => 0x7E
  | 10 => 0xFF
  | _ => 0

/-- Encoding of the largest finite magnitude (R115). -/
def maxCode (f : FFmt) : Nat :=
  if f.special = 1 then (2 ^ f.ew - 1) * 2 ^ f.mw - 1
  else if f.special = 2 then 2 ^ (f.ew + f.mw) - 2
  else 2 ^ (f.ew + f.mw) - 1

/-- Finite overflow of a format: saturate, infinity or NaN, by R119 (`sat`: FP8 saturate mode). -/
def overflowCode (fmt : Nat) (f : FFmt) (sat neg : Bool) : Nat :=
  let s := if neg then 2 ^ (f.ew + f.mw) else 0
  if fmt ≤ 2 then s + (2 ^ f.ew - 1) * 2 ^ f.mw
  else if fmt ≤ 4 then (if sat then s + maxCode f else nanCode fmt)
  else s + maxCode f

/-- What an infinity converts to (R119). -/
def infCode (fmt : Nat) (f : FFmt) (sat neg : Bool) : Nat :=
  let s := if neg then 2 ^ (f.ew + f.mw) else 0
  if f.special = 1 then s + (2 ^ f.ew - 1) * 2 ^ f.mw
  else if f.special = 2 then (if sat then s + maxCode f else nanCode fmt)
  else s + maxCode f

/-- Round a finite value to a floating-point format (R118, R119). -/
def FFmt.encodeFin (fmt : Nat) (f : FFmt) (sat neg : Bool) (m : Nat) (e : Int) : Nat :=
  let emin : Int := 1 - f.bias - f.mw
  let s := if neg then 2 ^ (f.ew + f.mw) else 0
  if m = 0 then s
  else
    let q := max ((Nat.log2 m : Int) + e - f.mw) emin
    let r := roundAt m e q
    -- the magnitude's code: subnormals and normals number consecutively
    let code := if r < 2 ^ f.mw then r else ((q - emin).toNat) * 2 ^ f.mw + r
    if maxCode f < code then overflowCode fmt f sat neg else s + code

/-- Round a finite value to an integer, ties to even. -/
def roundInt (neg : Bool) (m : Nat) (e : Int) : Int :=
  let r := roundAt m e 0
  if neg then -(r : Int) else r

/-- Saturate to a two's-complement width and encode (R119). -/
def satInt (bits : Nat) (x : Int) : Nat :=
  let hi : Int := 2 ^ (bits - 1) - 1
  let lo : Int := -(2 ^ (bits - 1))
  ((max lo (min hi x)) % (2 ^ bits)).toNat

/-- Convert an exact value to the encoding of a format (R118, R119); `sat` is the FP8 conversion mode. -/
def encodeNum (fmt : Nat) (sat : Bool) (x : Num) : Nat :=
  match ffmt fmt with
  | some f =>
    match x with
    | .nan => nanCode fmt
    | .inf s => infCode fmt f sat s
    | .fin s m e => f.encodeFin fmt sat s m e
  | none =>
    let bits := if fmt = 9 then 32 else 8
    match x with
    | .nan => 0
    | .inf s => satInt bits (if s then -(2 ^ 40) else 2 ^ 40)
    | .fin s m e => satInt bits (roundInt s m e)

/-- A value rounded once to FP32 (R143). -/
def roundF32 (x : Num) : Num := decodeNum 0 (encodeNum 0 true x)

/-! ### Exact arithmetic (R121-R123) -/

def Num.isNan : Num → Bool
  | .nan => true
  | _ => false
def Num.isFin : Num → Bool
  | .fin _ _ _ => true
  | _ => false
def Num.isZero : Num → Bool
  | .fin _ m _ => m == 0
  | _ => false
def Num.isNeg : Num → Bool
  | .nan => false
  | .inf s => s
  | .fin s _ _ => s
def Num.neg : Num → Num
  | .nan => .nan
  | .inf s => .inf (!s)
  | .fin s m e => .fin (!s) m e
def Num.abs : Num → Num
  | .nan => .nan
  | .inf _ => .inf false
  | .fin _ m e => .fin false m e

/-- Multiply by 2^k. -/
def Num.scale (k : Int) : Num → Num
  | .fin s m e => .fin s m (e + k)
  | x => x

/-- Exact product; 0 × ∞ is NaN. -/
def Num.mul (x y : Num) : Num :=
  match x, y with
  | .nan, _ => .nan
  | _, .nan => .nan
  | .inf s, y => if y.isZero then .nan else .inf (s != y.isNeg)
  | x, .inf s => if x.isZero then .nan else .inf (s != x.isNeg)
  | .fin s m e, .fin s' m' e' => .fin (s != s') (m * m') (e + e')

/-- The integer a finite value is in units of 2^q (`q` no higher than its exponent). -/
def Num.units (q : Int) : Num → Int
  | .fin s m e => if s then -((m * 2 ^ (e - q).toNat : Nat) : Int) else ((m * 2 ^ (e - q).toNat : Nat) : Int)
  | _ => 0

/-- The lowest exponent among finite values. -/
def minExp (xs : List Num) : Int :=
  xs.foldl (fun a x => match x with
    | .fin _ m e => if m = 0 then a else min a e
    | _ => a) 0

/-- The exact sum of a list of values, as IEEE 754 gives it: NaN if a term is NaN or infinities differ in sign; an
exact zero is negative only when every term is a negative zero. -/
def Num.sum (xs : List Num) : Num :=
  if xs.any Num.isNan then .nan
  else if xs.any (fun x => x = .inf true) then (if xs.any (fun x => x = .inf false) then .nan else .inf true)
  else if xs.any (fun x => x = .inf false) then .inf false
  else
    let q := minExp xs
    let t : Int := xs.foldl (fun (a : Int) x => a + (if x.isZero then 0 else x.units q)) 0
    if t = 0 then .fin (!xs.isEmpty && xs.all (fun x => x.isZero && x.isNeg)) 0 0
    else .fin (decide (t < 0)) t.natAbs q

def Num.add (x y : Num) : Num := Num.sum [x, y]

/-- x < y for values that are not NaN. -/
def Num.lt (x y : Num) : Bool :=
  match x, y with
  | .nan, _ => false
  | _, .nan => false
  | .inf s, .inf s' => s && !s'
  | .inf s, _ => s
  | _, .inf s => !s
  | x, y =>
    let q := minExp [x, y]
    decide ((if x.isZero then 0 else x.units q) < (if y.isZero then 0 else y.units q))

/-- Equality of values: zeros of either sign are equal, NaN equals nothing. -/
def Num.eqv (x y : Num) : Bool := !x.isNan && !y.isNan && !Num.lt x y && !Num.lt y x

/-! ### MX block scaling (R124-R126) -/

/-- The exponent a scale code gives; none for 0xFF (R125). -/
def scaleExp (code : Nat) : Option Int := if code % 256 = 255 then none else some ((code % 256 : Nat) - 127)

/-- A value of an MX block (R125). -/
def mxValue (fmt code : Nat) (x : Num) : Num :=
  match scaleExp code with
  | none => .nan
  | some k => x.scale (if fmt = 8 then k - 6 else k)

/-- The largest exponent of an element format (R126). -/
def mxEmax : Nat → Int
  | 3 => 8
  | 4 => 15
  | 5 => 4
  | 6 => 2
  | 7 => 2
  | _ => 0

/-- floor(log2) of a finite non-zero magnitude. -/
def Num.floorLog2 : Num → Int
  | .fin _ m e => (Nat.log2 m : Int) + e
  | _ => 0

/-- The larger of two magnitudes. -/
def maxMag (a b : Num) : Num := if Num.lt a b.abs then b.abs else a

/-- The scale code and element codes a unit writes for the values of one block (R126). -/
def mxEncode (fmt : Nat) (xs : List Num) : Nat × List Nat :=
  if xs.any (fun x => !x.isFin) then (0xFF, xs.map (fun _ => 0))
  else
    let a := xs.foldl maxMag (.fin false 0 0)
    if a.isZero then (0, xs.map (fun _ => 0))
    else
      let x := max (-127) (min 127 (a.floorLog2 - mxEmax fmt))
      ((x + 127).toNat, xs.map (fun v => encodeNum fmt true (v.scale (if fmt = 8 then 6 - x else -x))))

end Sys2Proof.Machine
end

