-- ==== Sys2Proof/Machine/Slice.lean ====
section
/-! DEFINITION. Commands of the slice controllers: reads, refresh, scrub, row and lane repair, memory-side adders and
test access (R249, R256, R259-R264, R272-R277). Writes are with the home cache, which they probe. -/
namespace Sys2Proof.Machine
open Sys2Proof

/-! ### Where things lie (R251) -/

/-- Base offset of a layer within a slice (R27). -/
def layerBase (l : Nat) : Nat := if l < 6 then l * 0xC00000 else 0x4800000 + (l - 6) * 0x800000

/-- Slice offset of byte `b` of a row. -/
def rowOff (layer bank row b : Nat) : Nat :=
  if layer < 6 then layerBase layer + row * 32768 + b / 256 * 4096 + bank * 256 + b % 256
  else layerBase layer + bank * 0x80000 + row * 2048 + b

/-- Slice MODE lost (R44): its memory answers as R28 states, with class LOST. -/
def Dev.sliceLost (d : Dev) (n : Nat) : Bool := d.lost n

/-- An access to a memory DA is refused, with this class: it addresses nothing, or its slice is lost (R28, R44). -/
def Dev.daRefused (d : Dev) (da : Nat) : Option Nat :=
  if !daBacked da then some 3 else if d.sliceLost (daCore da) then some 4 else none

/-- The slice of core `n` is lost: R28 applies to its memory, and a replace request is raised. -/
def Dev.loseSlice (d : Dev) (n : Nat) : Dev :=
  let d := (d.setBit DARN_CL_ORPHAN.LOST (n % 16) true 0 (n / 16)).setBit DARN_CL_ORPHAN.ORPHAN (n % 16) false 0 (n / 16)
  (d.wr CORE_SLC_STAT.MODE 2 n).replace

/-! ### Reads -/

/-- The Unit ID under which a refused access is recorded, by requester (R28). -/
def reqUnit : Requester → Nat
  | .core c => unitCore c 0 0
  | .fn f => unitHalf (if f = 1 then 1 else 0) 18 0
  | .queue h _ => unitHalf h 18 0
  | .preset => unitDev 25 0
  | .debug => unitHalf 0 18 0

/-- A read of at most 32 B within one word reaches its slice controller (R259). The event brings the symbols disturbed
on this read and on the second read of R260, the word's place in its frame, and whether both copies of a connection of the
command path have failed, which loses the slice (R248). -/
def sliceRead (who : Requester) (da n flips again slot : Nat) (cut : Bool) (d : Dev) : Dev :=
  let refuse := fun (cls : Nat) (d : Dev) => (d.err cls 1 (reqUnit who) da).emit (.errCompletion who da)
  match d.daRefused da with
  | some cls => refuse cls d
  | none =>
    if cut then refuse 4 ((d.loseSlice (daCore da)).mapChange (unitCore (daCore da) 7 0))
    else
      let r := d.readWord da (BitVec.ofNat 288 flips) (BitVec.ofNat 288 again) slot
      let k := min n (32 - da % 32)
      let d := r.2.countBytes CORE_SLC_RD_BYTES.BYTES (daCore da) k
      d.emit (.memData who da k (r.1.val / 256 ^ (da % 32) % 256 ^ k) r.1.ue r.1.poison)

def execSliceRead (who : Requester) (da n flips again slot : Nat) (cut : Bool) (s : State) : Out :=
  act s (sliceRead who da n flips again slot cut)

/-! ### Rows and lanes -/

/-- A row copy ends: the remap entry is in effect and accesses to the row proceed (R264). Row `key` of slice `n`. -/
def execRowCopyDone (n key : Nat) (s : State) : Out := act s (fun d => d.rowCopied n key)

/-- The 1 ms interval of R249 ends. -/
def execLaneIntervalEnd (n : Nat) (s : State) : Out := act s (fun d => d.updSlice n (fun k => { k with laneCnt := [] }))

/-- Group `g` of slice `n` is lost (R43): the healthy groups are one fewer, and the slice goes to narrow mode or, below
five, is lost (R44). A group is lost once. -/
def Dev.dropGroup (d : Dev) (n g : Nat) : Dev :=
  if (d.slice n).lostGroups.contains g then d
  else
    let d := d.updSlice n (fun k => { k with lostGroups := g :: k.lostGroups })
    let good := d.rd DARN_CORE_STATE.GOOD_GROUPS 0 n - 1
    let d := (d.wr DARN_CORE_STATE.GOOD_GROUPS good 0 n).wr CORE_SLC_STAT.GROUPS good n
    if good < 5 then d.loseSlice n else if d.lost n then d else d.wr CORE_SLC_STAT.MODE 1 n

/-- Live repair of a lane (R64, R249): the group's spare takes over, and the change is queued and recorded. -/
def Dev.repairLane (d : Dev) (n lane : Nat) : Dev :=
  let unit := unitCore n 7 0
  let d := d.updSlice n (fun k => { k with spareLane := FMap.set k.spareLane (lane / 32) lane,
                                           laneCnt := FMap.del k.laneCnt lane })
  let d := d.wr CORE_SLC_STAT.LANE_FIX 1 n
  let d := d.add DARN_CORE_STATE.BOND_USED 1 0 n
  (d.darnPend 4 unit lane).1.mapChange unit

/-- The spare of a lane's group is in use (R41): taken at the factory, by an entry of the log, by training or live. -/
def Dev.spareLaneUsed (d : Dev) (n lane : Nat) : Bool := (FMap.find (d.slice n).spareLane (lane / 32)).isSome

/-! ### Refresh and scrub -/

/-- A refresh falls due and refreshes one row (R256). It changes no data; a near-bank command in the bank pauses for it
(R234), which is time only. -/
def execRefresh (_n _layer _bank _row : Nat) (s : State) : Out := act s (fun d => d)

/-- The row that holds the check value of the block of a DA. R250 gives each bank one check row and neither numbers the
rows nor places the values: the model takes the row after the data and spare rows, of the bank that the block's number
names in L0-L5, of the block's own bank in L6 and L7 (DESIGN CHOICE, log entry 64). -/
def checkKey (da : Nat) : Nat :=
  let off := daOff da
  let l := layerOf off
  if l < 6 then (l * 16 + da / 4096 % 16) * 512 + 400 else (l * 16 + bankOf off) * 512 + 272

/-- A scrub read of the word of a DA (R262): a corrected word is written back, an uncorrectable one takes steps 2 to 5
of R261. -/
def Dev.scrubWord (d : Dev) (da flips again slot : Nat) : Dev :=
  let bad := decodePattern (FMap.get d.badw 0 (da / 32) ^^^ BitVec.ofNat 288 flips) != ⟨0, 0, 0⟩
  let r := d.readWord da (BitVec.ofNat 288 flips) (BitVec.ofNat 288 again) slot 4
  let d := r.2.add CORE_SLC_RD_BYTES.BYTES 32 (daCore da)
  if r.1.ue || !bad then d
  else { d.add CORE_SLC_WR_BYTES.BYTES 32 (daCore da) with badw := FMap.del d.badw (da / 32) }

/-- A scrub read of the check-row word that holds the check value of the block of a DA (R262). An uncorrectable one takes
steps 2 to 5 of R261 for that block: its check value becomes the poison pattern. -/
def Dev.scrubCheck (d : Dev) (da flips again slot : Nat) : Dev :=
  let n := daCore da
  let d := d.add CORE_SLC_RD_BYTES.BYTES 32 n
  let dec1 := decodePattern (BitVec.ofNat 288 flips)
  let retry := dec1.kind ≥ 2 && d.bit CORE_SLC_CTRL.RETRY n
  let dec := if retry then decodePattern (BitVec.ofNat 288 again) else dec1
  if dec.kind = 0 then (if retry then d.addSat CORE_SLC_CE_CNT.COUNT 1 n else d)
  else if dec.kind = 1 then (d.add CORE_SLC_WR_BYTES.BYTES 32 n).correctedRow n (checkKey da) (dec.pos - 5) slot
  else d.uncorrectableRow (da / 4096 * 4096) (checkKey da) 4

/-- The DA that a scrub read is of. -/
def scrubDa : ScrubAt → Nat
  | .word da => da
  | .check da => da

/-- A scrub read falls due (R262). Scrubbing reads words of lost slices no more. `last` says that this read ends a full
pass. -/
def patrolScrub (w : ScrubAt) (flips again slot : Nat) (last : Bool) (d : Dev) : Dev :=
  let n := daCore (scrubDa w)
  if d.bit CORE_SLC_SCRUB.EN n && (d.daRefused (scrubDa w)).isNone then
    let d := match w with | .word da => d.scrubWord da flips again slot | .check da => d.scrubCheck da flips again slot
    if last then d.add CORE_SLC_SCRUB_PASSES.PASSES 1 n else d
  else d

def execPatrolScrub (w : ScrubAt) (flips again slot : Nat) (last : Bool) (s : State) : Out :=
  act s (patrolScrub w flips again slot last)

/-! ### Memory-side adders (R272-R274, R299) -/

def f32Add (a b : Nat) : Nat := encodeNum 0 true (Num.add (decodeNum 0 a) (decodeNum 0 b))
def bf16Add (a b : Nat) : Nat := encodeNum 1 true (Num.add (decodeNum 1 a) (decodeNum 1 b))
def i32Add (a b : Nat) : Nat := (a + b) % 2 ^ 32

/-- Lane by lane addition of `k` lanes of `bytes` bytes, where `mask` selects. -/
def addLanes (f : Nat → Nat → Nat) (bytes : Nat) (mask old opnd : Nat) (k : Nat) : Nat :=
  (List.range k).foldl (fun v j =>
    let lane x := x / 256 ^ (bytes * j) % 256 ^ bytes
    v + (if mask.testBit j then f (lane old) (lane opnd) else lane old) * 256 ^ (bytes * j)) 0

/-- The word's error is one that the code does not correct. -/
def Dev.wordBad (d : Dev) (w : Nat) : Bool := decide (2 ≤ (decodePattern (FMap.get d.badw 0 w)).kind)

/-- An operation of a line reduction, which alone names all 8 lanes, whose line holds an uncorrectable word: the line
reduction ends in error and leaves memory unchanged (R300). -/
def Dev.lineBad (d : Dev) (op : AddOp) : Bool :=
  op.mask == 255 && (List.range 4).any (fun i => d.wordBad (op.da / 128 * 4 + i))

/-- What an adder operation finds and does: the word before with its marks, in error where it ends in error. The word crosses the bond both
ways; the operand, and the word before where it is fetched, pass the Wings port of an orphan slice (R269). -/
def Dev.adderRun (d : Dev) (op : AddOp) : MRes × Dev :=
  let n := daCore op.da
  let g := n / 16
  let r := d.readWord op.da 0 0 0 3
  let d := r.2.add CL_ADD_OPS.OPS 1 g
  let d := (d.add CORE_SLC_RD_BYTES.BYTES 32 n).countWings n (if op.fetch then 64 else 32)
  if r.1.ue then (⟨0, true, true⟩, d.wr CL_ADD_STAT.UE_SEEN (d.rd CL_ADD_STAT.UE_SEEN g ||| 2 ^ (n % 16)) g)
  else
    if d.lineBad op then (⟨0, true, r.1.poison⟩, d) else
    let v := addLanes (if op.fp then f32Add else i32Add) 4 op.mask r.1.val op.opnd 8
    let d := (d.storeIn op.da 32 v).add CORE_SLC_WR_BYTES.BYTES 32 n
    (⟨r.1.val, false, r.1.poison⟩, if r.1.poison then d.addSat CL_ADD_POISON.COUNT 1 g else d)

/-- The atomic an adder operation serves takes its result, with the poison mark of its completion (R274). The old value
is the word's lanes the atomic named. -/
def AtomJob.adderDone (a : AtomJob) (r : MRes) : AtomJob :=
  match a.phase with
  | .adder left v code =>
    let code := if r.ue then 0x603 else code
    let v := if a.fn = 12 then v else r.val / 256 ^ (a.da % 32) % 2 ^ 32
    { a with phase := if left ≤ 1 then .done v code else .adder (left - 1) v code, poison := a.poison || r.poison }
  | _ => a

/-- The adder of slice `n` performs its oldest operation (R273). -/
def adderOp (n : Nat) (d : Dev) : Dev :=
  match (d.slice n).addq with
  | [] => d
  | op :: rest =>
    let d := d.updSlice n (fun k => { k with addq := rest })
    let r := d.adderRun op
    r.2.updCore op.core (fun k =>
      { k with atomq := k.atomq.map (fun a => if a.aid == op.aid then a.adderDone r.1 else a) })

/-- Operations queued at the adder of slice `n` for a line. -/
def Dev.adderHas (d : Dev) (n line : Nat) : Bool := (d.slice n).addq.any (fun o => o.da / 128 == line)

/-- The adder performs its operations in order until none is left for a line. -/
def Dev.adderUntil (n line : Nat) : Nat → Dev → Dev
  | 0, d => d
  | k + 1, d => if d.adderHas n line then Dev.adderUntil n line k (adderOp n d) else d

def execAdderOp (n : Nat) (s : State) : Out := act s (adderOp n)

/-! ### Test access (R276, R277) -/

/-- The key of a word of a spare or test row. ROWSEL 17-31 read as 16. -/
def rawKey (layer bank rowsel word : Nat) : Nat := ((layer * 16 + bank) * 17 + min rowsel 16) * 64 + word

/-- The row that a spare row serves: by a remap entry, or by the layer's own fuses where no entry has moved the row on
(R264, R265). -/
def Dev.spareHolds (d : Dev) (n layer bank rowsel : Nat) : Option Nat :=
  match (List.range 32).find? (fun i => d.bit CORE_SLC_REMAP.VALID n i && d.rd CORE_SLC_REMAP.LAYER n i == layer &&
    d.rd CORE_SLC_REMAP.BANK n i == bank && d.rd CORE_SLC_REMAP.SPARE n i == rowsel) with
  | some i => some (d.rd CORE_SLC_REMAP.ROW n i)
  | none =>
    let b := layer * 16 + bank
    ((d.fusedRows n b).find? (fun r => r.2 == rowsel && (d.remapAt n (b * 512 + r.1)).isNone)).map Prod.fst

/-- A spare row is in use. -/
def Dev.spareInUse (d : Dev) (n layer bank rowsel : Nat) : Bool :=
  (FMap.get (d.slice n).spareUsed [] (layer * 16 + bank)).contains rowsel

/-- The 288 stored bits of the word of a DA: data and check symbols, with its stored errors. -/
def Dev.rawOf (d : Dev) (da : Nat) : Nat :=
  let data := d.mrd (da / 32 * 32) 32
  let chk := (rsEncode (foldSyms da ++ symsOf data 32)).foldr (fun s v => v * 256 + s) 0
  ((BitVec.ofNat 288 (data + chk * 2 ^ 256)) ^^^ FMap.get d.badw 0 (da / 32)).toNat

/-- The stored bits of a word of a spare or test row. Test rows are zero at cold boot (R267); what a free spare row
holds before it is first written is a free value. -/
def Dev.rawUnmapped (d : Dev) (n layer bank rowsel word : Nat) : Nat × Dev :=
  match (d.spareHolds n layer bank rowsel).filter (fun r => decide (r < (if layer < 6 then 384 else 256))) with
  | some row => (d.rawOf (sliceDa n (rowOff layer bank row (word * 32))), d)
  | none =>
    match FMap.find (d.slice n).raw (rawKey layer bank rowsel word) with
    | some v => (v.toNat, d)
    | none =>
      if rowsel < 16 then
        let v := d.draw 288
        (v.1.toNat, v.2.updSlice n (fun k => { k with raw := FMap.set k.raw (rawKey layer bank rowsel word) v.1 }))
      else (0, d)

def Dev.setTestData (d : Dev) (n v : Nat) : Dev :=
  (List.range 8).foldl (fun d i => d.wr CORE_SLC_TEST_DATA.DATA (v / 2 ^ (32 * i)) n i) d

def Dev.testData (d : Dev) (n : Nat) : Nat :=
  (List.range 8).foldl (fun v i => v + d.rd CORE_SLC_TEST_DATA.DATA n i * 2 ^ (32 * i)) 0

/-- A test command starts, with the RESULT it will report (1 DONE, 2 REFUSED). -/
def Dev.testStart (d : Dev) (n res : Nat) (f : Dev → Dev) : Dev :=
  if d.bit CORE_SLC_TEST_STAT.BUSY n then d.wr CORE_SLC_TEST_STAT.LOST 1 n
  else
    let d := d.updSlice n (fun k => { k with test := some res })
    let d := d.wr CORE_SLC_TEST_STAT.BUSY 1 n
    if res = 1 then f d else d

def Dev.testNop (d : Dev) (n : Nat) : Dev :=
  if d.bit CORE_SLC_TEST_STAT.BUSY n then d.wr CORE_SLC_TEST_STAT.LOST 1 n else d

/-- A mapped target that addresses nothing, or another slice's memory, is refused. -/
def Dev.testDaOk (d : Dev) (n : Nat) : Bool :=
  let da := d.rd CORE_SLC_TEST_ADDR.DA n
  daBacked da && daCore da == n

def Dev.rawRd (d : Dev) (n : Nat) (unmapped : Bool) (layer bank rowsel word : Nat) : Dev :=
  d.testStart n (if unmapped || d.testDaOk n then 1 else 2) (fun d =>
    let r := if unmapped then d.rawUnmapped n layer bank rowsel word else (d.rawOf (d.rd CORE_SLC_TEST_ADDR.DA n), d)
    (r.2.setTestData n (r.1 % 2 ^ 256)).wr CORE_SLC_TEST_CHK.CHK (r.1 / 2 ^ 256) n)

def Dev.rawWr (d : Dev) (n : Nat) (unmapped : Bool) (layer bank rowsel word : Nat) : Dev :=
  d.testStart n (if unmapped && !d.spareInUse n layer bank rowsel then 1 else 2) (fun d =>
    let v := BitVec.ofNat 288 (d.testData n + d.rd CORE_SLC_TEST_CHK.CHK n * 2 ^ 256)
    d.updSlice n (fun k => { k with raw := FMap.set k.raw (rawKey layer bank rowsel word) v }))

def Dev.decRd (d : Dev) (n : Nat) (unmapped : Bool) (layer bank rowsel word : Nat) : Dev :=
  d.testStart n (if unmapped then 1 else 2) (fun d =>
    let r := d.rawUnmapped n layer bank rowsel word
    let syms := foldSyms (d.rd CORE_SLC_TEST_ADDR.DA n) ++ symsOf r.1 36
    let dec := rsDecode syms
    let fixed := if dec.kind = 1 then r.1 ^^^ (dec.val * 256 ^ (dec.pos - 5)) else r.1
    let syn := (List.range 4).foldl (fun v j => v + syndrome syms j * 256 ^ j) 0
    let d := r.2.setTestData n (fixed % 2 ^ 256)
    let d := d.wr CORE_SLC_TEST_SYN.SYN syn n
    let d := d.wr CORE_SLC_TEST_STAT.DEC dec.kind n
    d.wr CORE_SLC_TEST_STAT.POS (if dec.kind = 0 ∨ dec.kind = 2 then 0 else dec.pos) n)

def Dev.testMarkRow (d : Dev) (n : Nat) (unmapped : Bool) : Dev :=
  d.testStart n (if !unmapped && d.testDaOk n then 1 else 2) (fun d =>
    d.markRow n (rowKey (daOff (d.rd CORE_SLC_TEST_ADDR.DA n))))

def Dev.fixLane (d : Dev) (n : Nat) : Dev :=
  let lane := d.rd CORE_SLC_TEST_ADDR.DA n % 2048
  d.testStart n (if lane < 1152 && !d.spareLaneUsed n lane then 1 else 2) (fun d => d.repairLane n lane)

def execTestNop (n : Nat) (s : State) : Out := act s (fun d => d.testNop n)
def execRawRd (n : Nat) (unmapped : Bool) (layer bank rowsel word : Nat) (s : State) : Out :=
  act s (fun d => d.rawRd n unmapped layer bank rowsel word)
def execRawWr (n : Nat) (unmapped : Bool) (layer bank rowsel word : Nat) (s : State) : Out :=
  act s (fun d => d.rawWr n unmapped layer bank rowsel word)
def execDecRd (n : Nat) (unmapped : Bool) (layer bank rowsel word : Nat) (s : State) : Out :=
  act s (fun d => d.decRd n unmapped layer bank rowsel word)
def execMarkRow (n : Nat) (unmapped : Bool) (s : State) : Out := act s (fun d => d.testMarkRow n unmapped)
def execFixLane (n : Nat) (s : State) : Out := act s (fun d => d.fixLane n)

/-- The test command that is running completes (R277). -/
def execTestCmdDone (n : Nat) (s : State) : Out :=
  act s (fun d => match (d.slice n).test with
    | none => d
    | some r =>
      let d := d.updSlice n (fun k => { k with test := none })
      (d.wr CORE_SLC_TEST_STAT.RESULT r n).wr CORE_SLC_TEST_STAT.BUSY 0 n)

end Sys2Proof.Machine
end

