-- ==== Sys2Proof/Machine/Cache.lean ====
section
/-! DEFINITION. The cluster home caches: lines, hints, windows and pins, direct and cached accesses, atomics and the
CL_CACHE_ commands (R280-R306). -/
namespace Sys2Proof.Machine
open Sys2Proof

/-! ### Curtains in force (R525, R527) -/

/-- Core `c` is inside a Curtain. -/
def Dev.coreCurtained (d : Dev) (c : Nat) : Bool :=
  d.curtains.any (fun k => k.clusters.contains (coreCluster c) || k.scope == .core c || k.cores.contains c ||
    k.scope == .tenant (d.rd CORE_SEQ_TENANT.TENANT c))

/-- Cluster `g` is inside a Curtain. -/
def Dev.clusterCurtained (d : Dev) (g : Nat) : Bool := d.curtains.any (fun k => k.clusters.contains g)

/-- A write of a register of core `c`, as a command of its own: inside a Curtain it is discarded (R527). What it does where
the core is not ENABLED, R81 says for each. -/
def Dev.coreReg (d : Dev) (c : Nat) (f : Dev → Dev) : Dev := if d.coreCurtained c then d.wr SEQ_STAT.ACCESS_LOST 1 else f d

/-- A write of a register of cluster `g`'s cache or cue storage, as a command of its own: discarded for a cluster that is
not ENABLED (R39), and inside a Curtain (R527). -/
def Dev.clusterReg (d : Dev) (g : Nat) (f : Dev → Dev) : Dev :=
  if !d.clusterEnabled g then d else if d.clusterCurtained g then d.wr SEQ_STAT.ACCESS_LOST 1 else f d

/-- The home cache of cluster `g` is in use: off for a cluster that is not ENABLED (R58) or inside a Curtain (R527). -/
def Dev.cacheOn (d : Dev) (g : Nat) : Bool := d.clusterEnabled g && !d.clusterCurtained g

/-! ### Lines (R281) -/

def Dev.cache (d : Dev) (g : Nat) : CacheSt := FMap.get d.caches CacheSt.init g
def Dev.updCache (d : Dev) (g : Nat) (f : CacheSt → CacheSt) : Dev :=
  { d with caches := FMap.upd d.caches CacheSt.init g f }

/-- Line number within the slice, DA[26:7]. -/
def lineIdx (da : Nat) : Nat := daOff da / 128
def cacheSet (k idx : Nat) : Nat := (idx % 1024) ^^^ (k * 64)

/-- The key of the way that holds a line of slice `k`, if it is present. -/
def Dev.findLine (d : Dev) (g k idx : Nat) : Option Nat :=
  (List.range 16).find? (fun w =>
    match FMap.find (d.cache g).lines (cacheSet k idx * 16 + w) with
    | some l => l.core == k && l.idx == idx
    | none => false) |>.map (fun w => cacheSet k idx * 16 + w)

def Dev.line (d : Dev) (g key : Nat) : Option Line := FMap.find (d.cache g).lines key
def Dev.setLine (d : Dev) (g key : Nat) (l : Line) : Dev :=
  d.updCache g (fun c => { c with lines := FMap.set c.lines key l })
def Dev.dropLine (d : Dev) (g key : Nat) : Dev := d.updCache g (fun c => { c with lines := FMap.del c.lines key })

/-- The lines of a set, with their keys. -/
def Dev.setLines (d : Dev) (g st : Nat) : List (Nat × Line) := (d.cache g).lines.filter (fun e => e.1 / 16 == st)

/-- The unit that a record under kind 12 names: the home cache of a memory DA, with the way that holds the line, or way 0
(R300). -/
def Dev.cacheUnit (d : Dev) (da : Nat) : Nat :=
  let g := daCore da / 16
  unitCluster g 12 (((d.findLine g (daCore da % 16) (lineIdx da)).getD 0) % 16)

/-- DA of a line of cluster `g`. -/
def Line.da (l : Line) (g : Nat) : Nat := sliceDa (g * 16 + l.core) (l.idx * 128)

/-- Write back a line if it is DIRTY; it stays CLEAN, with its pins. The slice keeps the block's poison (R302). -/
def Dev.wbLine (d : Dev) (g key : Nat) : Dev :=
  match d.line g key with
  | some l =>
    if l.dirty then
      ((d.store (l.da g) 128 l.data.toNat).add CL_CACHE_WBACKS.LINES 1 g).setLine g key { l with dirty := false }
    else d
  | none => d

/-- Write back every DIRTY line of cluster `g` that satisfies `p`. -/
def Dev.wbWhere (d : Dev) (g : Nat) (p : Line → Bool) : Dev :=
  ((d.cache g).lines.filter (fun e => p e.2)).foldl (fun d e => d.wbLine g e.1) d

/-- FENCE SLICE: every DIRTY line of the core's own slice (R284). -/
def Dev.wbSlice (d : Dev) (n : Nat) : Dev := d.wbWhere (n / 16) (fun l => l.core == n % 16)

/-- Write back and invalidate the line that covers a DA (R229). -/
def Dev.flushLine (d : Dev) (da : Nat) : Dev :=
  let g := daCore da / 16
  match d.findLine g (daCore da % 16) (lineIdx da) with
  | some key => (d.wbLine g key).dropLine g key
  | none => d

/-! ### Hints, windows and pins (R287-R291) -/

/-- Window `i` takes part in matching and covers the line. -/
def Dev.winMatch (d : Dev) (g k idx i : Nat) : Bool :=
  d.bit CL_CACHE_HINTWIN_CTRL.VALID g i && (d.rd CL_CACHE_HINTWIN_CTRL.SLICES g i).testBit k &&
  decide (d.rd CL_CACHE_HINTWIN_BASE.OFFSET g i ≤ idx) && decide (idx ≤ d.rd CL_CACHE_HINTWIN_LIMIT.OFFSET g i)

/-- The hint an access takes and the window that pins its line (R289); a second matching window is noted. -/
def Dev.hintOf (d : Dev) (g k idx : Nat) (carried : Option Nat) : (Nat × Option Nat) × Dev :=
  match (List.range 16).filter (d.winMatch g k idx) with
  | [] => ((carried.getD (d.rd CL_CACHE_CTRL.DEFHINT g), none), d)
  | i :: more =>
    ((d.rd CL_CACHE_HINTWIN_CTRL.HINT g i, if d.bit CL_CACHE_HINTWIN_CTRL.PIN g i then some i else none),
     if more.isEmpty then d else d.wr CL_CACHE_STAT.MULTI_HIT 1 g)

/-- Rank of a hint class in the order of R287 and R288: STREAM and LAST, NORMAL, KEEP. -/
def classRank (h : Nat) : Nat := if h = 0 then 1 else if h = 1 then 2 else 0

/-- A window pins a line, unless the line would be a ninth pinned line of its set (R290). -/
def Dev.pinLine (d : Dev) (g key : Nat) (win : Option Nat) : Dev :=
  match win, d.line g key with
  | some w, some l =>
    if l.pin.contains w then d
    else if l.pin.isEmpty && decide (8 ≤ ((d.setLines g (key / 16)).filter (fun e => !e.2.pin.isEmpty)).length) then
      d.wr CL_CACHE_STAT.PIN_OVF 1 g
    else d.setLine g key { l with pin := l.pin ++ [w] }
  | _, _ => d

/-- Release the pins that window `w` gave (R292, R305). -/
def Dev.releasePins (d : Dev) (g w : Nat) : Dev :=
  d.updCache g (fun c => { c with
    lines := c.lines.map (fun e => (e.1, { e.2 with pin := e.2.pin.filter (· != w) })),
    fills := c.fills.map (fun f => if f.win = some w then { f with win := none } else f) })

/-- Newest and oldest places in the order of use of a set. -/
def Dev.ageTop (d : Dev) (g st : Nat) : Int := (d.setLines g st).foldl (fun m e => max m (e.2.age + 1)) 0
def Dev.ageLow (d : Dev) (g st : Nat) : Int := (d.setLines g st).foldl (fun m e => min m (e.2.age - 1)) 0

/-- What a hit does to the line's place, class and pin; LAST writes back and invalidates an unpinned line (R287). -/
def Dev.touch (d : Dev) (g key : Nat) (h : Nat × Option Nat) : Dev :=
  match d.line g key with
  | none => d
  | some l =>
    let age := if h.1 ≤ 1 then d.ageTop g (key / 16) else l.age
    let hint := if classRank l.hint < classRank h.1 then h.1 else l.hint
    let d := (d.setLine g key { l with age := age, hint := hint }).pinLine g key h.2
    if h.1 = 3 ∧ (d.line g key).any (fun l => l.pin.isEmpty) then (d.wbLine g key).dropLine g key else d

/-- The victim of R288 among a full set's unpinned lines. -/
def pickVictim (ls : List (Nat × Line)) : Option Nat :=
  (ls.filter (fun e => e.2.pin.isEmpty)).foldl (fun best e =>
    match best with
    | none => some e
    | some b => if classRank e.2.hint < classRank b.2.hint ∨
        (classRank e.2.hint = classRank b.2.hint ∧ e.2.age < b.2.age) then some e else some b) none |>.map Prod.fst

/-- Free a way of a set: an INVALID one, else the victim, written back first (R288). -/
def Dev.freeWay (d : Dev) (g st : Nat) : Option Nat × Dev :=
  match (List.range 16).find? (fun w => (d.line g (st * 16 + w)).isNone) with
  | some w => (some (st * 16 + w), d)
  | none =>
    match pickVictim (d.setLines g st) with
    | some key => (some key, (d.wbLine g key).dropLine g key)
    | none => (none, d)

/-- Allocate a line under a hint: most recent for NORMAL and KEEP, least recent for STREAM and LAST. -/
def Dev.allocLine (d : Dev) (g k idx data : Nat) (dirty : Bool) (h : Nat × Option Nat) : Dev :=
  let st := cacheSet k idx
  match d.freeWay g st with
  | (none, d) => d
  | (some key, d) =>
    let age := if h.1 ≤ 1 then d.ageTop g st else d.ageLow g st
    (d.setLine g key { core := k, idx := idx, data := BitVec.ofNat 1024 data, dirty := dirty, hint := h.1, pin := [],
                       age := age }).pinLine g key h.2

/-! ### Errors (R301) -/

/-- An error met in a line: 0 none, 1 a correctable data error, 2 an uncorrectable data error, 3 a tag parity error.
`flip` is what the stored words differ by, `op` the operation under way (R492). Answers what is left to serve: the line still present, the data marked
uncorrectable, or a miss. -/
inductive HitRes where
  | present
  | bad (data : Nat)
  | gone
  deriving DecidableEq, Repr

def Dev.hitErr (d : Dev) (g key err flip op : Nat) : HitRes × Dev :=
  match d.line g key with
  | none => (.gone, d)
  | some l =>
    if err = 0 then (.present, d)
    else if err = 1 then (.present, d.addSat CL_CACHE_CE_CNT.COUNT 1 g)
    else if !l.dirty then (.gone, (d.addSat CL_CACHE_CE_CNT.COUNT 1 g).dropLine g key)
    else
      let data := l.data.toNat ^^^ (flip % 2 ^ 1024)
      let d := (d.setLine g key { l with data := BitVec.ofNat 1024 data }).wbLine g key
      let d := (d.setPoison (l.da g)).dropLine g key
      let d := d.err 2 op (unitCluster g 12 (key % 16)) (l.da g)
      (.bad data, (d.addSat CL_CACHE_UE_CNT.COUNT 1 g).wr CL_CACHE_STAT.UE_SEEN 1 g)

/-! ### Direct writes (R283) -/

/-- Replace `n` bytes at byte `o` of a number. -/
def patch (old o n v : Nat) : Nat :=
  old % 256 ^ o + (v % 256 ^ n) * 256 ^ o + old / 256 ^ (o + n) * 256 ^ (o + n)

/-- Put `n` bytes into the line that covers them, if present, leaving its state. -/
def Dev.probeLine (d : Dev) (da n v : Nat) (clean : Bool := false) : Dev :=
  let g := daCore da / 16
  match d.findLine g (daCore da % 16) (lineIdx da) with
  | none => d
  | some key =>
    match d.line g key with
    | none => d
    | some l => d.setLine g key { l with data := BitVec.ofNat 1024 (patch l.data.toNat (da % 128) n v),
                                         dirty := if clean then false else l.dirty }

/-- Apply `f` to each part of `n` bytes at `da` within one 128 B line, with the part's value. -/
def perLine (f : Dev → Nat → Nat → Nat → Dev) : Nat → Dev → Nat → Nat → Nat → Dev
  | 0, d, _, _, _ => d
  | fuel + 1, d, da, n, v =>
    if n = 0 then d
    else
      let k := min n (128 - da % 128)
      perLine f fuel (f d da k v) (da + k) (n - k) (v / 256 ^ k)

/-! ### Cached accesses of one line (R287) -/

/-- Read a line from its slice for a fill, for an operation code of R492. Each uncorrectable word met counts (R301). -/
def Dev.fetchLine (d : Dev) (da op : Nat) : MRes × Dev :=
  let g := daCore da / 16
  let bad := ((List.range 4).filter (fun i => d.wordBad (da / 128 * 4 + i))).length
  let r := d.readDirect (da / 128 * 128) 128 op
  if r.1.ue then (r.1, (r.2.addSat CL_CACHE_UE_CNT.COUNT (max 1 bad) g).wr CL_CACHE_STAT.UE_SEEN 1 g) else r

/-- A read miss: the line is fetched, and allocated unless the hint is LAST or a word is uncorrectable (R301). -/
def Dev.readMiss (d : Dev) (da n : Nat) (h : Nat × Option Nat) (op : Nat) : MRes × Dev :=
  let g := daCore da / 16
  let d := d.add CL_CACHE_MISSES.MISSES 1 g
  let r := d.fetchLine da op
  let v := r.1.val / 256 ^ (da % 128) % 256 ^ n
  let d := if r.1.ue ∨ h.1 = 3 then r.2 else r.2.allocLine g (daCore da % 16) (lineIdx da) r.1.val false h
  (⟨v, r.1.ue, r.1.poison⟩, d)

/-- A cached read of `n` bytes within one line under a hint, for an operation code of R492. -/
def Dev.cacheReadAs (d : Dev) (da n : Nat) (h : Nat × Option Nat) (err flip : Nat := 0) (op : Nat := 1) : MRes × Dev :=
  let g := daCore da / 16
  if !d.cacheOn g then d.readDirect da n op
  else
    match d.findLine g (daCore da % 16) (lineIdx da) with
    | none => d.readMiss da n h op
    | some key =>
      match d.hitErr g key err flip op with
      | (.gone, d) => d.readMiss da n h op
      | (.bad data, d) => (⟨data / 256 ^ (da % 128) % 256 ^ n, true, true⟩, d)
      | (.present, d) =>
        let v := (d.line g key).map (fun l => l.data.toNat) |>.getD 0
        (⟨v / 256 ^ (da % 128) % 256 ^ n, false, d.poisoned da⟩, (d.add CL_CACHE_HITS.HITS 1 g).touch g key h)

/-- The hint of a cached access that reaches the tags (R289); off, the cache takes none. -/
def Dev.hintAt (d : Dev) (da : Nat) (carried : Option Nat) : (Nat × Option Nat) × Dev :=
  if d.cacheOn (daCore da / 16) then d.hintOf (daCore da / 16) (daCore da % 16) (lineIdx da) carried else ((0, none), d)

/-- A cached read of `n` bytes within one line. -/
def Dev.cacheRead (d : Dev) (da n : Nat) (carried : Option Nat) (err flip : Nat := 0) (op : Nat := 1) : MRes × Dev :=
  let h := d.hintAt da carried
  h.2.cacheReadAs da n h.1 err flip op

/-- A write miss. -/
def Dev.writeMiss (d : Dev) (da n v : Nat) (h : Nat × Option Nat) : Dev :=
  let g := daCore da / 16
  let k := daCore da % 16
  let d := d.add CL_CACHE_MISSES.MISSES 1 g
  if n = 128 then
    if h.1 ≤ 1 then d.allocLine g k (lineIdx da) (v % 256 ^ 128) true h else d.store da 128 v
  else
    let r := d.fetchLine da 2
    if r.1.ue then r.2.store da n v
    else r.2.allocLine g k (lineIdx da) (patch r.1.val (da % 128) n v) true h

/-- A cached write of `n` bytes within one line under a hint. -/
def Dev.cacheWriteAs (d : Dev) (da n v : Nat) (h : Nat × Option Nat) (err flip : Nat := 0) : Dev :=
  let g := daCore da / 16
  if !d.cacheOn g then d.store da n v
  else
    match d.findLine g (daCore da % 16) (lineIdx da) with
    | none => d.writeMiss da n v h
    | some key =>
      match d.hitErr g key err flip 2 with
      | (.gone, d) => d.writeMiss da n v h
      | (.bad _, d) => d.writeMiss da n v h
      | (.present, d) =>
        match d.line g key with
        | none => d
        | some l =>
          ((d.add CL_CACHE_HITS.HITS 1 g).setLine g key
            { l with data := BitVec.ofNat 1024 (patch l.data.toNat (da % 128) n v), dirty := true }).touch g key h

/-- A cached write of `n` bytes within one line. -/
def Dev.cacheWrite (d : Dev) (da n v : Nat) (carried : Option Nat) (err flip : Nat := 0) : Dev :=
  let h := d.hintAt da carried
  h.2.cacheWriteAs da n v h.1 err flip

/-! ### Order of accesses to one line (R283, R286, R298) -/

/-- Some access to the line of a DA is waiting. -/
def CacheSt.waits (c : CacheSt) (da : Nat) : Bool := c.fills.any (fun f => f.da / 128 == da / 128)

/-- A waiting access is served. -/
def Dev.fillServe (d : Dev) (f : Fill) : Dev :=
  match f.wr with
  | some v => d.cacheWriteAs f.da f.bytes v (f.cls, f.win)
  | none =>
    let r := d.cacheReadAs f.da f.bytes (f.cls, f.win)
    r.2.emit (.memData f.who f.da f.bytes r.1.val r.1.ue r.1.poison)

/-- Everything that reached the tags of a line, or the adder for it, before is performed first (R286, R298). -/
def Dev.settleLine (d : Dev) (da : Nat) : Dev :=
  let g := daCore da / 16
  let n := daCore da
  let d := Dev.adderUntil n (da / 128) (d.slice n).addq.length d
  let fs := (d.cache g).fills.filter (fun f => f.da / 128 == da / 128)
  if fs.isEmpty then d
  else fs.foldl Dev.fillServe (d.updCache g (fun c => { c with fills := c.fills.filter (fun f => f.da / 128 != da / 128) }))

/-- A direct write: the slice takes it, and the line that is present (R283). -/
def Dev.directWrite (d : Dev) (da n v : Nat) : Dev :=
  let d := perLine (fun d a _ _ => d.settleLine a) (n / 128 + 2) d da n v
  perLine (fun d a k v => d.probeLine a k v) (n / 128 + 2) (d.store da n v) da n v

/-! ### Cached accesses of any length -/

def Dev.cachedReadAux (carried : Option Nat) (op : Nat) : Nat → Dev → Nat → Nat → MRes × Dev
  | 0, d, _, _ => (⟨0, false, false⟩, d)
  | fuel + 1, d, da, n =>
    if n = 0 then (⟨0, false, false⟩, d)
    else
      let k := min n (128 - da % 128)
      let r := (d.settleLine da).cacheRead da k carried 0 0 op
      let rest := Dev.cachedReadAux carried op fuel r.2 (da + k) (n - k)
      (⟨r.1.val + 256 ^ k * rest.1.val, r.1.ue || rest.1.ue, r.1.poison || rest.1.poison⟩, rest.2)

def Dev.cachedRead (d : Dev) (da n : Nat) (carried : Option Nat) (op : Nat := 1) : MRes × Dev :=
  Dev.cachedReadAux carried op (n / 128 + 2) d da n

def Dev.cachedWrite (d : Dev) (da n v : Nat) (carried : Option Nat) : Dev :=
  perLine (fun d a k v => (d.settleLine a).cacheWrite a k v carried) (n / 128 + 2) d da n v

/-- The DIRTY lines of a 4 KiB block are written back, and stay CLEAN (R322). -/
def Dev.wbBlock (d : Dev) (da : Nat) : Dev :=
  d.wbWhere (daCore da / 16) (fun l => l.core == daCore da % 16 && l.idx / 32 == daOff da / 4096)

/-- Every line of a 4 KiB block is settled. -/
def Dev.settleBlock (d : Dev) (da : Nat) : Dev :=
  (List.range 32).foldl (fun d i => d.settleLine (da / 4096 * 4096 + 128 * i)) d

/-- A whole block read with its check value on the cached path. -/
def Dev.cachedReadBlock (d : Dev) (da : Nat) (carried : Option Nat) (op : Nat := 1) : MRes × Dev :=
  ((d.settleBlock da).wbBlock da).cachedRead da 4096 carried op

/-- A line of a whole-block write on the cached path: one that is present is hit, updated and CLEAN (R287, R302). -/
def Dev.throughLine (d : Dev) (da n v : Nat) (carried : Option Nat) : Dev :=
  let g := daCore da / 16
  if !d.cacheOn g then d
  else
    let h := d.hintAt da carried
    match h.2.findLine g (daCore da % 16) (lineIdx da) with
    | none => h.2.add CL_CACHE_MISSES.MISSES 1 g
    | some key => ((h.2.probeLine da n v true).add CL_CACHE_HITS.HITS 1 g).touch g key h.1

/-- A whole-block write with its check value. On the cached path it is written through, and lines present are updated and
CLEAN (R302); on the direct path they are updated and keep their state (R283). -/
def Dev.blockWrite (d : Dev) (da v : Nat) (poison : Bool) (cached : Bool := true) (carried : Option Nat := none) : Dev :=
  perLine (fun d a k v => if cached then d.throughLine a k v carried else d.probeLine a k v) 34 ((d.settleBlock da).storeBlock da v poison) da 4096 v

/-! ### The rows of the slice and cache data paths -/

/-- A write reaches its slice controller (R253, R283, R324). A whole block may bring its check value: a mismatch is
stored as poison with a record, and the poison pattern is stored as it is. -/
def sliceWrite (who : Requester) (da n v : Nat) (chk : Option Nat) (d : Dev) : Dev :=
  match d.daRefused da with
  | some cls => (d.err cls 2 (reqUnit who) da).emit (.errCompletion who da)
  | none =>
    match chk with
    | some x =>
      if n = 4096 ∧ da % 4096 = 0 then
        let poison := decide (x = 0xA5C33C5A)
        let bad := !poison && decide (x ≠ (blockCheck da (v % 256 ^ 4096)).toNat)
        let d := d.blockWrite da v (poison || bad) false
        if bad then d.err 8 2 (unitCore (daCore da) 7 0) da else d
      else d.directWrite da (min n (2 ^ 27 - daOff da)) v
    | none => d.directWrite da (min n (2 ^ 27 - daOff da)) v

def execSliceWrite (who : Requester) (da n v : Nat) (chk : Option Nat) (s : State) : Out :=
  act s (sliceWrite who da n v chk)

/-- Partition protection of a cached access by its requester: a core's program answers to its partition (R453). -/
def Dev.protWho (d : Dev) (who : Requester) (da : Nat) (write : Bool) : Bool × Dev :=
  match who with
  | .core c => d.protCore c da write
  | _ => (true, d)

/-- A cached access of one line reaches the tags: it is refused, served, or waits for a fill (R286, R287). -/
def cacheAccess (who : Requester) (da n : Nat) (wr : Option Nat) (hint : Option Nat) (err flip : Nat) (d : Dev) : Dev :=
  let n := min n (128 - da % 128)
  let p := d.protWho who da wr.isSome
  let op := if wr.isSome then 2 else 1
  let d := p.2
  match (if p.1 then d.daRefused da else some 3) with
  | some cls => (d.err cls op (reqUnit who) da).emit (.errCompletion who da)
  | none =>
    let g := daCore da / 16
    let miss := (d.findLine g (daCore da % 16) (lineIdx da)).isNone
    let whole := wr.isSome && n == 128
    if d.cacheOn g && ((d.cache g).waits da || (miss && (!whole || d.adderHas (daCore da) (da / 128)))) then
      let h := d.hintAt da hint
      h.2.updCache g (fun c =>
        { c with fills := c.fills ++ [{ who := who, da := da, bytes := n, wr := wr, cls := h.1.1, win := h.1.2 }] })
    else
      match wr with
      | some v => d.cacheWrite da n v hint err flip
      | none =>
        let r := d.cacheRead da n hint err flip
        r.2.emit (.memData who da n r.1.val r.1.ue r.1.poison)

def execCacheRead (who : Requester) (da n : Nat) (hint : Option Nat) (err flip : Nat) (s : State) : Out :=
  act s (cacheAccess who da n none hint err flip)
def execCacheWrite (who : Requester) (da n v : Nat) (hint : Option Nat) (err flip : Nat) (s : State) : Out :=
  act s (cacheAccess who da n (some v) hint err flip)

/-- The fill of waiting miss `i` of cluster `g` returns. It waits behind an earlier one of its line and behind adder
operations queued for the line (R286, R298). -/
def cacheFillDone (g i : Nat) (d : Dev) : Dev :=
  match (d.cache g).fills[i]? with
  | none => d
  | some f =>
    if ((d.cache g).fills.take i).any (fun e => e.da / 128 == f.da / 128) || d.adderHas (daCore f.da) (f.da / 128) then d
    else (d.updCache g (fun c => { c with fills := delNth c.fills i })).fillServe f

def execCacheFillDone (g i : Nat) (s : State) : Out := act s (cacheFillDone g i)

/-! ### Atomics: issue (R294-R297) -/

def Dev.pushAtom (d : Dev) (c : Nat) (a : AtomJob) : Dev :=
  d.updCore c (fun k => { k with atomq := k.atomq ++ [{ a with aid := k.atomN }], atomN := k.atomN + 1 })

/-- An ATOM of function `fn`: the checks of R84 and R295, alignment, room in the queue. -/
def atomIssue (fn c : Nat) (d : Dev) : Dev :=
  d.issue c (isOpFn 0x3C fn) (fun d w =>
    let wide := immOf w % 2 == 1
    let da := (d.sreg c (raOf w)).toNat
    d.checked c w (regsOk w true true true && immBelow w 2 && !(decide (10 ≤ fn) && wide)) (fun d =>
      if da % (if wide then 8 else 4) != 0 then d.trap c 4 da
      else if 16 ≤ (d.core c).atomq.length then d
      else
        let trim := fun (x : W64) => if wide then x.toNat else x.toNat % 2 ^ 32
        (d.pushAtom c { fn := fn, wide := wide, fetch := immOf w / 2 == 1, typ := 0, rd := rdOf w, da := da,
                        opnd := trim (d.sreg c (rbOf w)), cmp := trim (d.sreg c (rdOf w)), pcIdx := d.pc c, aid := 0,
                        phase := .queued, poison := false, bank := d.epochBank (coreHalf c) }).retire c))

def execAadd (c : Nat) (s : State) : Out := act s (atomIssue 0 c)
def execAmin (c : Nat) (s : State) : Out := act s (atomIssue 1 c)
def execAmax (c : Nat) (s : State) : Out := act s (atomIssue 2 c)
def execAminu (c : Nat) (s : State) : Out := act s (atomIssue 3 c)
def execAmaxu (c : Nat) (s : State) : Out := act s (atomIssue 4 c)
def execAand (c : Nat) (s : State) : Out := act s (atomIssue 5 c)
def execAor (c : Nat) (s : State) : Out := act s (atomIssue 6 c)
def execAxor (c : Nat) (s : State) : Out := act s (atomIssue 7 c)
def execAswap (c : Nat) (s : State) : Out := act s (atomIssue 8 c)
def execAcas (c : Nat) (s : State) : Out := act s (atomIssue 9 c)
def execAfadd (c : Nat) (s : State) : Out := act s (atomIssue 10 c)
def execAhadd (c : Nat) (s : State) : Out := act s (atomIssue 11 c)

/-- LRED: the local source is read at issue (R297). -/
def lredIssue (c : Nat) (d : Dev) : Dev :=
  d.issue c (isOpFn 0x3D 0) (fun d w =>
    let da := (d.sreg c (raOf w)).toNat
    let b := (d.sreg c (rbOf w)).toNat
    d.checked c w (regsOk w false true true && decide (immOf w < 3)) (fun d =>
      if da % 128 != 0 then d.trap c 4 da
      else if b % 32 != 0 then d.trap c 4 b
      else if 2 ^ 20 ≤ b ∨ spanOk b 128 = false then d.trap c 3 b
      else if d.lbad c b 128 then d.dataUe c b 1
      else if 16 ≤ (d.core c).atomq.length then d
      else
        let a : AtomJob :=
          { fn := 12, wide := false, fetch := false, typ := immOf w, rd := 0, da := da, opnd := d.lrd c b 128, cmp := 0,
            pcIdx := d.pc c, aid := 0, phase := .queued, poison := false, bank := d.epochBank (coreHalf c) }
        ((d.countLce c b 128).pushAtom c a).retire c))

def execLred (c : Nat) (s : State) : Out := act s (lredIssue c)

def cwbIssue (c : Nat) (d : Dev) : Dev :=
  d.issue c (isOpFn 0x3D 1) (fun d w =>
    let da := (d.sreg c (raOf w)).toNat
    d.checked c w (regsOk w false true true && immOf w == 0) (fun d =>
      if da % 128 != 0 then d.trap c 4 da
      else if 16 ≤ (d.core c).atomq.length then d
      else (d.pushAtom c { fn := 13, wide := false, fetch := false, typ := 0, rd := 0, da := da,
                           opnd := (d.sreg c (rbOf w)).toNat, cmp := 0, pcIdx := d.pc c, aid := 0,
                           phase := .queued, poison := false, bank := d.epochBank (coreHalf c) }).retire c))

def execCwb (c : Nat) (s : State) : Out := act s (cwbIssue c)

/-! ### Atomics: execution (R295, R298, R299) -/

/-- The new value of an atomic on an old value of its width. -/
def atomFn (fn : Nat) (wide : Bool) (old opnd cmp : Nat) : Nat :=
  let bits := if wide then 64 else 32
  let sg := fun (x : Nat) => signed bits x
  match fn with
  | 0 => (old + opnd) % 2 ^ bits
  | 1 => if sg old < sg opnd then old else opnd
  | 2 => if sg old < sg opnd then opnd else old
  | 3 => min old opnd
  | 4 => max old opnd
  | 5 => old &&& opnd
  | 6 => old ||| opnd
  | 7 => old ^^^ opnd
  | 8 => opnd
  | 9 => if old = cmp then opnd else old
  | 10 => f32Add old opnd
  | _ => addLanes bf16Add 2 3 old opnd 2

/-- The bytes an atomic acts on. -/
def AtomJob.size (a : AtomJob) : Nat := if a.fn = 12 then 128 else if a.wide then 8 else 4

/-- The bytes after the operation. -/
def AtomJob.apply (a : AtomJob) (old : Nat) : Nat :=
  if a.fn = 12 then
    (if a.typ = 0 then addLanes i32Add 4 (2 ^ 32 - 1) old a.opnd 32
     else if a.typ = 1 then addLanes f32Add 4 (2 ^ 32 - 1) old a.opnd 32
     else addLanes bf16Add 2 (2 ^ 64 - 1) old a.opnd 64)
  else atomFn a.fn a.wide old a.opnd a.cmp

/-- AADD of 4 B, AFADD, and LRED of INT32 or FP32 may run at the memory-side adder (R298). -/
def AtomJob.adderOk (a : AtomJob) : Bool :=
  (a.fn == 0 && !a.wide) || a.fn == 10 || (a.fn == 12 && decide (a.typ < 2))

/-- The adder operations of an atomic: one, or one per word of an LRED. -/
def AtomJob.addOps (a : AtomJob) (c da : Nat) : List AddOp :=
  if a.fn = 12 then
    (List.range 4).map (fun i => { da := da + 32 * i, opnd := a.opnd / 2 ^ (256 * i) % 2 ^ 256, mask := 255,
                                   fp := a.typ == 1, fetch := false, core := c, aid := a.aid })
  else
    let j := da % 32 / 4
    [{ da := da / 32 * 32, opnd := a.opnd * 2 ^ (32 * j), mask := 2 ^ j, fp := a.fn == 10, fetch := a.fetch, core := c,
       aid := a.aid }]

def Dev.setAtom (d : Dev) (c i : Nat) (a : AtomJob) : Dev :=
  d.updCore c (fun k => { k with atomq := setNth k.atomq i a })

def AtomJob.finish (a : AtomJob) (old code : Nat) : AtomJob := { a with phase := .done old code }

/-- Where an error record of an atomic goes: the home cache of the DA, or of the core's cluster for a register DA. -/
def Dev.atomUnit (d : Dev) (c v : Nat) : Nat :=
  match daOf v with
  | some da => if 2 ^ 47 ≤ da then unitCluster (coreCluster c) 12 0 else d.cacheUnit da
  | none => unitCluster (v / 2 ^ 31 % 256) 12 0

/-- The class of the refusal of an atomic issued under bank `b`, if it is refused with ATOM_ADDR (R300): a route that is
down completes it LOST (R312). -/
def Dev.atomRefused (d : Dev) (b c v n : Nat) : Option Nat × Dev :=
  match daOf v with
  | none => (some 3, d)
  | some da =>
    if 2 ^ 47 ≤ da then (some 3, d)
    else
      match d.daRefused da with
      | some cls => (some cls, d)
      | none =>
        if d.meshLost (coreCluster c) (daCore da / 16) then (some 4, d)
        else if daOff da + n > 2 ^ 27 then (some 3, d)
        else
          let p := d.protCoreAt b c da true
          (if p.1 then none else some 3, p.2)

/-- The class of the refusal of a CWB: every line of its range is checked (R453). -/
def Dev.cwbRefused (d : Dev) (b c v n : Nat) : Option Nat × Dev :=
  (List.range (max n 1)).foldl (fun a i => if a.1.isSome then a else a.2.atomRefused b c (v + 128 * i) 0) (none, d)

/-- Run in the cache: the line is present, or is fetched and allocated with STREAM and LAST taken as NORMAL. -/
def Dev.atomInCache (d : Dev) (a : AtomJob) (da : Nat) (h : Nat × Option Nat) (err flip : Nat) : AtomJob × Dev :=
  let g := daCore da / 16
  let k := daCore da % 16
  let h' : Nat × Option Nat := (if 2 ≤ h.1 then 0 else h.1, h.2)
  let run := fun (d : Dev) (key : Nat) =>
    match d.line g key with
    | none => (a.finish 0 0, d)
    | some l =>
      let old := l.data.toNat / 256 ^ (da % 128) % 256 ^ a.size
      let l' := { l with data := BitVec.ofNat 1024 (patch l.data.toNat (da % 128) a.size (a.apply old)), dirty := true }
      ({ a.finish old 0 with poison := d.poisoned da }, ((d.setLine g key l').touch g key h').add CL_CACHE_ATOMS.OPS 1 g)
  let miss := fun (d : Dev) =>
    let d := d.add CL_CACHE_MISSES.MISSES 1 g
    let r := d.fetchLine da 3
    if r.1.ue then (a.finish 0 0x603, r.2)
    else
      let d := r.2.allocLine g k (lineIdx da) r.1.val false h'
      match d.findLine g k (lineIdx da) with
      | some key => run d key
      | none => (a.finish 0 0, d)
  match d.findLine g k (lineIdx da) with
  | none => miss d
  | some key =>
    match d.hitErr g key err flip 3 with
    | (.present, d) => run (d.add CL_CACHE_HITS.HITS 1 g) key
    | (.gone, d) => miss d
    | (.bad _, d) => (a.finish 0 0x603, d)

/-- CWB: write back the DIRTY lines of a range (R297), earlier accesses to them performed first (R286). -/
def Dev.cwbRun (d : Dev) (da n : Nat) : Dev :=
  let d := ((d.cache (daCore da / 16)).fills.filter (fun f => decide (da / 128 ≤ f.da / 128) && decide (f.da / 128 < da / 128 + n))).foldl
    (fun d f => d.settleLine f.da) d
  d.wbWhere (daCore da / 16) (fun l => l.core == daCore da % 16 && decide (lineIdx da ≤ l.idx) &&
    decide (l.idx < lineIdx da + n))

/-- The atomic at place `i` of core `c`'s queue reaches the home cache. -/
def atomExecute (c i err flip : Nat) (d : Dev) : Dev :=
  match (d.core c).atomq[i]? with
  | none => d
  | some a =>
    let busy := ((d.core c).atomq.take i).any (fun b => b.phase == .queued && b.da / 128 == a.da / 128)
    let da := d.seenDa (coreHalf c) (a.da % 2 ^ 48)
    let g := da / 2 ^ 31 % 256
    if a.phase != .queued || busy || d.clusterCurtained g || (a.fn != 13 && (d.cache g).waits da) then d
    else
      let cwbBad := a.fn == 13 && (decide (2 ^ 14 ≤ a.opnd) || decide (2 ^ 27 < daOff a.da + 128 * a.opnd))
      let r := if cwbBad then (some 3, d) else if a.fn = 13 then d.cwbRefused a.bank c a.da a.opnd else d.atomRefused a.bank c a.da a.size
      match r.1 with
      | some cls => (r.2.setAtom c i (a.finish 0 0x601)).err cls 0x601 (r.2.atomUnit c a.da) a.da
      | none =>
        let d := r.2
        let toAdder := fun (d : Dev) =>
          let ops := a.addOps c da
          let d := d.updSlice (daCore da) (fun k => { k with addq := k.addq ++ ops })
          (d.setAtom c i { a with phase := .adder ops.length 0 0 }).add CL_CACHE_ADDER.OPS 1 g
        if a.fn = 13 then (d.cwbRun da a.opnd).setAtom c i (a.finish 0 0)
        else if !d.clusterEnabled g then
          if a.adderOk then toAdder d
          else (d.setAtom c i (a.finish 0 0x602)).err 5 0x602 (unitCluster g 12 0) a.da
        else
          let h := d.hintOf g (daCore da % 16) (lineIdx da) none
          let present := (h.2.findLine g (daCore da % 16) (lineIdx da)).isSome
          if !present && decide (2 ≤ h.1.1) && a.adderOk then toAdder h.2
          else if !present && d.adderHas (daCore da) (da / 128) then d
          else
            let x := h.2.atomInCache a da h.1 err flip
            x.2.setAtom c i x.1

def execAtomExecute (c i err flip : Nat) (s : State) : Out := act s (atomExecute c i err flip)

/-- The result of the atomic at place `i` returns to core `c` (R296, R300). -/
def atomResult (c i : Nat) (d : Dev) : Dev :=
  match (d.core c).atomq[i]? with
  | none => d
  | some a =>
    match a.phase with
    | .done old code =>
      let d := d.updCore c (fun k => { k with atomq := delNth k.atomq i })
      let v := if code = 0 then BitVec.ofNat 64 old else BitVec.allOnes 64
      let d := if a.fetch then d.setS c a.rd v else d
      if code = 0 then d else d.unitFault c code a.pcIdx
    | _ => d

def execAtomResult (c i : Nat) (s : State) : Out := act s (atomResult c i)

/-! ### Cache commands (R305) -/

/-- A CL_CACHE_CMD command: discarded while one runs, else BUSY until it completes. -/
def Dev.cacheCmd (d : Dev) (g : Nat) (f : Dev → Dev) : Dev :=
  if d.bit CL_CACHE_STAT.BUSY g then d.wr CL_CACHE_STAT.CMD_LOST 1 g
  else f (d.wr CL_CACHE_STAT.BUSY 1 g)

def Dev.wbAll (d : Dev) (g : Nat) : Dev := d.cacheCmd g (fun d => d.wbWhere g (fun _ => true))
def Dev.wbSliceCmd (d : Dev) (g k : Nat) : Dev := d.cacheCmd g (fun d => d.wbWhere g (fun l => l.core == k))
def Dev.unpinCmd (d : Dev) (g w : Nat) : Dev := d.cacheCmd g (fun d => d.releasePins g w)

/-- PRELOAD: every line of a valid window is read under its hint and pin. -/
def Dev.preloadLine (d : Dev) (g k idx w : Nat) : Dev :=
  let da := sliceDa (g * 16 + k) (idx * 128)
  let h : Nat × Option Nat :=
    (d.rd CL_CACHE_HINTWIN_CTRL.HINT g w, if d.bit CL_CACHE_HINTWIN_CTRL.PIN g w then some w else none)
  if (d.daRefused da).isSome then d
  else
    let d := d.settleLine da
    match d.findLine g k idx with
    | some key => (d.add CL_CACHE_HITS.HITS 1 g).touch g key h
    | none => (d.readMiss da 128 h 1).2

def Dev.preload (d : Dev) (g w : Nat) : Dev :=
  d.cacheCmd g (fun d =>
    let lo := d.rd CL_CACHE_HINTWIN_BASE.OFFSET g w
    let hi := d.rd CL_CACHE_HINTWIN_LIMIT.OFFSET g w
    if d.bit CL_CACHE_HINTWIN_CTRL.VALID g w then
      (List.range 16).foldl (fun d k =>
        if (d.rd CL_CACHE_HINTWIN_CTRL.SLICES g w).testBit k then
          (List.range (hi + 1 - lo)).foldl (fun d i => d.preloadLine g k (lo + i) w) d
        else d) d
    else d)

def Dev.cacheNop (d : Dev) (g : Nat) : Dev := if d.bit CL_CACHE_STAT.BUSY g then d.wr CL_CACHE_STAT.CMD_LOST 1 g else d

def execWbAll (g : Nat) (s : State) : Out := act s (fun d => d.clusterReg g (fun d => d.wbAll g))
def execPreload (g win : Nat) (s : State) : Out := act s (fun d => d.clusterReg g (fun d => d.preload g win))
def execUnpin (g win : Nat) (s : State) : Out := act s (fun d => d.clusterReg g (fun d => d.unpinCmd g win))
def execWbSlice (g slice : Nat) (s : State) : Out := act s (fun d => d.clusterReg g (fun d => d.wbSliceCmd g slice))
def execCacheCmdNop (g : Nat) (s : State) : Out := act s (fun d => d.clusterReg g (fun d => d.cacheNop g))
def execCacheCmdDone (g : Nat) (s : State) : Out := act s (fun d => d.wr CL_CACHE_STAT.BUSY 0 g)

end Sys2Proof.Machine
end

