-- ==== Sys2Proof/Machine/Tenants.lean ====
section
/-! DEFINITION. The tenant table (R454, R455). -/
namespace Sys2Proof.Machine
open Sys2Proof

/-- The cached entry of a tenant, fetched at first use; none when it is invalid or unreadable. -/
def Dev.tenantEntry (d : Dev) (t : Nat) : Option Nat × Dev :=
  match FMap.find d.tenants t with
  | some e => (e, d)
  | none =>
    -- a base that names nothing stays as it is, beyond every memory DA
    let da := (daOf (d.rd PART_TENANT_BASE.DA * 2 ^ 16)).getD (2 ^ 48) + 16 * t
    let bad := fun (cls : Nat) (d : Dev) => (d.err cls 1 (unitDev 30 0) da)
    let r := match d.daRefused da with
      | some _ => (none, bad 3 d)
      | none =>
        let r := d.cachedRead da 8 none
        if r.1.ue then (none, bad 2 r.2) else (some r.1.val, r.2)
    let e := r.1.bind (fun v => if v / 2 ^ 31 % 2 = 1 then some v else none)
    (e, { r.2 with tenants := FMap.set r.2.tenants t e })

def tenFunc (e : Nat) : Nat := min (e / 2 ^ 24 % 128) 65
def tenPart (e : Nat) : Nat := e / 2 ^ 18 % 64
def tenPage (e : Nat) : Nat := e / 2 ^ 14 % 16
def tenHdmaMax (e : Nat) : Nat := max 1 (min 64 (e / 2 ^ 7 % 128))

end Sys2Proof.Machine
end

