-- ==== Sys2Proof/Machine/Cues.lean ====
section
/-! DEFINITION. Cues: operations, waiters, wakes, refusals and host commands (R335-R349, R356, R357). -/
namespace Sys2Proof.Machine
open Sys2Proof

/-! ### Cue numbers (R33) -/

/-- The cluster that holds a cue. -/
def cueCluster (cue : Nat) : Nat := cue / 64 % 256
def cueIdx (cue : Nat) : Nat := cue % 64
def cueNum (g j : Nat) : Nat := g * 64 + j

def Dev.cueState (d : Dev) (cue : Nat) : Nat := d.rd CL_CUE_Sj.STATE (cueCluster cue) (cueIdx cue)
def Dev.cueCount (d : Dev) (cue : Nat) : Nat := d.rd CL_CUE_Sj.COUNT (cueCluster cue) (cueIdx cue)
def Dev.cueLimit (d : Dev) (cue : Nat) : Nat := d.rd CL_CUE_Lj.LIMIT (cueCluster cue) (cueIdx cue)
def Dev.setCount (d : Dev) (cue v : Nat) : Dev := d.wr CL_CUE_Sj.COUNT v (cueCluster cue) (cueIdx cue)
def Dev.setCueState (d : Dev) (cue v : Nat) : Dev := d.wr CL_CUE_Sj.STATE v (cueCluster cue) (cueIdx cue)
def Dev.cueWaiters (d : Dev) (cue : Nat) : List Waiter := d.waiters.filter (fun w => w.cue == cue)

/-- An answer leaves for a core. -/
def Dev.answer (d : Dev) (c : Nat) (a : CueAns) : Dev := d.updCore c (fun k => { k with cueAns := k.cueAns ++ [a] })

/-! ### Operations (R339) -/

/-- Every waiter of a cue is woken with a fault kind (R336). -/
def Dev.wakeAll (d : Dev) (cue kind : Nat) : Dev :=
  let ws := d.cueWaiters cue
  let d := { d with waiters := d.waiters.filter (fun w => w.cue != cue) }
  ws.foldl (fun d w => d.answer w.core (.wake cue 0 kind)) d

/-- Grant heads of the queue while the count covers them (R339, R343). -/
def Dev.serve (cue : Nat) : Nat → Dev → Dev
  | 0, d => d
  | fuel + 1, d =>
    match d.cueWaiters cue with
    | [] => d
    | w :: _ =>
      if w.k ≤ d.cueCount cue then
        let d := d.setCount cue (d.cueCount cue - w.k)
        let d := { d with waiters := d.waiters.erase w }
        Dev.serve cue fuel (d.answer w.core (.wake cue w.k 0))
      else d

def Dev.serveCue (d : Dev) (cue : Nat) : Dev := Dev.serve cue (d.cueWaiters cue).length d

/-- What an operation comes to: a value, a fault kind, a place in the waiter queue, or NACK. -/
inductive CueRes where
  | value (v : Nat)
  | refused (kind : Nat)
  | queued
  | nack
  deriving DecidableEq, Repr

/-- The cue enters OVERFLOW (kind 4) or UNDERFLOW (kind 5): every waiter is woken and COUNT stays. -/
def Dev.cueBreakWith (d : Dev) (cue kind : Nat) : Dev :=
  let d := d.setCueState cue (kind - 2)
  let d := if kind = 4 then d.wr CL_CUE_STAT.OVF_SEEN 1 (cueCluster cue) else d.wr CL_CUE_STAT.UNF_SEEN 1 (cueCluster cue)
  d.wakeAll cue kind

/-- The operations of R339 on a cue that accepts them. `who` and `agent` describe the waiter entry of a WAIT. -/
def Dev.cueOp (d : Dev) (fn cue arg : Nat) (co : Bool) (tenant who : Nat) (agent : Bool) : CueRes × Dev :=
  let count := d.cueCount cue
  let limit := d.cueLimit cue
  let ws := d.cueWaiters cue
  let g := cueCluster cue
  let j := cueIdx cue
  match fn with
  | 0 =>
    if limit < count + arg then (.refused 4, d.cueBreakWith cue 4)
    else (.value 0, (d.setCount cue (count + arg)).serveCue cue)
  | 1 =>
    if limit < arg then (.refused 3, d)
    else if ws.isEmpty && decide (arg ≤ count) then (.value 0, d.setCount cue (count - arg))
    else if 256 ≤ (d.waiters.filter (fun w => cueCluster w.cue == g)).length then
      (.nack, (d.wr CL_CUE_STAT.WQ_FULL_SEEN 1 g).add CL_CUE_NACKS.COUNT 1 g)
    else (.queued, { d with waiters := d.waiters ++ [{ cue := cue, core := who, k := arg, agent := agent }] })
  | 2 =>
    if count < arg then (.refused 5, d.cueBreakWith cue 5) else (.value (count - arg), d.setCount cue (count - arg))
  | 3 =>
    if ws.isEmpty && decide (arg ≤ count) then (.value (count - arg), d.setCount cue (count - arg))
    else (.value (2 ^ 64 - 1), d)
  | 4 =>
    let l := if arg % 2 ^ 24 = 0 then 0xFFFFFF else arg % 2 ^ 24
    if l < count ∨ ws.any (fun w => decide (l < w.k)) then (.refused 3, d) else (.value limit, d.wr CL_CUE_Lj.LIMIT l g j)
  | 5 =>
    (.value (limit * 2 ^ 32 + d.cueState cue * 2 ^ 29 + d.rd CL_CUE_Sj.CORE_OWNED g j * 2 ^ 28 +
      min ws.length 15 * 2 ^ 24 + count), d)
  | 6 =>
    let l := if arg / 2 ^ 24 % 2 ^ 24 = 0 then 0xFFFFFF else arg / 2 ^ 24 % 2 ^ 24
    if !ws.isEmpty then (.refused 2, d)
    else if l < arg % 2 ^ 24 then (.refused 3, d)
    else
      let d := (d.setCount cue (arg % 2 ^ 24)).wr CL_CUE_Lj.LIMIT l g j
      let d := (d.setCueState cue 1).wr CL_CUE_Oj.TENANT tenant g j
      (.value 0, (d.wr CL_CUE_Sj.CORE_OWNED (if co then 1 else 0) g j).wr CL_CUE_Oj.OWNER_CORE who g j)
  | _ =>
    if !ws.isEmpty then (.refused 2, d)
    else (.value 0, ((d.setCount cue 0).wr CL_CUE_Lj.LIMIT 0xFFFFFF g j).setCueState cue 0)

/-- The refusal that a cue's state gives an operation (R336, R340). -/
def stateRefusal (st fn : Nat) : Option Nat :=
  if st = 0 then (if fn = 6 then none else some 2)
  else if st = 1 then none
  else if 5 ≤ fn then none
  else some (st + 2)

/-- The checks made at the storage before an operation, in the order of R340. `part` is the partition it is checked
against (R345). -/
def Dev.cueRefusal (d : Dev) (fn cue tenant : Nat) (part : Option Nat) : Option Nat :=
  let g := cueCluster cue
  if !d.clusterEnabled g then some 7
  else if part.isNone || d.partOf g != part then some 1
  else if d.cueState cue != 0 && d.rd CL_CUE_Oj.TENANT g (cueIdx cue) != tenant then some 1
  else stateRefusal (d.cueState cue) fn

/-- The cue fault code of a refused SIGNAL: SIG_OVERFLOW for kind 4, otherwise SIG_REFUSED (R341). -/
def signalFault (kind : Nat) : Nat := if kind = 4 then 0x0801 else 0x0802

/-- A refusal of kind 4 or 5 writes a record, which holds the fault code when the operation was a SIGNAL (R492); a SIGNAL
to a BROKEN cue counts as discarded (R341). -/
def Dev.noteRefusal (d : Dev) (fn cue kind : Nat) : Dev :=
  if kind = 4 ∨ kind = 5 then
    d.err 9 (if fn = 0 then signalFault kind else 0) (unitCluster (cueCluster cue) 13 0) cue
  else if fn = 0 ∧ kind = 6 then d.addSat CL_CUE_DISC.COUNT 1 (cueCluster cue)
  else d

/-- One operation reaches the storage: checked, performed, and its refusal noted. -/
def Dev.cuePerform (d : Dev) (fn cue arg : Nat) (co : Bool) (tenant : Nat) (part : Option Nat) (who : Nat)
    (agent : Bool) : CueRes × Dev :=
  let d := d.add CL_CUE_OPS.OPS 1 (cueCluster cue)
  match d.cueRefusal fn cue tenant part with
  | some kind => (.refused kind, d.noteRefusal fn cue kind)
  | none =>
    match d.cueOp fn cue arg co tenant who agent with
    | (.refused kind, d) => (.refused kind, d.noteRefusal fn cue kind)
    | r => r

/-- The cue at which an operation of half `h` arrives (R379). -/
def Dev.seenCue (d : Dev) (h cue : Nat) : Nat := cueNum (d.seenAt h (cueCluster cue)) (cueIdx cue)

/-! ### Requests on their way (R337, R345) -/

def Dev.postCue (d : Dev) (op : CueOp) : Dev := { d with cueOps := d.cueOps ++ [op] }

/-- A unit of core `c` signals a cue by `n` (R345). -/
def Dev.signalUnit (d : Dev) (c cue n : Nat) : Dev :=
  d.postCue { req := .unit c, fn := 0, cue := cue, arg := n, co := false, tenant := d.rd CORE_SEQ_TENANT.TENANT c,
              part := d.corePart c }

/-- The core and kind of a requester, by which the order of R337 is kept. -/
def CueReq.id : CueReq → Nat
  | .core c _ => 4 * c
  | .unit c => 4 * c + 1
  | .agent c => 4 * c + 2
  | .barrier => 3

/-- The core a requester speaks for. -/
def CueReq.coreOf : CueReq → Nat
  | .core c _ => c
  | .unit c => c
  | .agent c => c
  | _ => 0

/-- The partition an operation is checked against: a barrier release is checked against that of its context's TENANT,
by the tenant table (R345, R454). -/
def Dev.cuePart (d : Dev) (op : CueOp) : Option Nat × Dev :=
  match op.req with
  | .barrier => let e := d.tenantEntry op.tenant; (e.1.map tenPart, e.2)
  | _ => (op.part, d)

/-- Operation `i` on its way reaches its cue storage, after the earlier ones of its requester to that cluster. -/
def cueOpArrive (i : Nat) (d : Dev) : Dev :=
  match d.cueOps[i]? with
  | none => d
  | some op =>
    if (d.cueOps.take i).any (fun o => o.req.id == op.req.id && cueCluster o.cue == cueCluster op.cue) then d
    else
      let d := { d with cueOps := delNth d.cueOps i }
      let who := op.req.coreOf
      let lost := match op.req with
        | .barrier => false
        | r => d.meshLost (coreCluster r.coreOf) (cueCluster op.cue)
      let r := if lost then (CueRes.refused 7, d)
               else let p := d.cuePart op; p.2.cuePerform op.fn (match op.req with | .barrier => op.cue | r => d.seenCue (coreHalf r.coreOf) op.cue) op.arg op.co op.tenant p.1 who false
      match op.req with
      | .core c pc =>
        if op.fn = 0 then
          match r.1 with
          | .refused kind => if kind = 6 then r.2 else r.2.updCore c (fun k => { k with sigRef := k.sigRef ++ [(kind, pc, op.cue)] })
          | _ => r.2
        else
          match r.1 with
          | .value v => r.2.answer c (.value v)
          | .refused kind => r.2.answer c (.refused kind op.cue)
          | .queued => r.2.sleep c true
          | .nack => (r.2.answer c (.nack op)).sleep c true
      | _ => r.2

def execCueOpArrive (i : Nat) (s : State) : Out := act s (cueOpArrive i)

/-! ### Cue instructions (R338) -/

/-- The field rules of each instruction. -/
def cueFieldsOk (fn : Nat) (w : W64) : Bool :=
  let imm := immOf w
  match fn with
  | 0 => regsOk w false true false && decide (1 ≤ imm ∧ imm < 256)
  | 1 => regsOk w true true false && decide (1 ≤ imm % 2 ^ 24) && decide (imm / 2 ^ 24 % 128 = 0)
  | 2 => regsOk w true true false && decide (1 ≤ imm ∧ imm < 2 ^ 24)
  | 3 => regsOk w true true false && decide (1 ≤ imm ∧ imm < 2 ^ 24)
  | 4 => regsOk w true true true && imm == 0
  | 5 => regsOk w true true false && imm == 0
  | 6 => regsOk w true true true && decide (imm < 2)
  | _ => regsOk w true true false && imm == 0

/-- The operand an instruction sends. -/
def cueArg (fn : Nat) (w : W64) (rb : W64) : Nat :=
  if fn = 0 ∨ fn = 2 ∨ fn = 3 then immOf w
  else if fn = 1 then immOf w % 2 ^ 24
  else if fn = 4 ∨ fn = 6 then rb.toNat
  else 0

/-- TVAL of a cue fault (R340). -/
def cueTval (kind cue : Nat) : Nat := kind * 2 ^ 24 + cue % 2 ^ 14

/-- A refusal found at the core, or returned to it, of a round-trip instruction: WAIT with NOTRAP writes the kind and
retires; anything else traps. -/
def Dev.cueRefuse (d : Dev) (c fn cue rd kind : Nat) (notrap : Bool) : Dev :=
  if fn = 1 && notrap then ((d.setS c rd (BitVec.ofNat 64 kind)).retire c).endWait c
  else d.endWaitTrap c 10 (cueTval kind cue)

/-- Issue of the instruction with function `fn`. -/
def cueIssue (fn c : Nat) (d : Dev) : Dev :=
  d.issue c (isOpFn 0x38 fn) (fun d w =>
    d.checked c w (cueFieldsOk fn w) (fun d =>
      let ra := (d.sreg c (raOf w)).toNat
      let cue := ra % 2 ^ 14
      let notrap := fn == 1 && W64.bits w 31 31 == 1
      let refused :=
        if 2 ^ 14 ≤ ra then some 3
        else if d.meshLost (coreCluster c) (cueCluster cue) then some 7
        else none
      let op : CueOp :=
        { req := .core c (d.pc c), fn := fn, cue := cue, arg := cueArg fn w (d.sreg c (rbOf w)), co := immOf w == 1,
          tenant := d.rd CORE_SEQ_TENANT.TENANT c, part := d.corePart c }
      if fn = 0 then
        match refused with
        | some kind => (d.updCore c (fun k => { k with sigRef := k.sigRef ++ [(kind, d.pc c, cue)] })).retire c
        | none =>
          let posted := d.cueOps.filter (fun o => o.fn == 0 && o.req.id == 4 * c)
          if 16 ≤ posted.length then d else (d.postCue op).retire c
      else
        match refused with
        | some kind => d.cueRefuse c fn cue (rdOf w) kind notrap
        | none => (d.postCue op).setWait c (.cue fn cue (rdOf w) notrap false)))

def execSignal (c : Nat) (s : State) : Out := act s (cueIssue 0 c)
def execWait (c : Nat) (s : State) : Out := act s (cueIssue 1 c)
def execTake (c : Nat) (s : State) : Out := act s (cueIssue 2 c)
def execTrywait (c : Nat) (s : State) : Out := act s (cueIssue 3 c)
def execArm (c : Nat) (s : State) : Out := act s (cueIssue 4 c)
def execCread (c : Nat) (s : State) : Out := act s (cueIssue 5 c)
def execCinit (c : Nat) (s : State) : Out := act s (cueIssue 6 c)
def execCfree (c : Nat) (s : State) : Out := act s (cueIssue 7 c)

/-! ### What returns to a core -/

/-- Drop the first answer. -/
def Dev.dropAns (d : Dev) (c : Nat) : Dev := d.updCore c (fun k => { k with cueAns := k.cueAns.drop 1 })

/-- The result of a round trip returns (R340). -/
def cueReply (c : Nat) (d : Dev) : Dev :=
  match (d.core c).cueAns, (d.core c).wait with
  | .value v :: _, .cue _ _ rd _ _ => (((d.dropAns c).setS c rd (BitVec.ofNat 64 v)).retire c).endWait c
  | .refused kind cue :: _, .cue fn _ rd notrap _ => (d.dropAns c).cueRefuse c fn cue rd kind notrap
  | .value _ :: _, _ => d.dropAns c
  | .refused _ _ :: _, _ => d.dropAns c
  | _, _ => d

def execCueReply (c : Nat) (s : State) : Out := act s (cueReply c)

/-- A refused wake: the k of a grant is added back and the queue is served again (R343). -/
def Dev.refuseWake (d : Dev) (cue k kind : Nat) : Dev :=
  if kind = 0 then (d.setCount cue (d.cueCount cue + k)).serveCue cue else d

/-- A wake reaches the core: its WAIT retires, or, woken with a fault kind, is refused; a core inside a Curtain, or not
waiting, refuses a grant, and k is added back (R343). -/
def cueWake (c : Nat) (d : Dev) : Dev :=
  match (d.core c).cueAns with
  | .wake cue k kind :: _ =>
    match (d.core c).wait, d.coreCurtained c with
    | .cue fn _ rd notrap _, false =>
      if kind = 0 then (((d.dropAns c).setS c rd 0).retire c).endWait c
      else (d.dropAns c).cueRefuse c fn cue rd kind notrap
    -- a wake for the context agent ends a waiting admission (R200)
    | .seq _, false => d
    | _, _ => (d.dropAns c).refuseWake cue k kind
  | _ => d

def execCueWake (c : Nat) (s : State) : Out := act s (cueWake c)

/-- Remove a core's waiter entry from a cue's queue, and serve those behind it. -/
def Dev.removeWaiter (d : Dev) (c : Nat) : Dev :=
  match d.waiters.find? (fun w => w.core == c) with
  | none => d
  | some w => ({ d with waiters := d.waiters.erase w }).serveCue w.cue

/-- The cancel of a core's WAIT reaches the cue (R343): an entry still queued is removed and the WAIT is abandoned;
after a grant the WAIT completes by its wake. -/
def cueCancel (c : Nat) (d : Dev) : Dev :=
  match (d.core c).wait with
  | .cue _ _ _ _ true =>
    if d.cueOps.any (fun o => o.req.id == 4 * c && o.fn == 1) then d
    else if d.waiters.any (fun w => w.core == c) then ((d.removeWaiter c).sleep c false).setWait c .run
    else
      match (d.core c).cueAns with
      | .nack _ :: _ => ((d.dropAns c).sleep c false).setWait c .run
      | _ => d
  | _ => d

def execCueCancel (c : Nat) (s : State) : Out := act s (cueCancel c)

/-- A WAIT answered NACK is sent again (R342). -/
def waitNackResend (c : Nat) (d : Dev) : Dev :=
  match (d.core c).cueAns, (d.core c).wait with
  | .nack op :: _, .cue _ _ _ _ false => (d.dropAns c).postCue op
  | .nack _ :: _, .cue _ _ _ _ true => d
  | .nack _ :: _, _ => d.dropAns c
  | _, _ => d

def execWaitNackResend (c : Nat) (s : State) : Out := act s (waitNackResend c)

/-- A refused SIGNAL returns and raises SIG_OVERFLOW or SIG_REFUSED (R341). -/
def signalRefused (c : Nat) (d : Dev) : Dev :=
  match (d.core c).sigRef with
  | [] => d
  | (kind, pc, cue) :: rest =>
    let code := if kind = 4 then 0x801 else 0x802
    (d.updCore c (fun k => { k with sigRef := rest })).unitTrap c (cue * 2 ^ 32 + code * 65536 + pc)

def execSignalRefused (c : Nat) (s : State) : Out := act s (signalRefused c)

/-! ### Host commands (R356, R357) -/

/-- A CL_CUE_CMD command on cue `j` of cluster `g`. A command takes a few MESH cycles, so BUSY is never seen set between
commands; a refusal shows in RESULT. -/
def Dev.cueCmd (d : Dev) (g : Nat) (f : Dev → CueRes × Dev) : Dev :=
  if d.bit CL_CUE_STAT.BUSY g then d.wr CL_CUE_STAT.CMD_LOST 1 g
  else
    match f (d.add CL_CUE_OPS.OPS 1 g) with
    | (.refused _, d) => d.wr CL_CUE_STAT.RESULT 2 g
    | (_, d) => d.wr CL_CUE_STAT.RESULT 1 g

/-- An operation of host software: the state rules of R336 and R339, without tenant and partition checks. -/
def Dev.cueHost (d : Dev) (fn cue arg : Nat) (co : Bool) (tenant who : Nat) : CueRes × Dev :=
  match stateRefusal (d.cueState cue) fn with
  | some kind => (.refused kind, d.noteRefusal fn cue kind)
  | none =>
    match d.cueOp fn cue arg co tenant who false with
    | (.refused kind, d) => (.refused kind, d.noteRefusal fn cue kind)
    | r => r

def Dev.cueCmdInit (d : Dev) (g j : Nat) (co : Bool) : Dev :=
  d.cueCmd g (fun d =>
    d.cueHost 6 (cueNum g j) (d.rd CL_CUE_ARG0.VALUE g + d.rd CL_CUE_ARG1.LIMIT g * 2 ^ 24) co
      (d.rd CL_CUE_ARG2.TENANT g) (d.rd CL_CUE_ARG2.OWNER_CORE g))

def Dev.cueCmdFree (d : Dev) (g j : Nat) : Dev := d.cueCmd g (fun d => d.cueHost 7 (cueNum g j) 0 false 0 0)

/-- The cue goes BROKEN and wakes its waiters with that kind (R336). -/
def Dev.breakCue (d : Dev) (cue : Nat) : Dev := (d.setCueState cue 4).wakeAll cue 6

def Dev.cueCmdBreak (d : Dev) (g j : Nat) : Dev :=
  d.cueCmd g (fun d => if d.cueState (cueNum g j) = 0 then (.refused 2, d) else (.value 0, d.breakCue (cueNum g j)))

def Dev.cueCmdSignal (d : Dev) (g j : Nat) : Dev :=
  d.cueCmd g (fun d =>
    let n := d.rd CL_CUE_ARG0.VALUE g
    if n = 0 then (.refused 3, d) else d.cueHost 0 (cueNum g j) n false 0 0)

def Dev.cueCmdNop (d : Dev) (g : Nat) : Dev :=
  if d.bit CL_CUE_STAT.BUSY g then d.wr CL_CUE_STAT.CMD_LOST 1 g else d

def execCueCmdInit (g j : Nat) (co : Bool) (s : State) : Out := act s (fun d => d.clusterReg g (fun d => d.cueCmdInit g j co))
def execCueCmdFree (g j : Nat) (s : State) : Out := act s (fun d => d.clusterReg g (fun d => d.cueCmdFree g j))
def execCueCmdBreak (g j : Nat) (s : State) : Out := act s (fun d => d.clusterReg g (fun d => d.cueCmdBreak g j))
def execCueCmdSignal (g j : Nat) (s : State) : Out := act s (fun d => d.clusterReg g (fun d => d.cueCmdSignal g j))
def execCueCmdNop (g : Nat) (s : State) : Out := act s (fun d => d.clusterReg g (fun d => d.cueCmdNop g))

end Sys2Proof.Machine
end

