-- ==== Sys2Proof/Machine/Net.lean ====
section
/-! DEFINITION. Fabric ports: frames, routes, MACsec and priority flow control at the ports, sending and the checks of a
received frame (R383-R397, R411, R412). -/
namespace Sys2Proof.Machine
open Sys2Proof

/-! ### Ports -/

def unitPort (p : Nat) : Nat := unitHalf (p / 4) 20 (p % 4)

/-- Port `p` is UP. -/
def Dev.fportUp (d : Dev) (p : Nat) : Bool := decide (p < 8) && d.rd FPORT_STAT.LINK p == 2

def Dev.ownDev (d : Dev) : Nat := d.rd FAB_ID.DEV

/-- The half whose transport engine serves a connection, and that half's port 0. -/
def connHalf (c : Nat) : Nat := c / 4096 % 2
def tePort (c : Nat) : Nat := 4 * connHalf c

/-- MACsec on sending (R412): whether the port may send a frame, and the association and packet number that protect it. -/
def Dev.txSec (d : Dev) (p : Nat) : Option (Option (Nat × Nat)) × Dev :=
  let an := d.rd FPORT_SEC_CTRL.TX_AN p
  if !d.bit FPORT_SEC_CTRL.EN p then (some none, d)
  else if !(d.rd FPORT_SEC_STAT.TX_VALID p).testBit an || d.bit FPORT_SEC_STAT.PN_EXHAUST p then (none, d)
  else
    let pn := d.rd FPORT_SA_d_a_PN.PN p an + 1
    let d := d.wr FPORT_SA_d_a_PN.PN pn p an
    let d := if pn = 2 ^ 63 then d.wr FPORT_SEC_STAT.PN_WARN 1 p else d
    (some (some (an, pn - 1)), if pn = 2 ^ 64 - 1 then d.wr FPORT_SEC_STAT.PN_EXHAUST 1 p else d)

/-- LLDP frames pass unprotected (R411), and PFC frames below MACsec. -/
def Output.isPlain : Output → Bool
  | .frame _ _ (.lldp ..) => true
  | .frame _ _ (.pfc ..) => true
  | _ => false

def Output.withSec (o : Output) (sec : Option (Nat × Nat)) : Output :=
  match o with
  | .fft p _ e f => .fft p sec e f
  | .frame p _ f => .frame p sec f
  | o => o

/-- A frame leaves a port that is UP. -/
def Dev.portEmit (d : Dev) (p : Nat) (o : Output) : Dev :=
  if !d.fportUp p then d
  else
    let r := if o.isPlain then (some none, d) else d.txSec p
    match r.1 with
    | some sec => (r.2.emit (o.withSec sec)).add FPORT_TX_FRAMES.FRAMES 1 p
    | none => r.2

/-- A frame of a priority is sent, or waits while its priority is paused (R387). -/
def Dev.portSend (d : Dev) (p prio : Nat) (o : Output) : Dev :=
  match FMap.find d.pfcHeld p, FMap.find d.pfcOn p with
  | some l, some pr => if pr = prio then { d with pfcHeld := FMap.set d.pfcHeld p (l ++ [o]) } else d.portEmit p o
  | _, _ => d.portEmit p o

/-! ### FFT packets (R391) -/

/-- Bytes of a field, most significant first. -/
def beBytes (v n : Nat) : List Byte := (bytesOf v n).reverse

/-- Header bytes 0-35. -/
def fftHeader (f : Fft) : List Byte :=
  [BitVec.ofNat 8 (f.major * 16 + f.minor), BitVec.ofNat 8 f.typ, BitVec.ofNat 8 f.flags, BitVec.ofNat 8 f.path] ++
  beBytes f.dstDev 2 ++ beBytes f.srcDev 2 ++ beBytes f.dstConn 2 ++ beBytes f.srcConn 2 ++ beBytes f.epoch 1 ++
  beBytes f.psn 3 ++ beBytes f.aux 4 ++ beBytes f.rda 6 ++ beBytes f.len 2 ++ beBytes f.check 4 ++ beBytes f.cue 4

/-- The ECRC of a packet. -/
def fftCrc (f : Fft) : Nat := (crc32c (fftHeader f ++ bytesOf f.payload f.len)).toNat

def fftFlag (f : Fft) (i : Nat) : Bool := f.flags.testBit i

/-- The 16-bit words of a string of bytes, most significant byte first, added up. -/
def sum16 : List Byte → Nat
  | [] => 0
  | [a] => a.toNat * 256
  | a :: b :: t => a.toNat * 256 + b.toNat + sum16 t

/-- The checksum of UDP over IPv6 of an FFT packet (R390): the complement of the one's complement sum of the pseudo-header,
the UDP header and the packet; zero is sent as all ones. -/
def udpSum (u : Udp) (f : Fft) : Nat :=
  let len := 48 + f.len
  let s := sum16 (beBytes u.src 16 ++ beBytes u.dst 16) + len + 17 + u.sport + u.dport + len +
    sum16 (fftHeader f ++ beBytes f.ecrc 4 ++ bytesOf f.payload f.len)
  65535 - s % 65535

/-- A packet of a type to a device, with every other field zero. -/
def Dev.newFft (d : Dev) (typ dst : Nat) : Fft :=
  { typ := typ, major := 1, minor := 0, flags := 0, path := 0, dstDev := dst, srcDev := d.ownDev, dstConn := 0,
    srcConn := 0, epoch := 0, psn := 0, aux := 0, rda := 0, len := 0, check := 0, cue := 0, ecrc := 0, payload := 0 }

/-! ### Routes and paths (R395-R397) -/

/-- Entry `n` of the routing bank active in half `h` matches a device ID. -/
def Dev.rtMatches (d : Dev) (h dev n : Nat) : Bool :=
  d.bankBit h FAB_RTn_CTRL.VALID 0 n &&
  (dev &&& d.bankRd h FAB_RTn_CTRL.MASK 0 n) == (d.bankRd h FAB_RTn_CTRL.DEV 0 n &&& d.bankRd h FAB_RTn_CTRL.MASK 0 n)

/-- The routing entry of a device, for a send that half `h` serves; a second match is noted. -/
def Dev.routeEntryOf (d : Dev) (h dev : Nat) : Option Nat × Dev :=
  match (List.range 1024).filter (d.rtMatches h dev) with
  | [] => (none, d)
  | [e] => (some e, d)
  | e :: _ => (some e, d.wr FAB_STAT.MULTI_HIT 1)

/-- The ports an entry's paths use. -/
def Dev.rtPorts (d : Dev) (h e : Nat) : List Nat :=
  (List.range 8).filter (fun p => (d.bankRd h FAB_RTn_PORTS.PORTS 0 e).testBit p && d.fportUp p)

/-- How many paths an entry offers; in ETH there is one per port. -/
def Dev.rtPaths (d : Dev) (h e : Nat) : Nat :=
  (d.rtPorts h e).length *
    (if d.bankRd h FAB_RTn_CTRL.ENCAP 0 e = 0 then 1 else 2 ^ min 2 (d.bankRd h FAB_RTn_CTRL.SUBPATHS 0 e))

/-- The port of path `k`. -/
def Dev.rtPort (d : Dev) (h e k : Nat) : Nat := (d.rtPorts h e).getD (k % (d.rtPorts h e).length) 0

/-! ### Addresses and encapsulation (R390, R394, R396) -/

/-- A template with bits [12:0] replaced by (device ID << 3) | port. -/
def withDevPort (tmpl dev p : Nat) : Nat := tmpl / 2 ^ 13 * 2 ^ 13 + dev % 2 ^ 10 * 8 + p

/-- The MAC address of port `p`. -/
def Dev.portMac (d : Dev) (p : Nat) : Nat :=
  withDevPort (d.rd FAB_MAC_TMPL_HI.MAC * 2 ^ 32 + d.rd FAB_MAC_TMPL_LO.MAC * 2 ^ 13) d.ownDev p

/-- The IP address of port `p`; UDP4 uses its bits [31:0]. -/
def Dev.portIp (d : Dev) (p : Nat) : Nat :=
  withDevPort ((List.range 4).foldl (fun v n => v + d.rd FAB_IP_TMPL.IP 0 n * 2 ^ (32 * n)) 0) d.ownDev p

/-- The headers of a packet that half `h` sends on path `k` of entry `e`. -/
def Dev.encap (d : Dev) (h e k : Nat) (f : Fft) : Encap :=
  let q := d.rtPort h e k
  let tag := if d.bankBit h FAB_RTn_PORTS.TAG 0 e
    then some (d.bankRd h FAB_RTn_PORTS.PCP 0 e, d.bankRd h FAB_RTn_PORTS.VID 0 e) else none
  let kind := d.bankRd h FAB_RTn_CTRL.ENCAP 0 e
  if kind = 0 then
    { dstMac := withDevPort (d.bankRd h FAB_RTn_MAC_HI.MAC 0 e * 2 ^ 32 + d.bankRd h FAB_RTn_MAC_LO.MAC 0 e * 2 ^ 13) f.dstDev q,
      srcMac := d.portMac q, tag := tag, carrier := .eth (d.rd FAB_ENCAP.ETYPE) }
  else
    let tmpl := (List.range 4).foldl (fun v n => v + d.bankRd h FAB_RTn_IP.IP 0 e n * 2 ^ (32 * n)) 0
    let w := if kind = 1 then 2 ^ 32 else 2 ^ 128
    let u : Udp :=
      -- the ECN codepoint is ECT(0)
      { v6 := kind != 1, src := d.portIp q % w, dst := withDevPort tmpl f.dstDev q % w, dscp := d.rd FAB_IPCFG.DSCP, ecn := 2,
        hops := d.rd FAB_IPCFG.HOPS, sport := 0xC000 + (f.srcConn * 32 + k) % 16384, dport := d.rd FAB_ENCAP.UDP_PORT,
        sum := none, df := true, bare := true }
    { dstMac := d.bankRd h FPORT_NEXTHOP_HI.MAC q * 2 ^ 32 + d.bankRd h FPORT_NEXTHOP_LO.MAC q,
      srcMac := d.portMac q, tag := tag,
      carrier := .udp (if kind = 1 then { u with sum := some 0 } else { u with df := false, sum := some (udpSum u f) }) }

/-- The half that serves a packet: the one of its connection, and for the agreement's packets the home of FAB_. -/
def fftHalf (f : Fft) : Nat := if 16 ≤ f.typ ∧ f.typ ≤ 19 then 1 else connHalf f.srcConn

/-- A packet leaves on path `k` of an entry. -/
def Dev.sendOnPath (d : Dev) (e k : Nat) (f : Fft) : Dev :=
  let f := { f with path := k }
  let f := { f with ecrc := fftCrc f }
  let h := fftHalf f
  let prio := if d.bankBit h FAB_RTn_PORTS.TAG 0 e then d.bankRd h FAB_RTn_PORTS.PCP 0 e else 0
  let p := d.rtPort h e k
  d.portSend p prio (.fft p none (d.encap h e k f) f)

/-- An unsequenced packet is sent: on a path given, or on one that the spec leaves open. -/
def Dev.sendPlain (d : Dev) (f : Fft) (path : Option Nat := none) : Dev :=
  match d.routeEntryOf (fftHalf f) f.dstDev with
  | (none, d) => d.wr FAB_STAT.RT_MISS 1
  | (some e, d) =>
    let n := d.rtPaths (fftHalf f) e
    if n = 0 then d
    else
      match path with
      | some k => d.sendOnPath e (k % n) f
      | none =>
        let v := d.draw 32
        v.2.sendOnPath e (v.1.toNat % n) f

/-! ### Receiving (R393) -/

/-- A frame is dropped for a cause of FPORT_DROP. -/
def Dev.dropFrame (d : Dev) (p bit : Nat) : Dev :=
  (d.add FPORT_RX_DROP.FRAMES 1 p).wr FPORT_DROP.WHY (d.rd FPORT_DROP.WHY p ||| 2 ^ bit) p

/-- MACsec on receiving (R411): whether the frame passes. The lowest packet number accepted is the PN register, or
REPLAY_WIN below the highest accepted. -/
def Dev.rxSec (d : Dev) (r : Rx) : Bool × Dev :=
  let p := r.port
  let fail := (false, (d.addSat FPORT_SEC_DROP.COUNT 1 p).add FPORT_RX_DROP.FRAMES 1 p)
  match r.sec with
  | none => if d.bit FPORT_SEC_CTRL.EN p then fail else (true, d)
  | some (an, pn, ok) =>
    let an := an % 4
    let high := FMap.get d.secHigh 0 (p * 4 + an)
    let low := max (d.rd FPORT_SA_d_a_PN.PN p (4 + an)) (high - d.rd FPORT_SEC_CTRL.REPLAY_WIN p)
    if !d.bit FPORT_SEC_CTRL.EN p then (false, d.dropFrame p 6)
    else if !ok || !(d.rd FPORT_SEC_STAT.RX_VALID p).testBit an || decide (pn < low) then fail
    else (true, { d with secHigh := FMap.set d.secHigh (p * 4 + an) (max high pn) })

/-- The port's own flow control (R387): it pauses PFC_PRIO when its receive buffer comes to hold more than 3 MiB of it, and
releases it when that falls below 2 MiB. -/
def Dev.pfcLevel (d : Dev) (p mine : Nat) : Dev :=
  match FMap.find d.pfcOn p with
  | none => d
  | some prio =>
    if 3 * 2 ^ 20 < mine ∧ !d.pfcSent.contains p then
      { d with pfcSent := d.pfcSent ++ [p] }.portEmit p (.frame p none (.pfc prio 0xFFFF))
    else if mine < 2 * 2 ^ 20 ∧ d.pfcSent.contains p then
      { d with pfcSent := d.pfcSent.filter (· != p) }.portEmit p (.frame p none (.pfc prio 0))
    else d

/-- The frame's EtherType. -/
def isEth (r : Rx) (t : Nat) : Bool := r.enc.carrier == .eth t

/-- The frame is marked CE (R408). -/
def rxCe (r : Rx) : Bool := match r.enc.carrier with | .udp u => u.ecn == 3 | _ => false

/-- Steps 1 to 3, for a kind of frame the port accepts, whose encapsulation is `ok`. `plain` frames pass unprotected. A
frame that finds the 4 MiB receive buffer full is dropped, and a PAUSE frame is ignored (R386, R387). -/
def Dev.rxFrame (d : Dev) (r : Rx) (ok : Bool) (plain : Bool := false) : Bool × Dev :=
  let p := r.port
  if !d.fportUp p then (false, d)
  else if !r.fcs then (false, d.dropFrame p 7)
  else
    let d := (d.add FPORT_RX_FRAMES.FRAMES 1 p).pfcLevel p r.mine
    if 4 * 2 ^ 20 < r.buf then (false, d.dropFrame p 0)
    else if !ok && isEth r 0x8808 then (false, d)
    else
      let s := if plain then (true, d) else d.rxSec r
      if !s.1 then s
      else if !ok then (false, s.2.dropFrame p 6)
      else s

/-- The encapsulation of a received FFT packet (R390): the EtherType, or the UDP port and, in IPv6, the checksum. -/
def Dev.fftEncap (d : Dev) (r : Rx) (f : Fft) : Bool :=
  match r.enc.carrier with
  | .eth t => t == d.rd FAB_ENCAP.ETYPE
  | .udp u => u.bare && u.dport == d.rd FAB_ENCAP.UDP_PORT && (!u.v6 || u.sum == some (udpSum u f))
  | .icmp6 .. => false

/-- The packet types of R392 and R427-R437. -/
def fftTypes : List Nat := [1, 2, 3, 4, 5, 6, 8, 9, 10, 11, 12, 13, 16, 17, 18, 19, 20]

/-- Steps 4 to 6 of an FFT packet that is to be of a type. A JOIN, JOIN_ACK or JOIN_DONE is accepted whatever its
version (R430). -/
def Dev.rxFft (d : Dev) (r : Rx) (f : Fft) (typ : Nat) : Bool × Dev :=
  let p := r.port
  let s := d.rxFrame r (d.fftEncap r f)
  if !s.1 then s
  else
    let d := if rxCe r then s.2.add FPORT_CE.FRAMES 1 p else s.2
    let anyVer := decide (16 ≤ f.typ ∧ f.typ ≤ 18)
    if f.ecrc ≠ fftCrc f then (false, d.dropFrame p 5)
    else if (f.major ≠ 1 && !anyVer) || !fftTypes.contains f.typ then (false, d.dropFrame p 4)
    else if f.dstDev ≠ d.ownDev then (false, d.dropFrame p 3)
    else (decide (f.typ = typ), d)

end Sys2Proof.Machine
end

