-- ==== Sys2Proof/Machine/Conns.lean ====
section
/-! DEFINITION. Connections: contexts, sending and accepting sequenced packets, completion of work requests, aborts and
what they end (R400-R409), and how a collective ends (R428). -/
namespace Sys2Proof.Machine
open Sys2Proof

/-! ### Contexts (R400) -/

def Conn.part (k : Conn) : Nat := word32 k.ctx 0 / 2 ^ 16 % 64
def Conn.tenant (k : Conn) : Nat := word32 k.ctx 0 % 2 ^ 12
def Conn.peerDev (k : Conn) : Nat := word32 k.ctx 1 / 2 ^ 16 % 2 ^ 10
def Conn.peerConn (k : Conn) : Nat := word32 k.ctx 1 % 2 ^ 13
def Conn.window (k : Conn) : Nat := max 1 (min 512 (word32 k.ctx 3 / 2 ^ 16 % 2 ^ 10))
def Conn.sqBase (k : Conn) : Nat := word32 k.ctx 4 / 64 * 64 + word32 k.ctx 5 % 2 ^ 16 * 2 ^ 32
def Conn.sqLog2 (k : Conn) : Nat := max 4 (min 12 (word32 k.ctx 5 / 2 ^ 16 % 16))
def Conn.cqBase (k : Conn) : Nat := word32 k.ctx 7 / 16 * 16 + word32 k.ctx 8 % 2 ^ 16 * 2 ^ 32
def Conn.cqLog2 (k : Conn) : Nat := max 4 (min 12 (word32 k.ctx 8 / 2 ^ 16 % 16))
/-- The connection has a completion ring. -/
def Conn.hasCq (k : Conn) : Bool := decide (word32 k.ctx 7 ≠ 0 ∨ word32 k.ctx 8 % 2 ^ 16 ≠ 0)

/-- The engine state that a context image gives. -/
def Conn.ofCtx (ctx : Nat) : Conn :=
  { ctx := ctx, st := word32 ctx 0 / 2 ^ 29, cause := word32 ctx 0 / 2 ^ 25 % 16, epoch := word32 ctx 2,
    sqCi := word32 ctx 6 / 2 ^ 16, sqPi := word32 ctx 6 % 2 ^ 16, cqPi := word32 ctx 9 % 2 ^ 16, rate := 0,
    next := word32 ctx 6 / 2 ^ 16, txPsn := 0, txq := [], rxE := 0, rxSet := [], rxMarks := [], held := [], sinceAck := 0,
    wrs := [], rr := 0, lastMark := none, marks := [], cmd := false }

def Dev.ctxAddr (d : Dev) (c : Nat) : Nat := d.rd FAB_PEER_BASE.DA * 128 + 128 * c

/-- The transport engine of half `h` reads memory on the cached path; what addresses nothing reads as zeros (R28). -/
def Dev.engRead (d : Dev) (h da n : Nat) : MRes × Dev :=
  match d.daRefused da with
  | some cls => (⟨0, false, false⟩, d.err cls 1 (unitHalf h 20 0) da)
  | none => d.cachedRead da n none

def Dev.engWrite (d : Dev) (h da n v : Nat) : Dev :=
  match d.daRefused da with
  | some cls => d.err cls 2 (unitHalf h 20 0) da
  | none => d.cachedWrite da n v none

def Dev.conn (d : Dev) (c : Nat) : Conn := FMap.get d.conns (Conn.ofCtx 0) c

/-- How many connections of a half are OPEN (R410). -/
def Dev.noteOpen (d : Dev) (c : Nat) : Dev :=
  d.wr FPORT_TE_STAT.OPEN (d.conns.filter (fun e => e.2.st == 2 && connHalf e.1 == connHalf c)).length (tePort c)

/-- Write STATE, CAUSE, EPOCH, RATE, SQ_CI, SQ_PI and CQ_PI back to the context (R400). -/
def Dev.ctxPut (d : Dev) (c : Nat) (k : Conn) : Dev :=
  let a := d.ctxAddr c
  let h := connHalf c
  let d := d.engWrite h a 4 (k.st * 2 ^ 29 + k.cause * 2 ^ 25 + word32 k.ctx 0 % 2 ^ 25)
  let d := d.engWrite h (a + 8) 4 k.epoch
  let d := d.engWrite h (a + 12) 2 k.rate
  let d := d.engWrite h (a + 24) 4 (k.sqCi * 2 ^ 16 + k.sqPi)
  d.engWrite h (a + 36) 2 k.cqPi

/-- Set a connection's engine state, writing back what has changed. -/
def Dev.setConn (d : Dev) (c : Nat) (k : Conn) : Dev :=
  let o := d.conn c
  let d' := ({ d with conns := FMap.set d.conns c k }).noteOpen c
  if (FMap.find d.conns c).isSome ∧ o.st = k.st ∧ o.cause = k.cause ∧ o.epoch = k.epoch ∧ o.sqCi = k.sqCi ∧
    o.sqPi = k.sqPi ∧ o.cqPi = k.cqPi ∧ o.rate = k.rate then d' else d'.ctxPut c k

def Dev.updConn (d : Dev) (c : Nat) (f : Conn → Conn) : Dev := d.setConn c (f (d.conn c))

/-- A packet of a connection's stream, with its header's connection fields. -/
def Dev.connFft (d : Dev) (c typ : Nat) : Fft :=
  let k := d.conn c
  { d.newFft typ k.peerDev with dstConn := k.peerConn, srcConn := c, epoch := k.epoch % 256 }

/-! ### Sending sequenced packets (R397, R402, R405, R406) -/

/-- Congestion marks of a path in the last 64 µs. -/
def Conn.marksOf (k : Conn) (now path : Nat) : Nat := (k.marks.filter (fun m => m.1 == path && decide (now ≤ m.2 + 64000))).length

/-- The path of a first send among `n` (R397). -/
def Dev.choosePath (d : Dev) (e c n : Nat) : Nat :=
  let k := d.conn c
  match d.bankRd (connHalf c) FAB_RTn_CTRL.SPREAD 0 e with
  | 0 => c % n
  | 1 => k.rr % n
  | _ => (List.range n).foldl (fun b p => if k.marksOf d.now p < k.marksOf d.now b then p else b) 0

/-- The bytes of a packet's source, piece by piece: value, uncorrectable or refused, poisoned, refused. -/
def Dev.gather (h : Nat) : List (Nat × Nat) → Dev → MRes × Bool × Dev
  | [], d => (⟨0, false, false⟩, false, d)
  | (da, n) :: t, d =>
    let r := d.engRead h da n
    let rest := Dev.gather h t r.2
    (⟨r.1.val % 256 ^ n + 256 ^ n * rest.1.val, r.1.ue || rest.1.ue, r.1.poison || rest.1.poison⟩,
     (d.daRefused da).isSome || rest.2.1, rest.2.2)

/-- The contents of a packet's payload and its POISON, WHOLE and CHECK (R402, R406), and whether its source was
refused. -/
def Dev.payloadOf (d : Dev) (c : Nat) (p : TxPkt) : (Nat × Bool × Bool × Nat × Bool) × Dev :=
  let src := (p.src.head?.map Prod.fst).getD 0
  if p.typ = 2 then ((src, false, false, 0, false), d)
  else if p.len = 0 then ((0, false, false, 0, false), d)
  else if p.whole && (d.daRefused src).isNone then
    let r := d.cachedReadBlock src none
    let poison := r.1.poison || r.1.ue
    let chk := (r.2.chkOf src).toNat ^^^ (blockCheck src r.1.val).toNat ^^^ (blockCheck p.rda r.1.val).toNat
    ((r.1.val, poison, true, if poison then 0xA5C33C5A else chk, false), r.2)
  else
    let r := Dev.gather (connHalf c) p.src d
    ((r.1.val, r.1.poison || r.1.ue || r.2.1, false, 0, r.2.1), r.2.2)

def flagBits (first last whole poison ackreq retx : Bool) : Nat :=
  (if first then 128 else 0) + (if last then 64 else 0) + (if whole then 32 else 0) + (if poison then 16 else 0) +
  (if ackreq then 8 else 0) + (if retx then 4 else 0)

/-- The status of a started work request, kept once it is not OK. -/
def Conn.wrStatus (k : Conn) (idx st : Nat) : Conn :=
  { k with wrs := k.wrs.map (fun w => if w.idx = idx ∧ w.status = 0 then { w with status := st } else w) }

/-- Send packet `psn` of a connection: for the first time, or again on the next path with RETX. A packet without a route
or a path is not sent, and counts as lost. -/
def Dev.sendPsn (d : Dev) (c psn : Nat) (retx : Bool) : Dev :=
  match (d.conn c).txq.find? (fun p => p.psn == psn) with
  | none => d
  | some p =>
    let note := fun (d : Dev) (path : Nat) => d.updConn c (fun k =>
      { k with rr := k.rr + (if retx then 0 else 1),
               txq := k.txq.map (fun q => if q.psn = psn then { q with sent := true, path := path, time := d.now } else q) })
    match d.routeEntryOf (connHalf c) (d.conn c).peerDev with
    | (none, d) => note (d.wr FAB_STAT.RT_MISS 1) p.path
    | (some e, d) =>
      let n := d.rtPaths (connHalf c) e
      if n = 0 then note d p.path
      else
        let d := if retx then d.add FPORT_TE_RETX.PKTS 1 (tePort c) else d.add FPORT_TE_TX_PKTS.PKTS 1 (tePort c)
        let path := if retx then (p.path + 1) % n else d.choosePath e c n
        let r := d.payloadOf c p
        let d := if r.1.2.2.2.2 then (match p.wr with | some i => r.2.updConn c (fun k => k.wrStatus i 4) | none => r.2) else r.2
        let f : Fft := { d.connFft c p.typ with
          flags := flagBits p.first p.last r.1.2.2.1 r.1.2.1 p.ackreq retx, psn := psn, aux := p.aux, rda := p.rda,
          len := p.len, check := r.1.2.2.2.1, cue := p.cue, payload := r.1.1 }
        let d := if p.coll.isSome then d.add COLL_BYTES.BYTES p.len (connHalf c) else d
        note (d.sendOnPath e path f) path

/-- Send packets not yet sent while the window has room: at most WINDOW lie between the lowest not released and the last
sent. -/
def Dev.pumpAux (c : Nat) : Nat → Dev → Dev
  | 0, d => d
  | fuel + 1, d =>
    let k := d.conn c
    match (k.txq.take k.window).find? (fun p => !p.sent) with
    | none => d
    | some p => Dev.pumpAux c fuel (d.sendPsn c p.psn false)

def Dev.pump (d : Dev) (c : Nat) : Dev :=
  if (d.conn c).st = 2 ∨ (d.conn c).st = 3 then Dev.pumpAux c (d.conn c).window d else d

/-- Place packets at the end of a connection's stream, numbering them. -/
def Dev.queuePkts (d : Dev) (c : Nat) (ps : List TxPkt) : Dev :=
  d.updConn c (fun k =>
    ps.foldl (fun k p => { k with txPsn := (k.txPsn + 1) % 2 ^ 24, txq := k.txq ++ [{ p with psn := k.txPsn }] }) k)

/-- A packet not yet numbered or sent. -/
def TxPkt.blank (typ : Nat) : TxPkt :=
  { psn := 0, typ := typ, wr := none, coll := none, src := [], aux := 0, rda := 0, len := 0, cue := 0, first := true,
    last := true, whole := false, ackreq := true, sent := false, path := 0, tries := 0, time := 0, acked := false }

/-- Cut `n` bytes at the 4 KiB boundaries of RDA: source DA, RDA and bytes of each packet. -/
def cutRda : Nat → Nat → Nat → Nat → List (Nat × Nat × Nat)
  | 0, _, _, _ => []
  | fuel + 1, src, rda, n =>
    if n = 0 then []
    else
      let k := min n (4096 - rda % 4096)
      (src, rda, k) :: cutRda fuel (src + k) (rda + k) (n - k)

/-- The packets of a WRITE, or of a READ_RSP. -/
def dataPkts (typ : Nat) (wr : Option Nat) (src rda n cue : Nat) : List TxPkt :=
  let ps := cutRda (n / 4096 + 2) src rda n
  (List.range ps.length).map (fun i =>
    let x := ps.getD i (0, 0, 0)
    let last := i + 1 == ps.length
    { TxPkt.blank typ with wr := wr, src := [(x.1, x.2.2)], rda := x.2.1, len := x.2.2, cue := if last then cue else 0,
                           first := i == 0, last := last, ackreq := last,
                           whole := x.2.2 == 4096 && x.1 % 4096 == 0 && x.2.1 % 4096 == 0 })

/-! ### Acknowledgements (R404, R405) -/

/-- Send an ACK, or a SACK when a packet above E has been accepted or one is to be named. -/
def Dev.sendAck (d : Dev) (c : Nat) (ece : Bool := false) (poison cueerr : Bool := false) (named : Nat := 0) : Dev :=
  let k := d.conn c
  let aux := (k.rxE + 2 ^ 24 - 1) % 2 ^ 24
  let sack := !k.rxSet.isEmpty || poison || cueerr
  let bits := k.rxSet.foldl (fun v p => v ||| 2 ^ ((p + 2 ^ 24 - k.rxE) % 2 ^ 24)) 0
  let f : Fft := { d.connFft c (if sack then 6 else 5) with
    aux := aux, psn := named, flags := (if poison then 16 else 0) + (if ece then 2 else 0) + (if cueerr then 1 else 0),
    len := if sack then 64 else 0, payload := if sack then bits % 2 ^ 512 else 0 }
  (d.updConn c (fun k => { k with sinceAck := 0 })).sendPlain f

/-- A packet is accepted: E and the set above it move, and marks of work requests that are complete go. -/
def Conn.accept (k : Conn) (psn : Nat) : Conn :=
  let rec up : Nat → Nat → List Nat → Nat × List Nat
    | 0, e, s => (e, s)
    | fuel + 1, e, s => if s.contains e then up fuel ((e + 1) % 2 ^ 24) (s.erase e) else (e, s)
  let s := k.rxSet ++ [psn]
  let r := up s.length k.rxE s
  { k with rxE := r.1, rxSet := r.2 }

/-- PSN `p` lies below E. -/
def Conn.below (k : Conn) (p : Nat) : Bool := decide ((k.rxE + 2 ^ 24 - p - 1) % 2 ^ 24 < 2 ^ 23)

/-- Every packet with this PSN and the ones below it have been accepted, or it is accepted above E. -/
def Conn.has (k : Conn) (p : Nat) : Bool := k.below p || k.rxSet.contains p

/-- The mark of PSN `p` belongs to a work request of which every packet has been accepted: marks run without a hole from
a FIRST to a LAST around it. -/
def Conn.markDone (k : Conn) (p : Nat) : Bool :=
  let find := fun q => k.rxMarks.find? (fun m => m.psn == q)
  let rec back : Nat → Nat → Bool
    | 0, _ => false
    | fuel + 1, q => (find q).any (fun m => m.first || back fuel ((q + 2 ^ 24 - 1) % 2 ^ 24))
  let rec fwd : Nat → Nat → Bool
    | 0, _ => false
    | fuel + 1, q => (find q).any (fun m => m.last || fwd fuel ((q + 1) % 2 ^ 24))
  back k.rxMarks.length p && fwd k.rxMarks.length p

/-- The marks of work requests that are not complete. -/
def Conn.openMarks (k : Conn) : List RxMark := k.rxMarks.filter (fun m => !k.markDone m.psn)

/-- Signals whose PSN and every lower one are accepted are performed; a refused one is reported by a SACK (R404). -/
def Dev.doSignals (d : Dev) (c : Nat) : Dev :=
  let k := d.conn c
  let ready := k.held.filter (fun s => k.below s.1)
  let d := d.updConn c (fun k => { k with held := k.held.filter (fun s => !k.below s.1) })
  ready.foldl (fun d s =>
    match d.cuePerform 0 s.2.1 s.2.2 false k.tenant (some k.part) 0 false with
    | (.refused _, d) => d.sendAck c false false true s.1
    | (_, d) => d) d

/-! ### Completion (R403) -/

/-- Write a completion record; `idx` and the status in word 0, TAG in word 1. -/
def Dev.cqRecord (d : Dev) (c idx status tag : Nat) : Dev :=
  let k := d.conn c
  if !k.hasCq then d
  else
    let d := d.engWrite (connHalf c) (k.cqBase + 16 * (k.cqPi % 2 ^ k.cqLog2)) 16 (status * 2 ^ 24 + idx + tag * 2 ^ 32)
    d.updConn c (fun k => { k with cqPi := (k.cqPi + 1) % 2 ^ 16 })

/-- The oldest work request completes. -/
def Dev.wrDone (d : Dev) (c : Nat) (w : WrRun) : Dev :=
  let d := d.updConn c (fun k => { k with sqCi := (k.sqCi + 1) % 2 ^ 16, wrs := k.wrs.drop 1 })
  let k := d.conn c
  let d := match w.lcue with
    | some cue => if w.status = 0 then (d.cuePerform 0 cue 1 false k.tenant (some k.part) 0 false).2 else d
    | none => d
  if w.cqe || w.status != 0 then d.cqRecord c w.idx w.status w.tag else d

/-- The work request may complete: every byte that a READ asks for is accepted, and otherwise every packet of it is
acknowledged. -/
def Conn.wrEnded (k : Conn) (w : WrRun) : Bool :=
  if w.op = 2 then w.left == 0 else k.txq.all (fun p => p.acked || p.wr != some w.idx)

/-- A TE command that waited for a connection ends (R410). -/
def Dev.teResult (d : Dev) (h code target : Nat) : Dev :=
  ((d.wr FPORT_TE_RESULT.CODE code (4 * h)).wr FPORT_TE_RESULT.TARGET target (4 * h)).wr FPORT_TE_RESULT.BUSY 0 (4 * h)

def Dev.teEnd (d : Dev) (c code : Nat) : Dev :=
  if (d.conn c).cmd then (d.updConn c (fun k => { k with cmd := false })).teResult (connHalf c) code c else d

/-- Complete work requests in ring order, and close a connection that waits for them (R409). -/
def Dev.wrSettle (c : Nat) : Nat → Dev → Dev
  | 0, d => d
  | fuel + 1, d =>
    let k := d.conn c
    match k.wrs with
    | w :: _ => if k.wrEnded w then Dev.wrSettle c fuel (d.wrDone c w) else d
    | [] =>
      if k.st = 3 ∧ k.next = k.sqPi then
        ((d.sendPlain (d.connFft c 10)).updConn c (fun k => { k with st := 4 })).teEnd c 1
      else d

def Dev.settle (d : Dev) (c : Nat) : Dev := Dev.wrSettle c ((d.conn c).wrs.length + 1) d

/-- Every work request not complete completes with a status: those started, then those posted. -/
def Dev.wrFailAll (d : Dev) (c status : Nat) : Dev :=
  let k := d.conn c
  let d := k.wrs.foldl (fun d w => d.wrDone c { w with status := status }) d
  (List.range ((k.sqPi + 2 ^ 16 - k.next) % 2 ^ 16)).foldl (fun d i =>
    let idx := (k.next + i) % 2 ^ 16
    let r := d.engRead (connHalf c) (k.sqBase + 64 * (idx % 2 ^ k.sqLog2)) 64
    r.2.wrDone c { idx := idx, op := 0, cqe := true, lcue := none, tag := word32 r.1.val 7, lda := 0, len := 0, left := 0,
                   status := status }) d

/-! ### Collectives: descriptor, group and end (R419, R421, R428) -/

def Coll.op (x : Coll) : Nat := word32 x.desc 0 / 2 ^ 28
def Coll.algo (x : Coll) : Nat := word32 x.desc 0 / 2 ^ 26 % 4
def Coll.red (x : Coll) : Nat := word32 x.desc 0 / 2 ^ 24 % 4
def Coll.dtype (x : Coll) : Nat := word32 x.desc 0 / 2 ^ 22 % 4
def Coll.cuev (x : Coll) : Bool := (word32 x.desc 0).testBit 21
def Coll.cqe (x : Coll) : Bool := (word32 x.desc 0).testBit 20
def Coll.root (x : Coll) : Nat := word32 x.desc 0 / 2 ^ 14 % 64
def Coll.cue (x : Coll) : Nat := word32 x.desc 0 % 2 ^ 14
def Coll.tag (x : Coll) : Nat := word32 x.desc 10
def Coll.rank (x : Coll) : Nat := word32 x.group 0 / 2 ^ 26
def Coll.n (x : Coll) : Nat := word32 x.group 0 / 2 ^ 13 % 128
def Coll.tenant (x : Coll) : Nat := word32 x.group 0 % 2 ^ 12
/-- The connection to rank `r` (R419). -/
def Coll.conn (x : Coll) (r : Nat) : Nat := word32 x.group (1 + r / 2) / 2 ^ (16 * (r % 2)) % 2 ^ 13
/-- The other ranks. -/
def Coll.others (x : Coll) : List Nat := (List.range x.n).filter (· != x.rank)
def Coll.conns (x : Coll) : List Nat := x.others.map x.conn
/-- The connection serves the group. -/
def Coll.uses (x : Coll) (c : Nat) : Bool := x.half == connHalf c && x.conns.contains c
def Coll.rankOf (x : Coll) (c : Nat) : Nat := (x.others.find? (fun r => x.conn r == c)).getD 0

/-- How many collectives a half's engine runs (R440). -/
def Dev.noteActive (d : Dev) (h : Nat) : Dev := d.wr COLL_STAT.ACTIVE (d.colls.filter (fun x => x.half == h)).length h

/-- The completion record of a collective (R428): the layout of R403, and the rank concerned in word 2. -/
def Dev.collRecord (d : Dev) (x : Coll) (status rank : Nat) : Dev :=
  let h := x.half
  let base := d.rd COLL_Qp_CQ_LO.DA h x.part + d.rd COLL_Qp_CQ_HI.DA h x.part * 2 ^ 32
  let pi := d.rd COLL_Qp_IDX.CQ_PI h x.part
  let d := d.engWrite h (base + 16 * (pi % 2 ^ d.rd COLL_Qp_HI.LOG2 h x.part)) 16
    (status * 2 ^ 24 + x.slot + x.tag * 2 ^ 32 + rank * 2 ^ 64)
  d.wr COLL_Qp_IDX.CQ_PI (pi + 1) h x.part

/-- A collective ends: it leaves the engine, signals or breaks its cue, writes its record and is counted. The aborts that
a failure brings follow. -/
def Dev.collEnd (d : Dev) (x : Coll) (status rank : Nat) (record : Bool := true) : Dev :=
  let h := x.half
  let d := ({ d with colls := d.colls.filter (fun y => y.id != x.id) }).noteActive h
  let d := d.add COLL_DONE.COUNT 1 h
  let d := d.add COLL_Qp_IDX.CI 1 h x.part
  let d := if status = 0 then d else (d.addSat COLL_FAILS.COUNT 1 h).wr COLL_STAT.FAIL_SEEN 1 h
  let d := if !x.cuev then d
    else if status = 0 then (d.cuePerform 0 x.cue 1 false x.tenant (some x.part) 0 false).2
    else if d.cueState x.cue = 0 then d else d.breakCue x.cue
  if record && (x.cqe || status != 0) then d.collRecord x status rank else d

/-! ### Aborts (R403, R407, R428) -/

/-- The status that an abort cause gives a work request. -/
def abortStatus (cause : Nat) : Nat := if cause = 2 then 2 else if cause = 3 then 3 else if cause = 5 then 5 else 1

/-- A connection is OPENING, OPEN or CLOSING. -/
def Conn.active (k : Conn) : Bool := k.st == 1 || k.st == 2 || k.st == 3

/-- One connection is aborted with a cause; `tell` sends ABORT to the peer. `status` and `info` are what its work
requests complete with and what the record names. -/
def Dev.abortOne (d : Dev) (c cause : Nat) (tell : Bool) (status info : Nat) : Dev :=
  let d := if tell then d.sendPlain { d.connFft c 11 with aux := cause } else d
  let d := d.wrFailAll c status
  let d := d.updConn c (fun k =>
    { k with st := 5, cause := cause, txq := [], rxSet := [], rxMarks := [], held := [], wrs := [], next := k.sqPi,
             sqCi := k.sqPi })
  let v := d.draw 4
  let d := (if (d.conn c).cmd then v.2.teEnd c v.1.toNat else d).add FPORT_TE_ABORTS.COUNT 1 (tePort c)
  let d := d.err (if cause = 5 then 3 else 4) 9 (unitHalf (connHalf c) 20 0) info
  d.event 5 (some (d.conn c).part)

/-- Abort connections, each with a cause, `tell` and a status; collectives that use one end with CONN_ABORTED, and abort
their group's connections in turn (R428). -/
def Dev.abortList : Nat → List (Nat × Nat × Bool × Nat × Nat) → Dev → Dev
  | 0, _, d => d
  | _, [], d => d
  | fuel + 1, (c, cause, tell, status, info) :: rest, d =>
    if (FMap.find d.conns c).any Conn.active then
      let d := d.abortOne c cause tell status info
      let xs := d.colls.filter (fun x => x.uses c)
      let d := xs.foldl (fun d x => d.collEnd x 2 (x.rankOf c)) d
      Dev.abortList fuel (rest ++ xs.flatMap (fun x => x.conns.map (fun c => (c, 1, true, 1, 0)))) d
    else Dev.abortList fuel rest d

def Dev.abortMany (d : Dev) (l : List (Nat × Nat × Bool × Nat × Nat)) : Dev :=
  Dev.abortList (l.length + 64 * d.colls.length) l d

/-- Abort one connection by a cause of R403. -/
def Dev.abortConn (d : Dev) (c cause : Nat) (info : Nat := 0) : Dev := d.abortMany [(c, cause, true, abortStatus cause, info)]

/-- A collective fails, and aborts every connection of its group with cause LOCAL, unless it ran to the end (POISON). -/
def Dev.collFail (d : Dev) (x : Coll) (status rank : Nat) (record : Bool := true) : Dev :=
  let d := d.collEnd x status rank record
  if status = 6 then d else d.abortMany (x.conns.map (fun c => (c, 1, true, 1, 0)))

/-- The blocks of work requests of the peer that had not completed here take the poison check value (R407). -/
def Dev.poisonOpen (d : Dev) (c : Nat) : Dev := (d.conn c).openMarks.foldl (fun d m => d.setPoison (m.blk * 4096)) d

/-- A Curtain on a tenant or a partition acts on its connections (R407). -/
def Dev.connCurtain (d : Dev) (hit : Conn → Bool) (cause status : Nat) : Dev :=
  d.abortMany ((d.conns.filter (fun e => hit e.2)).map (fun e => (e.1, cause, true, status, 0)))

end Sys2Proof.Machine
end

