-- ==== Sys2Proof/Machine/Dma.lean ====
section
/-! DEFINITION. Core DMA channels: descriptors, transfers with check values, halts and restart (R103, R104, R315-R328). -/
namespace Sys2Proof.Machine
open Sys2Proof

/-! ### Channels (R326) -/

def Dev.ch (d : Dev) (c n : Nat) : DmaCh := FMap.get (d.core c).dma DmaCh.init n
def Dev.updCh (d : Dev) (c n : Nat) (f : DmaCh → DmaCh) : Dev :=
  d.updCore c (fun k => { k with dma := FMap.upd k.dma DmaCh.init n f })

/-- The channel status word. -/
def DmaCh.status (k : DmaCh) : Nat :=
  k.doneCnt % 2 ^ 16 * 2 ^ 16 + k.q.length % 128 * 2 ^ 8 + k.cause % 16 * 16 + (if k.lost then 8 else 0) +
    (if k.poison then 4 else 0) + (if k.halted then 2 else 0) + (if !k.q.isEmpty && !k.halted then 1 else 0)

/-- A channel is idle or halted (R82, R103). -/
def DmaCh.quiet (k : DmaCh) : Bool := k.q.isEmpty || k.halted

/-! ### Descriptors (R316, R317) -/

/-- A descriptor's fields. -/
structure DmaDesc where
  kind : Nat
  dir : Nat
  hint : Nat
  cached : Bool
  cue : Option Nat
  units : Nat
  src : Nat
  dst : Nat
  rows : Nat
  sstride : Int
  dstride : Int
  ringLog2 : Nat
  rsvd : Bool
  deriving DecidableEq, Repr

def DmaDesc.ofRaw (r : Nat) : DmaDesc :=
  let w := word32 r
  { kind := w 0 / 2 ^ 28
    dir := w 0 / 2 ^ 26 % 4
    hint := w 0 / 2 ^ 24 % 4
    cached := w 0 / 2 ^ 23 % 2 == 1
    cue := if w 0 / 2 ^ 22 % 2 = 1 then some (w 0 % 2 ^ 14) else none
    units := w 1 % 2 ^ 24
    src := w 2 + w 3 % 2 ^ 16 * 2 ^ 32
    dst := w 4 + w 5 % 2 ^ 16 * 2 ^ 32
    rows := w 6 / 2 ^ 16
    sstride := signed 16 (w 6)
    dstride := signed 16 (w 7 / 2 ^ 16)
    ringLog2 := w 7 % 32
    rsvd := w 0 / 2 ^ 14 % 256 != 0 || w 1 / 2 ^ 24 != 0 || w 3 / 2 ^ 16 != 0 || w 5 / 2 ^ 16 != 0 ||
      w 7 / 32 % 2 ^ 11 != 0 }

/-- Bytes of a row and of the whole. -/
def DmaDesc.len (e : DmaDesc) : Nat := e.units * 32
def DmaDesc.total (e : DmaDesc) : Nat := e.len * e.rows

/-- The source or destination is local. -/
def DmaDesc.localSrc (e : DmaDesc) : Bool := e.kind == 0 && e.dir == 1
def DmaDesc.localDst (e : DmaDesc) : Bool := e.dir == 0
def DmaDesc.ring (e : DmaDesc) : Nat := if e.ringLog2 = 0 then 0 else 2 ^ e.ringLog2

/-- Address of byte `pos` of the transfer on a side that starts at `base` with row pitch 32·stride. -/
def DmaDesc.at (e : DmaDesc) (base : Nat) (stride : Int) (pos : Nat) : Int :=
  (base : Int) + 32 * stride * (pos / e.len : Nat) + (pos % e.len : Nat)

/-- The local address of byte `pos`, wrapped in the ring around its base (R97). -/
def DmaDesc.localAt (e : DmaDesc) (pos : Nat) : Int :=
  if e.localSrc then ringAddr e.src e.ring (e.at e.src e.sstride pos) else ringAddr e.dst e.ring (e.at e.dst e.dstride pos)

/-- BAD_DESC of R318. -/
def DmaDesc.bad (e : DmaDesc) : Bool :=
  let srcDa := e.kind == 0 && !e.localSrc
  decide (2 < e.kind) || decide (2 < e.dir) || e.rsvd || e.rows == 0 ||
  (e.ringLog2 != 0 && (decide (e.ringLog2 < 5) || decide (17 < e.ringLog2) || e.dir == 2)) ||
  (if e.kind = 2 then e.units != 0
   else e.units == 0 ||
     (e.kind == 0 && e.src % 32 != 0) || e.dst % 32 != 0 ||
     (!srcDa && decide (2 ^ 32 ≤ e.src)) || (e.localDst && decide (2 ^ 32 ≤ e.dst)))

/-- One stretch of local memory lies in one memory of R73, the one of `base`. -/
def inSeg (base : Nat) (lo : Int) (n : Nat) : Bool :=
  decide (0 ≤ lo) && localSeg base != none && localSeg lo.toNat == localSeg base && localSeg (lo.toNat + n - 1) == localSeg base

/-- LOCAL of R318: every local byte touched lies in one memory. A row that wraps its ring touches the ring's ends. -/
def DmaDesc.localOk (e : DmaDesc) : Bool :=
  if e.kind = 2 ∨ (!e.localSrc && !e.localDst) then true
  else
    let base := if e.localSrc then e.src else e.dst
    let lo := base / e.ring * e.ring
    (List.range e.rows).all (fun r =>
      let a := e.localAt (r * e.len)
      if e.ring = 0 then inSeg base a e.len
      else if a.toNat - lo + e.len ≤ e.ring then inSeg base a e.len
      else inSeg base lo e.ring)

/-- The end of the memory of R73 that holds a local address. -/
def segEnd (a : Nat) : Nat := match localSeg a with | some 0 => 0x30000 | some 1 => 0x50000 | some 2 => 0x54000 | _ => a

/-- The first local byte that a descriptor touches outside the memory of its base (R318, R326). -/
def DmaDesc.localFault (e : DmaDesc) : Nat :=
  let base := if e.localSrc then e.src else e.dst
  let lo := base / e.ring * e.ring
  let first := fun (a : Int) => if inSeg base a 1 then segEnd base else (a % 2 ^ 20).toNat
  ((List.range e.rows).findSome? (fun r =>
    let a := e.localAt (r * e.len)
    if e.ring = 0 ∨ a.toNat - lo + e.len ≤ e.ring then (if inSeg base a e.len then none else some (first a))
    else if !inSeg base a (lo + e.ring - a.toNat) then some (first a)
    else if inSeg base lo e.ring then none else some (first lo))).getD (base % 2 ^ 20)

/-! ### Halts (R326) -/

/-- The channel halts with a cause and the address at fault, and writes the record of its cause. `localUnit` is the
memory of uncorrectable local data, `op` the operation under way (R492). -/
def Dev.dmaHalt (d : Dev) (c n cause addr : Nat) (localUnit : Option Nat := none) (op : Nat := 0) : Dev :=
  let d := d.updCh c n (fun k => { k with halted := true, cause := cause })
  let d := d.wr CORE_DMA_CHn_FAULT.ADDR addr c n
  let d := if cause = 4 then d.addSat CORE_DMA_UE_CNT.COUNT 1 c else d
  let d := if cause = 5 ∨ cause = 6 then d.addSat CORE_DMA_CHK_CNT.COUNT 1 c else d
  let unit := unitCore c 6 n
  if cause = 3 then d.err 4 op unit addr
  else if cause = 5 then d.err 8 op unit addr
  else if cause = 4 then
    match localUnit with
    | some u => d.err 2 1 u addr
    | none => d
  else if cause = 6 then d
  else d.err 3 op unit addr

/-- The descriptor is complete: its cue is signalled and the next one may become current (R320). -/
def Dev.dmaComplete (d : Dev) (c n : Nat) (cue : Option Nat) : Dev :=
  let d := d.updCh c n (fun k => { k with q := k.q.drop 1, begun := false, pos := 0, doneCnt := (k.doneCnt + 1) % 2 ^ 16 })
  match cue with
  | some q => d.signalUnit c q 1
  | none => d

/-! ### The DA side (R282, R317, R321) -/

/-- Why an access of a channel to a line is refused: cause of R326, or none. -/
def Dev.dmaRefused (d : Dev) (c : Nat) (da : Int) (write : Bool) : Option Nat × Dev :=
  if da < 0 ∨ !daBacked da.toNat then (some 1, d)
  else if d.sliceLost (daCore da.toNat) ∨ d.meshLost (coreCluster c) (daCore da.toNat / 16) then (some 3, d)
  else
    let p := d.protCore c da.toNat write
    (if p.1 then none else some 2, p.2)

/-- How many of `n` bytes from a DA are not refused, and the cause for the first that is. -/
def Dev.dmaAllowed (c : Nat) (write : Bool) : Nat → Dev → Int → Nat → Nat × Option Nat × Dev
  | 0, d, _, n => (n, none, d)
  | fuel + 1, d, da, n =>
    if n = 0 then (0, none, d)
    else
      let r := d.dmaRefused c da write
      match r.1 with
      | some cause => (0, some cause, r.2)
      | none =>
        let k := min n (128 - (da % 128).toNat)
        let rest := Dev.dmaAllowed c write fuel r.2 (da + k) (n - k)
        (k + rest.1, rest.2.1, rest.2.2)

/-- The direct path serves the core's own slice unless the cached path is selected, or the slice is an orphan. -/
def Dev.directPath (d : Dev) (c da : Nat) (cached : Bool) : Bool := daCore da == c && !cached && !d.orphan c

def wholeBlock (da : Nat) (n : Nat) : Bool := decide (da % 4096 = 0 ∧ n = 4096)

def Dev.dmaRead (d : Dev) (c da n hint : Nat) (cached : Bool) (op : Nat := 1) : MRes × Dev :=
  if d.directPath c da cached then d.readDirect da n op
  else if wholeBlock da n then d.cachedReadBlock da (some hint) op
  else d.cachedRead da n (some hint) op

/-- Write a part, or a whole block with its check value. -/
def Dev.dmaWrite (d : Dev) (c da n v hint : Nat) (cached poison : Bool) : Dev :=
  if wholeBlock da n then d.blockWrite da v poison (!d.directPath c da cached) (some hint)
  else if d.directPath c da cached then d.directWrite da n v
  else d.cachedWrite da n v (some hint)

/-! ### One chunk of a transfer -/

/-- `n` bytes from local addresses `f 0`, `f 32`, …: the value, up to the first granule that is uncorrectable. -/
def Dev.gatherLocal (d : Dev) (c : Nat) (f : Nat → Nat) : Nat → Nat → Nat × Nat × Option Nat
  | 0, _ => (0, 0, none)
  | k + 1, i =>
    if d.lbad c (f i) 32 then (0, 0, some (f i))
    else
      let rest := Dev.gatherLocal d c f k (i + 32)
      (d.lrd c (f i) 32 + 2 ^ 256 * rest.1, 32 + rest.2.1, rest.2.2)

/-- Store `n` bytes to local addresses `f 0`, `f 32`, …. -/
def Dev.scatterLocal (c : Nat) (f : Nat → Nat) : Nat → Nat → Nat → Dev → Dev
  | 0, _, _, d => d
  | k + 1, i, v, d => Dev.scatterLocal c f k (i + 32) (v / 2 ^ 256) (d.lwr c (f i) 32 v)

/-- A 32-bit pattern repeated over `n` bytes. -/
def fillVal (pat : Nat) : Nat → Nat
  | 0 => 0
  | n + 1 => pat + 2 ^ 32 * fillVal pat n

/-- What a chunk comes to: bytes done, and the cause, address, operation and local memory of a halt. -/
structure ChunkRes where
  done : Nat
  halt : Option (Nat × Nat × Nat × Option Nat)
  dev : Dev
  deriving DecidableEq, Repr

/-- The stored check value of the block of a DA is neither the true one nor the poison pattern (R324). -/
def Dev.chkWrong (d : Dev) (da : Nat) : Bool := match d.blkOf da with | some (.off _) => true | _ => false

/-- The data that arrives for a whole block does not match the check value that travels with it, the slice's stored one
(R322, R324). -/
def Dev.blkWrong (d : Dev) (da val : Nat) : Bool :=
  if val = d.mrd da 4096 then d.chkWrong da else decide (blockCheck da val ≠ d.chkOf da)

/-- The DA of the first of `n` bytes' words that an access meets as uncorrectable: one that no line of the home cache
serves. -/
def Dev.firstBad (d : Dev) (da n : Nat) (direct : Bool) : Option Nat :=
  (d.badw.filter (fun e => decide (da / 32 ≤ e.1) && decide (e.1 * 32 < da + n) && d.wordBad e.1 &&
      (direct || (d.findLine (daCore da / 16) (daCore da % 16) (lineIdx (e.1 * 32))).isNone))).foldl (fun m e =>
    match m with
    | some a => some (min a (e.1 * 32))
    | none => some (e.1 * 32)) none

/-- Bytes of `n` from a DA that requests of up to 128 B carry before the one that holds the byte at fault. -/
def goodBefore (da bad n : Nat) : Nat := min n (bad / 128 * 128 - da)

/-- IN: `n` bytes from a DA to local addresses `f 0`, `f 32`, … (R322). A request that meets an uncorrectable word keeps
nothing; those before it are kept (R326). Whether the bytes of a block that mismatches or is poisoned have reached local
memory is left open: a free value decides. -/
def Dev.chunkIn (d : Dev) (c : Nat) (da : Int) (n hint : Nat) (cached : Bool) (f : Nat → Nat) : ChunkRes :=
  let a := Dev.dmaAllowed c false (n / 128 + 2) d da n
  if a.1 = 0 then { done := 0, halt := a.2.1.map (fun k => (k, da.toNat % 2 ^ 48, 1, none)), dev := a.2.2 }
  else
    let n := a.1
    let da := d.seenDa (coreHalf c) da.toNat
    let put := fun (m v : Nat) (d : Dev) => Dev.scatterLocal c f (m / 32) 0 v d
    match a.2.2.firstBad da n (a.2.2.directPath c da cached) with
    | some bad =>
      let k := goodBefore da bad n
      let d := if k = 0 then a.2.2 else (let r := a.2.2.dmaRead c da k hint cached; put k r.1.val r.2)
      { done := k, halt := some (4, bad, 1, none), dev := (d.dmaRead c (da + k) (min (n - k) (128 - (da + k) % 128)) hint cached).2 }
    | none =>
      let r := a.2.2.dmaRead c da n hint cached
      if wholeBlock da n && (r.1.poison || r.2.blkWrong da r.1.val) then
        let b := r.2.draw 1
        { done := if b.1 = 1 then n else 0
          halt := some (if r.1.poison then 6 else 5, da, 1, none)
          dev := if b.1 = 1 then put n r.1.val b.2 else b.2 }
      else { done := n, halt := none, dev := put n r.1.val r.2 }

/-- OUT and FILL: a value of `n` bytes to a DA (R323). -/
def Dev.chunkOut (d : Dev) (c : Nat) (da : Int) (n v hint : Nat) (cached : Bool) : ChunkRes :=
  let a := Dev.dmaAllowed c true (n / 128 + 2) d da n
  if a.1 = 0 then { done := 0, halt := a.2.1.map (fun k => (k, da.toNat % 2 ^ 48, 2, none)), dev := a.2.2 }
  else { done := a.1, halt := none, dev := a.2.2.dmaWrite c (d.seenDa (coreHalf c) da.toNat) a.1 v hint cached false }

/-! ### Overlapping copies (R325) -/

/-- The word that an access of the channel would read at a DA. -/
def Dev.seenWord (d : Dev) (da : Nat) (direct : Bool) : Nat :=
  match if direct then none else d.findLine (daCore da / 16) (daCore da % 16) (lineIdx da) with
  | some key => ((d.line (daCore da / 16) key).map (fun l => l.data.toNat / 256 ^ (da % 128) % 2 ^ 256)).getD 0
  | none => d.mrd da 32

/-- The source and the destination of a MOVE overlap. -/
def DmaDesc.overlaps (e : DmaDesc) : Bool :=
  let lo := fun (b : Nat) (st : Int) => (b : Int) + min 0 (32 * st * ((e.rows : Int) - 1))
  let hi := fun (b : Nat) (st : Int) => (b : Int) + max 0 (32 * st * ((e.rows : Int) - 1)) + e.len
  e.kind == 0 && e.dir == 2 && decide (lo e.src e.sstride < hi e.dst e.dstride) && decide (lo e.dst e.dstride < hi e.src e.sstride)

/-- The words that a MOVE writes for `len` bytes read as `v`: of a word that the same copy has already written, a free
value decides between what it wrote and what stood there. `whole` takes one decision for the block. -/
def Dev.moveVal (d : Dev) (c n src dst len v : Nat) (whole : Bool) : Nat × Dev :=
  let snap := (d.ch c n).snap
  let word := fun i => v / 2 ^ (256 * i) % 2 ^ 256
  let old := fun i => ((FMap.find snap (src / 32 + i)).map BitVec.toNat).getD (word i)
  if whole then
    (if (List.range (len / 32)).all (fun i => old i == word i) then (v, d)
     else
       let b := d.draw 1
       (if b.1 = 1 then lanesVal ((List.range (len / 32)).map old) 256 else v, b.2))
  else
    let r := (List.range (len / 32)).foldl (fun (a : List Nat × Dev) i =>
      let s := src / 32 + i
      let new := if dst / 32 ≤ s ∧ s < dst / 32 + i then a.1.getD (s - dst / 32) 0 else word i
      if old i = new then (a.1 ++ [new], a.2)
      else
        let b := a.2.draw 1
        (a.1 ++ [if b.1 = 1 then old i else new], b.2)) ([], d)
    (lanesVal r.1 256, r.2)

/-- The words of a destination, as they stand, are noted before they are overwritten. -/
def Dev.moveNote (d : Dev) (c n dst len : Nat) (direct : Bool) : Dev :=
  (List.range (len / 32)).foldl (fun d i =>
    if (FMap.find (d.ch c n).snap (dst / 32 + i)).isSome then d
    else d.updCh c n (fun k => { k with snap := FMap.set k.snap (dst / 32 + i) (BitVec.ofNat 256 (d.seenWord (dst + 32 * i) direct)) })) d

/-- MOVE: a DA to a DA (R324). A whole block on both sides carries its check value, adjusted to the destination; otherwise
R323 applies at the destination. -/
def Dev.chunkMove (d : Dev) (c n : Nat) (src dst : Int) (len hint : Nat) (cached overlap : Bool) : ChunkRes :=
  let a := Dev.dmaAllowed c false (len / 128 + 2) d src len
  let b := Dev.dmaAllowed c true (len / 128 + 2) a.2.2 dst a.1
  if a.1 = 0 then { done := 0, halt := a.2.1.map (fun k => (k, src.toNat % 2 ^ 48, 1, none)), dev := a.2.2 }
  else if b.1 = 0 then { done := 0, halt := b.2.1.map (fun k => (k, dst.toNat % 2 ^ 48, 2, none)), dev := b.2.2 }
  else
    let len := b.1
    let src := d.seenDa (coreHalf c) src.toNat
    let dst := d.seenDa (coreHalf c) dst.toNat
    let d := b.2.2
    let put := fun (m v : Nat) (poison : Bool) (d : Dev) =>
      let whole := wholeBlock src m && wholeBlock dst m
      let x := if overlap then d.moveVal c n src dst m v whole else (v, d)
      let d := if overlap then x.2.moveNote c n dst m (x.2.directPath c src cached) else x.2
      d.dmaWrite c dst m x.1 hint cached poison
    match d.firstBad src len (d.directPath c src cached) with
    | some bad =>
      let k := goodBefore src bad len
      let d := if k = 0 then d else (let r := d.dmaRead c src k hint cached; put k r.1.val false r.2)
      { done := k, halt := some (4, bad, 1, none), dev := (d.dmaRead c (src + k) (min (len - k) (128 - (src + k) % 128)) hint cached).2 }
    | none =>
      let r := d.dmaRead c src len hint cached
      if wholeBlock src len && wholeBlock dst len then
        let wrong := !r.1.poison && r.2.blkWrong src r.1.val
        let d := put len r.1.val (r.1.poison || wrong) r.2
        if wrong then
          { done := len
            halt := some (5, dst, 2, none)
            dev := d.err 8 2 (unitCore (daCore dst) 7 0) dst }
        else { done := len, halt := none, dev := if r.1.poison then d.updCh c n (fun k => { k with poison := true }) else d }
      else { done := len, halt := none, dev := put len r.1.val false r.2 }

/-- Bytes from an address to the end of its 4 KiB block. -/
def toBlockEnd (a : Int) : Nat := 4096 - (a % 4096).toNat

/-- Bytes of the next chunk of a descriptor: up to a 4 KiB boundary of the DA side that is written, or else read, and the
end of the row. -/
def DmaDesc.chunkLen (e : DmaDesc) (pos : Nat) : Nat :=
  let left := e.len - pos % e.len
  if e.kind = 0 ∧ e.dir = 0 then min left (toBlockEnd (e.at e.src e.sstride pos))
  else if e.dir = 0 then min left 4096
  else min left (toBlockEnd (e.at e.dst e.dstride pos))

/-- The next chunk of the current descriptor. -/
def Dev.dmaChunk (d : Dev) (c n : Nat) (e : DmaDesc) (pos : Nat) : ChunkRes :=
  let k := e.chunkLen pos
  let src := e.at e.src e.sstride pos
  let dst := e.at e.dst e.dstride pos
  let loc := fun i => (e.localAt (pos + i)).toNat
  if e.kind = 0 ∧ e.dir = 0 then d.chunkIn c src k e.hint e.cached loc
  else if e.kind = 0 ∧ e.dir = 1 then
    let d := d.countGran c ((List.range (k / 32)).map (fun i => loc (32 * i)))
    let g := Dev.gatherLocal d c loc (k / 32) 0
    match g.2.2 with
    | none => d.chunkOut c dst k g.1 e.hint e.cached
    | some bad =>
      let r := if g.2.1 = 0 then { done := 0, halt := none, dev := d : ChunkRes }
               else d.chunkOut c dst g.2.1 g.1 e.hint e.cached
      match r.halt with
      | some _ => r
      | none => { r with halt := some (4, bad, 1, some (unitLocal c bad)) }
  else if e.kind = 0 then d.chunkMove c n src dst k e.hint e.cached e.overlaps
  else if e.dir = 0 then { done := k, halt := none, dev := Dev.scatterLocal c loc (k / 32) 0 (fillVal e.src (k / 4)) d }
  else d.chunkOut c dst k (fillVal e.src (k / 4)) e.hint e.cached

/-- Requests that were in flight behind the one that halted the channel complete, and their writes stand (R326): `m` chunks
more of the descriptors in the queue, from byte `pos` of the first. -/
def Dev.dmaBehind (c n : Nat) : Nat → List DmaEnt → Nat → Dev → Dev
  | 0, _, _, d => d
  | _, [], _, d => d
  | m + 1, ent :: rest, pos, d =>
    let e := DmaDesc.ofRaw ent.raw
    if ent.kv.isSome || ent.ue.isSome || ent.badDa.isSome || e.bad || !e.localOk then d
    else if e.kind = 2 ∨ e.total ≤ pos then Dev.dmaBehind c n m rest 0 d
    else
      let r := d.dmaChunk c n e pos
      match r.halt with
      | some _ => d
      | none => Dev.dmaBehind c n m (ent :: rest) (pos + r.done) (r.dev.add CORE_DMA_CHn_BYTES.BYTES r.done c n)

/-- The channel halts in a transfer. Its 128 requests in flight are at most four chunks more; how many is open, so a free
value decides. -/
def Dev.dmaStop (d : Dev) (c n next : Nat) (h : Nat × Nat × Nat × Option Nat) : Dev :=
  let q := (d.ch c n).q
  let b := (d.dmaHalt c n h.1 h.2.1 h.2.2.2 h.2.2.1).draw 3
  Dev.dmaBehind c n (b.1.toNat % 5) q next b.2

/-- A completion or read data returns: the current descriptor advances by a chunk, and completes with its last. -/
def dmaResponse (c n : Nat) (d : Dev) : Dev :=
  let k := d.ch c n
  match k.q with
  | [] => d
  | ent :: _ =>
    if k.halted || !k.begun then d
    else
      let e := DmaDesc.ofRaw ent.raw
      let r := d.dmaChunk c n e k.pos
      let d := r.dev.add CORE_DMA_CHn_BYTES.BYTES r.done c n
      let d := d.updCh c n (fun k => { k with pos := k.pos + r.done })
      match r.halt with
      | some h => d.dmaStop c n (k.pos + e.chunkLen k.pos) h
      | none => if k.pos + r.done = e.total then d.dmaComplete c n e.cue else d

def execDmaResponse (c ch : Nat) (s : State) : Out := act s (dmaResponse c ch)

/-- A descriptor becomes current and is checked (R318, R319). -/
def Dev.dmaBegin (d : Dev) (c n : Nat) (kindOk : Nat → Bool) (f : DmaDesc → Dev → Dev) : Dev :=
  let k := d.ch c n
  match k.q with
  | [] => d
  | ent :: _ =>
    let e := DmaDesc.ofRaw ent.raw
    if k.halted || k.begun || ent.kv.isSome || !kindOk e.kind then d
    else
      match ent.ue, ent.badDa with
      | some a, _ => d.dmaHalt c n 4 a (some (unitLocal c a)) 1
      | none, some da => d.dmaHalt c n 1 da none (if e.dir = 0 then 1 else 2)
      | none, none =>
        if e.bad then d.dmaHalt c n 7 0
        else if !e.localOk then d.dmaHalt c n 8 e.localFault
        else f e (d.updCh c n (fun k => { k with begun := true, pos := 0, snap := [] }))

/-- A COPY descriptor becomes current; so does one of a reserved KIND, which fails its check. -/
def execDmaCopy (c ch : Nat) (s : State) : Out :=
  act s (fun d => d.dmaBegin c ch (fun k => k == 0 || decide (2 < k)) (fun _ d => d))
def execDmaFill (c ch : Nat) (s : State) : Out := act s (fun d => d.dmaBegin c ch (fun k => k == 1) (fun _ d => d))
/-- MARK completes at once: every earlier descriptor is complete (R320). -/
def execDmaMark (c ch : Nat) (s : State) : Out :=
  act s (fun d => d.dmaBegin c ch (fun k => k == 2) (fun e d => d.dmaComplete c ch e.cue))

/-! ### Instructions (R103, R104, R319) -/

/-- The channel accepts `ents`: room for all of them, and not halted. -/
def DmaCh.accepts (k : DmaCh) (m : Nat) : Bool := !k.halted && decide (k.q.length + m ≤ 64)

def Dev.pushDma (d : Dev) (c n : Nat) (ents : List DmaEnt) : Dev := d.updCh c n (fun k => { k with q := k.q ++ ents })

/-- The descriptors of a chain, as the channel copies them. -/
def Dev.chain (d : Dev) (c a m : Nat) : List DmaEnt :=
  (List.range m).map (fun i =>
    { raw := d.lrd c (a + 32 * i) 32, ue := if d.lbad c (a + 32 * i) 32 then some (a + 32 * i) else none,
      badDa := none, kv := none })

def dmaqStep (c : Nat) (d : Dev) : Dev :=
  d.issue c (isOpFn 0x14 0) (fun d w => d.checked c w (regsOk w true true true && immBelow w 3) (fun d =>
    let a := (d.sreg c (raOf w)).toNat
    let m := (d.sreg c (rbOf w)).toNat
    let n := immOf w % 8
    if m = 0 then (d.setS c (rdOf w) 1).retire c
    else if 64 < m then (d.setS c (rdOf w) 0).retire c
    else if a % 32 != 0 then d.trap c 4 a
    else if 2 ^ 20 ≤ a ∨ spanOk a (32 * m) = false then d.trap c 3 a
    else if (d.ch c n).accepts m then (((d.countLce c a (32 * m)).pushDma c n (d.chain c a m)).setS c (rdOf w) 1).retire c
    else (d.setS c (rdOf w) 0).retire c))

def execDmaq (c : Nat) (s : State) : Out := act s (dmaqStep c)

/-- The one-row COPY descriptor that a DMAC forms (R316): NORMAL hint, direct path. -/
def dmacRaw (dir da loc units : Nat) (cue : Option Nat) : Nat :=
  let src := if dir = 0 then da else loc
  let dst := if dir = 0 then loc else da
  dir * 2 ^ 26 + (match cue with | some q => 2 ^ 22 + q | none => 0) + units * 2 ^ 32 + src % 2 ^ 32 * 2 ^ 64 +
    src / 2 ^ 32 * 2 ^ 96 + dst % 2 ^ 32 * 2 ^ 128 + dst / 2 ^ 32 * 2 ^ 160 + 2 ^ 16 * 2 ^ 192

/-- DMAC: where the DA and the local address are both misaligned, TVAL holds the DA (DESIGN CHOICE, log entry 77). -/
def dmacStep (c : Nat) (d : Dev) : Dev :=
  d.issue c (isOpFn 0x14 1) (fun d w =>
    d.checked c w (regsOk w true true true && W64.bits w 27 13 == 0) (fun d =>
      let v := (d.sreg c (raOf w)).toNat
      let loc := (d.sreg c (rbOf w)).toNat
      let units := W64.bits w 12 0 + 1
      let n := W64.bits w 30 28
      let q := (d.sreg c (rdOf w)).toNat
      let cue := if rdOf w = 0 ∨ 2 ^ 14 ≤ q then none else some q
      if v % 32 != 0 then d.trap c 4 v
      else if loc % 32 != 0 then d.trap c 4 loc
      else if 2 ^ 20 ≤ loc ∨ spanOk loc (32 * units) = false then d.trap c 3 loc
      else if (d.ch c n).halted then (d.updCh c n (fun k => { k with lost := true })).retire c
      else if 64 ≤ (d.ch c n).q.length then d
      else
        let ent : DmaEnt := { raw := dmacRaw (W64.bits w 31 31) ((daOf v).getD 0) loc units cue, ue := none,
                              badDa := if (daOf v).isNone then some v else none, kv := none }
        (d.pushDma c n [ent]).retire c))

def execDmac (c : Nat) (s : State) : Out := act s (dmacStep c)

/-- DMAW: clock-gated until the channel is idle or halted; it is issued again then. -/
def execDmaw (c : Nat) (s : State) : Out :=
  act s (fun d => d.issue c (isOpFn 0x14 2) (fun d w =>
    d.checked c w (regsOk w true false false && immBelow w 3) (fun d =>
      let k := d.ch c (immOf w % 8)
      if k.quiet then (d.setS c (rdOf w) (BitVec.ofNat 64 k.status)).retire c else d.sleep c true)))

def execDmas (c : Nat) (s : State) : Out :=
  act s (fun d => d.issue c (isOpFn 0x14 3) (fun d w =>
    d.checked c w (regsOk w true false false && immBelow w 3) (fun d =>
      (d.setS c (rdOf w) (BitVec.ofNat 64 (d.ch c (immOf w % 8)).status)).retire c)))

/-! ### Restart and discard (R327) -/

/-- RESTART or DISCARD on a halted channel; anything else has no effect (R333). -/
def Dev.dmaResume (d : Dev) (c n : Nat) (discard : Bool) : Dev :=
  if (d.ch c n).halted then
    d.updCh c n (fun k => { k with q := if discard then [] else k.q, begun := false, pos := 0, cause := 0, lost := false,
                                   poison := false, halted := false })
  else d

def execDmar (c : Nat) (s : State) : Out :=
  act s (fun d => d.issue c (isOpFn 0x14 4) (fun d w =>
    d.checked c w (regsOk w false false false && immBelow w 4) (fun d =>
      (d.dmaResume c (immOf w % 8) (immOf w / 8 == 1)).retire c)))

def execDmaChanRestart (c ch : Nat) (s : State) : Out := act s (fun d => d.coreReg c (fun d => d.dmaResume c ch false))
def execDmaChanDiscard (c ch : Nat) (s : State) : Out := act s (fun d => d.coreReg c (fun d => d.dmaResume c ch true))
/-- R328. -/
def execDmaChanNop (c _ch : Nat) (s : State) : Out := act s (fun d => d.coreReg c (fun d => d))

end Sys2Proof.Machine
end

