-- ==== Sys2Proof/Machine/Fabric.lean ====
section
/-! DEFINITION. Commands and events of the transport engine: received packets, work requests, commands and timers
(R392, R393, R401-R410, R417). -/
namespace Sys2Proof.Machine
open Sys2Proof

/-! ### Received packets of a connection -/

/-- The peer may exchange packets of a connection: quarantine leaves only the diagnostic partition (R435). -/
def Dev.peerAllows (d : Dev) (k : Conn) : Bool :=
  let st := d.rd FAB_PEERd.STATE 0 k.peerDev
  !(st == 3 || st == 5) || (d.bit FAB_AGREE_CTRL.DIAG_EN && d.rd FAB_AGREE_CTRL.DIAG_PART == k.part)

/-- The engine sends OPEN to the peer, and completes a handshake with it (R409, R435). -/
def Dev.peerOpens (d : Dev) (k : Conn) : Bool :=
  let st := d.rd FAB_PEERd.STATE 0 k.peerDev
  st == 2 || ((st == 3 || st == 5) && d.bit FAB_AGREE_CTRL.DIAG_EN && d.rd FAB_AGREE_CTRL.DIAG_PART == k.part)

/-- Steps 1 to 7 of R393 for a packet of a connection in one of the states `ok`; `ck` tells whether EPOCH must match. -/
def Dev.rxConn (d : Dev) (r : Rx) (f : Fft) (typ : Nat) (ok : Conn → Bool) (ck : Bool := true) : Bool × Dev :=
  let s := d.rxFft r f typ
  if !s.1 then s
  else
    match FMap.find s.2.conns f.dstConn with
    | some k =>
      if ok k && k.peerDev == f.srcDev && k.peerConn == f.srcConn && (!ck || k.epoch % 256 == f.epoch) && s.2.peerAllows k
      then (true, s.2) else (false, s.2.dropFrame r.port 2)
    | none => (false, s.2.dropFrame r.port 2)

/-- The context is OPEN; one that is CLOSING still finishes its work requests. -/
def Conn.isOpen (k : Conn) : Bool := k.st == 2 || k.st == 3

/-- Step 8: what a PSN asks for. -/
inductive PsnRes where
  | accept
  | duplicate
  | outside
  deriving DecidableEq, Repr

def Conn.psnRes (k : Conn) (psn : Nat) : PsnRes :=
  if (psn + 2 ^ 24 - k.rxE) % 2 ^ 24 < 512 then (if k.rxSet.contains psn then .duplicate else .accept)
  else if k.below psn then .duplicate
  else .outside

/-- Every byte of a span may be accessed by requests of half `h` for a partition: none addresses nothing or lies in a lost slice, and protection
allows each line. -/
def Dev.spanAllowed (h part : Nat) (write : Bool) : Nat → Nat → Nat → Dev → Bool × Dev
  | 0, _, n, d => (n == 0, d)
  | fuel + 1, da, n, d =>
    if n = 0 then (true, d)
    else if (d.daRefused da).isSome then (false, d)
    else
      let p := d.prot h (some part) da write
      if !p.1 then (false, p.2)
      else
        let k := min n (128 - da % 128)
        Dev.spanAllowed h part write fuel (da + k) (n - k) p.2

def Dev.allowed (d : Dev) (h part da n : Nat) (write : Bool) : Bool × Dev := Dev.spanAllowed h part write (n / 128 + 2) da n d

/-- Write a packet's payload to device memory, with its poison and its block check (R404, R406). Answers whether the
block is poisoned by it. -/
def Dev.placePayload (d : Dev) (f : Fft) : Bool × Dev :=
  let n := f.len
  let whole := fftFlag f 5 && n == 4096 && f.rda % 4096 == 0
  let bad := whole && !fftFlag f 4 && decide (f.check ≠ (blockCheck f.rda f.payload).toNat)
  let poison := fftFlag f 4 || bad
  let d := if n = 0 then d
    else if n = 4096 ∧ f.rda % 4096 = 0 then d.blockWrite f.rda f.payload poison
    else if poison then (d.cachedWrite f.rda n f.payload none).setPoison f.rda
    else d.cachedWrite f.rda n f.payload none
  let d := if bad then d.err 8 2 (unitCore (daCore f.rda) 7 0) f.rda else d
  (poison, d)

/-- A sequenced packet is accepted: E moves, signals that are due are performed, and it is acknowledged when R405 asks. -/
def Dev.accepted (d : Dev) (r : Rx) (f : Fft) (poison : Bool) (mark : Option RxMark) : Dev :=
  let c := f.dstConn
  let above := f.psn != (d.conn c).rxE
  let d := d.updConn c (fun k =>
    let k := k.accept f.psn
    let k := { k with rxMarks := k.rxMarks ++ mark.toList, sinceAck := k.sinceAck + 1,
                      held := if f.cue / 2 ^ 31 % 2 = 1 then k.held ++ [(f.psn, f.cue / 2 ^ 16 % 2 ^ 14, f.cue % 256)] else k.held }
    -- marks below E of complete work requests are no longer needed
    { k with rxMarks := k.rxMarks.filter (fun m => !(k.markDone m.psn && k.below m.psn)) })
  let d := d.doSignals c
  if poison then d.sendAck c (rxCe r) true false f.psn
  else if above || fftFlag f 3 || (rxCe r) || decide (d.rd FAB_RETX.ACK_EVERY ≤ (d.conn c).sinceAck) then d.sendAck c (rxCe r)
  else d

/-- A sequenced packet of a connection arrives; `act` places it, and answers whether it may be accepted and whether a
block is poisoned. -/
def Dev.rxSeq (d : Dev) (r : Rx) (f : Fft) (typ : Nat) (act : Dev → (Bool × Bool) × Dev) (mark : Bool) : Dev :=
  let s := d.rxConn r f typ Conn.isOpen
  if !s.1 then s.2
  else
    let d := s.2
    match (d.conn f.dstConn).psnRes f.psn with
    | .outside => d.dropFrame r.port 1
    | .duplicate => d.sendAck f.dstConn (rxCe r)
    | .accept =>
      let a := act d
      if !a.1.1 then a.2
      else a.2.accepted r f a.1.2 (if mark then some ⟨f.psn, fftFlag f 7, fftFlag f 6, f.rda / 4096⟩ else none)

/-- The payload of a packet is written under the connection's protection; a refused one aborts with cause ACCESS. -/
def placeAt (f : Fft) (lost : Bool) (d : Dev) : (Bool × Bool) × Dev :=
  let c := f.dstConn
  if f.len = 0 then ((true, false), d)
  else if lost && (d.daRefused f.rda).isSome then
    -- READ_RSP data whose write receives an error completion: the READ ends LOCAL_ACCESS
    let d := d.err ((d.daRefused f.rda).getD 3) 2 (unitHalf (connHalf c) 20 0) f.rda
    ((true, false), d.updConn c (fun k =>
      { k with wrs := k.wrs.map (fun w => if w.op = 2 ∧ w.lda ≤ f.rda ∧ f.rda < w.lda + w.len ∧ w.status = 0
                                          then { w with status := 4 } else w) }))
  else
    let p := d.allowed (connHalf c) (d.conn c).part f.rda f.len true
    if !p.1 then ((false, false), p.2.abortConn c 5 f.rda)
    else
      let w := p.2.placePayload f
      ((true, w.1), w.2)

/-- A WRITE packet (R404). -/
def fftWrite (r : Rx) (f : Fft) (d : Dev) : Dev := d.rxSeq r f 1 (placeAt f false) true

def execFftWrite (r : Rx) (f : Fft) (s : State) : Out := act s (fftWrite r f)

/-- A READ_REQ packet: the READ_RSP packets join this side's stream (R402, R404). -/
def fftReadReq (r : Rx) (f : Fft) (d : Dev) : Dev :=
  let c := f.dstConn
  let n := f.aux % 2 ^ 24 * 32
  let d := d.rxSeq r f 2 (fun d =>
    let p := d.allowed (connHalf c) (d.conn c).part f.rda n false
    if !p.1 then ((false, false), p.2.abortConn c 5 f.rda)
    else ((true, false), p.2.queuePkts c (dataPkts 3 none f.rda (f.payload % 2 ^ 48) n 0))) false
  if (d.conn c).isOpen then d.pump c else d

def execFftReadReq (r : Rx) (f : Fft) (s : State) : Out := act s (fftReadReq r f)

/-- Bytes of READ_RSP data accepted at a DA count towards the oldest READ they belong to, and poison is its status. -/
def Conn.readGot (k : Conn) (rda n : Nat) (poison : Bool) : Conn :=
  match k.wrs.find? (fun w => w.op == 2 && decide (0 < w.left) && decide (w.lda ≤ rda) && decide (rda < w.lda + w.len)) with
  | none => k
  | some w =>
    { k with wrs := k.wrs.map (fun v => if v.idx = w.idx then
        { v with left := v.left - n, status := if poison ∧ v.status = 0 then 6 else v.status } else v) }

/-- A READ_RSP packet (R404). -/
def fftReadRsp (r : Rx) (f : Fft) (d : Dev) : Dev :=
  let c := f.dstConn
  let d := d.rxSeq r f 3 (fun d =>
    let a := placeAt f true d
    if a.1.1 then (a.1, a.2.updConn c (fun k => k.readGot f.rda f.len a.1.2)) else a) true
  if (d.conn c).isOpen then d.settle c else d

def execFftReadRsp (r : Rx) (f : Fft) (s : State) : Out := act s (fftReadRsp r f)

/-- A SIGNAL packet: its cue is signalled once every earlier packet is accepted (R404). -/
def execFftSignal (r : Rx) (f : Fft) (s : State) : Out := act s (fun d => d.rxSeq r f 4 (fun d => ((true, false), d)) false)

/-! ### Acknowledgements received (R405, R408) -/

/-- A congestion mark of a connection: RATE falls, at most once per 8 µs (R408). -/
def Dev.congestion (d : Dev) (c path : Nat) : Dev :=
  d.updConn c (fun k =>
    let k := { k with marks := k.marks ++ [(path, d.now)] }
    if k.lastMark.any (fun t => decide (d.now < t + 8000)) then k
    else { k with rate := max 1 (k.rate * (64 - d.rd FAB_CC.BETA) / 64), lastMark := some d.now })

/-- PSN `p` is released or shown accepted by an acknowledgement of `aux` and the bits of a SACK. -/
def ackedBy (aux bits p : Nat) : Bool :=
  let up := (aux + 2 ^ 24 - p) % 2 ^ 24
  decide (up < 2 ^ 23) || bits.testBit ((p + 2 ^ 24 - aux - 1) % 2 ^ 24)

/-- An ACK or SACK reaches the sender: packets are released, a round-trip sample is taken of each ACKREQ packet released,
marks lower the rate, and the window and completed work requests move on. -/
def Dev.takeAck (d : Dev) (c : Nat) (f : Fft) (bits : Nat) : Dev :=
  let aux := f.aux % 2 ^ 24
  let k := d.conn c
  let fresh := k.txq.filter (fun p => p.sent && !p.acked && ackedBy aux bits p.psn)
  let slow := fresh.filter (fun p => p.ackreq && p.tries == 0 && decide (d.rd FAB_CC.RTT_TARGET * 1000 < d.now - p.time))
  let d := d.updConn c (fun k =>
    { k with txq := (k.txq.map (fun p => if p.sent && ackedBy aux bits p.psn then { p with acked := true } else p)).dropWhile
                      (fun p => p.acked) })
  let d := if fftFlag f 1 then d.congestion c f.path else d
  let d := slow.foldl (fun d p => d.congestion c p.path) d
  (d.pump c).settle c

/-- Congestion seen on an acknowledgement is reported to the peer at once (R408). -/
def Dev.ceBack (d : Dev) (r : Rx) (c : Nat) : Dev := if (rxCe r) then d.sendAck c true else d

def fftAck (r : Rx) (f : Fft) (d : Dev) : Dev :=
  let s := d.rxConn r f 5 Conn.isOpen
  if s.1 then (s.2.ceBack r f.dstConn).takeAck f.dstConn f 0 else s.2

def execFftAck (r : Rx) (f : Fft) (s : State) : Out := act s (fftAck r f)

/-- A SACK: the work request of a packet it names ends POISON or CUE_REFUSED; packets with REORDER accepted ones above
them are sent again. -/
def fftSack (r : Rx) (f : Fft) (d : Dev) : Dev :=
  let c := f.dstConn
  let s := d.rxConn r f 6 Conn.isOpen
  if !s.1 then s.2
  else
    let d := s.2.ceBack r c
    let named := ((d.conn c).txq.find? (fun p => p.psn == f.psn)).bind TxPkt.wr
    let st := if fftFlag f 4 then 6 else if fftFlag f 0 then 8 else 0
    let d := match named with
      | some i => if st = 0 then d else d.updConn c (fun k => k.wrStatus i st)
      | none => d
    let bits := f.payload % 2 ^ 512
    let aux := f.aux % 2 ^ 24
    let d := d.takeAck c f bits
    let above := fun (p : Nat) => ((List.range 512).filter (fun b => bits.testBit b && decide ((p + 2 ^ 24 - aux - 1) % 2 ^ 24 < b))).length
    let again := (d.conn c).txq.filter (fun p => p.sent && !p.acked && decide (d.rd FAB_RETX.REORDER ≤ above p.psn) &&
      decide ((p.psn + 2 ^ 24 - aux - 1) % 2 ^ 24 < 512))
    again.foldl (fun d p => d.sendPsn c p.psn true) d

def execFftSack (r : Rx) (f : Fft) (s : State) : Out := act s (fftSack r f)

/-! ### Opening and closing (R409) -/

/-- Send OPEN, which only an AGREED peer receives. -/
def Dev.sendOpen (d : Dev) (c : Nat) : Dev :=
  if d.peerOpens (d.conn c) then d.sendPlain { d.connFft c 8 with aux := (d.conn c).epoch } else d

def Dev.sendOpenAck (d : Dev) (c : Nat) : Dev := d.sendPlain { d.connFft c 9 with aux := (d.conn c).epoch }

/-- The connection's streams start afresh, in a state and under an epoch. -/
def Conn.restart (k : Conn) (st epoch rate : Nat) : Conn :=
  { k with st := st, epoch := epoch, rate := rate, txPsn := 0, txq := [], rxE := 0, rxSet := [], rxMarks := [], held := [],
           sinceAck := 0, wrs := [], rr := 0, lastMark := none, marks := [] }

/-- The connection goes OPEN under an epoch. -/
def Dev.goOpen (d : Dev) (c epoch : Nat) : Dev :=
  (d.updConn c (fun k => k.restart 2 epoch (d.rd FAB_CC.INIT_RATE))).teEnd c 1

/-- The connection goes OPENING under an epoch, with what its context then says, and sends OPEN. -/
def Dev.reopen (d : Dev) (c epoch : Nat) : Dev :=
  (d.updConn c (fun k => k.restart 1 epoch k.rate)).sendOpen c

/-- An OPEN packet. -/
def fftOpen (r : Rx) (f : Fft) (d : Dev) : Dev :=
  let c := f.dstConn
  let s := d.rxConn r f 8 (fun k => k.st == 1 || k.st == 2) false
  if !s.1 then s.2
  else if !s.2.peerOpens (s.2.conn c) then s.2.dropFrame r.port 2
  else
    let d := s.2
    let k := d.conn c
    if k.st = 1 then (d.goOpen c (max k.epoch f.aux)).sendOpenAck c
    else if k.epoch < f.aux then (d.abortConn c 6).reopen c f.aux
    else d.sendOpenAck c

def execFftOpen (r : Rx) (f : Fft) (s : State) : Out := act s (fftOpen r f)

/-- An OPEN_ACK packet; a connection that is OPEN already takes nothing from it. -/
def fftOpenAck (r : Rx) (f : Fft) (d : Dev) : Dev :=
  let c := f.dstConn
  let s := d.rxConn r f 9 (fun k => k.st == 1 || k.st == 2) false
  if !s.1 then s.2
  else if !s.2.peerOpens (s.2.conn c) then s.2.dropFrame r.port 2
  else if (s.2.conn c).st = 1 then s.2.goOpen c f.aux
  else s.2

def execFftOpenAck (r : Rx) (f : Fft) (s : State) : Out := act s (fftOpenAck r f)

/-- A CLOSE packet: the connection ends, and work requests still pending complete ABORTED. -/
def fftClose (r : Rx) (f : Fft) (d : Dev) : Dev :=
  let c := f.dstConn
  let s := d.rxConn r f 10 Conn.isOpen
  if !s.1 then s.2
  else
    let d := s.2.wrFailAll c 1
    let d := d.updConn c (fun k => { k.restart 4 k.epoch k.rate with next := k.sqPi, sqCi := k.sqPi })
    let d := d.teEnd c 1
    (d.colls.filter (fun x => x.uses c)).foldl (fun d x => d.collFail x 2 (x.rankOf c)) d

def execFftClose (r : Rx) (f : Fft) (s : State) : Out := act s (fftClose r f)

/-- An ABORT packet: the blocks of the peer's incomplete work requests are poisoned, and the connection aborts with cause
PEER, or ACCESS when that is what it carries (R403, R407). -/
def fftAbort (r : Rx) (f : Fft) (d : Dev) : Dev :=
  let c := f.dstConn
  let s := d.rxConn r f 11 Conn.isOpen
  if !s.1 then s.2
  else
    let cause := if f.aux % 16 = 5 then 5 else 4
    (s.2.poisonOpen c).abortMany [(c, cause, false, abortStatus cause, f.aux % 16)]

def execFftAbort (r : Rx) (f : Fft) (s : State) : Out := act s (fftAbort r f)

/-! ### Probes (R417) -/

/-- A PROBE is answered whatever the connections and the peer's state. -/
def execFftProbe (r : Rx) (f : Fft) (s : State) : Out :=
  act s (fun d =>
    let x := d.rxFft r f 12
    if x.1 then x.2.sendPlain { x.2.newFft 13 f.srcDev with srcConn := f.dstConn, dstConn := f.srcConn } else x.2)

/-- A PROBE_RSP brings the round-trip time to the half whose PROBE is out. -/
def execFftProbeRsp (r : Rx) (f : Fft) (s : State) : Out :=
  act s (fun d =>
    let x := d.rxFft r f 13
    if !x.1 then x.2
    else
      let h := f.dstConn / 4096 % 2
      match FMap.find x.2.probes h with
      | some (dev, _, t) =>
        if dev = f.srcDev then
          ((({ x.2 with probes := FMap.del x.2.probes h }).wr FPORT_TE_PROBE_RTT.NS (min (x.2.now - t) (2 ^ 32 - 1)) (4 * h))).teResult
            h 1 dev
        else x.2
      | none => x.2)

/-- A PROBE unanswered for 1 ms. -/
def execProbeTimeout (h : Nat) (s : State) : Out :=
  act s (fun d =>
    match FMap.find d.probes (h % 2) with
    | some (dev, _, _) =>
      ((({ d with probes := FMap.del d.probes (h % 2) }).wr FPORT_TE_PROBE_RTT.NS (2 ^ 32 - 1) (4 * (h % 2)))).teResult
        (h % 2) 4 dev
    | none => d)

/-! ### Doorbells and work requests (R401, R402) -/

/-- Whether a writer's tenant is a tenant: programs have their own, a virtual function is its tenant's function, and
other writers are not checked. -/
def Dev.writerIs (d : Dev) (who : Requester) (t : Nat) : Bool × Dev :=
  match who with
  | .core c => (d.rd CORE_SEQ_TENANT.TENANT c == t, d)
  | .fn f =>
    if f < 2 then (true, d)
    else
      let e := d.tenantEntry t
      (e.1.any (fun v => tenFunc v == f), e.2)
  | .queue h q => (d.rd HQ_QPn_CTRL.TENANT h q == t, d)
  | _ => (true, d)

/-- A write of FPORT_TE_DB of half `h`. -/
def Dev.teDoorbell (d : Dev) (h : Nat) (who : Requester) (v : Nat) : Dev :=
  let c := v / 2 ^ 16 % 2 ^ 13
  let k := d.conn c
  let lost := fun (d : Dev) => d.wr FAB_STAT.DB_LOST 1
  if connHalf c ≠ h ∨ k.st ≠ 2 then lost d
  else
    let w := d.writerIs who k.tenant
    if !w.1 then lost w.2
    else
      let r := ringAhead k.sqCi v k.sqLog2
      let d := w.2.updConn c (fun k => { k with sqPi := r.1 })
      if r.2 then d.noteClamp (FPORT_TE_DB.addr (4 * h) 0 0) else d

def execTeDoorbell (h : Nat) (who : Requester) (v : Nat) (s : State) : Out := act s (fun d => d.teDoorbell (h % 2) who v)

/-- CQ_CI of a connection, which its consumer writes. -/
def Dev.cqCi (d : Dev) (c : Nat) : Nat × Dev :=
  let r := d.engRead (connHalf c) (d.ctxAddr c + 38) 2
  (r.1.val % 2 ^ 16, r.2)

def wrOp (r : Nat) : Nat := word32 r 0 / 2 ^ 28
def wrUnits (r : Nat) : Nat := word32 r 0 % 2 ^ 24
def wrLda (r : Nat) : Nat := word32 r 1 + word32 r 2 % 2 ^ 16 * 2 ^ 32
def wrRda (r : Nat) : Nat := word32 r 3 + word32 r 4 % 2 ^ 16 * 2 ^ 32
def wrCue (r : Nat) : Nat :=
  if (word32 r 0).testBit 27 then 2 ^ 31 + word32 r 5 / 2 ^ 16 % 2 ^ 14 * 2 ^ 16 + word32 r 5 % 256 else 0

/-- A field of a work request breaks R401. -/
def wrBad (r : Nat) : Bool :=
  let op := wrOp r
  decide (4 ≤ op) ||
  (if op = 1 ∨ op = 2 then
    wrUnits r == 0 || decide (wrLda r % 32 ≠ 0) || decide (wrRda r % 32 ≠ 0)
   else wrUnits r != 0) ||
  decide (word32 r 2 / 2 ^ 16 ≠ 0) || decide (word32 r 4 / 2 ^ 16 ≠ 0) || decide (word32 r 5 / 2 ^ 30 ≠ 0) ||
  decide (word32 r 5 / 2 ^ 8 % 2 ^ 8 ≠ 0) || decide (word32 r 6 / 2 ^ 14 ≠ 0) || decide (r / 2 ^ 256 % 2 ^ 256 ≠ 0) ||
  ((word32 r 0).testBit 27 && word32 r 5 % 256 == 0)

/-- The engine starts the next work request of a connection when its OP is of the row's kind: the completion ring has
room, and with FENCE every earlier one is complete. -/
def wrStart (kind : Nat → Bool) (c : Nat) (d : Dev) : Dev :=
  let k := d.conn c
  if !k.isOpen || k.next == k.sqPi then d
  else
    let q := d.engRead (connHalf c) (k.sqBase + 64 * (k.next % 2 ^ k.sqLog2)) 64
    let r := q.1.val
    let ci := q.2.cqCi c
    let room := !k.hasCq || decide ((k.cqPi + k.wrs.length + 2 ^ 16 - ci.1) % 2 ^ 16 < 2 ^ k.cqLog2)
    let fenced := (word32 r 0).testBit 24 && !k.wrs.isEmpty
    if !kind (wrOp r) || !room || fenced then d
    else
      let d := ci.2
      let n := wrUnits r * 32
      let op := wrOp r
      let bad := wrBad r
      let a := if !bad && (op == 1 || op == 2) then d.allowed (connHalf c) k.part (wrLda r) n (op == 2) else (true, d)
      let status := if bad then 7 else if a.1 then 0 else 4
      let run : WrRun :=
        { idx := k.next, op := op, cqe := (word32 r 0).testBit 25,
          lcue := if (word32 r 0).testBit 26 then some (word32 r 6 % 2 ^ 14) else none, tag := word32 r 7, lda := wrLda r,
          len := n, left := if status = 0 ∧ op = 2 then n else 0, status := status }
      let d := a.2.updConn c (fun k => { k with next := (k.next + 1) % 2 ^ 16, wrs := k.wrs ++ [run] })
      let pkts : List TxPkt :=
        if status ≠ 0 then []
        else if op = 1 then dataPkts 1 (some k.next) (wrLda r) (wrRda r) n (wrCue r)
        else if op = 2 then
          [{ TxPkt.blank 2 with wr := some k.next, src := [(wrLda r, 32)], aux := wrUnits r, rda := wrRda r, len := 32,
                                cue := wrCue r }]
        else if op = 3 then [{ TxPkt.blank 4 with wr := some k.next, rda := wrRda r, cue := wrCue r }]
        else []
      ((d.queuePkts c pkts).pump c).settle c

/-- A NOP; a reserved OP completes BAD_WR. -/
def execWrNop (c : Nat) (s : State) : Out := act s (wrStart (fun op => op == 0 || decide (4 ≤ op)) c)
def execWrWrite (c : Nat) (s : State) : Out := act s (wrStart (fun op => op == 1) c)
def execWrRead (c : Nat) (s : State) : Out := act s (wrStart (fun op => op == 2) c)
def execWrSignal (c : Nat) (s : State) : Out := act s (wrStart (fun op => op == 3) c)

/-! ### Engine commands (R409, R410) -/

/-- A command of FPORT_TE_CMD of half `h`, its word `v`: discarded while one runs. -/
def Dev.teCmd (d : Dev) (h v : Nat) (f : Nat → Dev → Dev) : Dev :=
  if d.bit FPORT_TE_RESULT.BUSY (4 * h) then d.wr FPORT_TE_RESULT.CMD_LOST 1 (4 * h)
  else f (v / 2 ^ 16 % 2 ^ 13) d

/-- A command on a connection, refused with OTHER_HALF or BAD_STATE. -/
def Dev.teConn (d : Dev) (h v : Nat) (ok : Conn → Bool) (f : Nat → Dev → Dev) : Dev :=
  d.teCmd h v (fun c d =>
    if connHalf c ≠ h then d.teResult h 5 c
    else if !ok (d.conn c) then d.teResult h 2 c
    else f c d)

def teBusy (h c : Nat) (d : Dev) : Dev := (d.updConn c (fun k => { k with cmd := true })).wr FPORT_TE_RESULT.BUSY 1 (4 * h)

/-- OPEN: the context is read, and the handshake starts; it is busy until the connection is OPEN or the attempt ends. -/
def Dev.teOpen (d : Dev) (h v : Nat) : Dev :=
  d.teConn h v (fun k => k.st == 0 || k.st == 4 || k.st == 5) (fun c d =>
    let r := d.engRead h (d.ctxAddr c) 128
    let k := Conn.ofCtx r.1.val
    match r.2.routeEntryOf h k.peerDev with
    | (none, d) => d.teResult h 3 c
    | (some _, d) => (teBusy h c (d.setConn c { k with st := 1 })).sendOpen c)

/-- CLOSE: waits until every work request is complete. -/
def Dev.teClose (d : Dev) (h v : Nat) : Dev :=
  d.teConn h v (fun k => k.st == 2) (fun c d => (teBusy h c (d.updConn c (fun k => { k with st := 3 }))).settle c)

/-- ABORT. -/
def Dev.teAbort (d : Dev) (h v : Nat) : Dev :=
  d.teConn h v Conn.active (fun c d => (d.abortConn c 1).teResult h 1 c)

/-- FREE. -/
def Dev.teFree (d : Dev) (h v : Nat) : Dev :=
  d.teConn h v (fun k => k.st == 4 || k.st == 5) (fun c d =>
    let d := d.updConn c (fun k => { k with st := 0 })
    ({ d with conns := FMap.del d.conns c }).teResult h 1 c)

/-- PROBE: one PROBE along a path. -/
def Dev.teProbe (d : Dev) (h v : Nat) : Dev :=
  d.teCmd h v (fun c d =>
    let dev := c % 2 ^ 10
    match d.routeEntryOf h dev with
    | (none, d) => d.teResult h 3 c
    | (some _, d) =>
      let d := { d with probes := FMap.set d.probes h (dev, v % 32, d.now) }
      (d.wr FPORT_TE_RESULT.BUSY 1 (4 * h)).sendPlain { d.newFft 12 dev with srcConn := 4096 * h } (some (v % 32)))

def execTeOpen (h v : Nat) (s : State) : Out := act s (fun d => d.teOpen (h % 2) v)
def execTeClose (h v : Nat) (s : State) : Out := act s (fun d => d.teClose (h % 2) v)
def execTeAbort (h v : Nat) (s : State) : Out := act s (fun d => d.teAbort (h % 2) v)
def execTeFree (h v : Nat) (s : State) : Out := act s (fun d => d.teFree (h % 2) v)
def execTeProbe (h v : Nat) (s : State) : Out := act s (fun d => d.teProbe (h % 2) v)
def execTeNop (h v : Nat) (s : State) : Out := act s (fun d => d.teCmd (h % 2) v (fun _ d => d))

/-! ### Timers (R405, R408, R409) -/

def execOpenResendTimer (c : Nat) (s : State) : Out := act s (fun d => if (d.conn c).st = 1 then d.sendOpen c else d)

/-- No OPEN_ACK for 1 s: ABORTED with cause RESET, and no packet is sent. -/
def execOpenTimeout (c : Nat) (s : State) : Out :=
  act s (fun d => if (d.conn c).st = 1 then (d.teEnd c 4).abortMany [(c, 7, false, 1, 0)] else d)

/-- The timer of a packet runs out: it is sent again, or the connection aborts at RETRY_LIMIT. -/
def retxTimeout (c psn : Nat) (d : Dev) : Dev :=
  match (d.conn c).txq.find? (fun p => p.psn == psn && p.sent && !p.acked) with
  | none => d
  | some p =>
    if d.rd FAB_RETX.RETRY_LIMIT ≤ p.tries + 1 then d.abortConn c 3
    else
      let d := d.updConn c (fun k => { k with txq := k.txq.map (fun q => if q.psn = psn then { q with tries := q.tries + 1 } else q) })
      d.sendPsn c psn true

def execRetxTimeout (c psn : Nat) (s : State) : Out := act s (retxTimeout c psn)

def execAckDelayExpiry (c : Nat) (s : State) : Out :=
  act s (fun d => if (d.conn c).isOpen && decide (0 < (d.conn c).sinceAck) then d.sendAck c else d)

def execRateIncreaseTimer (c : Nat) (s : State) : Out :=
  act s (fun d => if (d.conn c).isOpen then d.updConn c (fun k => { k with rate := min 3200 (k.rate + d.rd FAB_CC.INC_STEP) }) else d)

end Sys2Proof.Machine
end

