-- ==== Sys2Proof/Machine/Ports.lean ====
section
/-! DEFINITION. Fabric ports: links, address resolution, priority flow control, discovery, MACsec associations (R385-R387,
R396, R411, R412, R416), and steps of fabric time (R415). -/
namespace Sys2Proof.Machine
open Sys2Proof

/-! ### Links (R385, R396, R418) -/

/-- The port that carries PTP: the lowest UP among those allowed (R413). -/
def Dev.ptpPort (d : Dev) : Option Nat := (List.range 8).find? (fun p => d.fportUp p && (d.rd FAB_TIME_CTRL.PORTS).testBit p)

def Dev.notePtpPort (d : Dev) : Dev := match d.ptpPort with | some p => d.wr FAB_TIME_STAT.PORT p | none => d

/-- JOINED is set once every port whose setting is not OFF is UP and every listed peer has an outcome (R520). The time that
took is open. -/
def Dev.noteJoined (d : Dev) : Dev :=
  if d.joins.on && d.joins.left.isEmpty && (List.range 8).all (fun p => d.rd FPORT_STAT.MODE p == 0 || d.fportUp p) then
    let v := d.draw 21
    let d := ((v.2.wr SEQ_STAT.JOINED 1).wr SEQ_STAT.STAGE 9).wr SEQ_JOIN.MS v.1.toNat
    { d.wr SEQ_JOIN.MISS 0 with joins := Joins.init }
  else d

/-- The PCS of a port aligns: UP, and its paths rejoin. A port whose active mode is OFF never does. -/
def Dev.fportLinkUp (d : Dev) (p : Nat) : Dev :=
  if 8 ≤ p ∨ d.rd FPORT_STAT.MODE p = 0 ∨ d.fportUp p then d
  else (((d.wr FPORT_STAT.LINK 2 p).notePtpPort).event 6 none).noteJoined

def execFportLinkUp (p : Nat) (s : State) : Out := act s (fun d => d.fportLinkUp p)

/-- Packets of a connection that left by a port and are not accepted. -/
def Dev.sentBy (d : Dev) (p c : Nat) (k : Conn) : List Nat :=
  match (d.routeEntryOf (connHalf c) k.peerDev).1 with
  | none => []
  | some e => (k.txq.filter (fun q => q.sent && !q.acked && d.rtPort (connHalf c) e q.path == p)).map TxPkt.psn

/-- A port goes DOWN and starts training again; packets not accepted that left by it are resent on the paths that
remain. -/
def Dev.fportDrop (d : Dev) (p : Nat) : Dev :=
  let again := d.conns.map (fun e => (e.1, d.sentBy p e.1 e.2))
  let d := (d.wr FPORT_STAT.LINK 1 p).wr FPORT_STAT.DOWN_SEEN 1 p
  let d := { d with pfcHeld := FMap.del d.pfcHeld p, pfcSent := d.pfcSent.filter (· != p) }
  let d := ((d.err 4 9 (unitPort p) 0).notePtpPort).event 6 none
  again.foldl (fun d e => e.2.foldl (fun d psn => d.sendPsn e.1 psn true) d) d

/-- A port counts uncorrectable codewords. Those corrected meanwhile are free. -/
def Dev.countCw (d : Dev) (p n : Nat) : Dev := (d.advance FPORT_FEC_CORR.CW p).add FPORT_FEC_UNCORR.CW n p

/-- A port that is UP goes DOWN when it loses alignment, or when the uncorrectable codewords of 1 ms reach FEC_LIMIT. -/
def Dev.fportLinkDown (d : Dev) : PortLoss → Dev
  | .alignment p => if d.fportUp p then (d.countCw p 0).fportDrop p else d
  | .codewords p n =>
    if !d.fportUp p then d
    else if n < d.rd FPORT_CTRL.FEC_LIMIT p then d.countCw p n
    else (d.countCw p n).fportDrop p

def execFportLinkDown (e : PortLoss) (s : State) : Out := act s (fun d => d.fportLinkDown e)

/-! ### Other frames (R386, R387) -/

/-- The headers of a reply to a received frame: to a MAC address, in the same VLAN. -/
def Dev.replyEncap (d : Dev) (r : Rx) (mac : Nat) (c : Carrier) : Encap :=
  { dstMac := mac, srcMac := d.portMac r.port, tag := r.enc.tag, carrier := c }

/-- The priority of a frame. -/
def encPrio (e : Encap) : Nat := (e.tag.map Prod.fst).getD 0

/-- An ARP request for the port's own address is answered with its MAC (RFC 826). One for another address is a frame that
the port does not accept. -/
def Dev.arpRequest (d : Dev) (a : ArpRx) : Dev :=
  let r := a.rx
  let p := r.port
  let s := d.rxFrame r (isEth r 0x0806 && a.tpa == d.portIp p % 2 ^ 32)
  if s.1 then
    s.2.portSend p (encPrio r.enc) (.frame p none
      (.arpReply (s.2.replyEncap r a.sha (.eth 0x0806)) (s.2.portMac p) a.tpa a.sha a.spa))
  else s.2

/-- What a Neighbour Solicitation must be to be accepted: valid under RFC 4861, for the port's own address. -/
def Dev.nsOk (d : Dev) (n : SolRx) : Bool :=
  match n.rx.enc.carrier with
  | .icmp6 _ _ hops bare => bare && hops == 255 && n.valid && n.target == d.portIp n.rx.port
  | _ => false

/-- A Neighbour Solicitation for the port's own address is answered (RFC 4861): to its source, or to all nodes where the
source is unspecified. -/
def Dev.neighborSolicitation (d : Dev) (n : SolRx) : Dev :=
  let r := n.rx
  let p := r.port
  let s := d.rxFrame r (d.nsOk n)
  if !s.1 then s.2
  else
    let src := match r.enc.carrier with | .icmp6 src .. => src | _ => 0
    let peer := if src = 0 then (0x333300000001, 0xFF02 * 2 ^ 112 + 1) else (n.lla.getD r.enc.srcMac, src)
    s.2.portSend p (encPrio r.enc) (.frame p none
      (.neighborAdvert (s.2.replyEncap r peer.1 (.icmp6 n.target peer.2 255 true)) n.target (s.2.portMac p) (src != 0) true))

def execArpRequest (r : ArpRx) (s : State) : Out := act s (fun d => d.arpRequest r)
def execNeighborSolicitation (r : SolRx) (s : State) : Out := act s (fun d => d.neighborSolicitation r)

/-- A paused priority is sent again: what waited leaves. -/
def Dev.pfcRelease (d : Dev) (p : Nat) : Dev :=
  match FMap.find d.pfcHeld p with
  | some l => l.foldl (fun d o => d.portEmit p o) { d with pfcHeld := FMap.del d.pfcHeld p }
  | none => d

/-- A PFC frame with the quanta of PFC_PRIO. Without flow control it is a frame the port does not accept. -/
def execPfcFrame (r : Rx) (quanta : Nat) (s : State) : Out :=
  act s (fun d =>
    let p := r.port
    let x := d.rxFrame r (isEth r 0x8808) true
    if !x.1 then x.2
    else
      match FMap.find x.2.pfcOn p with
      | none => x.2.dropFrame p 6
      | some _ =>
        if quanta = 0 then x.2.pfcRelease p
        else
          let d := x.2.wr FPORT_STAT.PFC_RX 1 p
          if (FMap.find d.pfcHeld p).isSome then d else { d with pfcHeld := FMap.set d.pfcHeld p [] })

def execPfcPauseExpiry (p : Nat) (s : State) : Out := act s (fun d => d.pfcRelease p)

/-! ### Discovery (R416) -/

def execLldpSendTimer (p : Nat) (s : State) : Out :=
  act s (fun d =>
    if d.bit FPORT_LLDP.EN p then
      d.portSend p 0 (.frame p none (.lldp (d.portMac 0) (d.portMac p) (4 * d.rd FPORT_LLDP.INTERVAL p) p d.ownDev))
    else d)

/-- The neighbour is forgotten. -/
def Dev.dropNeighbor (d : Dev) (p : Nat) : Dev :=
  let d := [FPORT_NBR_STAT.VALID, FPORT_NBR_STAT.CH_SUB, FPORT_NBR_STAT.PORT_SUB, FPORT_NBR_STAT.CH_LEN,
            FPORT_NBR_STAT.PORT_LEN].foldl (fun d f => d.wr f 0 p) d
  let d := (List.range 8).foldl (fun d n => (d.wr FPORT_NBR_CHASSIS.BYTES 0 p n).wr FPORT_NBR_PORT.BYTES 0 p n) d
  { d with nbrTtl := FMap.del d.nbrTtl p }

/-- An LLDPDU: its Chassis ID and Port ID (subtype, bytes as a number whose lowest byte is the first, length) and TTL
become the neighbour's. A TTL of zero says that the neighbour is gone. -/
def lldpduReceive (r : Rx) (chSub ch chLen pSub pid pLen ttl : Nat) (d : Dev) : Dev :=
  let p := r.port
  let x := d.rxFrame r (isEth r 0x88CC) true
  if !x.1 then x.2
  else if ttl = 0 then x.2.dropNeighbor p
  else
    let cl := min 32 chLen
    let pl := min 32 pLen
    let d := ((x.2.wr FPORT_NBR_STAT.VALID 1 p).wr FPORT_NBR_STAT.CH_SUB chSub p).wr FPORT_NBR_STAT.PORT_SUB pSub p
    let d := (d.wr FPORT_NBR_STAT.CH_LEN cl p).wr FPORT_NBR_STAT.PORT_LEN pl p
    let d := (List.range 8).foldl (fun d n =>
      (d.wr FPORT_NBR_CHASSIS.BYTES (ch % 256 ^ cl / 2 ^ (32 * n)) p n).wr FPORT_NBR_PORT.BYTES (pid % 256 ^ pl / 2 ^ (32 * n)) p n) d
    { d with nbrTtl := FMap.set d.nbrTtl p ttl }

def execLldpduReceive (r : Rx) (chSub ch chLen pSub pid pLen ttl : Nat) (s : State) : Out :=
  act s (lldpduReceive r chSub ch chLen pSub pid pLen ttl)

def execNeighborTtlExpiry (p : Nat) (s : State) : Out :=
  act s (fun d => if (FMap.find d.nbrTtl p).isSome then d.dropNeighbor p else d)

/-! ### MACsec (R412) -/

/-- Only host software, through a physical function, writes the FPORT_SEC_ registers. -/
def isPf : Requester → Bool
  | .fn f => decide (f < 2)
  | _ => false

/-- A write of FPORT_SEC_CTRL. A change of TX_AN lets sending go on. -/
def Dev.secCtrl (d : Dev) (p : Nat) (who : Requester) (v : Nat) : Dev :=
  if !isPf who then d
  else
    let an := v / 2 ^ 28 % 4
    let d := if an = d.rd FPORT_SEC_CTRL.TX_AN p then d else d.wr FPORT_SEC_STAT.PN_EXHAUST 0 p
    ((d.wr FPORT_SEC_CTRL.EN (v / 2 ^ 31) p).wr FPORT_SEC_CTRL.TX_AN an p).wr FPORT_SEC_CTRL.REPLAY_WIN v p

def execSecTxAnWrite (p : Nat) (who : Requester) (v : Nat) (s : State) : Out := act s (fun d => d.secCtrl (p % 8) who v)

/-- Association `i` = 4·direction + AN is the active transmit association, which cannot be written. -/
def Dev.saLocked (d : Dev) (p i : Nat) : Bool := d.bit FPORT_SEC_CTRL.EN p && i == d.rd FPORT_SEC_CTRL.TX_AN p

/-- A write of an association's VALID. -/
def Dev.saValid (d : Dev) (p : Nat) (who : Requester) (i v : Nat) : Dev :=
  if !isPf who || d.saLocked p i then d
  else
    let on := v.testBit 31
    let d := d.wr FPORT_SA_d_a_CTRL.VALID (if on then 1 else 0) p i
    let d := if i < 4 then d.setBit FPORT_SEC_STAT.TX_VALID i on p else d.setBit FPORT_SEC_STAT.RX_VALID (i - 4) on p
    let key := (List.range 8).foldl (fun k w => k + d.rd FPORT_SA_d_a_KEY.KEY p i w * 2 ^ (32 * w)) 0
    let salt := (List.range 3).foldl (fun k w => k + d.rd FPORT_SA_d_a_SALT.SALT p i w * 2 ^ (32 * w)) 0
    if on then { d with sak := FMap.set d.sak (p * 8 + i) (key, salt), secHigh := if i < 4 then d.secHigh else FMap.del d.secHigh (p * 4 + i - 4) }
    else { d with sak := FMap.del d.sak (p * 8 + i) }

def execSaValidWrite (p : Nat) (who : Requester) (i v : Nat) (s : State) : Out :=
  act s (fun d => d.saValid (p % 8) who (i % 8) v)

/-! ### Steps of fabric time (R415) -/

/-- Fabric time is stepped, in Half A only while the control channel is lost (R582); samples stamped before are
discarded. -/
def Dev.stepTime (d : Dev) (ns : Int) : Dev :=
  { d with now := (((d.now : Int) + ns) % 2 ^ 64).toNat,
           skew := if d.ctrlDown then d.skew - ns else d.skew,
           ptp := { d.ptp with twoStep := none, t3 := none, sync := none } }

/-- FAB_TIME_CMD.STEP. -/
def execTimeStep (s : State) : Out := act s (fun d => d.stepTime (signed 64 (d.rd FAB_TIME_STEP.NS)))

end Sys2Proof.Machine
end

