-- ==== Sys2Proof/Machine/Agree.lean ====
section
/-! DEFINITION. Agreement between devices: JOIN exchanges, outcomes, quarantine, epochs, DEPARTING (R430-R438), and the PTP
clock with its servo (R413-R415, R434). -/
namespace Sys2Proof.Machine
open Sys2Proof

/-! ### Peer entries (R439) -/

/-- Set a peer's STATE and CAUSE: the counts follow, and a change raises an event of class 5. -/
def Dev.setPeer (d : Dev) (dev st cause : Nat) : Dev :=
  let old := d.rd FAB_PEERd.STATE 0 dev
  let d := (d.wr FAB_PEERd.STATE st 0 dev).wr FAB_PEERd.CAUSE cause 0 dev
  let count := fun (p : Nat → Bool) => ((List.range 1024).filter (fun i => p (d.rd FAB_PEERd.STATE 0 i))).length
  let d := (d.wr FAB_AGREE_STAT.AGREED (count (· == 2))).wr FAB_AGREE_STAT.QUAR (min 1023 (count (fun s => s == 3 || s == 5)))
  if old = st then d else d.event 5 none

/-- An outcome other than AGREED is recorded. -/
def Dev.agreeRec (d : Dev) (dev : Nat) : Dev := d.err 17 0 (unitDev 30 0) dev

/-! ### JOIN records (R430) -/

/-- The value of bytes, the first least significant. -/
def ofBytes (l : List Byte) : Nat := l.foldr (fun b v => b.toNat + 256 * v) 0

/-- `n` bytes at byte `i` of a payload, most significant first. -/
def beField (v i n : Nat) : Nat := (List.range n).foldl (fun x k => x * 256 + v / 256 ^ (i + k) % 256) 0

def Dev.ownDigest (d : Dev) : Nat := (List.range 4).foldl (fun v n => v + d.rd FAB_DIGEST.DIGEST 0 n * 2 ^ (32 * n)) 0

/-- This device's time rank. -/
def Dev.ownTref (d : Dev) : Nat :=
  if d.bit FAB_AGREE_STAT.TIME_BAD then 0
  else if d.rd FAB_TIME_CTRL.ROLE = 2 then 3
  else if d.rd FAB_TIME_CTRL.ROLE = 1 ∧ d.rd FAB_TIME_STAT.STATE = 2 then 2
  else 1

/-- The connections of this device to a peer. -/
def Dev.connsTo (d : Dev) (dev : Nat) : FMap Conn := d.conns.filter (fun e => e.2.peerDev == dev)

/-- This device's record for a peer, with T2 and T3. -/
def Dev.joinBytes (d : Dev) (dev t2 t3 : Nat) : List Byte :=
  let es := d.connsTo dev
  beBytes d.ownDigest 16 ++ [BitVec.ofNat 8 (d.rd FAB_PROTO.MAJOR), BitVec.ofNat 8 (d.rd FAB_PROTO.MINOR)] ++
  beBytes d.ownDev 2 ++ [BitVec.ofNat 8 d.ownTref, if d.bit FAB_AGREE_STAT.TIME_BAD then 1 else 0] ++
  beBytes es.length 2 ++ beBytes t2 8 ++ beBytes t3 8 ++ List.replicate 24 0 ++
  es.flatMap (fun e => bytesOf (e.2.st * 2 ^ 29 + e.2.peerConn * 2 ^ 16 + e.1) 4 ++ bytesOf e.2.epoch 4)

/-- What a record says. -/
def joinRecOf (v : Nat) : JoinRec :=
  { digest := beField v 0 16, vmaj := beField v 16 1, vmin := beField v 17 1, tref := beField v 20 1,
    timeBad := beField v 21 1 % 2 == 1,
    entries := (List.range (beField v 22 2)).map (fun i =>
      let w := v / 256 ^ (64 + 8 * i) % 2 ^ 64
      { st := w % 2 ^ 32 / 2 ^ 29, peerConn := w / 2 ^ 16 % 2 ^ 13, conn := w % 2 ^ 13, epoch := w / 2 ^ 32 }),
    t2 := beField v 24 8, t3 := beField v 32 8 }

/-- Send a record in packets of at most 4,096 B, FIRST and LAST at its ends. -/
def Dev.sendRecord (d : Dev) (typ dev : Nat) (bytes : List Byte) : Dev :=
  let n := (bytes.length + 4095) / 4096
  (List.range n).foldl (fun d i =>
    let part := (bytes.drop (4096 * i)).take 4096
    d.sendPlain { d.newFft typ dev with flags := flagBits (i == 0) (i + 1 == n) false false false false,
                                        len := part.length, payload := ofBytes part }) d

/-! ### Exchanges (R431) -/

/-- A command's result. -/
def Dev.agreeResult (d : Dev) (code target : Nat) : Dev :=
  ((d.wr FAB_AGREE_RESULT.CODE code).wr FAB_AGREE_RESULT.TARGET target).wr FAB_AGREE_RESULT.BUSY 0

/-- JOIN is sent, and its departure stamped. -/
def Dev.sendJoin (d : Dev) (dev : Nat) (x : Exch) : Dev :=
  let d := { d with exchs := FMap.set d.exchs dev { x with sends := x.sends + 1, t1 := d.now } }
  d.sendRecord 16 dev (d.joinBytes dev 0 0)

/-- An exchange starts. A peer that is UNKNOWN becomes JOINING. -/
def Dev.startJoin (d : Dev) (dev : Nat) (cmd rejoin after : Bool) : Dev :=
  let d := if d.rd FAB_PEERd.STATE 0 dev = 0 then d.setPeer dev 1 0 else d
  d.sendJoin dev { cmd := cmd, rejoin := rejoin, after := after, ceded := false, sends := 0, t1 := 0 }

/-- Start the exchanges of the join list that wait, as long as fewer than 64 run (R520). -/
def Dev.pumpJoins (d : Dev) : Dev :=
  let now := d.joins.todo.take (64 - d.exchs.length)
  now.foldl (fun d dev => d.startJoin dev false false false) { d with joins := { d.joins with todo := d.joins.todo.drop now.length } }

/-- An exchange ends, with a code for the command that waits for it; 2 is TIMEOUT. -/
def Dev.endJoin (d : Dev) (dev code : Nat) : Dev :=
  let x := FMap.find d.exchs dev
  let d := { d with exchs := FMap.del d.exchs dev }
  let d := if x.any Exch.cmd then d.agreeResult code dev else d
  if !d.joins.on then d
  else
    let j := d.joins
    ({ d with joins := if code = 2 && j.left.contains dev then { j with retry := j.retry.filter (· != dev) ++ [dev] } else j }).pumpJoins

/-- A listed peer has an outcome other than TIMEOUT. -/
def Dev.joinOutcome (d : Dev) (dev : Nat) : Dev :=
  ({ d with joins := { d.joins with left := d.joins.left.filter (· != dev) } }).noteJoined

/-- The outcomes of R432, numbered by the rows of its table. -/
def outcomeOf (ownMajor ownDigest : Nat) (ownBad after : Bool) (r : JoinRec) (theta : Int) : Nat :=
  if r.vmaj ≠ ownMajor then 1
  else if r.digest ≠ ownDigest then 2
  else if ownBad || r.timeBad then 3
  else if 10000 < theta.natAbs && after then 4
  else if 10000 < theta.natAbs then 5
  else 6

/-- Quarantine begins: every connection to the peer outside the diagnostic partition aborts with cause QUARANTINE. -/
def Dev.quarantine (d : Dev) (dev cause : Nat) : Dev :=
  let d := (d.setPeer dev 3 cause).agreeRec dev
  let diag := fun (k : Conn) => d.bit FAB_AGREE_CTRL.DIAG_EN && d.rd FAB_AGREE_CTRL.DIAG_PART == k.part
  d.abortMany (((d.connsTo dev).filter (fun e => !diag e.2)).map (fun e => (e.1, 8, true, 1, 0)))

/-- What R436 does with one connection to an agreed peer. -/
def Dev.reconcileOne (entries : List JoinEntry) (c : Nat) (k : Conn) (d : Dev) : Dev :=
  match entries.find? (fun e => e.conn == k.peerConn && e.peerConn == c) with
  | none => if k.st = 1 ∨ k.st = 2 then d.abortConn c 6 else d
  | some e =>
    let oneOpen := (k.st == 2) != (e.st == 2)
    if k.epoch = e.epoch ∧ !oneOpen then d
    else
      let ep := if k.epoch = e.epoch then (k.epoch + 1) % 2 ^ 32 else max k.epoch e.epoch
      let d := if k.epoch < e.epoch ∨ k.st = 2 then d.abortConn c 6 else d
      d.reopen c ep

def Dev.reconcile (d : Dev) (dev : Nat) (entries : List JoinEntry) : Dev :=
  (d.connsTo dev).foldl (fun d e => Dev.reconcileOne entries e.1 e.2 d) d

/-- The outcome of an exchange is applied. `theta` is the offset of the responder's time from the initiator's; `peer`
its record; `init` tells whether this device is the initiator, `rejoin` whether quarantine may end. -/
def Dev.applyOutcome (d : Dev) (dev out : Nat) (theta : Int) (peer : JoinRec) (init rejoin : Bool) : Dev :=
  let d := ((d.wr FAB_PEERd.VMAJ peer.vmaj 0 dev).wr FAB_PEERd.VMIN peer.vmin 0 dev).joinOutcome dev
  match out with
  | 1 => (d.setPeer dev 4 1).agreeRec dev
  | 2 => d.quarantine dev 2
  | 3 => d.quarantine dev 3
  | 4 => d.quarantine dev 3
  | 5 =>
    let d := (if d.rd FAB_PEERd.STATE 0 dev = 3 && !rejoin then d else d.setPeer dev 1 0).agreeRec dev
    let reference := if d.ownTref = peer.tref then decide (d.ownDev < dev) else decide (peer.tref < d.ownTref)
    let d := if reference then d.wr FAB_PEERd.STEPPED 1 0 dev else d.stepTime (if init then theta else -theta)
    if init then { d with rechecks := d.rechecks.filter (· != dev) ++ [dev] } else d
  | 6 => if d.rd FAB_PEERd.STATE 0 dev = 3 && !rejoin then d else (d.setPeer dev 2 0).reconcile dev peer.entries
  | _ => d

/-- Collect the pieces of a record from a device: the whole record, when its last piece is here. -/
def Dev.joinPiece (d : Dev) (f : Fft) : Option Nat × Dev :=
  let have' := if fftFlag f 7 then (0, 0) else FMap.get d.joinRx (0, 0) f.srcDev
  let v := have'.1 + f.payload % 256 ^ f.len * 256 ^ have'.2
  if fftFlag f 6 then (some v, { d with joinRx := FMap.del d.joinRx f.srcDev })
  else (none, { d with joinRx := FMap.set d.joinRx f.srcDev (v, have'.2 + f.len) })

/-- A JOIN is received, and answered with this device's record and its stamps. Of two devices that send JOIN to each
other, the one with the lower ID stays initiator. -/
def joinReceive (r : Rx) (f : Fft) (d : Dev) : Dev :=
  let s := d.rxFft r f 16
  if !s.1 then s.2
  else
    match s.2.joinPiece f with
    | (none, d) => d
    | (some v, d) =>
      let dev := f.srcDev
      let mine := FMap.find d.exchs dev
      if mine.any (fun x => !x.ceded) && decide (d.ownDev < dev) then d
      else
        let d := { d with joinRecs := FMap.set d.joinRecs dev (joinRecOf v),
                          exchs := match mine with | some x => FMap.set d.exchs dev { x with ceded := true } | none => d.exchs }
        let d := if d.rd FAB_PEERd.STATE 0 dev = 0 then d.setPeer dev 1 0 else d
        d.sendRecord 17 dev (d.joinBytes dev d.now d.now)

def execJoin (r : Rx) (f : Fft) (s : State) : Out := act s (joinReceive r f)

/-- JOIN_ACK reaches the initiator: θ, the outcome, JOIN_DONE. -/
def joinAck (r : Rx) (f : Fft) (d : Dev) : Dev :=
  let s := d.rxFft r f 17
  if !s.1 then s.2
  else
    let dev := f.srcDev
    match FMap.find s.2.exchs dev with
    | none => s.2
    | some x =>
      if x.ceded then s.2
      else
        match s.2.joinPiece f with
        | (none, d) => d
        | (some v, d) =>
          let rec' := joinRecOf v
          let theta : Int := (((rec'.t2 : Int) - x.t1) - ((d.now : Int) - rec'.t3)) / 2
          let out := outcomeOf (d.rd FAB_PROTO.MAJOR) d.ownDigest (d.bit FAB_AGREE_STAT.TIME_BAD) x.after rec' theta
          let d := d.wr FAB_AGREE_THETA.NS (theta % 2 ^ 64).toNat
          let d := { d with joinRecs := FMap.set d.joinRecs dev rec' }
          let d := d.sendPlain { d.newFft 18 dev with aux := out, len := 32, payload := (theta % 2 ^ 64).toNat }
          (d.applyOutcome dev out theta rec' true x.rejoin).endJoin dev 1

def execJoinAck (r : Rx) (f : Fft) (s : State) : Out := act s (joinAck r f)

/-- JOIN_DONE reaches the responder, which applies the outcome. -/
def joinDone (r : Rx) (f : Fft) (d : Dev) : Dev :=
  let s := d.rxFft r f 18
  if !s.1 then s.2
  else
    match FMap.find s.2.joinRecs f.srcDev with
    | none => s.2
    | some rec' => (s.2.applyOutcome f.srcDev f.aux (signed 64 f.payload) rec' false true).endJoin f.srcDev 1

def execJoinDone (r : Rx) (f : Fft) (s : State) : Out := act s (joinDone r f)

/-- 1 ms without JOIN_ACK: JOIN is sent again, or after 8 sends the exchange ends TIMEOUT and the peer is UNKNOWN. -/
def execJoinResendTimer (dev : Nat) (s : State) : Out :=
  act s (fun d =>
    match FMap.find d.exchs dev with
    | none => d
    | some x =>
      if 8 ≤ x.sends then (d.setPeer dev 0 0).endJoin dev 2
      else if x.ceded then { d with exchs := FMap.set d.exchs dev { x with sends := x.sends + 1 } }
      else d.sendJoin dev x)

/-- RECHECK ms after a STEP the initiator runs the exchange again. -/
def execRecheckTimer (dev : Nat) (s : State) : Out :=
  act s (fun d =>
    if d.rechecks.contains dev then
      ({ d with rechecks := d.rechecks.filter (· != dev) }).startJoin dev false false true
    else d)

/-! ### Commands (R439) -/

def Dev.agreeCmd (d : Dev) (v : Nat) (f : Nat → Dev → Dev) : Dev :=
  if d.bit FAB_AGREE_RESULT.BUSY then d.wr FAB_AGREE_RESULT.CMD_LOST 1 else f (v % 2 ^ 10) d

def Dev.agreeJoin (d : Dev) (v : Nat) (rejoin : Bool) : Dev :=
  d.agreeCmd v (fun dev d =>
    if !rejoin && d.rd FAB_PEERd.STATE 0 dev == 4 then d.agreeResult 3 dev
    else ((d.wr FAB_AGREE_RESULT.BUSY 1).wr FAB_AGREE_RESULT.TARGET dev).startJoin dev true rejoin false)

def execAgreeJoin (v : Nat) (s : State) : Out := act s (fun d => d.agreeJoin v false)
def execAgreeRejoin (v : Nat) (s : State) : Out := act s (fun d => d.agreeJoin v true)
/-- FORGET: the peer entry goes to UNKNOWN. -/
def Dev.agreeForget (d : Dev) (v : Nat) : Dev :=
  d.agreeCmd v (fun dev d =>
    let d := ((d.wr FAB_PEERd.VMAJ 0 0 dev).wr FAB_PEERd.VMIN 0 0 dev).wr FAB_PEERd.STEPPED 0 0 dev
    ({ d with exchs := FMap.del d.exchs dev }.setPeer dev 0 0).agreeResult 1 dev)
def execAgreeForget (v : Nat) (s : State) : Out := act s (fun d => d.agreeForget v)
def execAgreeNop (v : Nat) (s : State) : Out := act s (fun d => d.agreeCmd v (fun _ d => d))

/-! ### DEPARTING (R437, R438) -/

/-- Send one copy of a notice on path `k`. -/
def Dev.sendDeparting (d : Dev) (dev cause k : Nat) : Dev := d.sendPlain { d.newFft 19 dev with aux := cause } (some k)

/-- This device departs: it tells every rank of every group with a running collective, and ends its collectives. -/
def Dev.departSelf (d : Dev) (cause : Nat) : Dev :=
  let devs := (d.colls.flatMap (fun x => x.others.map (fun r => x.devs.getD r 0))).eraseDups
  let v := d.draw 32
  let k := v.1.toNat
  let d := devs.foldl (fun (d : Dev) dev =>
    ({ d with departs := d.departs.filter (fun (e : Nat × Nat × Nat × Nat) => e.1 != dev) ++ [(dev, cause, 2, k + 1)] }).sendDeparting dev cause k) v.2
  let d := d.colls.foldl (fun d x => if d.colls.any (fun y => y.id == x.id) then d.collFail x 7 x.rank else d) d
  d.wr FAB_AGREE_STAT.DEPARTED_SELF 1

def Dev.agreeLeave (d : Dev) (v : Nat) : Dev := d.agreeCmd v (fun dev d => (d.departSelf 2).agreeResult 1 dev)
def execAgreeLeave (v : Nat) (s : State) : Out := act s (fun d => d.agreeLeave v)

/-- A DEPARTING notice is sent again on the next path. -/
def execDepartingResend (dev : Nat) (s : State) : Out :=
  act s (fun d =>
    match d.departs.find? (fun e => e.1 == dev) with
    | none => d
    | some (_, cause, left, k) =>
      let rest := d.departs.filter (fun e => e.1 != dev)
      let d := { d with departs := if left ≤ 1 then rest else rest ++ [(dev, cause, left - 1, k + 1)] }
      d.sendDeparting dev cause k)

/-- A DEPARTING notice is received: the first copy acts (R438). -/
def departing (r : Rx) (f : Fft) (d : Dev) : Dev :=
  let s := d.rxFft r f 19
  let dev := f.srcDev
  if !s.1 || s.2.rd FAB_PEERd.STATE 0 dev == 5 then s.2
  else
    let d := s.2.setPeer dev 5 4
    let xs := d.colls.filter (fun x => x.others.any (fun r => x.devs.getD r 1024 == dev))
    let d := xs.foldl (fun d x => d.collEnd x 1 ((x.others.find? (fun r => x.devs.getD r 1024 == dev)).getD 0)) d
    d.abortMany ((d.connsTo dev).map (fun e => (e.1, 9, true, 1, 0)) ++
      xs.flatMap (fun x => x.conns.map (fun c => (c, 1, true, 1, 0))))

def execDeparting (r : Rx) (f : Fft) (s : State) : Out := act s (departing r f)

/-! ### PTP (R413-R415, R434) -/

def Dev.ptpRole (d : Dev) : Nat := d.rd FAB_TIME_CTRL.ROLE

/-- The encapsulation of a received PTP message: IEEE 1588 Annex C, D or E. -/
def isPtp (r : Rx) : Bool :=
  match r.enc.carrier with
  | .eth t => t == 0x88F7
  | .udp u => u.bare && (u.dport == 319 || u.dport == 320)
  | .icmp6 .. => false

/-- A PTP message arrives on the port that carries PTP, in the device's domain. -/
def Dev.rxPtp (d : Dev) (r : Rx) (dom role : Nat) : Bool × Dev :=
  let s := d.rxFrame r (isPtp r)
  (s.1 && s.2.ptpPort == some r.port && dom == s.2.rd FAB_TIME_CTRL.DOMAIN && s.2.ptpRole == role, s.2)

/-- Event messages have UDP port 319, general ones 320. -/
def PtpMsg.port : PtpMsg → Nat
  | .sync _ => 319
  | .delayReq => 319
  | .announce => 320
  | .delayResp _ => 320

/-- The kind of fabric, which the ENCAP of the lowest-numbered valid routing entry of half `h` tells. -/
def Dev.fabricKind (d : Dev) (h : Nat) : Nat :=
  (((List.range 1024).find? (fun e => d.bankBit h FAB_RTn_CTRL.VALID 0 e)).map (fun e => d.bankRd h FAB_RTn_CTRL.ENCAP 0 e)).getD 0

/-- The headers of a PTP message sent on port `p`, to the multicast addresses of IEEE 1588. -/
def Dev.ptpEncap (d : Dev) (p : Nat) (m : PtpMsg) : Encap :=
  let kind := d.fabricKind (p / 4)
  let udp := fun (v6 : Bool) (src dst : Nat) => Carrier.udp
    { v6 := v6, src := src, dst := dst, dscp := d.rd FAB_IPCFG.DSCP, ecn := 0, hops := d.rd FAB_IPCFG.HOPS, sport := m.port,
      dport := m.port, sum := none, df := !v6, bare := true }
  if kind = 0 then { dstMac := 0x011B19000000, srcMac := d.portMac p, tag := none, carrier := .eth 0x88F7 }
  else if kind = 1 then
    { dstMac := 0x01005E000181, srcMac := d.portMac p, tag := none, carrier := udp false (d.portIp p % 2 ^ 32) 0xE0000181 }
  else
    { dstMac := 0x333300000181, srcMac := d.portMac p, tag := none,
      carrier := udp true (d.portIp p) (0xFF0E * 2 ^ 112 + 0x181) }

/-- A message leaves on that port. -/
def Dev.sendPtp (d : Dev) (m : PtpMsg) : Dev :=
  match d.ptpPort with
  | some p => d.portSend p 0 (.frame p none (.ptp (d.ptpEncap p m) (d.rd FAB_TIME_CTRL.DOMAIN) m))
  | none => d

/-- Fabric time in the half of that port. -/
def Dev.ptpTime (d : Dev) : Nat := match d.ptpPort with | some p => d.timeOf (p / 4) | none => d.now

/-- TIME_BAD: every AGREED peer is joined again, to end in quarantine (R434). -/
def Dev.timeBad (d : Dev) : Dev :=
  let peers := (List.range 1024).filter (fun i => d.rd FAB_PEERd.STATE 0 i == 2)
  peers.foldl (fun d dev => d.startJoin dev false false false) (d.wr FAB_AGREE_STAT.TIME_BAD 1)

/-- One offset reaches the servo. The correction it chooses within ±100 ppm is left open. -/
def Dev.servo (d : Dev) (t1 t2 : Nat) : Dev :=
  let off : Int := (t2 : Int) - t1 - d.rd FAB_TIME_DELAY.NS
  let d := d.wr FAB_TIME_OFFSET.NS ((max (-(2 ^ 31)) (min (2 ^ 31 - 1) off)) % 2 ^ 32).toNat
  let d := { d with ptp := { d.ptp with sync := some (t1, t2), good := if off.natAbs < 100 then d.ptp.good + 1 else 0 } }
  let st := d.rd FAB_TIME_STAT.STATE
  let d := if st = 0 ∨ st = 3 then d.wr FAB_TIME_STAT.STATE 1 else d
  let d := if d.rd FAB_TIME_STAT.STATE = 1 ∧ 16 ≤ d.ptp.good then d.wr FAB_TIME_STAT.STATE 2 else d
  let v := d.draw 32
  let d := v.2.wr FAB_TIME_FREQ.PPB ((((v.1.toNat % 200001 : Nat) : Int) - 100000) % 2 ^ 32).toNat
  if off.natAbs ≤ 10000 then d
  else
    let d := d.wr FAB_TIME_STAT.OFFSET_HIGH 1
    if d.ptp.lastStep.any (fun t => decide (d.now < t + 1000000000)) then d.timeBad
    else
      let d := d.stepTime (-off)
      { d with ptp := { d.ptp with lastStep := some d.now } }

/-- A Sync in SLAVE mode, from the master the device has locked to; the Follow_Up of a two-step one brings its t1. -/
def execPtpSyncReceive (r : Rx) (src dom : Nat) (twoStep : Bool) (t1 : Nat) (s : State) : Out :=
  act s (fun d =>
    let x := d.rxPtp r dom 1
    let d := x.2
    if !x.1 || d.ptp.master != some src then d
    else if twoStep then { d with ptp := { d.ptp with twoStep := some (d.timeOf (r.port / 4)) } }
    else d.servo t1 (d.timeOf (r.port / 4)))

def execPtpFollowUpReceive (r : Rx) (src dom t1 : Nat) (s : State) : Out :=
  act s (fun d =>
    let x := d.rxPtp r dom 1
    let d := x.2
    match d.ptp.twoStep with
    | some t2 => if x.1 && d.ptp.master == some src then
        { d with ptp := { d.ptp with twoStep := none } }.servo t1 t2 else d
    | none => d)

/-- The first master whose Announce is received in the domain is the one locked to. -/
def execPtpAnnounceReceive (r : Rx) (src dom : Nat) (s : State) : Out :=
  act s (fun d =>
    let x := d.rxPtp r dom 1
    if x.1 && x.2.ptp.master == none then
      let d : Dev := { x.2 with ptp := { x.2.ptp with master := some src } }
      if d.rd FAB_TIME_STAT.STATE = 0 then d.wr FAB_TIME_STAT.STATE 1 else d
    else x.2)

def execPtpDelayReqReceive (r : Rx) (dom : Nat) (s : State) : Out :=
  act s (fun d =>
    let x := d.rxPtp r dom 2
    if x.1 then x.2.sendPtp (.delayResp (x.2.timeOf (r.port / 4))) else x.2)

/-- A Delay_Resp brings t4: the mean path delay follows from it and the last Sync. -/
def execPtpDelayRespReceive (r : Rx) (src dom t4 : Nat) (s : State) : Out :=
  act s (fun d =>
    let x := d.rxPtp r dom 1
    let d := x.2
    match d.ptp.t3, d.ptp.sync with
    | some t3, some (t1, t2) =>
      if x.1 && d.ptp.master == some src then
        let delay : Int := (((t2 : Int) - t1) + ((t4 : Int) - t3)) / 2
        ({ d with ptp := { d.ptp with t3 := none } }).wr FAB_TIME_DELAY.NS delay.toNat
      else d
    | _, _ => d)

def execPtpSyncSendTimer (s : State) : Out := act s (fun d => if d.ptpRole = 2 then d.sendPtp (.sync d.ptpTime) else d)
def execPtpAnnounceSendTimer (s : State) : Out := act s (fun d => if d.ptpRole = 2 then d.sendPtp .announce else d)
def execPtpDelayReqSendTimer (s : State) : Out :=
  act s (fun d => if d.ptpRole = 1 ∧ d.ptpPort.isSome then
    ({ d with ptp := { d.ptp with t3 := some d.ptpTime } }).sendPtp .delayReq else d)

/-- No Sync for 3 s: HOLDOVER, with the last correction kept. -/
def execPtpHoldoverTimeout (s : State) : Out :=
  act s (fun d => if d.ptpRole = 1 ∧ (d.rd FAB_TIME_STAT.STATE = 1 ∨ d.rd FAB_TIME_STAT.STATE = 2)
    then d.wr FAB_TIME_STAT.STATE 3 else d)

end Sys2Proof.Machine
end

