-- ==== Sys2Proof/Machine/Streams.lean ====
section
/-! DEFINITION. Reading streams of values from local memory: elements, MX scales, LQ weight blocks (R113, R124-R135). -/
namespace Sys2Proof.Machine
open Sys2Proof

/-- A stream's values with the 32 B granules that held an uncorrectable word (R90): each value of such a granule is NaN. -/
structure Vals where
  vals : List Num
  bad : List Nat
  deriving DecidableEq, Repr

/-- Byte `i` of a number. -/
def byteOf (v i : Nat) : Nat := v / 256 ^ i % 256

/-- The granule of a local address. -/
def granule (a : Nat) : Nat := a / 32 * 32

/-- Record a granule once. -/
def addOnce (l : List Nat) (g : Nat) : List Nat := if l.contains g then l else l ++ [g]

/-- The values one element at `a` holds (R113), before any scale. -/
def elemVals (d : Dev) (c fmt a : Nat) : List Num :=
  let v := d.lrd c a (elemSize fmt)
  if fmt = 7 then [decodeNum 7 (v % 16), decodeNum 7 (v / 16)]
  else if fmt = 5 || fmt = 6 then [decodeNum fmt (v % 64)]
  else [decodeNum fmt v]

/-- Every value of a plain stream in visit order. -/
def plainVals (d : Dev) (c : Nat) (e : Desc) : Vals :=
  e.addrs.foldl (fun r a =>
    if d.lbad c (granule a) 32 then
      { vals := r.vals ++ List.replicate (valsPerElem e.format) .nan, bad := addOnce r.bad (granule a) }
    else { r with vals := r.vals ++ elemVals d c e.format a }) ⟨[], []⟩

/-- The scale codes of a scale stream; an uncorrectable scale reads as NaN. -/
def scaleCodes (d : Dev) (c : Nat) (e : Desc) (n : Nat) : List Nat × List Nat :=
  (List.range n).foldl (fun r k =>
    let a := e.nth k
    if d.lbad c (granule a) 32 then (r.1 ++ [0xFF], addOnce r.2 (granule a))
    else (r.1 ++ [d.lrd c a 1], r.2)) ([], [])

/-- Number of scales `n` values need (R124). -/
def scalesFor (n : Nat) : Nat := (n + 31) / 32

/-- Every value of an MX operand (R124, R125). -/
def mxVals (d : Dev) (c : Nat) (e sc : Desc) : Vals :=
  let p := plainVals d c e
  let s := scaleCodes d c sc (scalesFor p.vals.length)
  { vals := p.vals.zipIdx.map (fun x => mxValue e.format (s.1.getD (x.2 / 32) 0xFF) x.1),
    bad := s.2.foldl addOnce p.bad }

/-! ### LQ blocks (R127-R132) -/

/-- What the Mangle met in decoding (R130, R135, R136). -/
structure LqOut where
  vals : List Num
  blocks : Nat
  badData : List Nat
  badTable : List Nat
  nanScale : Bool
  rsvd : Bool
  deriving DecidableEq, Repr

/-- Sizes of a block: granules, index bytes, SCALE byte, SHIFT byte, indices, weights per index (R128, R129). -/
def lqShape (fmt : Nat) : Nat × Nat × Nat × Nat × Nat × Nat :=
  if fmt = 11 then (3, 88, 88, 90, 64, 8) else (6, 176, 176, 178, 128, 4)

/-- Reserved bits of a block (R128-R130): FLAGS above CB, and the tail bytes. -/
def lqRsvd (fmt blk : Nat) : Bool :=
  if fmt = 11 then byteOf blk 89 != 0 || byteOf blk 94 != 0 || byteOf blk 95 != 0
  else byteOf blk 177 / 2 != 0 || (List.range 6).any (fun i => byteOf blk (186 + i) != 0)

/-- The bytes of a block, gathered from its granules in visit order, as one little-endian number. -/
def gather (d : Dev) (c : Nat) : List Nat → Nat
  | [] => 0
  | a :: t => d.lrd c a 32 + 2 ^ 256 * gather d c t

/-- The local address of the table entry that index `i` of a block selects (R131). -/
def lqEntry (fmt blk i : Nat) : Nat :=
  let idx := blk / 2 ^ (11 * i) % 2048
  if fmt = 11 then 0x50000 + 8 * idx else 0x50000 + (if byteOf blk 177 % 2 = 1 then 0x2000 else 0) + 4 * idx

/-- The weights of one index: the entry's elements with SCALE and SHIFT applied (R131). -/
def lqIndex (d : Dev) (c fmt entryFmt blk i : Nat) : List Num × Option Nat :=
  let sh := lqShape fmt
  let n := sh.2.2.2.2.2
  let base := lqEntry fmt blk i
  let scale := byteOf blk sh.2.2.1
  let j := i / 8
  let shift := byteOf blk (sh.2.2.2.1 + j / 2) / (if j % 2 = 1 then 16 else 1) % 16
  if d.lbad c base n then (List.replicate n .nan, some base)
  else if scale = 0xFF then (List.replicate n .nan, none)
  else ((List.range n).map (fun e =>
    (decodeNum (if entryFmt = 1 then 4 else 3) (d.lrd c (base + e) 1)).scale ((scale : Int) - 127 - shift)), none)

/-- One block (R135): an uncorrectable granule makes all 512 weights NaN and nothing else of the block is examined. An
uncorrectable entry or granule that one instruction meets more than once is one error (DESIGN CHOICE, log entry 72). -/
def lqBlock (d : Dev) (c fmt entryFmt : Nat) (gs : List Nat) (o : LqOut) : LqOut :=
  let o := { o with blocks := o.blocks + 1 }
  match gs.filter (fun g => d.lbad c g 32) with
  | g :: rest => { o with vals := o.vals ++ List.replicate 512 .nan, badData := (g :: rest).foldl addOnce o.badData }
  | [] =>
    let blk := gather d c gs
    let o := { o with rsvd := o.rsvd || lqRsvd fmt blk, nanScale := o.nanScale || byteOf blk (lqShape fmt).2.2.1 == 0xFF }
    (List.range (lqShape fmt).2.2.2.2.1).foldl (fun o i =>
      let w := lqIndex d c fmt entryFmt blk i
      { o with vals := o.vals ++ w.1, badTable := match w.2 with
          | some b => addOnce o.badTable b
          | none => o.badTable }) o

/-- The weights of an LQ stream (R127). -/
def lqVals (d : Dev) (c entryFmt : Nat) (e : Desc) : LqOut :=
  let g := (lqShape e.format).1
  let addrs := e.addrs
  (List.range (e.size / g)).foldl (fun o b => lqBlock d c e.format entryFmt ((addrs.drop (b * g)).take g) o)
    ⟨[], 0, [], [], false, false⟩

/-- The table entries that the indices of an LQ stream's readable blocks select. -/
def lqReads (d : Dev) (c : Nat) (e : Desc) : List Nat :=
  let g := (lqShape e.format).1
  (List.range (e.size / g)).flatMap (fun b =>
    let gs := (e.addrs.drop (b * g)).take g
    if gs.any (fun x => d.lbad c x 32) then []
    else (List.range (lqShape e.format).2.2.2.2.1).map (lqEntry e.format (gather d c gs)))

/-! ### Checks made at issue (R98) -/

/-- Steps 2 and 3 of R98 over the named descriptors, in field order from the high bit: a reserved FORMAT is ILLEGAL
with TVAL the word; a span or alignment fault has TVAL BASE. -/
def descTrap (w : W64) (es : List Desc) : Option (Nat × Nat) :=
  if es.any (fun e => elemSize e.format = 0) then some (1, w.toNat)
  else (es.findSome? (fun e => (e.check (elemSize e.format)).map (fun cause => (cause, e.base))))

end Sys2Proof.Machine
end

