-- ==== Sys2Proof/Machine/Special.lean ====
section
/-! DEFINITION. The special functions of the vector engine (R171-R173): special and exact results, and the bound within
which every other result lies. -/
namespace Sys2Proof.Machine
open Sys2Proof

/-! ### Special functions (R171-R173) -/

/-- floor of the square root of a number, by bisection from `hi`. -/
def isqrtAux : Nat → Nat → Nat → Nat → Nat
  | 0, _, lo, _ => lo
  | k + 1, n, lo, hi =>
    if hi ≤ lo + 1 then lo
    else
      let mid := (lo + hi) / 2
      if mid * mid ≤ n then isqrtAux k n mid hi else isqrtAux k n lo mid
def isqrt (n : Nat) : Nat := isqrtAux (Nat.log2 n + 2) n 0 (2 ^ (Nat.log2 n / 2 + 1))

/-- A value given by a floor and whether it is inexact, with one sticky bit below it, so that one rounding is correct. -/
def sticky (neg : Bool) (q : Nat) (inexact : Bool) (e : Int) : Num :=
  .fin neg (2 * q + if inexact then 1 else 0) (e - 1)

/-- √(m·2^e), to 66 bits or more and a sticky bit. -/
def sqrtNum (m : Nat) (e : Int) : Num :=
  let k : Nat := 140 + (e % 2).toNat
  let n := m * 2 ^ k
  let r := isqrt n
  sticky false r (r * r != n) ((e - k) / 2)

/-- The FP32 codes next below and above an exact positive value in sticky form; equal when it is representable. -/
def recipNum (m : Nat) (e : Int) : Num :=
  let k := Nat.log2 m + 80
  sticky false (2 ^ k / m) (2 ^ k % m != 0) (-(k : Int) - e)

/-- log2 of a power of two. -/
def log2Exact : Num → Option Int
  | .fin false m e => if m = 2 ^ Nat.log2 m ∧ m ≠ 0 then some ((Nat.log2 m : Int) + e) else none
  | _ => none

/-- 1/√u for u = m·2^e, exact for even powers of two. -/
def rsqrtNum (u : Num) (m : Nat) (e : Int) : Num :=
  match log2Exact u with
  | some k => if k % 2 = 0 then .fin false 1 (-k / 2)
    else sqrtNum (2 ^ (2 * (Nat.log2 m + 90)) / m) (-(2 * ((Nat.log2 m : Int) + 90)) - e)
  | none => sqrtNum (2 ^ (2 * (Nat.log2 m + 90)) / m) (-(2 * ((Nat.log2 m : Int) + 90)) - e)

/-- 2u as an integer, when u is a multiple of one half. -/
def halves : Num → Option Int
  | .fin s m e =>
    if m = 0 then some 0
    else if 0 ≤ e + 1 then some ((if s then -1 else 1) * (m * 2 ^ (e + 1).toNat : Nat))
    else if m % 2 ^ (-(e + 1)).toNat = 0 then some ((if s then -1 else 1) * (m / 2 ^ (-(e + 1)).toNat : Nat))
    else none
  | _ => none

/-- u as an integer. -/
def asInt (x : Num) : Option Int := (halves x).bind (fun h => if h % 2 = 0 then some (h / 2) else none)

def one : Num := .fin false 1 0
def zero : Num := .fin false 0 0

/-- R173: the result for an infinity, a zero, a NaN or, for the logarithms and roots, a negative value. -/
def sfSpecial (fn : Nat) (u : Num) : Option Num :=
  match u with
  | .nan => some .nan
  | .inf neg =>
    if fn ≤ 1 then some (if neg then zero else .inf false)
    else if fn = 2 ∨ fn = 3 ∨ fn = 5 then some (if neg then .nan else .inf false)
    else if fn = 4 then some (.fin neg 0 0)
    else if fn = 6 then some (if neg then .nan else zero)
    else if fn = 7 then some (.fin neg 1 0)
    else if fn = 8 then some (if neg then zero else one)
    else if fn = 9 ∨ fn = 10 then some (if neg then .fin true 0 0 else .inf false)
    else some .nan
  | .fin neg m _ =>
    if m = 0 then
      (if fn ≤ 1 then some one
       else if fn = 2 ∨ fn = 3 then some (.inf true)
       else if fn = 4 ∨ fn = 6 then some (.inf neg)
       else if fn = 8 then some (.fin false 1 (-1))
       else if fn = 12 then some one
       else some (.fin neg 0 0))
    else if neg && (fn == 2 || fn == 3 || fn == 5 || fn == 6) then some .nan
    else none

/-- R172: results that are exact in FP32, and those too large for it: 2^u from 128, e^u from the first FP32 value above
128 ln 2. -/
def sfExact (fn : Nat) (u : Num) : Option Num :=
  if fn = 0 then
    (if !Num.lt u (Num.ofInt 128) then some (.inf false)
     else (asInt u).bind (fun n => if -149 ≤ n then some (.fin false 1 n) else none))
  else if fn = 1 then (if Num.lt u (.fin false 0xB17218 (-17)) then none else some (.inf false))
  else if fn = 2 then (log2Exact u).map Num.ofInt
  else if fn = 3 then (if Num.eqv u one then some zero else none)
  else if fn = 11 then
    (halves u).map (fun h => if h % 2 = 0 then .fin u.isNeg 0 0 else if h % 4 = 1 then one else .fin true 1 0)
  else if fn = 12 then
    (halves u).map (fun h => if h % 2 ≠ 0 then zero else if h % 4 = 0 then one else .fin true 1 0)
  else none

/-! ### Reference values

Fixed point with 256 bits after the point. Every value below is good to 90 bits or more, or, where R171 gives a least bound
of 2^−22, to 2^−200. -/

def fxOne : Int := 2 ^ 256
def fxMul (a b : Int) : Int := a * b / fxOne

/-- ln 2, log2 e, π and 1/√(2π). -/
def fxLn2 : Int := 0xb17217f7d1cf79abc9e3b39803f2f6af40f343267298b62d8a0d175b8baafa2b
def fxLog2e : Int := 0x171547652b82fe1777d0ffda0d23a7d11d6aef551bad2b4b1164a2cd9a342648f
def fxPi : Int := 0x3243f6a8885a308d313198a2e03707344a4093822299f31d0082efa98ec4e6c89
def fxIsq2pi : Int := 0x662114cf50d942343f2cf1402eae38bfd3829f30512706d8c0471b4802639d2e

def fxNum (x : Int) : Num := .fin (decide (x < 0)) x.natAbs (-256)

/-- A value in fixed point, rounded down in magnitude. -/
def fxOf : Num → Int
  | .fin s m e =>
    let a : Int := if 0 ≤ e + 256 then (m * 2 ^ (e + 256).toNat : Nat) else (m / 2 ^ (-(e + 256)).toNat : Nat)
    if s then -a else a
  | _ => 0

/-- A value in fixed point, held within −1024 to 1024. -/
def toFx (x : Num) : Int :=
  if !x.isZero && decide (10 ≤ Num.floorLog2 x) then (if x.isNeg then -1024 else 1024) * fxOne else fxOf x

/-- acc + term + term·r/n + term·r²/(n(n+1)) + … -/
def expSeries : Nat → Int → Int → Int → Int → Int
  | 0, _, _, _, acc => acc
  | k + 1, n, r, term, acc => expSeries k (n + 1) r (fxMul term r / n) (acc + term)

/-- 2^f for 0 ≤ f < 1. -/
def fxExp2 (f : Int) : Int := expSeries 60 1 (fxMul f fxLn2) fxOne 0

/-- 2^y. -/
def exp2Num (y : Int) : Num := .fin false (fxExp2 (y % fxOne)).toNat (y / fxOne - 256)

/-- e^−a for a ≥ 0, in fixed point. -/
def fxExpNeg (a : Int) : Int := toFx (exp2Num (-(fxMul a fxLog2e)))

/-- z + z³/3 + z⁵/5 + … from term z^k. -/
def atanhSeries : Nat → Int → Int → Int → Int → Int
  | 0, _, _, _, acc => acc
  | k + 1, n, z2, term, acc => atanhSeries k (n + 2) z2 (fxMul term z2) (acc + term / n)

/-- log2 of m·2^e, m ≠ 0. -/
def fxLog2 (m : Nat) (e : Int) : Int :=
  let k := Nat.log2 m
  let x : Int := (m : Int) * fxOne / 2 ^ k
  let z := (x - fxOne) * fxOne / (x + fxOne)
  (e + k) * fxOne + 2 * atanhSeries 90 1 (fxMul z z) z 0 * fxOne / fxLn2

/-- x − x³/3! + x⁵/5! − … -/
def sinSeries : Nat → Int → Int → Int → Int → Int
  | 0, _, _, _, acc => acc
  | k + 1, n, x2, term, acc => sinSeries k (n + 2) x2 (-(fxMul term x2) / ((n + 1) * (n + 2))) (acc + term)

/-- sin(π·r) for any r. -/
def fxSinPi (r : Int) : Int :=
  let r := r % (2 * fxOne)
  let h := r % fxOne
  let g := if 2 * h ≤ fxOne then h else fxOne - h
  let x := fxMul fxPi g
  let s := sinSeries 45 1 (fxMul x x) x 0
  if r < fxOne then s else -s

/-- x + x³/3 + x⁵/(3·5) + x⁷/(3·5·7) + … -/
def phiSeries : Nat → Int → Int → Int → Int → Int
  | 0, _, _, _, acc => acc
  | k + 1, n, x2, term, acc => phiSeries k (n + 2) x2 (fxMul term x2 / (n + 2)) (acc + term)

/-- The standard normal distribution function; beyond 16 it is 0 or 1 to 2^−180. -/
def fxPhi (x : Int) : Int :=
  if 16 * fxOne ≤ x then fxOne
  else if x ≤ -16 * fxOne then 0
  else fxOne / 2 + fxMul (fxMul (fxExpNeg (fxMul x x / 2)) fxIsq2pi) (phiSeries 900 1 (fxMul x x) x 0)

/-- 1/(1 + e^−x). -/
def fxSigmoid (x : Int) : Int :=
  let e := fxExpNeg x.natAbs
  (if x < 0 then e else fxOne) * fxOne / (fxOne + e)

/-- f(u), for u finite, not zero, and no result of R173 or `sfExact`. -/
def sfValue (fn : Nat) (u : Num) (m : Nat) (e : Int) : Num :=
  let x := toFx u
  let sgn := fun (y : Num) => if u.isNeg then y.neg else y
  if fn = 0 then exp2Num x
  else if fn = 1 then exp2Num (fxMul x fxLog2e)
  else if fn = 2 then fxNum (fxLog2 m e)
  else if fn = 3 then fxNum (fxMul (fxLog2 m e) fxLn2)
  else if fn = 4 then sgn (recipNum m e)
  else if fn = 6 then rsqrtNum u m e
  else if fn = 7 then
    let t := fxExpNeg (2 * x.natAbs)
    sgn (fxNum ((fxOne - t) * fxOne / (fxOne + t)))
  else if fn = 8 then fxNum (fxSigmoid x)
  else if fn = 9 then Num.mul u (fxNum (fxSigmoid x))
  else if fn = 10 then Num.mul u (fxNum (fxPhi x))
  else if fn = 11 then fxNum (fxSinPi (fxOf u))
  else fxNum (fxSinPi (fxOf u + fxOne / 2))

/-- The largest error of R171 at an exact value: 1 or 2 ulp, or 2^−22 if that is larger. -/
def sfBound (fn : Nat) (x : Num) : Num :=
  let ulp : Int := (if x.isZero then -126 else max (Num.floorLog2 x) (-126)) - 23
  let b : Num := .fin false (if fn = 0 ∨ fn = 2 ∨ fn = 4 ∨ fn = 6 then 1 else 2) ulp
  if 7 ≤ fn ∧ fn ≤ 10 ∧ Num.lt b (.fin false 1 (-22)) then .fin false 1 (-22) else b

/-- A result too small in magnitude for a normal FP32 number (R172). -/
def sfTiny (x : Num) : Bool := x.isZero || Num.lt x.abs (.fin false 1 (-126))

/-- A result within the bound, with the sign of the exact value `x`: the free function's code if it is one, and otherwise
the correctly rounded code. An infinity is returned for a value too large, an exact reciprocal as it is, and for a value
too small a subnormal or a zero. -/
def sfWithin (fn u : Nat) (x : Num) : Nat :=
  let near := encodeNum 0 true x
  let v := decodeNum 0 near
  let c := (Config.specialFn fn u).toNat
  let w := decodeNum 0 c
  if v.isFin && !((fn == 4 || fn == 6) && Num.eqv v x) && w.isFin && w.isNeg == x.isNeg &&
      (!sfTiny x || sfTiny w) && !Num.lt (sfBound fn x) (Num.add w x.neg).abs
  then c else near

/-- f(u) as an FP32 code (R171-R173). -/
def specialFunction (fn : Nat) (uCode : Nat) : Nat :=
  let u := decodeNum 0 uCode
  match sfSpecial fn u with
  | some r => encodeNum 0 true r
  | none =>
    match sfExact fn u with
    | some r => encodeNum 0 true r
    | none =>
      match u with
      | .fin _ m e => if fn = 5 then encodeNum 0 true (sqrtNum m e) else sfWithin fn uCode (sfValue fn u m e)
      | _ => encodeNum 0 true .nan

end Sys2Proof.Machine
end

