-- ==== Sys2Proof/Machine/Vector.lean ====
section
/-! DEFINITION. The streaming vector engine (R164-R186). -/
namespace Sys2Proof.Machine
open Sys2Proof

/-! ### Element operations (R168-R170) -/

/-- IEEE 754-2019 minimum and maximum. -/
def numMin (a b : Num) : Num :=
  if a.isNan || b.isNan then .nan
  else if Num.lt a b then a else if Num.lt b a then b else if a.isNeg then a else b
def numMax (a b : Num) : Num :=
  if a.isNan || b.isNan then .nan
  else if Num.lt a b then b else if Num.lt b a then a else if a.isNeg then b else a

def ofBool (b : Bool) : Num := if b then one else zero

/-- Floating operations by FN: the exact result, before the rounding to FP32 (R168, R169). -/
def vopFloat : Nat → Num → Num → Num → Num
  | 0, a, b, _ => Num.add a b
  | 1, a, b, _ => Num.add a b.neg
  | 2, a, b, _ => Num.mul a b
  | 3, a, b, d => Num.add (Num.mul a b) d
  | 4, a, b, _ => numMin a b
  | 5, a, b, _ => numMax a b
  | 6, a, b, _ => ofBool (Num.lt a b)
  | 7, a, b, _ => ofBool (Num.lt a b || Num.eqv a b)
  | _, a, b, _ => ofBool (Num.eqv a b)

/-- Integer operations by FN on 32-bit words (R169, R170). -/
def vopInt : Nat → W32 → W32 → W32
  | 16, a, b => a + b
  | 17, a, b => a - b
  | 18, a, b => a * b
  | 19, a, b => if a.slt b then a else b
  | 20, a, b => if a.slt b then b else a
  | 21, a, b => a &&& b
  | 22, a, b => a ||| b
  | 23, a, b => a ^^^ b
  | 24, a, b => a <<< (b.toNat % 32)
  | _, a, b => a.sshiftRight (b.toNat % 32)

/-- An FP32 result converted to the destination format (R168). -/
def toDest (fmt : Nat) (sat : Bool) (x : Num) : Nat := encodeNum fmt sat (roundF32 x)

/-- An integer value read from an INT8 or INT32 element. -/
def intOf (fmt v : Nat) : W32 := if fmt = 8 then (BitVec.ofNat 8 v).signExtend 32 else BitVec.ofNat 32 v
/-- An integer result in an INT8 (saturated) or INT32 destination. -/
def intTo (fmt : Nat) (v : W32) : Nat := if fmt = 8 then satInt 8 v.toInt else v.toNat

/-! ### Reading streams -/

/-- Element codes of a stream in visit order, one per value, with a mark on each whose granule is uncorrectable. -/
def codes (d : Dev) (c : Nat) (e : Desc) : List (Nat × Bool) :=
  e.addrs.flatMap (fun a =>
    let bad := d.lbad c (granule a) 32
    let v := d.lrd c a (elemSize e.format)
    if e.format = 7 then [(v % 16, bad), (v / 16, bad)]
    else if e.format = 5 || e.format = 6 then [(v % 64, bad)] else [(v, bad)])

/-- Granules of a stream that hold an uncorrectable word. -/
def badGranules (d : Dev) (c : Nat) (e : Desc) : List Nat :=
  e.addrs.foldl (fun l a => if d.lbad c (granule a) 32 then addOnce l (granule a) else l) []

/-- Words of a stream's elements that are uncorrectable. -/
def badWords (d : Dev) (c : Nat) (e : Desc) : List Nat :=
  e.addrs.foldl (fun l a => if d.lbad c (a / 4 * 4) 4 then addOnce l (a / 4 * 4) else l) []

def valueOf (fmt : Nat) (x : Nat × Bool) : Num := if x.2 then .nan else decodeNum fmt x.1

/-- The writes that put value codes into a destination stream (two FP4 values to an element). -/
def destWrites (e : Desc) (cs : List Nat) : List (Nat × Nat × Nat) :=
  if e.format = 7 then
    (List.range e.size).map (fun k => (e.nth k, 1, cs.getD (2 * k) 0 % 16 + 16 * (cs.getD (2 * k + 1) 0 % 16)))
  else (List.range e.size).map (fun k => (e.nth k, elemSize e.format, cs.getD k 0))

/-- Number of values of a stream (R164). -/
def Desc.vals (e : Desc) : Nat := e.size * valsPerElem e.format

/-! ### Fields and checks (R166, R167, R178) -/

def vMxm (w : W64) : Nat := W64.bits w 33 32
def vDs (w : W64) : Nat := W64.bits w 37 34

def isFloatFmt (f : Nat) : Bool := decide (f ≤ 8)
def isIntFmt (f : Nat) : Bool := f == 8 || f == 9

/-- Which of DA and DB a vector instruction reads as streams. -/
def vReadsDa (w : W64) : Bool := !(opOf w == 0x2E && fnOf w == 2)
def vReadsDb (w : W64) : Bool :=
  opOf w == 0x28 || opOf w == 0x2C || (opOf w == 0x2D && fnOf w == 5) || (opOf w == 0x2E && fnOf w == 5)
/-- DD is read as well as written: VFMA, and VRED with ACC. -/
def vReadsDd (w : W64) : Bool :=
  ((opOf w == 0x28 || opOf w == 0x29 || opOf w == 0x2A) && fnOf w == 3) || (opOf w == 0x2D && immOf w % 2 == 1)

/-- R84 over the fields of R166: unused fields zero, descriptors below 16, modifier bits as the operation states. -/
def vFieldsOk (w : W64) : Bool :=
  let op := opOf w
  let fn := fnOf w
  decide (rdOf w < 16) && (if vReadsDa w then decide (raOf w < 16) else raOf w == 0) &&
  (if op = 0x2A then true else if vReadsDb w then decide (rbOf w < 16) else rbOf w == 0) &&
  (vMxm w == 0 || (op == 0x2E && fn == 1 && vMxm w != 3)) && (vMxm w != 0 || vDs w == 0) &&
  (if op = 0x28 ∨ op = 0x2A then immOf w == 0
   else if op = 0x2D then immBelow w 2
   else if op = 0x2E then (if fn = 1 then immBelow w 4 else fn == 2 || immOf w == 0)
   else true)

/-- The format, count and shape checks of R178. A destination that holds no value passes them all. VFMA reads DD as a
floating source, so an INT32 destination is refused (DEDUCED, log entry 75). -/
def vShapeOk (w : W64) (dd da db ds : Desc) : Bool :=
  let op := opOf w
  let fn := fnOf w
  dd.vals == 0 ||
  (if op ≤ 0x2A then
    (if fn ≤ 8 then
      isFloatFmt da.format && (op != 0x28 || isFloatFmt db.format) &&
      (if fn = 3 then isFloatFmt dd.format else decide (dd.format ≤ 9))
     else isIntFmt da.format && (op != 0x28 || isIntFmt db.format) && isIntFmt dd.format) &&
    da.vals == dd.vals && (op != 0x28 || db.vals == dd.vals)
   else if op ≤ 0x2C then
    isFloatFmt da.format && isFloatFmt dd.format && da.vals == dd.vals &&
    (op != 0x2C || (isFloatFmt db.format && db.vals == dd.vals))
   else if op = 0x2D then
    isFloatFmt da.format && isFloatFmt dd.format && (fn != 5 || (isFloatFmt db.format && db.vals == da.vals)) &&
    dd.vals == (if immOf w / 2 = 1 then 1 else da.count1 * da.count2)
   else match fn with
    | 0 => da.format == dd.format && decide (dd.format ≤ 10) && da.vals == dd.vals
    | 1 => (decide (da.format ≤ 8) || da.format == 10) && decide (dd.format ≤ 9) && da.vals == dd.vals &&
        immOf w == dd.format &&
        (vMxm w != 1 || (3 ≤ da.format && da.format ≤ 8 && ds.format == 10 && scalesFor da.vals ≤ ds.size)) &&
        (vMxm w != 2 || (3 ≤ dd.format && dd.format ≤ 8 && ds.format == 10 && scalesFor dd.vals ≤ ds.size))
    | 2 => decide (dd.format ≤ 10)
    | 5 => isFloatFmt da.format && isFloatFmt db.format && isFloatFmt dd.format && da.vals == dd.vals &&
        db.vals == dd.vals && dd.vals % 2 == 0
    | _ => isFloatFmt da.format && isFloatFmt dd.format && da.vals == dd.vals)

/-- Issue: checks of R98 and R178 in order, then the queue (R179: eight wait). -/
def vectorIssue (isRow : W64 → Bool) (c : Nat) (d : Dev) : Dev :=
  d.issue c isRow (fun d w =>
    d.checked c w (vFieldsOk w) (fun d =>
      let dd := d.desc c (rdOf w)
      let da := d.desc c (raOf w)
      let db := d.desc c (rbOf w)
      let ds := d.desc c (vDs w)
      let named := [dd] ++ (if vReadsDa w then [da] else []) ++ (if vReadsDb w then [db] else []) ++
        (if vMxm w != 0 then [ds] else [])
      match descTrap w named with
      | some t => d.trap c t.1 t.2
      | none =>
        if !vShapeOk w dd da db ds then d.illegal c w
        else if 8 ≤ (d.core c).vq.length then d
        else
          let job : VJob :=
            { word := w, pcIdx := d.pc c, dd := d.descBits c (rdOf w), da := d.descBits c (raOf w),
              db := d.descBits c (rbOf w), ds := d.descBits c (vDs w), scalar := (d.sreg c (rbOf w)).toNat % 2 ^ 32,
              sat := d.bit CORE_SEQ_STAT.FP8_SAT c, overlap := d.bit CORE_VEC_CTRL.OVERLAP c }
          (d.updCore c (fun k => { k with vq := k.vq ++ [job] })).retire c))

/-! ### Results -/

/-- The second operand of an element-wise operation: a stream value, IMM32 or the scalar, as FP32 or INT32 (R167). -/
def vScalar (j : VJob) : Nat := if opOf j.word = 0x29 then immOf j.word else j.scalar

/-- Values grouped for a reduction along dimension 0, or all in one group (R174). -/
def redGroups (all : Bool) (e : Desc) (xs : List Num) : List (List Num) :=
  if all then [xs]
  else (List.range (e.count1 * e.count2)).map (fun g =>
    (xs.drop (g * e.count0 * valsPerElem e.format)).take (e.count0 * valsPerElem e.format))

/-- One reduction (R174): `acc` holds the prior DD value when ACC = 1. -/
def reduce (fn : Nat) (xs ys : List Num) (acc : List Num) : Num :=
  match fn with
  | 0 => Num.sum (acc ++ xs)
  | 1 => Num.sum (acc ++ xs.map (fun x => Num.mul x x))
  | 2 => (acc ++ xs).foldl numMax (.inf true)
  | 3 => (acc ++ xs).foldl numMin (.inf false)
  | 4 => ((acc ++ xs).map Num.abs).foldl numMax zero
  | _ => Num.sum (acc ++ (xs.zip ys).map (fun p => Num.mul p.1 p.2))

/-- The value codes an instruction writes to DD, in visit order (R168-R177), MX destinations excepted. -/
def vResult (d : Dev) (c : Nat) (j : VJob) : List Nat :=
  let w := j.word
  let op := opOf w
  let fn := fnOf w
  let dd := Desc.ofBits j.dd
  let da := Desc.ofBits j.da
  let db := Desc.ofBits j.db
  let ca := if vReadsDa w then codes d c da else []
  let cb := if vReadsDb w then codes d c db else []
  let cd := if vReadsDd w then (List.range dd.vals).zip (codes d c dd) |>.map (fun p =>
      (p.2.1, d.lbad c (dd.nth (p.1 / valsPerElem dd.format) / 4 * 4) 4)) else []
  let va := ca.map (valueOf da.format)
  let vb := cb.map (valueOf db.format)
  let vd := cd.map (valueOf dd.format)
  if op ≤ 0x2A then
    (if fn ≤ 8 then
      (List.range dd.vals).map (fun i =>
        let b := if op = 0x28 then vb.getD i .nan else decodeNum 0 (vScalar j)
        if (ca.getD i (0, true)).2 || (op == 0x28 && (cb.getD i (0, true)).2) then toDest dd.format j.sat .nan
        else toDest dd.format j.sat (vopFloat fn (va.getD i .nan) b (vd.getD i .nan)))
     else
      (List.range dd.vals).map (fun i =>
        let a := ca.getD i (0, true)
        let b := cb.getD i (0, op = 0x28)
        if a.2 || b.2 then toDest dd.format j.sat .nan
        else intTo dd.format (vopInt fn (intOf da.format a.1)
          (if op = 0x28 then intOf db.format b.1 else BitVec.ofNat 32 (vScalar j)))))
  else if op ≤ 0x2C then
    (List.range dd.vals).map (fun i =>
      let am := Num.mul (va.getD i .nan) (decodeNum 0 (immOf w))
      let u := encodeNum 0 true (if op = 0x2C then Num.add am (vb.getD i .nan).neg else am)
      encodeNum dd.format j.sat (decodeNum 0 (specialFunction fn u)))
  else if op = 0x2D then
    let all := immOf w / 2 == 1
    let ga := redGroups all da va
    let gb := redGroups all da vb
    (List.range dd.vals).map (fun i =>
      toDest dd.format j.sat (reduce fn (ga.getD i []) (gb.getD i [])
        (if vReadsDd w then [vd.getD i .nan] else [])))
  else match fn with
    | 0 => ca.map (fun x => if x.2 then nanCode dd.format else x.1)
    | 1 =>
      let vs := if vMxm w = 1 then (mxVals d c da (Desc.ofBits j.ds)).vals else va
      vs.map (encodeNum dd.format j.sat)
    | 2 => List.replicate dd.vals (if dd.format ≤ 7 then encodeNum dd.format j.sat (decodeNum 0 (immOf w))
        else if dd.format = 8 then satInt 8 (BitVec.ofNat 32 (immOf w)).toInt
        else if dd.format = 9 then immOf w else immOf w % 256)
    | 3 => va.map (fun x => toDest dd.format j.sat x.abs)
    | 4 => va.map (fun x => toDest dd.format j.sat x.neg)
    | _ => (List.range dd.vals).map (fun i =>
        let x := va.getD (i / 2 * 2) .nan
        let y := va.getD (i / 2 * 2 + 1) .nan
        let cc := vb.getD (i / 2 * 2) .nan
        let ss := vb.getD (i / 2 * 2 + 1) .nan
        toDest dd.format j.sat (if i % 2 = 0 then Num.add (Num.mul x cc) (Num.mul y ss).neg
          else Num.add (Num.mul x ss) (Num.mul y cc)))

/-- The writes of an MX destination: scales and elements block by block (R126, R177). -/
def mxWrites (dd ds : Desc) (xs : List Num) : List (Nat × Nat × Nat) :=
  let blocks := (List.range (scalesFor xs.length)).map (fun b => mxEncode dd.format ((xs.drop (32 * b)).take 32))
  destWrites dd (blocks.flatMap Prod.snd) ++ blocks.zipIdx.map (fun p => (ds.nth p.2, 1, p.1.1))

/-- What an instruction of the engine does with its streams: the spans it reads and writes (R179), the granules its
sources and the words its destination find uncorrectable (R184), its writes, and the number of values it writes. -/
structure VPlan where
  addrs : List Nat
  reads : List (Int × Int)
  writes : List (Int × Int)
  bad : List Nat
  badD : List Nat
  puts : List (Nat × Nat × Nat)
  nvals : Nat
  destRead : Bool
  deriving DecidableEq, Repr

/-- The span of a descriptor's stream; an empty stream has none. -/
def vSpan (e : Desc) : Int × Int := if e.size = 0 then (0, 0) else e.span (elemSize e.format)

/-- The uncorrectable granules of some source streams. -/
def badOf (d : Dev) (c : Nat) (es : List Desc) : List Nat :=
  es.foldl (fun l e => (badGranules d c e).foldl addOnce l) []

/-- The plan of an instruction of major opcodes 0x28 to 0x2E. -/
def vecPlan (d : Dev) (c : Nat) (j : VJob) : VPlan :=
  let w := j.word
  let dd := Desc.ofBits j.dd
  let da := Desc.ofBits j.da
  let ds := Desc.ofBits j.ds
  let empty := dd.vals == 0
  let srcs := (if vReadsDa w then [da] else []) ++ (if vReadsDb w then [Desc.ofBits j.db] else []) ++
    (if vMxm w = 1 then [ds] else [])
  { addrs := if empty then [] else (srcs ++ (if vReadsDd w then [dd] else [])).flatMap Desc.addrs,
    reads := (srcs ++ (if vReadsDd w then [dd] else [])).map vSpan,
    writes := if empty then [] else ([dd] ++ (if vMxm w = 2 then [ds] else [])).map vSpan,
    bad := if empty then []
      else if vMxm w = 1 then (scaleCodes d c ds (scalesFor da.vals)).2.foldl addOnce (badOf d c [da])
      else badOf d c srcs,
    badD := if vReadsDd w then badWords d c dd else [],
    puts := (if empty then []
      else if vMxm w = 2 then mxWrites dd ds ((codes d c da).map (valueOf da.format))
      else destWrites dd (vResult d c j)),
    nvals := dd.vals,
    destRead := vReadsDd w }

def overlaps (a b : Int × Int) : Bool := decide (a.1 < b.2) && decide (b.1 < a.2)

/-- The first waiting instruction may begin reading (R179, R186). -/
def vMayStart (k : CoreSt) (j : VJob) (p : VPlan) : Bool :=
  if j.overlap then k.vwr.all (fun q => q.spans.all (fun s => (p.reads ++ p.writes).all (fun r => !overlaps s r)))
  else k.vwr == []

/-- Count an error of R184. -/
def vUe (d : Dev) (c code a : Nat) : Dev :=
  ((d.err 2 code (unitLocal c a) 0).wr CORE_VEC_STAT.UE_SEEN 1 c).addSat CORE_VEC_UE_CNT.COUNT 1 c

/-- The first waiting instruction reads its streams and forms its results. -/
def vStart (c : Nat) (plan : Dev → Nat → VJob → VPlan) (d : Dev) : Dev :=
  match (d.core c).vq with
  | [] => d
  | j :: rest =>
    let p := plan d c j
    if !vMayStart (d.core c) j p then d
    else
      let d := p.bad.foldl (fun d g => vUe d c 0x0301 g) (d.countGran c p.addrs)
      let d := p.badD.foldl (fun d g => vUe d c 0x0302 g) d
      let q : VPend :=
      { pcIdx := j.pcIdx, writes := p.puts, spans := p.writes, nvals := p.nvals, destRead := p.destRead,
        codes := (if p.bad.isEmpty then [] else [0x0301]) ++ (if p.badD.isEmpty then [] else [0x0302]) }
      d.updCore c (fun k => { k with vq := rest, vwr := k.vwr ++ [q] })

/-- One write of a result. A write narrower than 4 B that meets an uncorrectable word leaves the word's other bytes
zero (R184). -/
def vPut (c : Nat) (destRead : Bool) (w : Nat × Nat × Nat) (r : Dev × Bool) : Dev × Bool :=
  let word := w.1 / 4 * 4
  if w.2.1 < 4 && r.1.lbad c word 4 then
    let d := (r.1.lwr c word 4 0).lwr c w.1 w.2.1 w.2.2
    if destRead then (d, r.2) else (vUe d c 0x0302 word, true)
  else if w.2.1 < 4 then (r.1.lwrPart c w.1 w.2.1 w.2.2, r.2)
  else (r.1.lwr c w.1 w.2.1 w.2.2, r.2)

/-- The oldest writing instruction makes its writes and completes; a fault raises trap UNIT with the lowest code.
Instructions complete in issue order (DESIGN CHOICE, log entry 76). -/
def vectorComplete (c : Nat) (d : Dev) : Dev :=
  match (d.core c).vwr with
  | [] => d
  | p :: rest =>
    let r := p.writes.foldl (fun r w => vPut c p.destRead w r) (d.updCore c (fun k => { k with vwr := rest }), false)
    let d := (r.1.add CORE_VEC_INSTR.INSTR 1 c).add CORE_VEC_VALUES.VALUES p.nvals c
    match if r.2 then addOnce p.codes 0x0302 else p.codes with
    | [] => d
    | code :: _ => d.unitFault c code p.pcIdx

/-! ### The rows -/

/-- Element-wise rows: OP 0x28, 0x29 and 0x2A. -/
def isVop (fn : Nat) (w : W64) : Bool := (opOf w == 0x28 || opOf w == 0x29 || opOf w == 0x2A) && fnOf w == fn
/-- Special-function rows: OP 0x2B and 0x2C. -/
def isVsf (fn : Nat) (w : W64) : Bool := (opOf w == 0x2B || opOf w == 0x2C) && fnOf w == fn

def execVadd (c : Nat) (s : State) : Out := act s (vectorIssue (isVop 0) c)
def execVsub (c : Nat) (s : State) : Out := act s (vectorIssue (isVop 1) c)
def execVmul (c : Nat) (s : State) : Out := act s (vectorIssue (isVop 2) c)
def execVfma (c : Nat) (s : State) : Out := act s (vectorIssue (isVop 3) c)
def execVmin (c : Nat) (s : State) : Out := act s (vectorIssue (isVop 4) c)
def execVmax (c : Nat) (s : State) : Out := act s (vectorIssue (isVop 5) c)
def execVcmplt (c : Nat) (s : State) : Out := act s (vectorIssue (isVop 6) c)
def execVcmple (c : Nat) (s : State) : Out := act s (vectorIssue (isVop 7) c)
def execVcmpeq (c : Nat) (s : State) : Out := act s (vectorIssue (isVop 8) c)
def execViadd (c : Nat) (s : State) : Out := act s (vectorIssue (isVop 16) c)
def execVisub (c : Nat) (s : State) : Out := act s (vectorIssue (isVop 17) c)
def execVimul (c : Nat) (s : State) : Out := act s (vectorIssue (isVop 18) c)
def execVimin (c : Nat) (s : State) : Out := act s (vectorIssue (isVop 19) c)
def execVimax (c : Nat) (s : State) : Out := act s (vectorIssue (isVop 20) c)
def execVand (c : Nat) (s : State) : Out := act s (vectorIssue (isVop 21) c)
def execVor (c : Nat) (s : State) : Out := act s (vectorIssue (isVop 22) c)
def execVxor (c : Nat) (s : State) : Out := act s (vectorIssue (isVop 23) c)
def execVshl (c : Nat) (s : State) : Out := act s (vectorIssue (isVop 24) c)
def execVsra (c : Nat) (s : State) : Out := act s (vectorIssue (isVop 25) c)
def execExp2 (c : Nat) (s : State) : Out := act s (vectorIssue (isVsf 0) c)
def execExp (c : Nat) (s : State) : Out := act s (vectorIssue (isVsf 1) c)
def execLog2 (c : Nat) (s : State) : Out := act s (vectorIssue (isVsf 2) c)
def execLog (c : Nat) (s : State) : Out := act s (vectorIssue (isVsf 3) c)
def execRcp (c : Nat) (s : State) : Out := act s (vectorIssue (isVsf 4) c)
def execSqrt (c : Nat) (s : State) : Out := act s (vectorIssue (isVsf 5) c)
def execRsqrt (c : Nat) (s : State) : Out := act s (vectorIssue (isVsf 6) c)
def execTanh (c : Nat) (s : State) : Out := act s (vectorIssue (isVsf 7) c)
def execSigmoid (c : Nat) (s : State) : Out := act s (vectorIssue (isVsf 8) c)
def execSilu (c : Nat) (s : State) : Out := act s (vectorIssue (isVsf 9) c)
def execGelu (c : Nat) (s : State) : Out := act s (vectorIssue (isVsf 10) c)
def execSinpi (c : Nat) (s : State) : Out := act s (vectorIssue (isVsf 11) c)
def execCospi (c : Nat) (s : State) : Out := act s (vectorIssue (isVsf 12) c)
def execRsum (c : Nat) (s : State) : Out := act s (vectorIssue (isOpFn 0x2D 0) c)
def execRsumsq (c : Nat) (s : State) : Out := act s (vectorIssue (isOpFn 0x2D 1) c)
def execRmax (c : Nat) (s : State) : Out := act s (vectorIssue (isOpFn 0x2D 2) c)
def execRmin (c : Nat) (s : State) : Out := act s (vectorIssue (isOpFn 0x2D 3) c)
def execRmaxabs (c : Nat) (s : State) : Out := act s (vectorIssue (isOpFn 0x2D 4) c)
def execRdot (c : Nat) (s : State) : Out := act s (vectorIssue (isOpFn 0x2D 5) c)
def execVmov (c : Nat) (s : State) : Out := act s (vectorIssue (isOpFn 0x2E 0) c)
def execVcvt (c : Nat) (s : State) : Out := act s (vectorIssue (isOpFn 0x2E 1) c)
def execVfill (c : Nat) (s : State) : Out := act s (vectorIssue (isOpFn 0x2E 2) c)
def execVabs (c : Nat) (s : State) : Out := act s (vectorIssue (isOpFn 0x2E 3) c)
def execVneg (c : Nat) (s : State) : Out := act s (vectorIssue (isOpFn 0x2E 4) c)
def execVrot (c : Nat) (s : State) : Out := act s (vectorIssue (isOpFn 0x2E 5) c)
def execVectorComplete (c : Nat) (s : State) : Out := act s (vectorComplete c)

end Sys2Proof.Machine
end

