-- ==== Sys2Proof/Machine/AttnVector.lean ====
section
/-! DEFINITION. The attention instructions of the vector engine: positions, rotations, masks and the online softmax
(R209-R216), and the start of any instruction of its queue. -/
namespace Sys2Proof.Machine
open Sys2Proof

/-- R84 over the fields of APOS, AROPE and AMASK (0x32), ASMX, ASFIN and ASREC (0x33). -/
def aFieldsOk (w : W64) : Bool :=
  let fn := fnOf w
  let imm := immOf w
  decide (rdOf w < 16) && W64.bits w 33 32 == 0 &&
  (if opOf w = 0x32 then
    match fn with
    | 0 => vDs w == 0 && immBelow w 1 && (if imm = 1 then decide (raOf w < 16) else raOf w == 0)
    | 1 => decide (raOf w < 16) && rbOf w == 0 && imm == 0
    | _ => immBelow w 11 && (if imm % 4 = 1 then decide (raOf w < 16) else raOf w == 0) && (imm % 4 != 0 || vDs w == 0)
   else
    match fn with
    | 0 => decide (raOf w < 16) && decide (rbOf w < 16)
    | 1 => decide (raOf w < 16) && rbOf w == 0 && imm == 0
    | _ => decide (raOf w < 16) && decide (rbOf w < 16) && vDs w == 0)

/-- Which of DA, DB and DQ an instruction names as streams. -/
def aUsesDa (w : W64) : Bool :=
  if opOf w = 0x33 then true
  else if fnOf w = 0 then immOf w == 1 else if fnOf w = 1 then true else immOf w % 4 == 1
def aUsesDb (w : W64) : Bool := opOf w == 0x33 && fnOf w != 1
def aUsesDq (w : W64) : Bool :=
  if opOf w = 0x33 then decide (fnOf w < 2)
  else if fnOf w = 0 then false else if fnOf w = 1 then true else immOf w % 4 == 1 || immOf w % 4 == 2

/-- Rows and columns of a block of scores (R212). -/
def aRows (e : Desc) : Nat := e.count2
def aCols (e : Desc) : Nat := e.count0 * e.count1

/-- Query tokens of a block: 2^HLOG2 rows share one. -/
def aTokens (w : W64) (e : Desc) : Nat := (aRows e + 2 ^ W64.bits w 4 2 - 1) / 2 ^ W64.bits w 4 2

/-- Formats that ASMX and ASREC write: FP32, BF16, FP16, FP8. -/
def probFmt (f : Nat) : Bool := decide (f ≤ 4)

/-- The format and count checks of R209-R215 under R178. -/
def aShapeOk (w : W64) (dd da db dq : Desc) : Bool :=
  let fn := fnOf w
  let imm := immOf w
  dd.vals == 0 ||
  (if opOf w = 0x32 then
    match fn with
    | 0 => (dd.format == 9 || dd.format == 0) && (imm == 0 || (da.format == 9 && da.vals == dd.vals))
    | 1 => decide (dd.format ≤ 2) && da.format == 0 && dq.format == 9 && dd.vals == 2 * da.vals * dq.vals
    | _ => dd.format == 0 && decide (imm % 4 < 3) && (imm % 4 == 2 || W64.bits w 10 5 == 0) &&
        (imm % 4 != 1 || (da.format == 9 && da.vals == aCols dd && dq.format == 9 && dq.vals == aTokens w dd)) &&
        (imm % 4 != 2 || (dq.format == 9 && dq.vals == 2 * aTokens w dd))
   else
    match fn with
    | 0 => da.format == 0 && probFmt dd.format && aRows da == aRows dd && aCols da == aCols dd &&
        db.format == 0 && db.vals == 2 * aRows da && dq.format == 0 && dq.vals == aRows da
    | 1 => da.format == 0 && dd.format == 0 && dq.format == 0 && da.vals == 2 * dd.vals && dq.vals == dd.vals
    | _ => da.format == 0 && probFmt dd.format && aRows da == aRows dd && aCols da == aCols dd &&
        db.format == 0 && db.vals == aRows da)

/-- Issue, as a vector instruction. -/
def attnIssue (op fn c : Nat) (d : Dev) : Dev :=
  d.issue c (isOpFn op fn) (fun d w =>
    d.checked c w (aFieldsOk w) (fun d =>
      let dd := d.desc c (rdOf w)
      let da := d.desc c (raOf w)
      let db := d.desc c (rbOf w)
      let dq := d.desc c (vDs w)
      let named := [dd] ++ (if aUsesDa w then [da] else []) ++ (if aUsesDb w then [db] else []) ++
        (if aUsesDq w then [dq] else [])
      match descTrap w named with
      | some t => d.trap c t.1 t.2
      | none =>
        if !aShapeOk w dd da db dq then d.illegal c w
        else if 8 ≤ (d.core c).vq.length then d
        else
          let job : VJob :=
            { word := w, pcIdx := d.pc c, dd := d.descBits c (rdOf w), da := d.descBits c (raOf w),
              db := d.descBits c (rbOf w), ds := d.descBits c (vDs w), scalar := (d.sreg c (rbOf w)).toNat,
              sat := d.bit CORE_SEQ_STAT.FP8_SAT c, overlap := d.bit CORE_VEC_CTRL.OVERLAP c }
          (d.updCore c (fun k => { k with vq := k.vq ++ [job] })).retire c))

def execApos (c : Nat) (s : State) : Out := act s (attnIssue 0x32 0 c)
def execArope (c : Nat) (s : State) : Out := act s (attnIssue 0x32 1 c)
def execAmask (c : Nat) (s : State) : Out := act s (attnIssue 0x32 2 c)
def execAsmx (c : Nat) (s : State) : Out := act s (attnIssue 0x33 0 c)
def execAsfin (c : Nat) (s : State) : Out := act s (attnIssue 0x33 1 c)
def execAsrec (c : Nat) (s : State) : Out := act s (attnIssue 0x33 2 c)

/-! ### Results -/

/-- R209. -/
def aposCodes (j : VJob) (dd : Desc) (ca : List (Nat × Bool)) : List Nat :=
  (List.range dd.vals).map (fun i =>
    let a := if immOf j.word = 1 then ca.getD i (0, true) else (i, false)
    if a.2 then encodeNum dd.format j.sat .nan
    else
      let v := (j.scalar + a.1) % 2 ^ 32
      if dd.format = 9 then v else encodeNum dd.format j.sat (decodeNum 9 v))

/-- x mod 2, from 0 up to but not including 2. -/
def Num.mod2 : Num → Num
  | .fin neg m e =>
    if 1 ≤ e then zero
    else .fin false (((if neg then -(m : Int) else (m : Int)) % (2 ^ (1 - e).toNat : Nat)).toNat) e
  | _ => .nan

/-- R210: the cosine and sine pair of one position and frequency. -/
def aropePair (pos f : Num) : Nat × Nat :=
  let u := encodeNum 0 true (Num.mod2 (Num.mul pos f))
  (specialFunction 12 u, specialFunction 11 u)

def aropeCodes (j : VJob) (dd : Desc) (freqs poss : List Num) : List Nat :=
  poss.flatMap (fun p => freqs.flatMap (fun f =>
    let x := aropePair p f
    [encodeNum dd.format j.sat (decodeNum 0 x.1), encodeNum dd.format j.sat (decodeNum 0 x.2)]))

/-- R211: key `k` is visible to query `q`; token arithmetic is unsigned, of 32 bits. -/
def visCausal (q k : Nat) : Bool := decide (k ≤ q)
def visTree (tb k anc : Nat) : Bool := decide (k < tb) || (decide (k - tb < 64) && anc.testBit (k - tb))

/-- R212: the code of one score, and whether it keeps its value. `seg` and `aux` read DA and DQ. -/
def amaskCode (w : W64) (scalar : Nat) (seg aux : Nat → Nat × Bool) (row col old : Nat) : Nat :=
  let t := row / 2 ^ W64.bits w 4 2
  let k := (scalar % 2 ^ 32 + col) % 2 ^ 32
  let q0 := scalar / 2 ^ 32 % 2 ^ 32
  let keep (vis : Bool) : Nat := if vis then old else 0xFF800000
  match immOf w % 4 with
  | 1 =>
    if (seg col).2 || (aux t).2 then nanCode 0
    else keep ((seg col).1 == (aux t).1 && visCausal ((q0 + t) % 2 ^ 32) k)
  | 2 =>
    if (aux (2 * t)).2 || (aux (2 * t + 1)).2 then nanCode 0
    else keep (visTree q0 k ((aux (2 * t)).1 + (aux (2 * t + 1)).1 * 2 ^ 32))
  | _ => keep (visCausal ((q0 + t) % 2 ^ 32) k)

/-- A score whose own word is uncorrectable is NaN when it is kept. -/
def amaskCodes (d : Dev) (c : Nat) (j : VJob) (dd : Desc) (ca cq : List (Nat × Bool)) : List Nat :=
  (List.range dd.vals).map (fun n =>
    let old := if d.lbad c (dd.nth n / 4 * 4) 4 then nanCode 0 else d.lrd c (dd.nth n) 4
    amaskCode j.word j.scalar (fun i => ca.getD i (0, true)) (fun i => cq.getD i (0, true)) (n / aCols dd)
      (n % aCols dd) old)

/-- EXP of an exact value rounded once to FP32. -/
def expOf (x : Num) : Num := decodeNum 0 (specialFunction 1 (encodeNum 0 true x))

/-- R213: one row. The codes of p, the new m and l, and α. -/
structure SmxRow where
  ps : List Nat
  m : Nat
  l : Nat
  alpha : Nat
  deriving DecidableEq, Repr

def asmxRow (fmt : Nat) (sat : Bool) (scale m l : Num) (ss : List Num) : SmxRow :=
  let ts := ss.map (fun s => roundF32 (Num.mul s scale))
  let mn := numMax m (ts.foldl numMax (.inf true))
  let none' := mn == .inf true
  let alpha := if none' then one else expOf (Num.add m mn.neg)
  let ps := ts.map (fun t => if none' then 0 else encodeNum fmt sat (expOf (Num.add t mn.neg)))
  let l' := Num.sum (Num.mul l alpha :: ps.map (decodeNum fmt))
  { ps := ps, m := encodeNum 0 true mn, l := encodeNum 0 true l', alpha := encodeNum 0 true alpha }

def asmxRows (j : VJob) (dd : Desc) (scores stats : List Num) (rows cols : Nat) : List SmxRow :=
  (List.range rows).map (fun r =>
    asmxRow dd.format j.sat (decodeNum 0 (immOf j.word)) (stats.getD (2 * r) .nan) (stats.getD (2 * r + 1) .nan)
      ((scores.drop (r * cols)).take cols))

/-- R214: the codes of L and r of one row. -/
def asfinRow (m l : Num) : Nat × Nat :=
  match l with
  | .fin false 0 _ => (0xFF800000, 0)
  | _ =>
    let lc := encodeNum 0 true l
    (encodeNum 0 true (Num.add m (decodeNum 0 (specialFunction 3 lc))), specialFunction 4 lc)

/-- R215: the code of one probability. -/
def asrecCode (fmt : Nat) (sat : Bool) (scale L s : Num) : Nat :=
  if L == .inf true then 0
  else encodeNum fmt sat (expOf (Num.add (roundF32 (Num.mul s scale)) L.neg))

/-- The writes of an attention instruction. -/
def attnPuts (d : Dev) (c : Nat) (j : VJob) : List (Nat × Nat × Nat) :=
  let w := j.word
  let dd := Desc.ofBits j.dd
  let da := Desc.ofBits j.da
  let db := Desc.ofBits j.db
  let dq := Desc.ofBits j.ds
  let ca := if aUsesDa w then codes d c da else []
  let cb := if aUsesDb w then codes d c db else []
  let va := ca.map (valueOf da.format)
  let vb := cb.map (valueOf db.format)
  if opOf w = 0x32 then
    match fnOf w with
    | 0 => destWrites dd (aposCodes j dd ca)
    | 1 => destWrites dd (aropeCodes j dd va ((codes d c dq).map (valueOf 9)))
    | _ => destWrites dd (amaskCodes d c j dd ca (if aUsesDq w then codes d c dq else []))
  else
    match fnOf w with
    | 0 =>
      let rs := asmxRows j dd va vb (aRows da) (aCols da)
      destWrites dd (rs.flatMap SmxRow.ps) ++ destWrites db (rs.flatMap (fun r => [r.m, r.l])) ++
        destWrites dq (rs.map SmxRow.alpha)
    | 1 =>
      let rs := (List.range dd.vals).map (fun r => asfinRow (va.getD (2 * r) .nan) (va.getD (2 * r + 1) .nan))
      destWrites dd (rs.map Prod.fst) ++ destWrites dq (rs.map Prod.snd)
    | _ =>
      destWrites dd ((List.range dd.vals).map (fun n =>
        asrecCode dd.format j.sat (decodeNum 0 (immOf w)) (vb.getD (n / aCols da) .nan) (va.getD n .nan)))

/-- The plan of an instruction of major opcodes 0x32 and 0x33. AMASK reads and writes DD, and ASMX its statistics. -/
def attnPlan (d : Dev) (c : Nat) (j : VJob) : VPlan :=
  let w := j.word
  let dd := Desc.ofBits j.dd
  let da := Desc.ofBits j.da
  let db := Desc.ofBits j.db
  let dq := Desc.ofBits j.ds
  let empty := dd.vals == 0
  let mask := opOf w == 0x32 && fnOf w == 2
  let dqOut := opOf w == 0x33 && aUsesDq w
  let smx := opOf w == 0x33 && fnOf w == 0
  let srcs := (if aUsesDa w then [da] else []) ++ (if aUsesDb w then [db] else []) ++
    (if aUsesDq w && !dqOut then [dq] else [])
  let puts := if empty then [] else attnPuts d c j
  { addrs := if empty then [] else (srcs ++ (if mask then [dd] else [])).flatMap Desc.addrs,
    reads := (srcs ++ (if mask then [dd] else [])).map vSpan,
    writes := if empty then [] else ([dd] ++ (if smx then [db] else []) ++ (if dqOut then [dq] else [])).map vSpan,
    bad := if empty then [] else badOf d c srcs,
    badD := if mask && !empty then badWords d c dd else [],
    puts := puts,
    nvals := puts.length,
    destRead := mask }

/-- The first waiting instruction of the vector engine reads its streams. -/
def vectorReadStart (c : Nat) (d : Dev) : Dev :=
  vStart c (fun d c j => if opOf j.word = 0x32 ∨ opOf j.word = 0x33 then attnPlan d c j else vecPlan d c j) d

def execVectorReadStart (c : Nat) (s : State) : Out := act s (vectorReadStart c)

end Sys2Proof.Machine
end

