-- ==== Sys2Proof/Machine/Barriers.lean ====
section
/-! DEFINITION. Barrier contexts: set-up, arrivals, releases and waits (R350-R355, R358). -/
namespace Sys2Proof.Machine
open Sys2Proof

/-! ### Contexts -/

/-- The key of context `n` of half `h` in the tables of arrivals. -/
def barrKey (h n : Nat) : Nat := h * 64 + n

/-- Cluster `c` (0-127) of half `h` is in the mask of context `n`. -/
def Dev.barrCluster (d : Dev) (h n c : Nat) : Bool := (d.rd BARR_CLMASKn_w.CLUSTERS h n (c / 32)).testBit (c % 32)

/-- The core mask of cluster `c` (0-127). -/
def Dev.barrMask (d : Dev) (h n c : Nat) : Nat :=
  if c % 2 = 0 then d.rd BARR_CMASKn_i.CORES_LO h n (c / 2) else d.rd BARR_CMASKn_i.CORES_HI h n (c / 2)

/-- Global core `core` is a member. -/
def Dev.barrMember (d : Dev) (h n core : Nat) : Bool :=
  core / 2048 == h && d.barrCluster h n (coreCluster core % 128) &&
  (d.barrMask h n (coreCluster core % 128)).testBit (core % 16)

/-- The member cores of one member cluster. -/
def Dev.barrCoresOf (d : Dev) (h n c : Nat) : List Nat :=
  ((List.range 16).filter (fun k => (d.barrMask h n c).testBit k)).map (fun k => (h * 128 + c) * 16 + k)

/-- The member clusters, 0-127. -/
def Dev.barrClusters (d : Dev) (h n : Nat) : List Nat := (List.range 128).filter (d.barrCluster h n)

def Dev.barrState (d : Dev) (h n : Nat) : Nat := d.rd BARR_STATn.STATE h n
def Dev.barrGen (d : Dev) (h n : Nat) : Nat := d.rd BARR_STATn.GEN h n
def Dev.arrivedCores (d : Dev) (h n : Nat) : List Nat := FMap.get d.barrCores [] (barrKey h n)
def Dev.arrivedCls (d : Dev) (h n : Nat) : List Nat := FMap.get d.barrCls [] (barrKey h n)

def Dev.setArrivals (d : Dev) (h n : Nat) (cores cls : List Nat) : Dev :=
  let d := { d with barrCores := FMap.set d.barrCores (barrKey h n) cores,
                    barrCls := FMap.set d.barrCls (barrKey h n) cls }
  d.wr BARR_STATn.ARRIVED cls.length h n

/-- The cores asleep on a context, by the table of core states. -/
def Dev.barrSleepers (d : Dev) (h n : Nat) : List Nat :=
  (d.cores.filter (fun e => e.1 / 2048 == h && (match e.2.wait with | .barrier m _ _ _ => m == n | _ => false))).map Prod.fst

/-! ### Wakes and refusals (R355) -/

def barrTval (kind n : Nat) : Nat := kind * 2 ^ 24 + 2 ^ 23 + n % 64

/-- A refusal, or a wake with kind BROKEN: NOTRAP writes the kind and retires, else trap CUE. -/
def Dev.barrRefuse (d : Dev) (c n rd kind : Nat) (notrap : Bool) : Dev :=
  if notrap then ((d.setS c rd (BitVec.ofNat 64 kind)).retire c).endWait c
  else d.endWaitTrap c 10 (barrTval kind n)

/-- Wake a sleeper: with GEN, or with a fault kind. -/
def Dev.barrWake (d : Dev) (h n kind c : Nat) : Dev :=
  match (d.core c).wait with
  | .barrier _ rd _ notrap =>
    if kind = 0 then ((d.setS c rd (BitVec.ofNat 64 (d.barrGen h n))).retire c).endWait c
    else d.barrRefuse c n rd kind notrap
  | _ => d

def Dev.wakeSleepers (d : Dev) (h n kind : Nat) : Dev :=
  (d.barrSleepers h n).foldl (fun d c => d.barrWake h n kind c) d

/-- The context goes BROKEN with a cause, and wakes its sleepers with kind BROKEN. -/
def Dev.barrBreak (d : Dev) (h n cause : Nat) : Dev :=
  let d := (d.wr BARR_STATn.STATE 2 h n).wr BARR_STATn.CAUSE cause h n
  let d := d.wr BARR_STAT.BROKEN_SEEN 1 h
  (d.setArrivals h n [] []).wakeSleepers h n 6

/-! ### Set-up (R350) -/

/-- The condition of R350 for OPEN. -/
def Dev.barrMembersOk (d : Dev) (h n : Nat) : Bool :=
  (d.barrClusters h n).all (fun c => d.clusterEnabled (h * 128 + c) && d.barrMask h n c != 0 &&
    (d.barrCoresOf h n c).all d.coreEnabled)

/-- EN goes from 0 to 1. -/
def Dev.barrOpen (d : Dev) (h n : Nat) : Dev :=
  let d := (d.wr BARR_CTRLn.EN 1 h n).wr BARR_STATn.GEN 0 h n
  let d := d.setArrivals h n [] []
  if d.barrMembersOk h n then (d.wr BARR_STATn.STATE 1 h n).wr BARR_STATn.CAUSE 0 h n else d.barrBreak h n 1

/-- EN goes from 1 to 0: every sleeper is woken with BROKEN and the context is OFF. -/
def Dev.barrClose (d : Dev) (h n : Nat) : Dev :=
  let d := d.wr BARR_CTRLn.EN 0 h n
  let d := (d.wr BARR_STATn.STATE 0 h n).wr BARR_STATn.CAUSE 0 h n
  (d.setArrivals h n [] []).wakeSleepers h n 6

/-- A write of BARR_CTRLn: while EN is 1 the other fields are kept, and a write that would change them sets WR_LOST. -/
def Dev.barrCtrl (d : Dev) (h n v : Nat) : Dev :=
  let en := decide (v / 2 ^ 31 % 2 = 1)
  if d.bit BARR_CTRLn.EN h n then
    let same := d.rd BARR_CTRLn.SPAN h n == v / 2 ^ 30 % 2 && d.rd BARR_CTRLn.RCUEV h n == v / 2 ^ 29 % 2 &&
      d.rd BARR_CTRLn.RCUE h n == v / 2 ^ 12 % 2 ^ 14 && d.rd BARR_CTRLn.TENANT h n == v % 2 ^ 12
    let d := if same then d else d.wr BARR_STAT.WR_LOST 1 h
    if en then d else d.barrClose h n
  else
    let d := (d.wr BARR_CTRLn.SPAN (v / 2 ^ 30) h n).wr BARR_CTRLn.RCUEV (v / 2 ^ 29) h n
    let d := (d.wr BARR_CTRLn.RCUE (v / 2 ^ 12) h n).wr BARR_CTRLn.TENANT v h n
    if en then d.barrOpen h n else d

/-- A write with EN = 1; `v` holds the other bits of the word. -/
def execBarrEnable (h n v : Nat) (s : State) : Out := act s (fun d => d.barrCtrl h n (v % 2 ^ 31 + 2 ^ 31))
def execBarrDisable (h n v : Nat) (s : State) : Out := act s (fun d => d.barrCtrl h n (v % 2 ^ 31))

/-! ### Arrivals and releases (R352, R353) -/

/-- The barrier check of an arrival or wait (R355). -/
def Dev.barrRefusal (d : Dev) (c n : Nat) (arrive : Bool) : Option Nat :=
  let h := coreHalf c
  if !d.barrMember h n c || d.rd BARR_CTRLn.TENANT h n != d.rd CORE_SEQ_TENANT.TENANT c then some 1
  else if d.barrState h n = 0 then some 2
  else if d.barrState h n = 2 then some 6
  else if arrive && (d.arrivedCores h n).contains c then some 2
  else none

/-- A core's arrival is counted by its cluster's cue storage. -/
def Dev.barrArrive (d : Dev) (c n : Nat) : Dev :=
  let h := coreHalf c
  d.setArrivals h n (d.arrivedCores h n ++ [c]) (d.arrivedCls h n)

/-- The core of an abandoned BSYNC withdraws its arrival while its generation is not released. -/
def Dev.barrWithdraw (d : Dev) (c n : Nat) : Dev :=
  let h := coreHalf c
  d.setArrivals h n ((d.arrivedCores h n).filter (· != c)) ((d.arrivedCls h n).filter (· != coreCluster c % 128))

/-- A parity error on the bus breaks the context and is recorded and counted (R355). -/
def Dev.barrBusErr (d : Dev) (h n : Nat) : Dev :=
  ((d.barrBreak h n 5).err 2 0 (unitHalf h 24 0) 0).addSat BARR_BUS_ERR.COUNT 1 h

/-- One context of a release: it takes the new GEN, arrivals clear, sleepers wake and the release cue is signalled. A
release whose parity is wrong on its half's bus breaks the context in its place (R352, R355). -/
def Dev.barrRelease (d : Dev) (h n gen : Nat) (ok : Bool) : Dev :=
  if !ok then d.barrBusErr h n else
  let d := d.wr BARR_STATn.GEN gen h n
  let d := (d.setArrivals h n [] []).wakeSleepers h n 0
  if d.bit BARR_CTRLn.RCUEV h n then
    d.postCue { req := .barrier, fn := 0, cue := d.rd BARR_CTRLn.RCUE h n, arg := 1, co := false,
                tenant := d.rd BARR_CTRLn.TENANT h n, part := none }
  else d

/-- Every member cluster of the context has arrived. -/
def Dev.barrFull (d : Dev) (h n : Nat) : Bool :=
  (d.barrClusters h n).all (fun c => (d.arrivedCls h n).contains c)

/-- What the barrier unit decides once a half's members have arrived (R352, R353). `relA` and `relB` say whether the
release has right parity on the bus of each half. Two joined contexts take one GEN, the one after Half A's, which decides
the release (DESIGN CHOICE, log entry 79). -/
def Dev.barrDecide (d : Dev) (h n : Nat) (relA relB : Bool) : Dev :=
  if !d.barrFull h n then d
  else if !d.bit BARR_CTRLn.SPAN h n then d.barrRelease h n (d.barrGen h n + 1) (if h = 0 then relA else relB)
  else
    let o := 1 - h
    if d.barrState o n = 1 ∧ d.bit BARR_CTRLn.SPAN o n = true then
      let gen := d.barrGen 0 n + 1
      if d.barrFull o n then (d.barrRelease 0 n gen relA).barrRelease 1 n gen relB else d
    else
      let d := d.barrBreak h n 4
      if d.barrState o n = 1 then d.barrBreak o n 4 else d

/-- The arrival of cluster `c` (0-127) of half `h` reaches the barrier unit, once all its member cores have arrived.
`par` is the parity of the arrival, and that of the release it may bring on (R355). -/
def barrierArrival (h n c : Nat) (par : BusParity) (d : Dev) : Dev :=
  if d.barrState h n != 1 || !d.barrCluster h n c || (d.arrivedCls h n).contains c ||
      !(d.barrCoresOf h n c).all (fun k => (d.arrivedCores h n).contains k) then d
  else if !par.arrival then d.barrBusErr h n
  else (d.setArrivals h n (d.arrivedCores h n) (d.arrivedCls h n ++ [c])).barrDecide h n par.relA par.relB

def execBarrierArrival (h n c : Nat) (par : BusParity) (s : State) : Out := act s (barrierArrival h n c par)

/-! ### Barrier instructions (R351) -/

/-- The context of RA, in bits [5:0]. -/
def barrCtx (d : Dev) (c : Nat) (w : W64) : Nat := (d.sreg c (raOf w)).toNat % 64

def barrIssue (fn c : Nat) (ok : W64 → Bool) (f : Dev → W64 → Nat → Dev) (d : Dev) : Dev :=
  d.issue c (isOpFn 0x39 fn) (fun d w => d.checked c w (ok w) (fun d => f d w (barrCtx d c w)))

/-- The immediate of BSYNC and BWAIT: only NOTRAP. -/
def notrapOnly (w : W64) : Bool := immOf w % 2 ^ 31 == 0
def notrapOf (w : W64) : Bool := W64.bits w 31 31 == 1

def execBsync (c : Nat) (s : State) : Out :=
  act s (barrIssue 0 c (fun w => regsOk w true true false && notrapOnly w) (fun d w n =>
    match d.barrRefusal c n true with
    | some kind => d.barrRefuse c n (rdOf w) kind (notrapOf w)
    | none =>
      let gen := d.barrGen (coreHalf c) n
      ((d.barrArrive c n).setWait c (.barrier n (rdOf w) gen (notrapOf w))).sleep c true))

def execBarrive (c : Nat) (s : State) : Out :=
  act s (barrIssue 1 c (fun w => regsOk w true true false && immOf w == 0) (fun d w n =>
    match d.barrRefusal c n true with
    | some kind => d.trap c 10 (barrTval kind n)
    | none => ((d.setS c (rdOf w) (BitVec.ofNat 64 (d.barrGen (coreHalf c) n))).barrArrive c n).retire c))

def execBwait (c : Nat) (s : State) : Out :=
  act s (barrIssue 2 c (fun w => regsOk w true true true && notrapOnly w) (fun d w n =>
    match d.barrRefusal c n false with
    | some kind => d.barrRefuse c n (rdOf w) kind (notrapOf w)
    | none =>
      let gen := d.barrGen (coreHalf c) n
      if gen ≠ (d.sreg c (rbOf w)).toNat % 2 ^ 16 then (d.setS c (rdOf w) (BitVec.ofNat 64 gen)).retire c
      else (d.setWait c (.barrier n (rdOf w) gen (notrapOf w))).sleep c true))

/-- BREAD: BARR_STATn (R351). -/
def execBread (c : Nat) (s : State) : Out :=
  act s (barrIssue 3 c (fun w => regsOk w true true false && immOf w == 0) (fun d w n =>
    let v := d.word [BARR_STATn.STATE, BARR_STATn.CAUSE, BARR_STATn.ARRIVED, BARR_STATn.GEN] (coreHalf c) n
    (d.setS c (rdOf w) (BitVec.ofNat 64 v)).retire c))

end Sys2Proof.Machine
end

