-- ==== Sys2Proof/Machine/Sensors.lean ====
section
/-! DEFINITION. Temperature sensors, bandgaps and coolant inputs (R254-R257, R551-R561, R569). Temperatures are in °C × 8. -/
namespace Sys2Proof.Machine
open Sys2Proof

/-! ### Signed fields and rounding -/

/-- A field read as two's complement. -/
def Dev.rdS (d : Dev) (f : Fld) (u : Nat := 0) (i : Nat := 0) : Int := (BitVec.ofNat f.width (d.rd f u i)).toInt

/-- The two's-complement code of a value in `w` bits. -/
def codeS (w : Nat) (v : Int) : Nat := (BitVec.ofInt w v).toNat

/-- A value held within bounds. -/
def clampI (lo hi v : Int) : Int := max lo (min hi v)

/-- `n / m` to the nearest integer, `m` positive. -/
def roundDiv (n m : Int) : Int := (2 * n + m) / (2 * m)

/-! ### Judging a sample (R553) -/

/-- A sample is bad: invalid, more than 10 K from the previous one, or more than 15 K from the mean of the valid
neighbours' values `ns`. -/
def badSample (prev t : Option Int) (ns : List Int) : Bool :=
  match t with
  | none => true
  | some t =>
    (match prev with
     | some p => decide (80 < (t - p).natAbs)
     | none => false) ||
    (!ns.isEmpty && decide (120 * ns.length < (t * ns.length - ns.sum).natAbs))

/-- The sensor after a sample, taken at `now`; whether it became suspect and whether it became lost. -/
def Sensor.judge (s : Sensor) (t : Option Int) (ns : List Int) (now : Nat) : Sensor × Bool × Bool :=
  let bad := badSample s.raw t ns
  if s.st = 2 then ({ s with raw := t }, false, false)
  else if s.st = 1 then
    let good := if bad then 0 else s.good + 1
    if 16 ≤ good then ({ s with raw := t, st := 0, run := 0, good := 0 }, false, false)
    else if 64 ≤ s.run + 1 then ({ s with raw := t, st := 2 }, false, true)
    else ({ s with raw := t, run := s.run + 1, good := good }, false, false)
  else if bad then
    let times := s.times.filter (fun x => decide (now < x + 3600000000000)) ++ [now]
    let lost := decide (16 ≤ times.length)
    ({ raw := t, st := if lost then 2 else 1, run := 1, good := 0, times := times }, true, lost)
  else ({ s with raw := t }, false, false)

/-- The samples of the sensors `ks` of a table that are valid neighbours: present, OK and sampled. -/
def validRaw (m : FMap Sensor) (ks : List Nat) : List Int :=
  ks.filterMap (fun k => match FMap.find m k with
    | some s => if s.st = 0 then s.raw else none
    | none => none)

/-- The value that stands for a sensor: its own, or 5 K above the highest valid neighbour, or 2 K above the throttle
threshold of its class. `ofs` is the class's part of THM_OFS. -/
def sensorValue (m : FMap Sensor) (k : Nat) (nbrs : List Nat) (ofs throttle : Int) : Int :=
  let sub := match validRaw m nbrs with
    | [] => throttle + 16
    | t :: ts => ts.foldl max t + ofs + 40
  match FMap.find m k with
  | some s => if s.st = 0 then (match s.raw with | some t => t + ofs | none => sub) else sub
  | none => sub

/-- A lost sensor: ERR_SVC.SENSOR and a SENSOR record. -/
def Dev.sensorLost (d : Dev) (unit addr : Nat) : Dev := (d.err 13 0x0B30 unit addr).svc 2

/-! ### DRAM layer sensors (R254-R257) -/

/-- Neighbours of the sensor of layer `l` in slice `n`. -/
def layerNbrs (n l : Nat) : List Nat :=
  let k := n % 16
  let b := n - k
  (if 0 < l then [n * 8 + l - 1] else []) ++ (if l < 7 then [n * 8 + l + 1] else []) ++
  (if 0 < k % 4 then [(b + k - 1) * 8 + l] else []) ++ (if k % 4 < 3 then [(b + k + 1) * 8 + l] else []) ++
  (if 0 < k / 4 then [(b + k - 4) * 8 + l] else []) ++ (if k / 4 < 3 then [(b + k + 4) * 8 + l] else [])

/-- The refresh rate of a layer (0 1×, 1 2×, 2 4×) after a sample, falling only 3 K below a threshold. -/
def refreshRate (cur : Nat) (t : Option Int) : Nat :=
  match t with
  | none => 2
  | some t =>
    if 95 * 8 < t ∨ (cur = 2 ∧ 92 * 8 < t) then 2
    else if 85 * 8 < t ∨ (1 ≤ cur ∧ 82 * 8 < t) then 1
    else 0

/-- Replace bits `[lo + w - 1 : lo]` of a number. -/
def putBits (v lo w x : Nat) : Nat := v - v / 2 ^ lo % 2 ^ w * 2 ^ lo + x % 2 ^ w * 2 ^ lo

/-- A field of the register that holds a layer's temperature. -/
def tempField (l : Nat) : Fld := if l < 4 then CORE_SLC_TEMP0.LAYERS else CORE_SLC_TEMP1.LAYERS

/-- Layer `l` of slice `n` is sampled. -/
def layerSample (n l : Nat) (t : Option Int) (d : Dev) : Dev :=
  let key := n * 8 + l
  let rates := d.rd CORE_SLC_REFRATE.RATE n
  let d := d.wr CORE_SLC_REFRATE.RATE (putBits rates (2 * l) 2 (refreshRate (rates / 4 ^ l % 4) t)) n
  let byte := match t with | some t => codeS 8 (t / 8) | none => 0xFF
  let d := d.wr (tempField l) (putBits (d.rd (tempField l) n) (8 * (l % 4)) 8 byte) n
  let r := (FMap.get d.layerS Sensor.init key).judge t (validRaw d.layerS (layerNbrs n l)) d.now
  let d := { d with layerS := FMap.set d.layerS key r.1 }
  let bad := (List.range 8).any (fun j => match FMap.find d.layerS (n * 8 + j) with | some s => s.raw.isNone | none => false)
  let d := d.wr CORE_SLC_STAT.SENSOR_BAD (if bad then 1 else 0) n
  let d := if t.isNone then d.err 13 0x000A (unitCore n 7 0) l else d
  if r.2.2 then d.sensorLost (unitCore n 7 0) l else d

def execLayerTempSample (n layer : Nat) (temp : Option Int) (s : State) : Out :=
  ctl s (layerSample (n % 4096) (layer % 8) temp)

/-! ### Thresholds (R555) -/

def Dev.dramLower (d : Dev) : Int := d.rd THM_CTRL.DRAM_LOWER
def Dev.logicLower (d : Dev) : Int := d.rd THM_CTRL.LOGIC_LOWER
def Dev.dramWarn (d : Dev) : Int := (92 - d.dramLower) * 8
def Dev.dramThrot (d : Dev) : Int := (95 - d.dramLower) * 8
def Dev.logicWarn (d : Dev) : Int := (95 - d.logicLower) * 8
def Dev.logicThrot (d : Dev) : Int := (98 - d.logicLower) * 8

/-! ### Logic sensors (R551, R553, R554) -/

/-- Sensors beside logic sensor `s` in the 8 × 4 grid of its half, by key. -/
def logicNbrs (h s : Nat) : List Nat :=
  ((if 0 < s % 8 then [s - 1] else []) ++ (if s % 8 < 7 then [s + 1] else []) ++
   (if 0 < s / 8 then [s - 8] else []) ++ (if s / 8 < 3 then [s + 8] else [])).map (h * 64 + ·)

/-- Unit ID of a front-end instance (R565). -/
def unitFront (h inst : Nat) : Nat := unitHalf h 23 inst

/-- The reading of a sensor measured against both bandgaps: of the one in use, or the higher once they are suspect. -/
def Dev.bandgap (d : Dev) (h : Nat) (r : Option Int × Option Int) : Option Int :=
  if d.bit SFE_STAT.BG_SUSPECT h then
    (match r.1, r.2 with
     | some a, some b => some (max a b)
     | some a, none => some a
     | none, b => b)
  else if d.bit SFE_STAT.BG_SEL h then r.2 else r.1

/-- Logic sensor `s` of half `h` is sampled. -/
def Dev.logicSample (d : Dev) (h s : Nat) (t : Option Int) : Dev :=
  let key := h * 64 + s
  let r := (FMap.get d.frontS Sensor.init key).judge t (validRaw d.frontS (logicNbrs h s)) d.now
  let d := { d with frontS := FMap.set d.frontS key r.1 }
  let d := if r.2.1 then d.wr SFE_STAT.SUSPECT_SEEN 1 h else d
  if r.2.2 then (d.wr SFE_STAT.LOST_SEEN 1 h).sensorLost (unitFront h s) 0 else d

/-- Every logic sensor of a half is sampled, against both bandgaps; a missing reading is invalid. -/
def execLogicSensorSample (h : Nat) (temps : List (Option Int × Option Int)) (s : State) : Out :=
  ctl s (fun d => (List.range 32).foldl (fun d k =>
    d.logicSample (h % 2) k (d.bandgap (h % 2) (temps.getD k (none, none)))) d)

/-- VDD_SOC measured against both bandgaps. -/
def bandgapMeasure (h mv0 mv1 : Nat) (d : Dev) : Dev :=
  let d := (d.wr SFE_BG.BG0_MV mv0 h).wr SFE_BG.BG1_MV mv1 h
  let used := if d.bit SFE_STAT.BG_SEL h then mv1 else mv0
  let run := if used < 100 * (mv0 - mv1) ∨ used < 100 * (mv1 - mv0) then FMap.get d.bgRun 0 h + 1 else 0
  let d := { d with bgRun := FMap.set d.bgRun h run }
  if 16 ≤ run ∧ !d.bit SFE_STAT.BG_SUSPECT h then
    ((d.wr SFE_STAT.BG_SUSPECT 1 h).err 13 0x0B31 (unitFront h 32) 0).svc 3
  else d

def execBandgapMeasure (h mv0 mv1 : Nat) (s : State) : Out :=
  ctl s (bandgapMeasure (h % 2) (mv0 % 65536) (mv1 % 65536))

/-! ### Coolant inputs (R559-R561) -/

/-- An event of the coolant begins: its flag sets, with a class 4 event and a THERMAL record. -/
def Dev.coolFlag (d : Dev) (f : Fld) (on : Bool) (opcode : Nat) : Dev :=
  if on && !d.bit f then (((d.wr f 1).wr THM_STAT.EVENT_SEEN 1).err 14 opcode (unitDev 27 0) 0).event 4 none
  else d.wr f (if on then 1 else 0)

/-- `ln ((1 + z) / (1 - z))` scaled by 2^64, for `z = n / m` between 0 and 1/3: 2 (z + z³/3 + z⁵/5 + …). -/
def atanhSum (n m : Int) : Int :=
  let z := 2 ^ 80 * n / m
  let z2 := z * z / 2 ^ 80
  let r := (List.range 26).foldl (fun (a : Int × Int) (k : Nat) => (a.1 + a.2 / (2 * k + 1 : Nat), a.2 * z2 / 2 ^ 80)) (0, z)
  2 * r.1 / 2 ^ 16

/-- `ln (n / m)` scaled by 2^64, for positive `n` and `m`. -/
def lnFix (n m : Nat) : Int :=
  let en := Nat.log2 n
  let em := Nat.log2 m
  -- n = 2^en · x and m = 2^em · y with x and y in [1, 2): ln x = 2 artanh ((x-1)/(x+1))
  atanhSum (n - 2 ^ en) (n + 2 ^ en) - atanhSum (m - 2 ^ em) (m + 2 ^ em) + ((en : Int) - em) * atanhSum 1 3

/-- The Beta model (R560), to the nearest eighth of a degree; none for a resistance no temperature gives. -/
def thermistor (b r25 r : Nat) : Option Int :=
  if r = 0 ∨ b = 0 ∨ r25 = 0 then none
  else
    -- 1 / 298.15 = 20 / 5963
    let sum := 2 ^ 64 * 20 / 5963 + lnFix r r25 / b
    if sum ≤ 0 then none else some (roundDiv (10 * 8 * 2 ^ 64 - 21852 * sum) (10 * sum))

/-- The enable bits of the thermistors: inlet, outlet, board, spare. -/
def coolEn : List Fld := [THM_COOL_CTRL.IN_EN, THM_COOL_CTRL.OUT_EN, THM_COOL_CTRL.BOARD_EN, THM_COOL_CTRL.SPARE_EN]

/-- A coolant input becomes lost. -/
def Dev.coolLost (d : Dev) (inst : Nat) : Dev := (d.wr SFE_STAT.LOST_SEEN 1 0).sensorLost (unitFront 0 inst) 0

/-- Thermistor `i` is read; none for a reading outside its range. -/
def Dev.thermistorIn (d : Dev) (i : Nat) (t : Option Int) (en : Bool) : Dev :=
  if !en then { d with frontS := FMap.del d.frontS (40 + i) }
  else
    let old := FMap.get d.frontS Sensor.init (40 + i)
    let bad := match t with | some t => decide (t < -160) || decide (1000 < t) | none => true
    let lost := bad && old.st != 2
    let d := { d with frontS := FMap.set d.frontS (40 + i) { old with raw := t, st := if bad then 2 else old.st } }
    if lost then d.coolLost (40 + i) else d

/-- A thermistor's latest temperature, while its input is enabled. -/
def Dev.coolTemp (d : Dev) (i : Nat) : Option Int := (FMap.find d.frontS (40 + i)).bind Sensor.raw

/-- A coolant input is OK. -/
def Dev.coolOk (d : Dev) (inst : Nat) : Bool := match FMap.find d.frontS inst with | some s => s.st == 0 && s.raw.isSome | none => false

/-- The inlet lies outside 17 °C to 40 °C; a reading that no temperature gives lies outside it too. -/
def Dev.inletOut (d : Dev) : Bool :=
  match FMap.find d.frontS 40 with
  | some s => (match s.raw with | some t => decide (t < 136) || decide (320 < t) | none => true)
  | none => false

def Dev.auxHot (d : Dev) : Bool :=
  [(2, THM_COOL_CTRL.BOARD_WARN), (3, THM_COOL_CTRL.SPARE_WARN)].any (fun e =>
    match d.coolTemp e.1 with | some t => decide ((d.rd e.2 : Int) * 8 < t) | none => false)

/-- The heat-balance window takes an inlet and outlet sample (R561). -/
def Dev.heatTemps (d : Dev) : Dev :=
  match d.coolTemp 0, d.coolTemp 1 with
  | some a, some b =>
    { d with heat := { d.heat with tIn := d.heat.tIn + a, tOut := d.heat.tOut + b, nT := d.heat.nT + 1,
                                   bad := d.heat.bad || !d.coolOk 40 || !d.coolOk 41 || !d.bit THM_COOL_CTRL.BAL_EN } }
  | _, _ => { d with heat := { d.heat with bad := true } }

/-- The thermistors are read: their resistances in ohms, against both bandgaps, from inlet to spare. -/
def thermistorSample (rs : List (Nat × Nat)) (d : Dev) : Dev :=
  let b := d.rd THM_NTC_CAL.B
  let r25 := d.rd THM_NTC_CAL.R25 * 10
  let d := (List.range 4).foldl (fun d i =>
    let r := rs.getD i (0, 0)
    d.thermistorIn i (d.bandgap 0 (thermistor b r25 r.1, thermistor b r25 r.2)) (d.bit (coolEn.getD i THM_COOL_CTRL.IN_EN))) d
  let d := (d.coolFlag THM_STAT.INLET_RANGE d.inletOut 0x0B14).coolFlag THM_STAT.AUX_WARN d.auxHot 0x0B16
  d.heatTemps

def execThermistorSample (rs : List (Nat × Nat)) (s : State) : Out := ctl s (thermistorSample rs)

/-- The least flow of R559 in mL/min for an envelope. -/
def leastFlow (env : Nat) : Nat :=
  if env ≤ 700 then 1500 else if env ≤ 900 then 1800 else if env ≤ 1100 then 2100 else if env ≤ 1300 then 2500 else 3000

/-- The pulses of the last second are counted. -/
def flowSample (pulses : Nat) (d : Dev) : Dev :=
  if !d.bit THM_COOL_CTRL.FLOW_EN then
    let d := { d with frontS := FMap.del d.frontS 44, flowIdle := 0, heat := { d.heat with bad := true } }
    (d.wr THM_FLOW.ML_MIN 0).coolFlag THM_STAT.FLOW_LOW false 0x0B14
  else
    let per := max 1 (d.rd THM_FLOW_CAL.PULSES)
    let flow := min 65535 (pulses * 60000 / per)
    let idle := if pulses = 0 then d.flowIdle + 1 else 0
    let old := FMap.get d.frontS Sensor.init 44
    let lost := decide (2 ≤ idle)
    let d := { d with flowIdle := idle
                      frontS := FMap.set d.frontS 44 { old with raw := some (flow : Int), st := if lost then 2 else old.st } }
    let d := d.wr THM_FLOW.ML_MIN flow
    let d := if lost && old.st != 2 then d.coolLost 44 else d
    let d := d.coolFlag THM_STAT.FLOW_LOW (decide (pulses * 60000 < leastFlow (d.rd PWR_ENV.WATTS) * per)) 0x0B14
    { d with heat := { d.heat with pulses := d.heat.pulses + pulses, nF := d.heat.nF + 1,
                                   bad := d.heat.bad || !d.coolOk 44 || !d.bit THM_COOL_CTRL.BAL_EN } }

def execFlowSample (pulses : Nat) (s : State) : Out := ctl s (flowSample pulses)

/-- A 10 s window ends. Q is `num / den` watts and P is `watts / nP`. -/
def heatBalance (d : Dev) : Dev :=
  let h := d.heat
  let d := { d with heat := Heat.init }
  if h.bad ∨ h.nT = 0 ∨ h.nF = 0 ∨ h.nP = 0 ∨ h.watts < 300 * h.nP ∨ !d.bit THM_COOL_CTRL.BAL_EN then d
  else
    let num : Int := (h.pulses * d.rd THM_FLOW_CAL.CP : Nat) * (h.tOut - h.tIn)
    let den : Int := (8 * h.nT * h.nF * max 1 (d.rd THM_FLOW_CAL.PULSES) : Nat)
    -- (Q − P) / P = diff / base
    let diff := num * h.nP - h.watts * den
    let base := h.watts * den
    let d := d.wr THM_HEAT.Q (clampI 0 65535 (roundDiv num den)).toNat
    let d := d.wr THM_HEAT.IMB (codeS 8 (clampI (-128) 127 (roundDiv (100 * diff) base)))
    if 20 * base < 100 * diff.natAbs then d.coolFlag THM_STAT.HEAT_BAL true 0x0B15
    else if 100 * diff.natAbs ≤ 15 * base then d.coolFlag THM_STAT.HEAT_BAL false 0x0B15
    else d

def execHeatBalanceWindow (s : State) : Out := ctl s heatBalance

end Sys2Proof.Machine
end

