-- ==== Sys2Proof/Machine/Clocks.lean ====
section
/-! DEFINITION. PLLs, references and the drift monitor (R570-R577, R580, R581). Deviations are in 0.01 ppm. -/
namespace Sys2Proof.Machine
open Sys2Proof

/-- Unit ID of clock domain `n` (R570). -/
def unitClk (n : Nat) : Nat := unitDev 28 n

/-- Domains with a PLL of the die: CORE, MESH, SLICE, FTX, PCIE, CTRL, MGMT and TIME. -/
def pllDomains : List Nat := [2, 3, 4, 5, 6, 7, 18, 19, 20, 21, 22, 23, 25]

/-- A PLL loses lock while its reference is present: it holds its control word. -/
def pllUnlock (n : Nat) (d : Dev) : Dev :=
  if d.rd CLK_DOMn.STATE 0 n ≠ 2 ∨ !pllDomains.contains n ∨ d.bit CLK_STAT.HOLDOVER then d
  else ((d.wr CLK_DOMn.STATE 3 0 n).wr CLK_DOMn.UNLOCK_SEEN 1 0 n).err 16 0x0B43 (unitClk n) 0

def execPllUnlock (n : Nat) (s : State) : Out := ctl s (pllUnlock n)

def pllLockRegained (n : Nat) (d : Dev) : Dev :=
  if d.rd CLK_DOMn.STATE 0 n = 3 ∧ pllDomains.contains n ∧ !d.bit CLK_STAT.HOLDOVER then d.wr CLK_DOMn.STATE 2 0 n else d

def execPllLockRegained (n : Nat) (s : State) : Out := ctl s (pllLockRegained n)

/-! ### References (R574, R575) -/

def presentField (r : Nat) : Fld := if r = 0 then CLK_STAT.REF0_PRESENT else CLK_STAT.REF1_PRESENT

/-- Every running domain of a PLL goes from one state to another. -/
def Dev.pllAll (d : Dev) (src dst : Nat) : Dev :=
  pllDomains.foldl (fun d n => if d.rd CLK_DOMn.STATE 0 n = src then d.wr CLK_DOMn.STATE dst 0 n else d) d

/-- Reference `r` stops being present: the selected one puts the PLLs on holdover. -/
def referenceLost (r : Nat) (d : Dev) : Dev :=
  if !d.bit (presentField r) then d
  else
    let d := d.wr (presentField r) 0
    if d.rd CLK_STAT.SEL ≠ r then d
    else
      let d := (d.pllAll 2 3).pllAll 1 3
      ((((d.wr CLK_STAT.HOLDOVER 1).wr CLK_STAT.LOST_SEEN 1).err 16 0x0B42 (unitClk 1) 0)).svc 3

def execReferenceLost (r : Nat) (s : State) : Out := ctl s (referenceLost (r % 2))

/-- Reference `r` is present again: if it is the selected one, the PLLs lock to it. -/
def referenceReturn (r : Nat) (d : Dev) : Dev :=
  let d := d.wr (presentField r) 1
  if d.rd CLK_STAT.SEL = r ∧ d.bit CLK_STAT.HOLDOVER then (d.wr CLK_STAT.HOLDOVER 0).pllAll 3 2 else d

def execReferenceReturn (r : Nat) (s : State) : Out := ctl s (referenceReturn (r % 2))

/-! ### The drift monitor (R576, R577) -/

def insertSorted (x : Int) : List Int → List Int
  | [] => [x]
  | y :: t => if x ≤ y then x :: y :: t else y :: insertSorted x t

/-- Twice the median of a list: an even count takes the mean of the two middle values. -/
def median2 (xs : List Int) : Int :=
  let s := xs.foldr insertSorted []
  let n := s.length
  s.getD (n / 2) 0 + s.getD ((n - 1) / 2) 0

/-- Source `n` is in use: a fabric port that is UP, or a PCIe link that is up while PCIE_EN is 1. -/
def Dev.sourceUp (d : Dev) (n : Nat) : Bool :=
  if n < 8 then d.rd FPORT_STAT.LINK n == 2 else d.bit CLK_CTRL.PCIE_EN && d.bit PCIE_STAT.UP (n - 8)

/-- The measured deviations, with their sources. -/
def Dev.measured (d : Dev) (devs : List (Option Int)) : List (Nat × Int) :=
  (List.range 10).filterMap (fun n => if d.sourceUp n then (devs.getD n none).map (fun v => (n, v)) else none)

/-- Twice the consensus of measured deviations and the sources that are outliers; no consensus below three sources. -/
def consensus (ms : List (Nat × Int)) : Option Int × List Nat :=
  let m0 := median2 (ms.map Prod.snd)
  let near := fun (x : Nat × Int) => decide ((2 * x.2 - m0).natAbs ≤ 10000)
  let use := ms.filter near
  (if use.length < 3 then none else some (median2 (use.map Prod.snd)), (ms.filter (fun x => !near x)).map Prod.fst)

def devCode (v : Int) : Nat := codeS 16 (clampI (-32767) 32767 v)

/-- The monitor acts on a consensus, given as twice d_sel, and on the other reference's deviation. -/
def Dev.driftJudge (d : Dev) (s2 : Int) (rOther : Option Int) : Dev :=
  let a := s2.natAbs
  let begins := decide (12000 ≤ a) && !d.drift.warn
  let warn := decide (12000 ≤ a) || (d.drift.warn && decide (10000 ≤ a))
  let sel := if 18000 ≤ a then d.drift.sel + 1 else 0
  let other := match rOther with
    | some r => if 18000 ≤ (2 * r + s2).natAbs then d.drift.other + 1 else 0
    | none => d.drift.other
  let d := { d with drift := { warn := warn, sel := sel, other := other } }
  let d := d.wr CLK_STAT.MON (if warn then 2 else 1)
  let d := (d.wr CLK_DEV.SEL (devCode (s2 / 2))).wr CLK_DEV.OTHER
    (match rOther with | some r => devCode (r + s2 / 2) | none => 0x8000)
  let d := if begins then ((d.wr CLK_STAT.WARN_SEEN 1).err 16 0x0B40 (unitClk 1) 0).event 4 none else d
  let d := if 3 ≤ other then d.wr CLK_STAT.OTHER_SUSPECT 1 else d
  if 3 ≤ sel ∧ !d.bit CLK_STAT.SUSPECT then
    (((d.wr CLK_STAT.SUSPECT 1).wr CLK_STAT.SUSPECT_SEEN 1).err 16 0x0B41 (unitClk 1) (d.rd CLK_STAT.SEL)).svc 3
  else d

/-- A 100 ms window: the deviation of each source measured for all of it, and of the other reference against REF. -/
def driftWindow (devs : List (Option Int)) (rOther : Option Int) (d : Dev) : Dev :=
  let ms := d.measured devs
  let c := consensus ms
  let d := (List.range 10).foldl (fun d n =>
    d.wr CLK_SRCn.DEV (match ms.find? (fun x => x.1 == n) with | some x => devCode x.2 | none => 0x8000) 0 n) d
  let mask := fun (xs : List Nat) => (xs.map (2 ^ ·)).sum
  let d := (d.wr CLK_MON_SRC.USED (mask (ms.map Prod.fst))).wr CLK_MON_SRC.OUTLIER (mask c.2)
  match c.1 with
  | none => ((d.wr CLK_STAT.MON 0).wr CLK_DEV.SEL 0x8000).wr CLK_DEV.OTHER 0x8000
  | some c2 => d.driftJudge (-c2) rOther

def execDriftWindow (devs : List (Option Int)) (rOther : Option Int) (s : State) : Out := ctl s (driftWindow devs rOther)

end Sys2Proof.Machine
end

