-- ==== Sys2Proof/Machine/Collect.lean ====
section
/-! DEFINITION. The collectives engine: descriptors, algorithms, data and completion (R419-R429, R441). -/
namespace Sys2Proof.Machine
open Sys2Proof

/-! ### Buffers (R421, R422) -/

def Coll.size (x : Coll) : Nat := word32 x.desc 1 % 2 ^ 24
/-- P, in bytes. -/
def Coll.p (x : Coll) : Nat := x.size * 128
def Coll.base (x : Coll) (dst : Bool) : Nat :=
  if dst then word32 x.desc 4 + word32 x.desc 5 % 2 ^ 16 * 2 ^ 32 else word32 x.desc 2 + word32 x.desc 3 % 2 ^ 16 * 2 ^ 32
def Coll.segLog2 (x : Coll) : Nat := word32 x.desc 6 % 32

/-- The DA of byte `b` of a buffer. -/
def Coll.da (x : Coll) (dst : Bool) (b : Nat) : Nat :=
  if x.segLog2 = 0 then x.base dst + b
  else x.base dst + b / 2 ^ x.segLog2 * (word32 x.desc 7 * 4096) + b % 2 ^ x.segLog2

/-- Bytes of a buffer (R422). -/
def Coll.bytes (x : Coll) (dst : Bool) : Nat :=
  match x.op, dst with
  | 2, false => x.n * x.p
  | 3, true => x.n * x.p
  | 6, _ => x.n * x.p
  | 7, _ => 0
  | _, _ => x.p

/-- The runs of addresses that a buffer takes: DA and bytes. -/
def Coll.runs (x : Coll) (dst : Bool) : List (Nat × Nat) :=
  let n := x.bytes dst
  if x.segLog2 = 0 then [(x.base dst, n)]
  else
    let w := 2 ^ x.segLog2
    (List.range ((n + w - 1) / w)).map (fun i => (x.da dst (i * w), min w (n - i * w)))

/-- The buffers overlap, other than as SRC = DST of ALLREDUCE: results in them are not defined (R422). -/
def Coll.overlaps (x : Coll) : Bool :=
  !(x.op == 1 && x.base false == x.base true) &&
  (x.runs false).any (fun a => (x.runs true).any (fun b => decide (a.1 < b.1 + b.2) && decide (b.1 < a.1 + a.2)))

/-- A line that the collective writes: free in buffers that overlap. -/
def Dev.collLine (d : Dev) (x : Coll) (v : Nat) : Nat × Dev :=
  if x.overlaps then
    let r := d.draw 1024
    (r.1.toNat, r.2)
  else (v, d)

/-! ### Plans (R425) -/

/-- Data this rank sends: step, rank, source buffer and offset, offset in the receiver's buffer, bytes, REDUCE, and the
receives it forwards. -/
structure CSend where
  step : Nat
  rank : Nat
  dst : Bool
  off : Nat
  rda : Nat
  len : Nat
  reduce : Bool
  deps : List Nat
  deriving DecidableEq, Repr

/-- Data this rank receives: step, rank, offset and bytes as the sender names them, REDUCE, the buffer and offset where
they lie here, and the receives whose reductions come first. -/
structure CRecv where
  step : Nat
  rank : Nat
  off : Nat
  len : Nat
  reduce : Bool
  dst : Bool
  loc : Nat
  prev : List Nat
  deriving DecidableEq, Repr

/-- What a rank does in a collective: copies within its own buffers at the start (SRC offset, DST offset, bytes), sends,
receives, and copies at the end. -/
structure CPlan where
  pre : List (Nat × Nat × Nat)
  sends : List CSend
  recvs : List CRecv
  post : List (Nat × Nat × Nat)
  deriving DecidableEq, Repr

/-- (a - b) mod n. -/
def ringSub (a b n : Nat) : Nat := (a + n * (b / n + 1) - b) % n

/-- Part `p` of a buffer cut in n parts of a whole number of lines, the last ones shorter or empty: start and bytes. -/
def cutPart (lines n p : Nat) : Nat × Nat :=
  let c := (lines + n - 1) / n
  let a := min (p * c) lines
  (a * 128, min c (lines - a) * 128)

/-- The n - 1 steps of a ring that reduce: `part` gives a part's place, `own` whether a part lies in DST here and where. -/
def ringReduce (n r step : Nat) (part : Nat → Nat × Nat) (place : Nat → Bool × Nat) : List CSend × List CRecv :=
  ((List.range (n - 1)).map (fun s =>
     let p := ringSub r (s + 1) n
     { step := step + s, rank := (r + 1) % n, dst := (place p).1, off := (place p).2, rda := (part p).1, len := (part p).2,
       reduce := true, deps := if s = 0 then [] else [s - 1] }),
   (List.range (n - 1)).map (fun s =>
     let p := ringSub r (s + 2) n
     { step := step + s, rank := ringSub r 1 n, off := (part p).1, len := (part p).2, reduce := true, dst := (place p).1,
       loc := (place p).2, prev := [] }))

/-- The n - 1 steps of a ring that forward whole parts, all in DST; `i0` numbers the first receive, `d0` is what the first
send waits for. -/
def ringGather (n r step i0 : Nat) (d0 : List Nat) (part : Nat → Nat × Nat) : List CSend × List CRecv :=
  ((List.range (n - 1)).map (fun s =>
     let p := ringSub r s n
     { step := step + s, rank := (r + 1) % n, dst := true, off := (part p).1, rda := (part p).1, len := (part p).2,
       reduce := false, deps := if s = 0 then d0 else [i0 + s - 1] }),
   (List.range (n - 1)).map (fun s =>
     let p := ringSub r (s + 1) n
     { step := step + s, rank := ringSub r 1 n, off := (part p).1, len := (part p).2, reduce := false, dst := true,
       loc := (part p).1, prev := [] }))

/-- One hop of a chain or tree over a whole span: a send. -/
def hopSend (step rank : Nat) (dst : Bool) (len : Nat) (reduce : Bool) (deps : List Nat) : CSend :=
  { step := step, rank := rank, dst := dst, off := 0, rda := 0, len := len, reduce := reduce, deps := deps }
def hopRecv (step rank : Nat) (dst : Bool) (len : Nat) (reduce : Bool) (prev : List Nat) : CRecv :=
  { step := step, rank := rank, off := 0, len := len, reduce := reduce, dst := dst, loc := 0, prev := prev }

/-- RING for each OP. -/
def ringPlan (op n r root lines : Nat) : CPlan :=
  let pb := lines * 128
  let whole := fun p => (p * pb, pb)
  match op with
  | 1 =>
    let a := ringReduce n r 0 (cutPart lines n) (fun p => (true, (cutPart lines n p).1))
    let b := ringGather n r (n - 1) (n - 1) [n - 2] (cutPart lines n)
    { pre := [(0, 0, pb)], sends := a.1 ++ b.1, recvs := a.2 ++ b.2, post := [] }
  | 2 =>
    let a := ringReduce n r 0 whole (fun p => if p = r then (true, 0) else (false, p * pb))
    { pre := [(r * pb, 0, pb)], sends := a.1, recvs := a.2, post := [] }
  | 3 =>
    let b := ringGather n r 0 0 [] whole
    { pre := [(0, r * pb, pb)], sends := b.1, recvs := b.2, post := [] }
  | 4 =>
    let j := ringSub r root n
    { pre := if j = 0 then [(0, 0, pb)] else [],
      sends := if j + 1 < n then [hopSend j ((r + 1) % n) true pb false (if j = 0 then [] else [0])] else [],
      recvs := if j = 0 then [] else [hopRecv (j - 1) (ringSub r 1 n) true pb false []], post := [] }
  | 5 =>
    let j := ringSub r (root + 1) n
    let atRoot := j + 1 == n
    { pre := if atRoot then [(0, 0, pb)] else [],
      sends := if atRoot then [] else [hopSend j ((r + 1) % n) false pb true (if j = 0 then [] else [0])],
      recvs := if j = 0 then [] else [hopRecv (j - 1) (ringSub r 1 n) atRoot pb true []], post := [] }
  | _ =>
    -- BARRIER: a token passes from rank 0 to rank n - 1, and a second one releases the others
    { pre := [],
      sends := (if r + 1 < n then [hopSend r (r + 1) true 0 false (if r = 0 then [] else [0])]
                else [hopSend r 0 true 0 false [0]]) ++
               (if r + 2 < n then [hopSend (n + r) (r + 1) true 0 false [if r = 0 then 0 else 1]] else []),
      recvs := (if r = 0 then [] else [hopRecv (r - 1) (r - 1) true 0 false []]) ++
               (if r + 1 < n then [hopRecv (n - 1 + r) (ringSub r 1 n) true 0 false []] else []),
      post := [] }

/-- Levels of a binomial tree of n ranks. -/
def treeLevels (n : Nat) : Nat := if n ≤ 1 then 0 else Nat.log2 (n - 1) + 1

/-- The level at which a relative rank sends up: its lowest set bit. -/
def lowBit (rel : Nat) : Nat := ((List.range 8).find? (fun k => rel.testBit k)).getD 0

/-- The levels at which a relative rank receives. -/
def treeKids (n rel : Nat) : List Nat :=
  (List.range (treeLevels n)).filter (fun k => rel % 2 ^ (k + 1) == 0 && decide (rel + 2 ^ k < n))

/-- A tree whose ranks move one whole span: up with REDUCE, and down again when `down`. `buf` is where the span lies at
this rank. -/
def treeSpan (n rel root len : Nat) (up down buf : Bool) : List CSend × List CRecv :=
  let at' := fun q => (q + root) % n
  let kids := treeKids n rel
  let k0 := lowBit rel
  let lv := treeLevels n
  let ups := if up then kids.map (fun k => hopRecv k (at' (rel + 2 ^ k)) buf len (decide (len ≠ 0)) []) else []
  -- the reductions of a rank are made in the order of the levels
  let ups := (List.range ups.length).map (fun i => { ups.getD i (hopRecv 0 0 true 0 false []) with prev := List.range i })
  let all := List.range ups.length
  let sendUp := if up && rel != 0 then [hopSend k0 (at' (rel - 2 ^ k0)) buf len (decide (len ≠ 0)) all] else []
  let recvDown := if down && rel != 0 then [hopRecv (lv + (lv - 1 - k0)) (at' (rel - 2 ^ k0)) buf len false []] else []
  let sendDown := if down then
      kids.reverse.map (fun k => hopSend (lv + (lv - 1 - k)) (at' (rel + 2 ^ k)) buf len false (if rel = 0 then all else [ups.length]))
    else []
  (sendUp ++ sendDown, ups ++ recvDown)

/-- TREE for each OP. -/
def treePlan (op n r root lines : Nat) : CPlan :=
  let pb := lines * 128
  let root := if op = 1 ∨ op = 7 then 0 else root
  let rel := ringSub r root n
  match op with
  | 1 => let t := treeSpan n rel root pb true true true; { pre := [(0, 0, pb)], sends := t.1, recvs := t.2, post := [] }
  | 2 =>
    let t := treeSpan n rel root (n * pb) true true false
    { pre := [], sends := t.1, recvs := t.2, post := [(r * pb, 0, pb)] }
  | 3 =>
    -- parts go up one by one; then the whole buffer comes down
    let at' := fun q => (q + root) % n
    let kids := treeKids n rel
    let lv := treeLevels n
    let k0 := lowBit rel
    let cover := fun (q k : Nat) => (List.range (2 ^ k)).filterMap (fun i => if q + i < n then some (at' (q + i)) else none)
    let ups := kids.flatMap (fun k => (cover (rel + 2 ^ k) k).map (fun p =>
      { step := k, rank := at' (rel + 2 ^ k), off := p * pb, len := pb, reduce := false, dst := true, loc := p * pb, prev := [] : CRecv }))
    let idx := fun p => ups.findIdx? (fun u => u.off == p * pb)
    let sendUp := if rel = 0 then [] else (cover rel k0).map (fun p =>
      { step := k0, rank := at' (rel - 2 ^ k0), dst := true, off := p * pb, rda := p * pb, len := pb, reduce := false,
        deps := (idx p).toList : CSend })
    let recvDown := if rel = 0 then [] else [hopRecv (lv + (lv - 1 - k0)) (at' (rel - 2 ^ k0)) true (n * pb) false []]
    let sendDown := kids.reverse.map (fun k => hopSend (lv + (lv - 1 - k)) (at' (rel + 2 ^ k)) true (n * pb) false
      (if rel = 0 then List.range ups.length else [ups.length]))
    { pre := [(0, r * pb, pb)], sends := sendUp ++ sendDown, recvs := ups ++ recvDown, post := [] }
  | 4 =>
    let t := treeSpan n rel root pb false true true
    { pre := if rel = 0 then [(0, 0, pb)] else [], sends := t.1, recvs := t.2, post := [] }
  | 5 =>
    let t := treeSpan n rel root pb true false (rel == 0)
    { pre := if rel = 0 then [(0, 0, pb)] else [], sends := t.1, recvs := t.2, post := [] }
  | _ => let t := treeSpan n rel root 0 true true true; { pre := [], sends := t.1, recvs := t.2, post := [] }

/-- DIRECT for ALLTOALL and ALLGATHER. -/
def directPlan (op n r lines : Nat) : CPlan :=
  let pb := lines * 128
  let others := (List.range n).filter (· != r)
  { pre := if op = 6 then [(r * pb, r * pb, pb)] else [(0, r * pb, pb)],
    sends := others.map (fun t => { step := 0, rank := t, dst := false, off := if op = 6 then t * pb else 0, rda := r * pb,
                                    len := pb, reduce := false, deps := [] }),
    recvs := others.map (fun q => { step := 0, rank := q, off := q * pb, len := pb, reduce := false, dst := true,
                                    loc := q * pb, prev := [] }),
    post := [] }

def Coll.plan (x : Coll) : CPlan :=
  let p := match x.alg with
    | 1 => ringPlan x.op x.n x.rank x.root x.size
    | 2 => treePlan x.op x.n x.rank x.root x.size
    | _ => directPlan x.op x.n x.rank x.size
  if x.n ≤ 1 then { p with sends := [], recvs := [] } else p

/-! ### Access to buffers (R426, R427) -/

def Dev.setColl (d : Dev) (x : Coll) : Dev := { d with colls := d.colls.map (fun y => if y.id = x.id then x else y) }
def Dev.collAt (d : Dev) (id : Nat) : Option Coll := d.colls.find? (fun x => x.id == id)

/-- One line of a local copy: whether it was allowed, and whether it was poisoned. -/
def Dev.copyLine (d : Dev) (x : Coll) (src dst : Nat) : Bool × Bool × Dev :=
  let a := d.allowed x.half x.part src 128 false
  let b := a.2.allowed x.half x.part dst 128 true
  if !a.1 || !b.1 then (false, false, b.2)
  else
    let r := b.2.cachedRead src 128 (some 1)
    let v := r.2.collLine x r.1.val
    let d := v.2.cachedWrite dst 128 v.1 (some 1)
    let bad := r.1.ue || r.1.poison
    (true, bad, if bad then d.setPoison dst else d)

/-- Copy lines within this rank's buffers. -/
def Dev.copyLines (x : Coll) (s t : Nat) : Nat → Dev → Bool × Bool × Dev
  | 0, d => (true, false, d)
  | k + 1, d =>
    let src := x.da false s
    let dst := x.da true t
    if src = dst then Dev.copyLines x (s + 128) (t + 128) k d
    else
      let r := d.copyLine x src dst
      if !r.1 then r
      else
        let rest := Dev.copyLines x (s + 128) (t + 128) k r.2.2
        (rest.1, r.2.1 || rest.2.1, rest.2.2)

/-- The copies of a plan. -/
def Dev.copyAll (x : Coll) : List (Nat × Nat × Nat) → Dev → Bool × Bool × Dev
  | [], d => (true, false, d)
  | (s, t, n) :: more, d =>
    let r := Dev.copyLines x s t (n / 128) d
    if !r.1 then r
    else
      let rest := Dev.copyAll x more r.2.2
      (rest.1, r.2.1 || rest.2.1, rest.2.2)

/-- One lane of a reduction (R426). -/
def redLane (red dtype a b : Nat) : Nat :=
  match dtype, red with
  | 0, 0 => i32Add a b
  | 0, 1 => if signed 32 a < signed 32 b then b else a
  | 0, _ => if signed 32 b < signed 32 a then b else a
  | 1, 0 => f32Add a b
  | 1, 1 => encodeNum 0 true (numMax (decodeNum 0 a) (decodeNum 0 b))
  | 1, _ => encodeNum 0 true (numMin (decodeNum 0 a) (decodeNum 0 b))
  | _, _ => bf16Add a b

/-- A line after a line reduction. -/
def redLine (red dtype old v : Nat) : Nat :=
  if dtype = 2 then addLanes (redLane red 2) 2 (2 ^ 64 - 1) old v 64
  else addLanes (redLane red dtype) 4 (2 ^ 32 - 1) old v 32

/-- The cluster of a slice that is not ENABLED reduces only by its adders: SUM of INT32 and FP32 (R58). -/
def Dev.redRefused (d : Dev) (x : Coll) (da : Nat) : Bool :=
  !d.clusterEnabled (daCore da / 16) && !(x.red == 0 && decide (x.dtype < 2))

/-- Apply one line of a packet: whether it was allowed, and whether it is poisoned. -/
def Dev.applyLine (d : Dev) (x : Coll) (reduce : Bool) (da v : Nat) (poison : Bool) : Bool × Bool × Dev :=
  let a := d.allowed x.half x.part da 128 true
  if !a.1 then (false, false, a.2)
  else if reduce then
    if a.2.redRefused x da then (false, false, a.2.err 5 3 (unitCluster (daCore da / 16) 12 0) da)
    else
      let r := a.2.cachedRead da 128 (some 1)
      let bad := poison || r.1.ue || r.1.poison
      let w := r.2.collLine x (redLine x.red x.dtype r.1.val v)
      let d := w.2.cachedWrite da 128 w.1 (some 1)
      (true, bad, if bad then d.setPoison da else d)
  else
    let w := a.2.collLine x v
    let d := w.2.cachedWrite da 128 w.1 none
    (true, poison, if poison then d.setPoison da else d)

/-- Apply the lines of a packet to where they lie here. -/
def Dev.applyLines (x : Coll) (reduce dst poison : Bool) : Nat → Nat → Nat → Dev → Bool × Bool × Dev
  | 0, _, _, d => (true, false, d)
  | k + 1, b, v, d =>
    let r := d.applyLine x reduce (x.da dst b) (v % 256 ^ 128) poison
    if !r.1 then r
    else
      let rest := Dev.applyLines x reduce dst poison k (b + 128) (v / 256 ^ 128) r.2.2
      (rest.1, r.2.1 || rest.2.1, rest.2.2)

/-! ### Progress (R425, R427) -/

/-- Offsets of the packets that carry a span. -/
def pktOffs (off len : Nat) : List Nat := (cutRda (len / 4096 + 2) 0 off len).map (fun p => p.2.1)

/-- What receive `i` still lacks of the bytes from `lo` to `hi`: nothing. -/
def Coll.gotSpan (x : Coll) (i lo hi : Nat) : Bool :=
  match x.plan.recvs[i]? with
  | none => true
  | some v =>
    let got := FMap.get x.got [] i
    if v.len = 0 then !got.isEmpty || x.op != 7
    else (pktOffs v.off v.len).all (fun q => decide (hi ≤ q) || decide (q + 4096 - q % 4096 ≤ lo) || got.contains q)

/-- Granule `g` of a send may go: the receiver is ready, and what it forwards is here. -/
def Coll.maySend (x : Coll) (s : CSend) (g : Nat) : Bool :=
  x.ready.contains s.rank &&
  s.deps.all (fun i => x.gotSpan i (s.rda + g * 65536) (s.rda + min s.len ((g + 1) * 65536)))

/-- AUX of a collective's packet. -/
def Coll.aux (x : Coll) (step : Nat) (reduce : Bool) : Nat :=
  x.seq % 256 * 2 ^ 24 + step * 2 ^ 12 + (if reduce then 2 ^ 7 else 0) + x.red * 2 ^ 5 + x.dtype * 2 ^ 3

/-- The local pieces of bytes of a buffer, cut at its segments. -/
def Coll.pieces (x : Coll) (dst : Bool) : Nat → Nat → Nat → List (Nat × Nat)
  | 0, _, _ => []
  | fuel + 1, b, n =>
    if n = 0 then []
    else
      let k := min n (4096 - b % 4096)
      (x.da dst b, k) :: Coll.pieces x dst fuel (b + k) (n - k)

/-- The packets of one granule. -/
def Coll.granule (x : Coll) (s : CSend) (g : Nat) : List TxPkt :=
  let lo := g * 65536
  let n := min s.len ((g + 1) * 65536) - lo
  let ps := if s.len = 0 then [(s.off, s.rda, 0)] else cutRda 18 (s.off + lo) (s.rda + lo) n
  (List.range ps.length).map (fun i =>
    let p := ps.getD i (0, 0, 0)
    let last := i + 1 == ps.length
    { TxPkt.blank 20 with coll := some x.id, src := x.pieces s.dst 3 p.1 p.2.2, aux := x.aux s.step s.reduce, rda := p.2.1,
                          len := p.2.2, first := i == 0, last := last, ackreq := last })

/-- A rank may read the source of packets under the protection of its partition. -/
def Dev.sourcesAllowed (x : Coll) : List (Nat × Nat) → Dev → Bool × Dev
  | [], d => (true, d)
  | (da, n) :: t, d =>
    let a := d.allowed x.half x.part da n false
    if a.1 then Dev.sourcesAllowed x t a.2 else a

/-- Hand one granule of a collective that still runs to its connection; a source that is refused ends it with ACCESS. -/
def Dev.sendGranule (d : Dev) (id : Nat) (s : CSend) (g : Nat) : Dev :=
  match d.collAt id with
  | none => d
  | some x =>
    let ps := x.granule s g
    let a := Dev.sourcesAllowed x (ps.flatMap TxPkt.src) d
    if a.1 then (a.2.queuePkts (x.conn s.rank) ps).pump (x.conn s.rank) else a.2.collFail x 5 x.rank

/-- Hand every granule that may go to its connection. -/
def Dev.collPump (d : Dev) (id : Nat) : Dev :=
  match d.collAt id with
  | none => d
  | some x =>
    let sends := x.plan.sends
    let go := x.todo.filter (fun t => (sends[t.1]?).any (fun s => x.maySend s t.2))
    let d := d.setColl { x with todo := x.todo.filter (fun t => !go.contains t) }
    go.foldl (fun d t =>
      match sends[t.1]? with
      | some s => d.sendGranule id s t.2
      | none => d) d

/-- The receive that a packet belongs to. -/
def Coll.recvOf (x : Coll) (step rank off : Nat) : Option Nat :=
  x.plan.recvs.findIdx? (fun v => v.step == step && v.rank == rank &&
    (v.len == 0 || (decide (v.off ≤ off) && decide (off < v.off + v.len))))

/-- Data of a receive waits while reductions that come before it have not been made. -/
def Coll.turn (x : Coll) (v : CRecv) (off len : Nat) : Bool := v.prev.all (fun i => x.gotSpan i off (off + len))

/-- Apply a packet of receive `i` (offset, bytes, payload, REDUCE, POISON), and then those that waited for it. Answers whether
all were allowed. -/
def Dev.collTake (id : Nat) : Nat → List (Nat × Nat × Nat × Nat × Bool × Bool) → Dev → Bool × Dev
  | 0, _, d => (true, d)
  | _, [], d => (true, d)
  | fuel + 1, (i, off, len, v, red, poison) :: rest, d =>
    match d.collAt id with
    | none => (true, d)
    | some x =>
      match x.plan.recvs[i]? with
      | none => (true, d)
      | some rv =>
        if !x.turn rv off len then
          Dev.collTake id fuel rest (d.setColl { x with early := x.early ++ [(i, off, len, v, red, poison)] })
        else
          let r := Dev.applyLines x red rv.dst poison (len / 128) (rv.loc + (off - rv.off)) v d
          if !r.1 then (false, r.2.2)
          else
            let x' := { x with got := FMap.set x.got i (FMap.get x.got [] i ++ [off]), poison := x.poison || r.2.1, early := [] }
            Dev.collTake id fuel (rest ++ x.early) (r.2.2.setColl x')

/-! ### Received packets (R427) -/

def collStepOf (f : Fft) : Nat := f.aux / 2 ^ 12 % 2 ^ 12

/-- The running collective a packet belongs to. -/
def Dev.collFor (d : Dev) (f : Fft) : Option Coll :=
  d.colls.find? (fun x => x.uses f.dstConn && x.seq % 256 == f.aux / 2 ^ 24 % 256)

/-- What a COLL_DATA packet does. -/
def collAct (r : Rx) (f : Fft) (d : Dev) : (Bool × Bool) × Dev :=
  let drop := fun (d : Dev) => ((false, false), d.dropFrame r.port 2)
  match d.collFor f with
  | none => drop d
  | some x =>
    if f.aux / 2 ^ 5 % 4 ≠ x.red ∨ f.aux / 2 ^ 3 % 4 ≠ x.dtype then drop (d.collFail x 3 (x.rankOf f.dstConn))
    else
      let rank := x.rankOf f.dstConn
      if collStepOf f = 0xFFF then ((true, false), d.setColl { x with ready := x.ready ++ [rank] })
      else
        match x.recvOf (collStepOf f) rank f.rda with
        | none => drop d
        | some i =>
          let t := Dev.collTake x.id (x.early.length * (x.early.length + 2) + 2) [(i, f.rda, f.len, f.payload, f.aux.testBit 7, fftFlag f 4)] d
          if t.1 then ((true, fftFlag f 4), t.2)
          else
            match t.2.collAt x.id with
            | some y => ((false, false), t.2.collFail y 5 rank)
            | none => ((false, false), t.2)

/-- A COLL_DATA packet that is, or is not, a READY. -/
def collData (ready : Bool) (r : Rx) (f : Fft) (d : Dev) : Dev :=
  if decide (collStepOf f = 0xFFF) != ready then d
  else
    let id := (d.collFor f).map Coll.id
    let d := d.rxSeq r f 20 (collAct r f) false
    match id with | some i => d.collPump i | none => d

def execCollData (r : Rx) (f : Fft) (s : State) : Out := act s (collData false r f)
def execCollReady (r : Rx) (f : Fft) (s : State) : Out := act s (collData true r f)

/-! ### Queues and starts (R420, R423, R424) -/

def collKey (h p : Nat) : Nat := h * 64 + p
def Dev.collIdx (d : Dev) (h p : Nat) : Nat × Nat := FMap.get d.collQ (0, 0) (collKey h p)
def Dev.setCollIdx (d : Dev) (h p : Nat) (v : Nat × Nat) : Dev := { d with collQ := FMap.set d.collQ (collKey h p) v }

def Dev.collSlot (d : Dev) (h p i : Nat) : Nat :=
  d.rd COLL_Qp_LO.DA h p + d.rd COLL_Qp_HI.DA h p * 2 ^ 32 + 64 * (i % 2 ^ d.rd COLL_Qp_HI.LOG2 h p)

/-- A writer is inside a partition: programs and virtual functions have one, physical functions are not checked. -/
def Dev.writerIn (d : Dev) (who : Requester) (p t : Nat) : Bool × Dev :=
  match who with
  | .core c => (d.corePart c == some p, d)
  | .fn f => if f < 2 then (true, d) else let e := d.tenantEntry t; (e.1.any (fun v => tenPart v == p), e.2)
  | .queue _ _ => let e := d.tenantEntry t; (e.1.any (fun v => tenPart v == p), e.2)
  | _ => (true, d)

/-- The group DA of a descriptor. -/
def collGroup (desc : Nat) : Nat := word32 desc 8 / 64 * 64 + word32 desc 9 % 2 ^ 16 * 2 ^ 32

/-- A write of COLL_Qp_DB. -/
def Dev.collDoorbell (d : Dev) (h p : Nat) (who : Requester) (v : Nat) : Dev :=
  let ix := d.collIdx h p
  let desc := d.engRead h (d.collSlot h p ix.1) 64
  let g := desc.2.engRead h (collGroup desc.1.val) 4
  let tenant := g.1.val % 2 ^ 12
  let a := g.2.writerIs who tenant
  let b := a.2.writerIn who p tenant
  if !a.1 || !b.1 then b.2.wr COLL_STAT.DB_LOST 1 h
  else
    let r := ringAhead (b.2.rd COLL_Qp_IDX.CI h p) v (b.2.rd COLL_Qp_HI.LOG2 h p)
    (if r.2 then b.2.noteClamp (COLL_Qp_DB.addr h p 0) else b.2).setCollIdx h p (r.1, ix.2)

def execCollDoorbell (h p : Nat) (who : Requester) (v : Nat) (s : State) : Out :=
  act s (fun d => d.collDoorbell (h % 2) (p % 64) who v)

/-- The algorithm that a descriptor and its group take; none for one that R424 forbids. -/
def collAlg (op algo n size treeMax : Nat) : Option Nat :=
  if n = 0 then none
  else if algo = 0 then
    (if op = 6 then some 3
     else if op = 4 ∨ op = 5 ∨ op = 7 then some 2
     else if size * 128 ≤ 2 ^ treeMax then some 2 else some 1)
  else if algo = 3 then (if op = 6 ∨ op = 3 then some 3 else none)
  else if op = 6 then none
  else some algo

/-- A field of the descriptor, or of its group, breaks R421 to R426. -/
def Coll.bad (x : Coll) : Bool :=
  let w := word32 x.desc
  decide (8 ≤ x.op) || (if x.op = 7 then x.size != 0 else x.size == 0) || decide (w 1 / 2 ^ 24 ≠ 0) ||
  decide (w 2 % 128 ≠ 0) || decide (w 4 % 128 ≠ 0) || decide (w 3 / 2 ^ 16 ≠ 0) || decide (w 5 / 2 ^ 16 ≠ 0) ||
  (x.segLog2 != 0 && (decide (x.segLog2 < 12) || decide (26 < x.segLog2))) || decide (w 8 % 64 ≠ 0) ||
  decide (x.desc / 2 ^ 352 % 2 ^ 160 ≠ 0) || x.red == 3 || x.dtype == 3 || (x.dtype == 2 && x.red != 0) ||
  x.n == 0 || decide (64 < x.n) || decide (x.n ≤ x.rank) ||
  ((x.op == 4 || x.op == 5) && decide (x.n ≤ x.root)) || word32 x.group 0 / 2 ^ 20 % 64 != x.part

/-- Rank `r` in the bank active in half `h`: its device ID, when VALID (R398). -/
def Dev.rankDev (d : Dev) (h p r : Nat) : Option Nat :=
  if r % 2 = 0 then (if d.bankBit h FAB_RANKp_i.VALID0 0 p (r / 2) then some (d.bankRd h FAB_RANKp_i.DEV0 0 p (r / 2)) else none)
  else (if d.bankBit h FAB_RANKp_i.VALID1 0 p (r / 2) then some (d.bankRd h FAB_RANKp_i.DEV1 0 p (r / 2)) else none)

/-- The connection to rank `r` belongs to the group. -/
def Dev.rankConn (d : Dev) (x : Coll) (r : Nat) : Bool :=
  let k := d.conn (x.conn r)
  connHalf (x.conn r) == x.half && d.rankDev x.half x.part r == some k.peerDev && k.tenant == x.tenant && k.part == x.part

/-- Why a rank fails the checks of R423: BAD_DESC for a connection of another half, device, tenant or partition. -/
def Dev.rankFault (d : Dev) (x : Coll) (r : Nat) : Option Nat :=
  match d.rankDev x.half x.part r with
  | none => some 9
  | some dev =>
    let k := d.conn (x.conn r)
    if connHalf (x.conn r) ≠ x.half then some 4
    else if k.st ≠ 2 then some 9
    else if k.peerDev ≠ dev ∨ k.tenant ≠ x.tenant ∨ k.part ≠ x.part then some 4
    else if d.rd FAB_PEERd.STATE 0 dev ≠ 2 then some 9
    else none

/-- A collective ends before it runs: connections of its group abort with cause LOCAL. -/
def Dev.collReject (d : Dev) (x : Coll) (status rank : Nat) : Dev :=
  let cs := (x.others.filter (d.rankConn x)).map x.conn
  (d.collEnd x status rank).abortMany (cs.map (fun c => (c, 1, true, 1, 0)))

/-- Granules of a send. -/
def granules (len : Nat) : Nat := max 1 ((len + 65535) / 65536)

/-- A checked collective starts: local copies, READY to every rank it receives from, then what may go. -/
def Dev.collGo (d : Dev) (x : Coll) : Dev :=
  let pl := x.plan
  let sends := (List.range pl.sends.length).filter (fun i => (pl.sends[i]?).any (fun s => s.len != 0 || x.op == 7))
  let x := { x with todo := sends.flatMap (fun i => (List.range (granules ((pl.sends[i]?).map CSend.len |>.getD 0))).map (fun g => (i, g))) }
  let d := ({ d with colls := d.colls ++ [x] }).noteActive x.half
  let c := Dev.copyAll x pl.pre d
  if !c.1 then c.2.2.collFail x 5 x.rank
  else
    let d := if c.2.1 then c.2.2.setColl { x with poison := true } else c.2.2
    let from' := (pl.recvs.map CRecv.rank).eraseDups
    let d := from'.foldl (fun d r =>
      (d.queuePkts (x.conn r) [{ TxPkt.blank 20 with coll := some x.id, aux := x.aux 0xFFF false }]).pump (x.conn r)) d
    d.collPump x.id

/-- The engine of half `h` takes the next descriptor of queue `p` when its OP is of the row's kind (R420, R423). -/
def collStart (kind : Nat → Bool) (h p : Nat) (d : Dev) : Dev :=
  let ix := d.collIdx h p
  let lg := d.rd COLL_Qp_HI.LOG2 h p
  let running := d.colls.filter (fun x => x.half == h)
  let mine := (running.filter (fun x => x.part == p)).length
  let room := decide ((d.rd COLL_Qp_IDX.CQ_PI h p + mine + 2 ^ 16 - d.rd COLL_Qp_CQ_CI.CQ_CI h p) % 2 ^ 16 < 2 ^ lg)
  if !d.bit COLL_CTRL.EN h || ix.1 == ix.2 || !room then d
  else
    let q := d.engRead h (d.collSlot h p ix.2) 64
    let desc := q.1.val
    let gda := collGroup desc
    if !kind (word32 desc 0 / 2 ^ 28) then d
    else if word32 desc 0 / 2 ^ 28 ≠ 0 ∧
      (64 ≤ running.length ∨ 8 ≤ (running.filter (fun x => collGroup x.desc == gda)).length) then d
    else
      let d := q.2.setCollIdx h p (ix.1, (ix.2 + 1) % 2 ^ 16)
      let x : Coll :=
        { id := d.collN, half := h, part := p, slot := ix.2, desc := desc, group := 0, devs := [], alg := 0, seq := 0,
          ready := [], todo := [], got := [], early := [], poison := false }
      let d := { d with collN := d.collN + 1 }
      if word32 desc 0 / 2 ^ 28 = 0 then
        -- a NOP does nothing but complete
        let d := d.add COLL_Qp_IDX.CI 1 h p
        if x.cqe then d.collRecord x 0 0 else d
      else
        let a := d.allowed h p gda 256 true
        if !a.1 then a.2.collEnd x 5 0
        else
          let g := a.2.engRead h gda 256
          let x := { x with group := g.1.val, seq := word32 g.1.val 33 }
          let d := g.2.engWrite h (gda + 132) 4 ((word32 g.1.val 33 + 1) % 2 ^ 32)
          if d.bit FAB_AGREE_STAT.DEPARTED_SELF then d.collReject x 7 x.rank
          else
            match (if x.bad then none else collAlg x.op x.algo x.n x.size (d.rd COLL_CTRL.TREE_MAX_LOG2 h)) with
            | none => d.collReject x 4 x.rank
            | some alg =>
              let x := { x with alg := alg, devs := (List.range x.n).map (fun r => (d.rankDev h p r).getD 1024) }
              match (x.others.filterMap (fun r => (d.rankFault x r).map (fun st => (st, r)))).head? with
              | some (st, r) => d.collReject x st r
              | none => d.collGo x

def execAllreduce (h p : Nat) (s : State) : Out := act s (collStart (fun o => o == 1) (h % 2) (p % 64))
def execReduceScatter (h p : Nat) (s : State) : Out := act s (collStart (fun o => o == 2) (h % 2) (p % 64))
def execAllgather (h p : Nat) (s : State) : Out := act s (collStart (fun o => o == 3) (h % 2) (p % 64))
def execBroadcast (h p : Nat) (s : State) : Out := act s (collStart (fun o => o == 4) (h % 2) (p % 64))
def execReduce (h p : Nat) (s : State) : Out := act s (collStart (fun o => o == 5) (h % 2) (p % 64))
def execAlltoall (h p : Nat) (s : State) : Out := act s (collStart (fun o => o == 6) (h % 2) (p % 64))
def execCollBarrier (h p : Nat) (s : State) : Out := act s (collStart (fun o => o == 7) (h % 2) (p % 64))
/-- A NOP; a reserved OP completes BAD_DESC. -/
def execCollNop (h p : Nat) (s : State) : Out := act s (collStart (fun o => o == 0 || decide (8 ≤ o)) (h % 2) (p % 64))

/-! ### Completion (R428) -/

/-- The collective has every byte it receives, and every packet it sent is acknowledged. -/
def Dev.collDone (d : Dev) (x : Coll) : Bool :=
  x.todo.isEmpty &&
  (List.range x.plan.recvs.length).all (fun i => (x.plan.recvs[i]?).all (fun v => x.gotSpan i v.off (v.off + v.len))) &&
  x.conns.all (fun c => (d.conn c).txq.all (fun p => p.acked || p.coll != some x.id))

def collComplete (id : Nat) (d : Dev) : Dev :=
  match d.collAt id with
  | none => d
  | some x =>
    if !d.collDone x then d
    else
      let c := Dev.copyAll x x.plan.post d
      if !c.1 then c.2.2.collFail x 5 x.rank
      else c.2.2.collEnd x (if x.poison || c.2.1 then 6 else 0) x.rank

def execCollComplete (id : Nat) (s : State) : Out := act s (collComplete id)

/-! ### Curtains (R441) -/

/-- A tenant Curtain ends the tenant's collectives with TENANT_RESET. -/
def Dev.collTenant (d : Dev) (t : Nat) : Dev :=
  (d.colls.filter (fun x => x.tenant == t)).foldl (fun d x => d.collEnd x 8 x.rank) d

/-- A partition Curtain empties the partition's queues and ends its collectives without records. -/
def Dev.collPart (d : Dev) (p : Nat) : Dev :=
  let d := (d.colls.filter (fun x => x.part == p)).foldl (fun d x => d.collEnd x 2 x.rank false) d
  [0, 1].foldl (fun d h =>
    let ix := d.collIdx h p
    (d.wr COLL_Qp_IDX.CI ix.1 h p).setCollIdx h p (ix.1, ix.1)) d

end Sys2Proof.Machine
end

