-- ==== Sys2Proof/Machine/Messages.lean ====
section
/-! DEFINITION. Messages between cores (R100-R102, R329-R333) and mesh links that go down (R312). -/
namespace Sys2Proof.Machine
open Sys2Proof

/-- The header of a received message (R101). -/
def Msg.header (m : Msg) : Nat := m.tag * 2 ^ 24 + (m.len / 8 - 1) * 2 ^ 16 + m.src

/-! ### Failures (R330) -/

/-- Message `i` of core `c`'s send queue fails with a cause: it leaves the queue, is counted, and may trap. -/
def Dev.msgFail (d : Dev) (c i cause : Nat) : Dev :=
  match (d.core c).sendq[i]? with
  | none => d
  | some m =>
    let d := d.updCore c (fun k => { k with sendq := delNth k.sendq i })
    let d := d.addSat CORE_MSG_FAIL_CNT.COUNT 1 c
    let d := if d.bit CORE_MSG_STAT.FAIL_SEEN c then d
      else ((d.wr CORE_MSG_FAIL.CAUSE cause c).wr CORE_MSG_FAIL.TAG m.tag c).wr CORE_MSG_FAIL.DEST m.dst c
    let d := d.wr CORE_MSG_STAT.FAIL_SEEN 1 c
    if d.bit CORE_MSG_CTRL.FAIL_TRAP c then d.unitFault c 0x701 m.pcIdx else d

/-! ### Instructions (R101, R102) -/

def msendStep (c : Nat) (d : Dev) : Dev :=
  d.issue c (isOpFn 0x10 0) (fun d w => d.checked c w (regsOk w false true true && immBelow w 13) (fun d =>
    let dst := (d.sreg c (raOf w)).toNat
    let a := (d.sreg c (rbOf w)).toNat
    let n := (W64.bits w 12 8 + 1) * 8
    if a % 8 ≠ 0 then d.trap c 4 a
    else if 2 ^ 20 ≤ a ∨ spanOk a n = false then d.trap c 3 a
    else if 4096 ≤ dst then d.trap c 9 dst
    else if d.lbad c a n then d.dataUe c a 1
    else if 8 ≤ (d.core c).sendq.length then d
    else
      let m : Msg :=
        { dst := dst, src := c, tenant := d.rd CORE_SEQ_TENANT.TENANT c, tag := W64.bits w 7 0, len := n,
          data := bytesOf (d.lrd c a n) n, phase := .queued, tries := 0, pcIdx := d.pc c }
      let i := (d.core c).sendq.length
      let d := ((d.countLce c a n).updCore c (fun k => { k with sendq := k.sendq ++ [m] })).retire c
      -- a receiver outside the sender's partition is found here, and nothing is sent
      if (d.corePart c).isNone ∨ d.corePart c ≠ d.corePart dst then d.msgFail c i 2 else d))

def execMsend (c : Nat) (s : State) : Out := act s (msendStep c)

/-- The payload of the oldest message is copied and rd set to its header. -/
def recvStep (fn c : Nat) (d : Dev) : Dev :=
  d.issue c (isOpFn 0x10 fn) (fun d w => d.checked c w (regsOk w true true false && immOf w == 0) (fun d =>
    let a := (d.sreg c (raOf w)).toNat
    if a % 8 ≠ 0 then d.trap c 4 a
    else
      match (d.core c).recvq with
      | [] => if fn = 1 then d.sleep c true else (d.setS c (rdOf w) (BitVec.allOnes 64)).retire c
      | m :: rest =>
        if 2 ^ 20 ≤ a ∨ spanOk a m.len = false then d.trap c 3 a
        else
          let v := m.data.foldr (fun b x => b.toNat + 256 * x) 0
          let d := (d.lwr c a m.len v).updCore c (fun k => { k with recvq := rest })
          (d.setS c (rdOf w) (BitVec.ofNat 64 m.header)).retire c))

def execMrecv (c : Nat) (s : State) : Out := act s (recvStep 1 c)
def execMpoll (c : Nat) (s : State) : Out := act s (recvStep 2 c)

/-! ### Delivery (R329) -/

def Dev.setMsg (d : Dev) (c i : Nat) (p : MsgPhase) (tries : Nat) : Dev :=
  d.updCore c (fun k =>
    match k.sendq[i]? with
    | some m => { k with sendq := setNth k.sendq i { m with phase := p, tries := tries } }
    | none => k)

/-- Message `i` of core `src` is sent and reaches its receiver, which answers. Earlier messages to the same receiver go
first. `ue` says that the send-queue slot held an uncorrectable error (R330). -/
def msgArrive (src i : Nat) (ue : Bool) (d : Dev) : Dev :=
  match (d.core src).sendq[i]? with
  | none => d
  | some m =>
    if m.phase != .queued || ((d.core src).sendq.take i).any (fun e => e.dst == m.dst) then d
    else if ue then (d.err 2 0 (unitCore src 11 0) 0).msgFail src i 6
    else if d.meshLost (coreCluster src) (coreCluster m.dst) then d.msgFail src i 5
    else
      let dst := d.seenAt (coreHalf src) (coreCluster m.dst) * 16 + m.dst % 16
      if !d.coreEnabled dst then d.setMsg src i (.failing 1) m.tries
      else if 32 ≤ (d.core dst).recvq.length || d.coreCurtained dst then d.setMsg src i .nacked m.tries
      else if d.rd CORE_SEQ_TENANT.TENANT dst ≠ m.tenant then d.setMsg src i (.failing 3) m.tries
      else
        let d := d.updCore dst (fun k => { k with recvq := k.recvq ++ [m] })
        (d.add CORE_MSG_RCVD.COUNT 1 dst).setMsg src i .acked m.tries

def execMsgArrive (src i : Nat) (ue : Bool) (s : State) : Out := act s (msgArrive src i ue)

/-- Apply `f` to message `i` of core `c` when it stands at the phase. -/
def Dev.msgAt (d : Dev) (c i : Nat) (p : MsgPhase) (f : Msg → Dev → Dev) : Dev :=
  match (d.core c).sendq[i]? with
  | some m => if m.phase == p then f m d else d
  | none => d

/-- ACK: the slot is free. -/
def execMsgAck (c i : Nat) (s : State) : Out :=
  act s (fun d => d.msgAt c i .acked (fun _ d =>
    (d.updCore c (fun k => { k with sendq := delNth k.sendq i })).add CORE_MSG_SENT.COUNT 1 c))

/-- NACK FULL: the message waits for BACKOFF. -/
def execMsgNack (c i : Nat) (s : State) : Out :=
  act s (fun d => d.msgAt c i .nacked (fun m d =>
    (d.setMsg c i .backoff (m.tries + 1)).add CORE_MSG_NACKS.COUNT 1 c))

/-- BACKOFF has passed: sent again, or, after RETRY_LIMIT sends answered NACK FULL, failed. -/
def execMsgBackoffExpiry (c i : Nat) (s : State) : Out :=
  act s (fun d => d.msgAt c i .backoff (fun m d =>
    if d.rd CORE_MSG_CTRL.RETRY_LIMIT c ≤ m.tries then d.msgFail c i 4 else d.setMsg c i .queued m.tries))

/-- The answer that the receiver is not ENABLED, or runs another tenant. -/
def execMsgFailReply (c i : Nat) (s : State) : Out :=
  act s (fun d =>
    match (d.core c).sendq[i]? with
    | some m => (match m.phase with | .failing cause => d.msgFail c i cause | _ => d)
    | none => d)

/-- A core Curtain empties both queues (R331). -/
def Dev.msgCurtain (d : Dev) (c : Nat) : Dev := d.updCore c (fun k => { k with sendq := [], recvq := [] })

/-! ### A link goes down (R312) -/

/-- Fail the first message of a core that is on its way over a route that is down. -/
def Dev.failLost (d : Dev) (c : Nat) : Nat → Dev
  | 0 => d
  | fuel + 1 =>
    match (d.core c).sendq.zipIdx.find? (fun e =>
      e.1.phase == .queued && d.meshLost (coreCluster c) (coreCluster e.1.dst)) with
    | some e => Dev.failLost (d.msgFail c e.2 5) c fuel
    | none => d

/-- The 32nd consecutive resend on link `l` of router `g` fails: both ends read DOWN, a LOST record is written, and
messages whose route needs the link fail. Requests on their way complete LOST where each unit's own row looks for the
route. -/
def meshLinkDown (g l : Nat) (d : Dev) : Dev :=
  if !linkExists g l || d.linkDown g l then d
  else
    let d := (d.linkGoesDown g l).err 4 9 (unitCluster g 14 l) 0
    d.cores.foldl (fun d e => d.failLost e.1 8) d

def execMeshLinkDown (g l : Nat) (s : State) : Out := act s (meshLinkDown g l)

end Sys2Proof.Machine
end

