-- ==== Sys2Proof/Machine/Pim.lean ====
section
/-! DEFINITION. Near-bank compute in layers L6 and L7: ports, bank registers, commands, dispatch and completion
(R217-R243). -/
namespace Sys2Proof.Machine
open Sys2Proof

/-! ### Fields (R224, R225, R228, R230) -/

def PimJob.op (j : PimJob) : Nat := opOf j.word
def PimJob.fn (j : PimJob) : Nat := fnOf j.word

/-- The bank mask, first register and count of a register command. -/
def pimBanks (w : W64) : Nat := W64.bits w 15 0
def pimV (w : W64) : Nat := W64.bits w 18 16
def pimN (w : W64) : Nat := W64.bits w 21 19 + 1
def pimKindA (w : W64) : Bool := W64.bits w 22 22 == 1

/-- Fields of the shape register of PDOT and PCOL. -/
def shStride (v : Nat) : Nat := v / 2 ^ 32 % 2 ^ 16
def shCue (v : Nat) : Nat := v / 2 ^ 48 % 2 ^ 14
def shCuev (v : Nat) : Bool := v / 2 ^ 63 % 2 == 1
def shRows (v : Nat) : Nat := v % 2 ^ 16
def shG (v : Nat) : Nat := v / 2 ^ 16 % 8 + 1
def shH (v : Nat) : Nat := v / 2 ^ 19 % 2 + 1

/-- The row pitch is 1 to 16,384 words. -/
def strideOk (v : Nat) : Bool := decide (1 ≤ shStride v) && decide (shStride v ≤ 16384)

/-- The field rules of an instruction word (R84). -/
def pimFieldsOk (w : W64) : Bool :=
  let imm := immOf w
  match opOf w, fnOf w with
  | 0x34, 0 => regsOk w false true true && pimBanks w != 0 && decide (pimV w + pimN w ≤ 8) && immBelow w 22
  | 0x34, 1 => regsOk w false true true && pimBanks w == 0 && immBelow w 23 &&
      decide (pimV w + pimN w ≤ (if pimKindA w then 2 else 8))
  | 0x34, _ => regsOk w false true false && pimBanks w != 0 && immBelow w 16
  | 0x35, _ => regsOk w true true true && decide (rdOf w < 16) && immBelow w 3
  | 0x36, _ => regsOk w false true true && immBelow w 6 && decide (imm % 8 + (imm / 8 + 1) ≤ 8)
  | _, 0 => regsOk w false true false && imm == 0
  | _, _ => regsOk w false false false && imm == 0

/-- The rules of the shape register in RB, checked after the descriptor (R98, R225, R228). -/
def pimShapeOk (w : W64) (rb : Nat) : Bool :=
  if opOf w = 0x35 then decide (immOf w + shH rb * shG rb ≤ 8) && rb / 2 ^ 62 % 2 == 0 && rb / 2 ^ 20 % 2 ^ 12 == 0 &&
    decide (1 ≤ shRows rb) && strideOk rb
  else if opOf w = 0x36 then rb % 2 ^ 32 == 0 && rb / 2 ^ 62 % 2 == 0 && strideOk rb
  else true

/-- Bytes a PWR or PRD moves. -/
def pimBytes (w : W64) : Nat := if fnOf w = 1 ∧ pimKindA w then 64 * pimN w else 32 * pimN w

/-- A misaligned address at issue (R231): its value. -/
def pimMisaligned (w : W64) (ra rb : Nat) : Option Nat :=
  match opOf w, fnOf w with
  | 0x34, 2 => none
  | 0x34, _ => if rb % 32 ≠ 0 then some rb else none
  | 0x35, _ => if ra % 32 ≠ 0 then some ra else none
  | 0x36, _ => if ra % 2 ≠ 0 then some ra else none
  | _, _ => none

/-- Issue of a near-bank command (R222, R231): the port holds 16. -/
def pimIssue (op fn c : Nat) (d : Dev) : Dev :=
  d.issue c (isOpFn op fn) (fun d w =>
    let ra := (d.sreg c (raOf w)).toNat
    let rb := (d.sreg c (rbOf w)).toNat
    d.checked c w (pimFieldsOk w) (fun d =>
      let dd := d.desc c (rdOf w)
      let dot := op == 0x35
      match (if dot then descTrap w [dd] else none) with
      | some t => d.trap c t.1 t.2
      | none =>
        if !pimShapeOk w rb || dot && !(decide (dd.format ≤ 1) && dd.size == shRows rb * shH rb) then d.illegal c w
        else
          match pimMisaligned w ra rb with
          | some a => d.trap c 4 a
          | none =>
            if op = 0x34 ∧ fn < 2 ∧ (2 ^ 20 ≤ rb ∨ spanOk rb (pimBytes w) = false) then d.trap c 3 rb
            else if 16 ≤ (d.core c).pimq.length then d
            else
              let job : PimJob :=
                { word := w, pcIdx := d.pc c, ra := ra, rb := rb, dd := d.descBits c (rdOf w), phase := .queued,
                  arr := 0, start := 0 }
              (d.updCore c (fun k => { k with pimq := k.pimq ++ [job] })).retire c))

def execPwr (c : Nat) (s : State) : Out := act s (pimIssue 0x34 0 c)
def execPrd (c : Nat) (s : State) : Out := act s (pimIssue 0x34 1 c)
def execPclr (c : Nat) (s : State) : Out := act s (pimIssue 0x34 2 c)
def execPdot (c : Nat) (s : State) : Out := act s (pimIssue 0x35 0 c)
def execPcol (c : Nat) (s : State) : Out := act s (pimIssue 0x36 0 c)
def execPmark (c : Nat) (s : State) : Out := act s (pimIssue 0x37 0 c)
def execPfence (c : Nat) (s : State) : Out := act s (pimIssue 0x37 1 c)

/-! ### Where a command acts -/

/-- The DA in RA. -/
def PimJob.da (j : PimJob) : Nat := (daOf j.ra).getD 0

/-- A memory DA in L6 or L7. -/
def pimDaOk (v : Nat) : Bool :=
  match daOf v with
  | some da => daBacked da && decide (0x4800000 ≤ daOff da)
  | none => false

/-- Number of a near-bank unit within its slice, (layer - 6) · 16 + bank. -/
def pimUnitOf (da : Nat) : Nat := (daOff da - 0x4800000) / 0x80000

/-- PDOT and PCOL make a bank PIM-active (R233). -/
def PimJob.active (j : PimJob) : Bool := j.op == 0x35 || j.op == 0x36

/-- The units a command acts on. -/
def PimJob.units (j : PimJob) : List Nat :=
  if j.op = 0x37 then []
  else if j.op = 0x34 ∧ j.fn ≠ 1 then
    ((List.range 16).filter (fun b => (pimBanks j.word).testBit b)).map (fun b => pimUnitOf j.da / 16 * 16 + b)
  else [pimUnitOf j.da]

/-- Elements of a PCOL. -/
def PimJob.elems (j : PimJob) : Nat := 16 * (immOf j.word / 8 + 1)

/-- Stretches of memory a PDOT or PCOL touches: start and length of each row or element. -/
def PimJob.spans (j : PimJob) : List (Nat × Nat) :=
  if j.op = 0x35 then (List.range (shRows j.rb)).map (fun r => (j.da + 32 * shStride j.rb * r, 32 * shG j.rb))
  else if j.op = 0x36 then (List.range j.elems).map (fun e => (j.da + 32 * shStride j.rb * e, 2))
  else []

/-- Every stretch lies in the bank of the first (R225, R228). -/
def PimJob.inBank (j : PimJob) : Bool :=
  j.spans.all (fun s => s.1 / 0x80000 == j.da / 0x80000 && (s.1 + s.2 - 1) / 0x80000 == j.da / 0x80000)

/-- R220: the core's own slice, or an orphan slice of its own, ENABLED, cluster. -/
def Dev.pimReach (d : Dev) (c n : Nat) : Bool :=
  n == c || (coreCluster n == coreCluster c && d.orphan n && d.clusterEnabled (coreCluster c))

/-- Core `c` may command slice `n`; a replay or tiebreak also has the reach of its primary (R480). -/
def Dev.pimSliceOk (d : Dev) (c n : Nat) : Bool :=
  d.pimReach c n || ((FMap.find d.chkRuns c).bind ChkRun.primary).any (fun p => d.pimReach p n)

/-- The lines of the stretches, or of the address itself, for partition protection. -/
def PimJob.lines (j : PimJob) : List Nat :=
  if j.spans = [] then [j.da / 128]
  else (j.spans.flatMap (fun s => (List.range ((s.1 + s.2 - 1) / 128 - s.1 / 128 + 1)).map (fun k => s.1 / 128 + k))).eraseDups

/-- PDOT and PRD read; the others write. -/
def PimJob.writes (j : PimJob) : Bool := !(j.op == 0x35 || (j.op == 0x34 && j.fn == 1))

/-- The check at dispatch (R232): the fault code that discards the command. -/
def Dev.pimCheck (d : Dev) (c : Nat) (j : PimJob) : Option Nat × Dev :=
  if j.op = 0x37 then (none, d)
  else if !pimDaOk j.ra || !d.pimSliceOk c (daCore j.da) || !j.inBank then (some 0x501, d)
  else
    let r := j.lines.foldl (fun a l =>
      let p := if j.op = 0x36 then Dev.protCore a.2 c (l * 128) true
               else Dev.prot a.2 (coreHalf c) (Dev.corePart a.2 c) (l * 128) j.writes
      (a.1 && p.1, p.2)) (true, d)
    if !r.1 then (some 0x504, r.2)
    else if d.sliceLost (daCore j.da) then (some 0x505, r.2)
    else (none, r.2)

/-- Every near-bank command of every port, with its core. -/
def Dev.pimJobs (d : Dev) : List (Nat × PimJob) := d.cores.flatMap (fun e => e.2.pimq.map (fun j => (e.1, j)))

/-- A command occupies its bank. -/
def PimJob.started (j : PimJob) : Bool := j.phase == .running || j.phase == .paused

/-- PIM-active banks of a layer (0 for L6, 1 for L7) of slice `n` (R233). -/
def Dev.pimActive (d : Dev) (n layer : Nat) : Nat :=
  (d.pimJobs.filter (fun e => e.2.phase == .running && e.2.active && daCore e.2.da == n &&
    pimUnitOf e.2.da / 16 == layer)).length

/-- The effective bank cap of slice `n` (R233). -/
def Dev.pimCap (d : Dev) (n : Nat) : Nat :=
  min 4 (min (d.rd CORE_SLC_PIM_CTRL.WIN_BANKS n) (d.rd CORE_SLC_PIM_STAT.GOV_BANKS n))

/-- The slice has room in the layer of a command for one more PIM-active bank. -/
def Dev.pimRoom (d : Dev) (j : PimJob) : Bool :=
  !j.active || decide (d.pimActive (daCore j.da) (pimUnitOf j.da / 16) < d.pimCap (daCore j.da))

/-- Two commands act on a common bank. -/
def PimJob.meets (a b : PimJob) : Bool := daCore a.da == daCore b.da && a.units.any (fun u => b.units.contains u)

/-- Command `i` of core `c` may leave its port (R222, R230): commands dispatch in issue order, and none passes a PFENCE.
PMARK and PFENCE wait for every earlier command. -/
def Dev.pimOrder (d : Dev) (c i : Nat) (j : PimJob) : Bool :=
  let before := (d.core c).pimq.take i
  before.all (fun b => b.phase != .queued || b.op == 0x37) && !before.any (fun b => b.op == 0x37 && b.fn == 1) &&
  (j.op != 0x37 || i == 0)

def Dev.setPim (d : Dev) (c i : Nat) (j : PimJob) : Dev := d.updCore c (fun k => { k with pimq := setNth k.pimq i j })

/-- Commands in the queue of slice controller `n`. -/
def Dev.pimHeld (d : Dev) (n : Nat) : Nat :=
  (d.pimJobs.filter (fun e => e.2.phase == .waiting && daCore e.2.da == n)).length

/-- The controller of an orphan slice holds 16 commands (R221). -/
def Dev.pimFull (d : Dev) (j : PimJob) : Bool := d.orphan (daCore j.da) && decide (16 ≤ d.pimHeld (daCore j.da))

/-- A command that arrived earlier at one of the banks of `j` has not completed (R221, R222). -/
def Dev.pimBehind (d : Dev) (j : PimJob) : Bool :=
  d.pimJobs.any (fun e => (e.2.started || e.2.phase == .waiting) && decide (e.2.arr < j.arr) && e.2.meets j)

/-- The next number in the order of arrivals and starts at slice `n`. -/
def Dev.pimTick (d : Dev) (n : Nat) : Nat × Dev :=
  ((d.slice n).pimSeq, d.updSlice n (fun k => { k with pimSeq := k.pimSeq + 1 }))

/-! ### Bank registers (R218, R219) -/

def Dev.pimUnit (d : Dev) (n u : Nat) : PimUnit := FMap.get (d.slice n).pim PimUnit.init u
def Dev.setPimUnit (d : Dev) (n u : Nat) (x : PimUnit) : Dev :=
  d.updSlice n (fun k => { k with pim := FMap.set k.pim u x })

/-- The registers of the unit for a command of a tenant: those of another tenant are cleared first. -/
def Dev.pimOwn (d : Dev) (n u tenant : Nat) : Dev :=
  if (d.pimUnit n u).tenant = some tenant then d
  else (d.setPimUnit n u { tenant := some tenant, v := [], a := [] }).wr CORE_SLC_PIM_STAT.TENANT_CLR 1 n

/-- A waiting command starts in its banks once nothing earlier is there and the cap leaves room; its units pass to the
tenant of its core first (R219, R222, R233). -/
def Dev.pimStart (d : Dev) (c i : Nat) (j : PimJob) : Dev :=
  if d.pimBehind j || !d.pimRoom j then d
  else
    let n := daCore j.da
    let d := j.units.foldl (fun d u => d.pimOwn n u (d.rd CORE_SEQ_TENANT.TENANT c)) d
    let t := d.pimTick n
    t.2.setPim c i { j with phase := .running, start := t.1 }

/-- Command `i` of core `c`'s port is dispatched: it is checked, and joins its slice controller's queue or is discarded. A
command that already waits there starts when it may. -/
def pimDispatch (c i : Nat) (d : Dev) : Dev :=
  match (d.core c).pimq[i]? with
  | none => d
  | some j =>
    if j.phase = .waiting then d.pimStart c i j
    else if j.phase != .queued || !d.pimOrder c i j then d
    else if j.op = 0x37 then d.setPim c i { j with phase := .running }
    else if pimDaOk j.ra && d.pimFull j then d
    else
      let r := d.pimCheck c j
      match r.1 with
      | some code =>
        let d := (r.2.err (if code = 0x505 then 4 else 3) code (unitCore c 7 0) (j.ra % 2 ^ 48)).wr CORE_SLC_PIM_STAT.ADDR_SEEN 1 c
        d.setPim c i { j with phase := .discarded code }
      | none =>
        let t := r.2.pimTick (daCore j.da)
        let j := { j with phase := .waiting, arr := t.1 }
        (t.2.setPim c i j).pimStart c i j

def execPimDispatch (c i : Nat) (s : State) : Out := act s (pimDispatch c i)

/-- A paused command resumes when the cap allows it (R234). -/
def pimResume (c i : Nat) (d : Dev) : Dev :=
  match (d.core c).pimq[i]? with
  | some j => if j.phase == .paused && d.pimRoom j then d.setPim c i { j with phase := .running } else d
  | none => d

def execPimResume (c i : Nat) (s : State) : Out := act s (pimResume c i)

/-- The running PDOT or PCOL of a layer of slice `n` that started last, with its place. -/
def Dev.pimLatest (d : Dev) (n layer : Nat) : Option (Nat × Nat × PimJob) :=
  (d.cores.flatMap (fun e => e.2.pimq.zipIdx.map (fun x => (e.1, x.2, x.1)))).foldl (fun m x =>
    if x.2.2.phase == .running && x.2.2.active && daCore x.2.2.da == n && pimUnitOf x.2.2.da / 16 == layer &&
        m.all (fun y => decide (y.2.2.start < x.2.2.start)) then some x else m) none

/-- A lowered cap pauses the most recently started commands of slice `n` (R234). -/
def Dev.pimPauseLayer (d : Dev) (n layer : Nat) : Nat → Dev
  | 0 => d
  | fuel + 1 =>
    if d.pimActive n layer ≤ d.pimCap n then d
    else
      match d.pimLatest n layer with
      | some (c, i, j) => Dev.pimPauseLayer (d.setPim c i { j with phase := .paused }) n layer fuel
      | none => d

def Dev.pimPause (d : Dev) (n : Nat) : Dev := (d.pimPauseLayer n 0 16).pimPauseLayer n 1 16

/-! ### Completion -/

def PimUnit.vreg (x : PimUnit) (i : Nat) : Nat := (FMap.get x.v 0 i).toNat
def PimUnit.areg (x : PimUnit) (i : Nat) : Nat := (FMap.get x.a 0 i).toNat

/-- Lane `l` of a V register, as BF16; a lane with a parity error is NaN. `perr` lists (register, lane), A0 and A1 as
registers 8 and 9. -/
def PimUnit.lane (x : PimUnit) (perr : List (Nat × Nat)) (i l : Nat) : Nat :=
  if perr.contains (i, l) then nanCode 1 else x.vreg i / 2 ^ (16 * l) % 2 ^ 16

/-- What a command raises, and the device. -/
structure PimRun where
  codes : List Nat
  dev : Dev
  deriving DecidableEq, Repr

def addCode (l : List Nat) (code : Nat) : List Nat := if l.contains code then l else l ++ [code]

/-- One parity error of a bank register lane that a command used (R241). -/
def Dev.pimRegUe (d : Dev) (n u : Nat) : Dev :=
  ((d.err 2 0x503 (unitCore n 10 u) 0).wr CORE_SLC_PIM_STAT.REG_UE_SEEN 1 n).addSat CORE_SLC_PIM_UE_CNT.COUNT 1 n

/-- The parity errors among the lanes that a command used: each is an error of its own. -/
def Dev.pimRegUes (d : Dev) (n u : Nat) (perr : List (Nat × Nat)) (used : Nat → Bool) : List Nat × Dev :=
  let es := perr.eraseDups.filter (fun e => used e.1)
  (if es.isEmpty then [] else [0x503], es.foldl (fun d _ => d.pimRegUe n u) d)

/-- A write of a unit's registers by a tenant (R219). -/
def Dev.pimWriteUnit (d : Dev) (n u tenant : Nat) (x : PimUnit) : Dev := d.setPimUnit n u { x with tenant := some tenant }

/-- Store a result to local memory. -/
def Dev.pimPut (c : Nat) (d : Dev) (w : Nat × Nat × Nat) : Dev :=
  if w.2.1 < 4 then d.lwrPart c w.1 w.2.1 w.2.2 else d.lwr c w.1 w.2.1 w.2.2

/-- An uncorrectable word that a command read. -/
def Dev.pimDataUe (d : Dev) (n : Nat) : Dev :=
  (d.wr CORE_SLC_PIM_STAT.UE_SEEN 1 n).addSat CORE_SLC_PIM_UE_CNT.COUNT 1 n

/-- PWR: the data crosses once and goes to the registers of every bank of the mask (R224, R221). An uncorrectable granule
of the source gives a free value. -/
def pwrRun (c n : Nat) (j : PimJob) (d : Dev) : PimRun :=
  let tenant := d.rd CORE_SEQ_TENANT.TENANT c
  let d := (d.countLce c j.rb (pimBytes j.word)).countBytes CORE_SLC_WR_BYTES.BYTES n (pimBytes j.word)
  let data := (List.range (pimN j.word)).foldl (fun r i =>
    let a := j.rb + 32 * i
    if Dev.lbad r.2 c a 32 then
      let v := Dev.draw r.2 256
      (r.1 ++ [v.1], v.2)
    else (r.1 ++ [BitVec.ofNat 256 (Dev.lrd r.2 c a 32)], r.2)) (([] : List (BitVec 256)), d)
  { codes := [],
    dev := j.units.foldl (fun d u =>
      let x := d.pimUnit n u
      d.pimWriteUnit n u tenant { x with v := data.1.zipIdx.foldl (fun m y => FMap.set m (pimV j.word + y.2) y.1) x.v }) data.2 }

/-- PRD: registers go to local memory; a lane with a parity error is written as NaN. -/
def prdRun (c n : Nat) (j : PimJob) (perr : List (Nat × Nat)) (d : Dev) : PimRun :=
  let u := pimUnitOf j.da
  let x := d.pimUnit n u
  let regs := (List.range (pimN j.word)).map (fun i => pimV j.word + i)
  let aOf := fun (r l : Nat) => if perr.contains (8 + r, l) then nanCode 0 else x.areg r / 2 ^ (32 * l) % 2 ^ 32
  let used := fun (r : Nat) => if pimKindA j.word then decide (8 ≤ r) && regs.contains (r - 8) else regs.contains r
  let d := d.countBytes CORE_SLC_RD_BYTES.BYTES n (pimBytes j.word)
  let d := regs.zipIdx.foldl (fun d y =>
    if pimKindA j.word then
      (List.range 16).foldl (fun d l => d.lwr c (j.rb + 64 * y.2 + 4 * l) 4 (aOf y.1 l)) d
    else (List.range 8).foldl (fun d l =>
      d.lwr c (j.rb + 32 * y.2 + 4 * l) 4 (x.lane perr y.1 (2 * l) + x.lane perr y.1 (2 * l + 1) * 2 ^ 16)) d) d
  let r := d.pimRegUes n u perr used
  { codes := r.1, dev := r.2 }

def pclrRun (c n : Nat) (j : PimJob) (d : Dev) : PimRun :=
  let tenant := d.rd CORE_SEQ_TENANT.TENANT c
  { codes := [], dev := j.units.foldl (fun d u => d.pimWriteUnit n u tenant { tenant := none, v := [], a := [] }) d }

/-- One word of a row: its lanes as BF16, all NaN when it is uncorrectable or its block is poisoned. -/
structure PimWord where
  lanes : List Num
  ue : Bool
  poison : Bool
  deriving DecidableEq, Repr

def Dev.pimWord (d : Dev) (da : Nat) (poisoned : Bool) : PimWord × Dev :=
  let r := d.readWord da 0 0 0 0x502
  ({ lanes := (List.range 16).map (fun l =>
       if r.1.ue || poisoned then .nan else decodeNum 1 (r.1.val / 2 ^ (16 * l) % 2 ^ 16)),
     ue := r.1.ue, poison := poisoned }, r.2)

/-- The words of the first `rows` rows, each read once (R226). `p0` gives the blocks' check values as they were before. -/
def Dev.pimRows (d : Dev) (j : PimJob) (rows : Nat) : List (List PimWord) × Dev :=
  let p0 := d
  (List.range rows).foldl (fun a r =>
    let row := (List.range (shG j.rb)).foldl (fun b g =>
      let da := j.da + 32 * shStride j.rb * r + 32 * g
      let w := Dev.pimWord b.2 da (p0.poisoned da)
      (b.1 ++ [w.1], w.2)) (([] : List PimWord), a.2)
    (a.1 ++ [row.1], row.2)) (([] : List (List PimWord)), d)

/-- The lane accumulators of a row against register vectors from `v` (R226), as FP32 codes. -/
def pdotAcc (x : PimUnit) (perr : List (Nat × Nat)) (v : Nat) (row : List PimWord) : List Nat :=
  (List.range 16).map (fun l =>
    row.zipIdx.foldl (fun acc y =>
      encodeNum 0 true (Num.add (decodeNum 0 acc)
        (Num.mul (y.1.lanes.getD l .nan) (decodeNum 1 (x.lane perr (v + y.2) l))))) 0)

/-- The first `rows` rows of a PDOT: the results' writes, and the codes and the device without them. A0 and A1 hold the
lane accumulators of the last row. -/
def pdotRead (c n : Nat) (j : PimJob) (perr : List (Nat × Nat)) (rows : Nat) (d : Dev) : List (Nat × Nat × Nat) × PimRun :=
  let u := pimUnitOf j.da
  let vbase := immOf j.word
  let g := shG j.rb
  let rd := d.pimRows j rows
  let x := rd.2.pimUnit n u
  let dd := Desc.ofBits j.dd
  let accs := (List.range (shH j.rb)).map (fun h => rd.1.map (pdotAcc x perr (vbase + h * g)))
  let result := fun (acc : List Nat) =>
    encodeNum dd.format true (decodeNum 0 (encodeNum 0 true (Num.sum (acc.map (decodeNum 0)))))
  let puts := accs.zipIdx.flatMap (fun y => y.1.zipIdx.map (fun z =>
    (dd.nth (y.2 * shRows j.rb + z.2), elemSize dd.format, result z.1)))
  let a := accs.zipIdx.foldl (fun m y => match y.1.getLast? with
    | some acc => FMap.set m y.2 (BitVec.ofNat 512 (lanesVal acc 32))
    | none => m) x.a
  let d := (rd.2.pimWriteUnit n u (rd.2.rd CORE_SEQ_TENANT.TENANT c) { x with a := a }).add CORE_SLC_PIM_WORDS.WORDS (rows * g) n
  let ws := rd.1.flatMap id
  let nUe := (ws.filter (fun w => w.ue)).length
  let d := iter nUe (fun _ d => d.pimDataUe n) d
  let r := d.pimRegUes n u perr (fun e => decide (vbase ≤ e) && decide (e < vbase + shH j.rb * g))
  let pois := ws.any (fun w => w.poison)
  let d := if pois then r.2.wr CORE_SLC_PIM_STAT.POISON_SEEN 1 n else r.2
  (puts, { codes := (if 0 < nUe then [0x502] else []) ++ r.1 ++ (if pois then [0x506] else []), dev := d })

/-- PDOT: every result crosses to local memory (R221, R226). -/
def pdotRun (c n : Nat) (j : PimJob) (perr : List (Nat × Nat)) (d : Dev) : PimRun :=
  let r := pdotRead c n j perr (shRows j.rb) d
  let d := r.2.dev.countBytes CORE_SLC_RD_BYTES.BYTES n (elemSize (Desc.ofBits j.dd).format * r.1.length)
  { r.2 with dev := r.1.foldl (Dev.pimPut c) d }

/-- One element of a PCOL: a read-modify-write of its word (R228, R229). -/
def pcolElem (n da v : Nat) (r : PimRun) : PimRun :=
  let d := r.dev.flushLine da
  let w := da / 32 * 32
  let x := d.readWord w 0 0 0 0x502
  let old := if x.1.ue then 0 else x.1.val
  let d := x.2.storeIn w 32 (patch old (da % 32) 2 v)
  if x.1.ue then { codes := addCode r.codes 0x502, dev := d.pimDataUe n } else { r with dev := d }

def pcolRun (n : Nat) (j : PimJob) (perr : List (Nat × Nat)) (d : Dev) : PimRun :=
  let u := pimUnitOf j.da
  let x := d.pimUnit n u
  let vbase := immOf j.word % 8
  let r := (List.range j.elems).foldl (fun r e =>
    pcolElem n (j.da + 32 * shStride j.rb * e) (x.lane perr (vbase + e / 16) (e % 16)) r) { codes := [], dev := d }
  let d := r.dev.add CORE_SLC_PIM_WORDS.WORDS j.elems n
  let e := d.pimRegUes n u perr (fun e => decide (vbase ≤ e) && decide (e < vbase + j.elems / 16))
  { codes := e.1.foldl addCode r.codes, dev := e.2 }

/-- A command that was not discarded does its work. -/
def pimRun (c : Nat) (j : PimJob) (perr : List (Nat × Nat)) (d : Dev) : PimRun :=
  let n := daCore j.da
  match j.op, j.fn with
  | 0x34, 0 => pwrRun c n j d
  | 0x34, 1 => prdRun c n j perr d
  | 0x34, _ => pclrRun c n j d
  | 0x35, _ => pdotRun c n j perr d
  | 0x36, _ => pcolRun n j perr d
  | _, _ => { codes := [], dev := d }

/-- The cue a command signals when it ends. -/
def PimJob.cue (j : PimJob) : Option Nat :=
  if j.active then (if shCuev j.rb then some (shCue j.rb) else none)
  else if j.op = 0x37 ∧ j.fn = 0 then some (j.ra % 2 ^ 14)
  else none

def leastCode (cs : List Nat) : Nat := cs.foldl (fun m x => if m = 0 then x else min m x) 0

/-- A command counts at its slice when it completes or is discarded (R243). -/
def Dev.pimCounted (d : Dev) (c : Nat) (j : PimJob) : Dev :=
  if j.op = 0x37 then d else d.add CORE_SLC_PIM_CMDS.CMDS 1 (if pimDaOk j.ra then daCore j.da else c)

/-- Command `i` of core `c`'s port completes, or ends as discarded: its cue is signalled and a fault raises trap UNIT
(R236, R241). PMARK and PFENCE complete once every earlier command has. -/
def pimComplete (c i : Nat) (perr : List (Nat × Nat)) (d : Dev) : Dev :=
  match (d.core c).pimq[i]? with
  | none => d
  | some j =>
    let finish := fun (codes : List Nat) (d : Dev) =>
      let d := d.updCore c (fun k => { k with pimq := delNth k.pimq i })
      let d := d.pimCounted c j
      let d := match j.cue with | some q => d.signalUnit c q 1 | none => d
      if codes = [] then d else d.unitFault c (leastCode codes) j.pcIdx
    match j.phase with
    | .running => let r := pimRun c j perr d; finish r.codes r.dev
    | .discarded code => finish [code] d
    | _ => d

def execPimComplete (c i : Nat) (perr : List (Nat × Nat)) (s : State) : Out := act s (pimComplete c i perr)

/-! ### Curtains (R219, R242) -/

/-- Every register of every unit of slice `n` is cleared. -/
def Dev.pimClear (d : Dev) (n : Nat) : Dev := d.updSlice n (fun k => { k with pim := [] })

/-- A started command stops at a Curtain of its core (R242). How far it had come is open, so free values decide: the rows
of a PDOT that it read and which of their results were in local memory, the elements of a PCOL that it wrote, its current
one finished, and whether a register command had written its registers. -/
def pimStop (c : Nat) (j : PimJob) (d : Dev) : Dev :=
  let n := daCore j.da
  if j.op = 0x35 then
    let k := d.draw 16
    let r := pdotRead c n j [] (min k.1.toNat (shRows j.rb)) k.2
    r.1.foldl (fun d w =>
      let f := d.draw 1
      if f.1 = 1 then Dev.pimPut c (f.2.countBytes CORE_SLC_RD_BYTES.BYTES n w.2.1) w else f.2) r.2.dev
  else if j.op = 0x36 then
    let k := d.draw 8
    let m := min (k.1.toNat + 1) j.elems
    let x := k.2.pimUnit n (pimUnitOf j.da)
    ((List.range m).foldl (fun r e =>
      pcolElem n (j.da + 32 * shStride j.rb * e) (x.lane [] (immOf j.word % 8 + e / 16) (e % 16)) r)
      { codes := [], dev := k.2 }).dev.add CORE_SLC_PIM_WORDS.WORDS m n
  else if j.op = 0x34 ∧ j.fn ≠ 1 then
    let k := d.draw 1
    if k.1 = 1 then (pimRun c j [] k.2).dev else k.2
  else d

/-- A Curtain on core `c`: queued commands are discarded without a signal, and started ones stop. -/
def Dev.pimCurtain (d : Dev) (c : Nat) : Dev :=
  let d := (d.core c).pimq.foldl (fun d j => (if j.started then pimStop c j d else d).pimCounted c j) d
  d.updCore c (fun k => { k with pimq := [] })

end Sys2Proof.Machine
end

