-- ==== Sys2Proof/Machine/Seq.lean ====
section
/-! DEFINITION. Sequence contexts, page pools and KV walks (R187-R208, R239). -/
namespace Sys2Proof.Machine
open Sys2Proof

/-! ### Context records (R190-R193) -/

def ctxState (r : Nat) : Nat := word32 r 0 / 2 ^ 29
def ctxTenant (r : Nat) : Nat := word32 r 0 % 2 ^ 12
def ctxPim (r : Nat) : Bool := word32 r 0 / 2 ^ 26 % 2 == 1
def ctxLength (r : Nat) : Nat := word32 r 1
def ctxNpages (r : Nat) : Nat := word32 r 2 / 2 ^ 16
def ctxHeld (r : Nat) : Nat := word32 r 2 % 2 ^ 16
def ctxList (r : Nat) : Nat := word32 r 3 + word32 r 4 % 2 ^ 16 * 2 ^ 32
def ctxListCap (r : Nat) : Nat := word32 r 4 / 2 ^ 16
def ctxPool (r : Nat) : Nat := word32 r 5 + word32 r 6 % 2 ^ 16 * 2 ^ 32
def ctxRowLog2 (r : Nat) : Nat := word32 r 10 % 16

/-- A change of STATE advances GEN, wrapping. -/
def ctxSetState (r st : Nat) : Nat :=
  if ctxState r = st then r
  else setWord32 (setWord32 r 0 (word32 r 0 % 2 ^ 29 + st * 2 ^ 29)) 11 (word32 r 11 + 1)
def ctxSetLength (r n : Nat) : Nat := setWord32 r 1 n
def ctxSetPages (r n held : Nat) : Nat := setWord32 r 2 (n * 2 ^ 16 + held)

/-- Tokens per page, when ROW_LOG2 gives a valid T (R192). -/
def ctxT (r page : Nat) : Option Nat :=
  let l := ctxRowLog2 r
  if 5 ≤ l ∧ l ≤ 12 ∧ 2 ^ l ≤ page / 4 then some (page / (2 * 2 ^ l)) else none

/-- PAGE_SIZE of a partition in bytes. -/
def Dev.pageSize (d : Dev) (p : Nat) : Nat := 16384 * 2 ^ d.rd PART_Pp_CTRL.PAGE_SIZE 0 p

/-- The DA of a page number (R30). A page index that is not valid gives the first byte of the slice's hole, where every
access ends as R28 states (DESIGN CHOICE: R194 names no address for it; log entry 66). -/
def pageDa (page size : Nat) : Nat := sliceDa (page / 2 ^ 20) (min (page % 2 ^ 20 * size) 0x5800000)

def ceilDiv (a b : Nat) : Nat := (a + b - 1) / b

/-! ### The context agent's memory accesses (R203) -/

/-- The home cluster of a DA; one outside memory has none, and `alt` stands in. -/
def homeOf (da alt : Nat) : Nat := if da < 2 ^ 39 then daCore da / 16 else alt

/-- An access of the agent at cluster `g`, for a partition, would receive an error completion. A Curtain's own accesses
are those of no program, and `curtain` leaves out the protection. -/
def Dev.agentRefused (d : Dev) (g : Nat) (p : Option Nat) (da n : Nat) (write : Bool) (curtain : Bool := false) : Bool × Dev :=
  if (d.daRefused da).isSome || (d.daRefused (da + n - 1)).isSome || d.meshLost g (daCore da / 16) then (true, d)
  else if curtain then (false, d)
  else
    let r := d.prot (g / 128) p da write
    (!r.1, r.2)

/-- The record of an error of the agent, class UNCORRECTABLE or ADDRESS, under the home cache of the DA, or of the
agent's cluster where the address is not in memory. -/
def Dev.agentErr (d : Dev) (cls g da : Nat) : Dev :=
  d.err cls 0x402 (if 2 ^ 39 ≤ da then unitCluster g 12 0 else d.cacheUnit da) da

def Dev.agentRead (d : Dev) (g : Nat) (p : Option Nat) (da n : Nat) (curtain : Bool := false) : Option Nat × Dev :=
  let a := d.agentRefused g p da n false curtain
  if a.1 then (none, a.2.agentErr 3 g da)
  else
    let r := a.2.cachedRead (d.seenDa (g / 128) da) n none
    if r.1.ue then (none, r.2.agentErr 2 g da) else (some r.1.val, r.2)

/-- A write of the agent; answers whether it was made. -/
def Dev.agentWrite (d : Dev) (g : Nat) (p : Option Nat) (da n v : Nat) (curtain : Bool := false) : Bool × Dev :=
  let a := d.agentRefused g p da n true curtain
  if a.1 then (false, a.2.agentErr 3 g da) else (true, a.2.cachedWrite (d.seenDa (g / 128) da) n v none)

/-- A cue operation of the agent (R197). -/
def Dev.agentCue (d : Dev) (g : Nat) (p : Option Nat) (tenant who fn cue k : Nat) (agent : Bool) : CueRes × Dev :=
  if d.meshLost g (cueCluster cue) then (.refused 7, d) else d.cuePerform fn (d.seenCue (g / 128) cue) k false tenant p who agent

/-! ### Pools (R195, R197) -/

def poolCue (r : Nat) : Nat := word32 r 0 % 2 ^ 14
def poolRing (r : Nat) : Nat := word32 r 1 + word32 r 2 % 2 ^ 16 * 2 ^ 32
def poolLog2 (r : Nat) : Nat := word32 r 3 % 32
def poolHead (r : Nat) : Nat := word32 r 4
def poolTail (r : Nat) : Nat := word32 r 5
def poolSlot (r n : Nat) : Nat := poolRing r + 4 * (n % 2 ^ poolLog2 r)

/-- Read `n` words of 4 B at addresses `f 0`, `f 1`, …: the words read, and whether every one could be. -/
def Dev.agentWords (g : Nat) (p : Option Nat) (f : Nat → Nat) (n : Nat) (d : Dev) : List Nat × Bool × Dev :=
  (List.range n).foldl (fun a i =>
    let r := Dev.agentRead a.2.2 g p (f i) 4
    match r.1 with
    | some v => (a.1 ++ [v], a.2.1, r.2)
    | none => (a.1, false, r.2)) ([], true, d)

/-- Write words at addresses `f 0`, `f 1`, …. -/
def Dev.agentPut (g : Nat) (p : Option Nat) (f : Nat → Nat) (vs : List Nat) (d : Dev) : Bool × Dev :=
  vs.zipIdx.foldl (fun a x =>
    let r := Dev.agentWrite a.2 g p (f x.2) 4 x.1
    (a.1 && r.1, r.2)) (true, d)

/-- What an operation of the agent reports: a status or value, and a fault code or 0. -/
structure SeqOut where
  val : Nat
  fault : Nat
  dev : Dev
  deriving DecidableEq, Repr

/-- How many values rd may take: the nine codes of R201 for a status, any for the value of SQGET and SQPAGE. -/
def seqLim (fn : Nat) : Nat := if fn = 6 ∨ fn = 8 then 2 ^ 64 else 9

/-- A result the spec does not state: a free value among those that rd may take (R201). -/
def Dev.seqFree (d : Dev) (fault : Nat) (lim : Nat := 9) : SeqOut :=
  let v := d.draw 64
  { val := v.1.toNat % lim, fault := fault, dev := v.2 }

/-! ### Context records in error (R203) -/

/-- A context whose record is in error is rewritten as BROKEN, where the write is possible. -/
def Dev.ctxRewrite (d : Dev) (g p tenant da : Nat) (curtain : Bool := false) : Dev :=
  let a := d.agentRefused g (some p) da 64 true curtain
  if a.1 then a.2 else a.2.cachedWrite da 64 (4 * 2 ^ 29 + p * 2 ^ 18 + tenant) none

/-- The same for a core's instruction: CTX_BROKEN with fault 0x0402, or a free value where rd is no status. -/
def Dev.ctxError (d : Dev) (g : Nat) (p : Option Nat) (tenant da : Nat) (lim : Nat := 9) : SeqOut :=
  let d := match p with
    | some q => d.ctxRewrite g q tenant da
    | none => d
  if lim = 9 then { val := 7, fault := 0x402, dev := d } else d.seqFree 0x402 lim

/-- The record of a context is written, and the operation goes on with `f`; an error completion of the write is an error
on the record. -/
def Dev.seqPut (d : Dev) (g p tenant da rec : Nat) (f : Dev → SeqOut) : SeqOut :=
  let w := d.agentWrite g (some p) da 64 rec
  if w.1 then f w.2 else w.2.ctxError g (some p) tenant da

/-- A status, without a fault. -/
def Dev.seqOk (d : Dev) (v : Nat) : SeqOut := { val := v, fault := 0, dev := d }

/-- A return of the list entries `lo` to `hi - 1` of a context to its pool (R197). An entry in error is not returned.
Where the pool record itself is in error nothing is returned. -/
def Dev.returnPages (d : Dev) (g : Nat) (p : Option Nat) (tenant who rec lo hi : Nat) : SeqOut :=
  if hi ≤ lo then { val := 0, fault := 0, dev := d }
  else
    let pool := ctxPool rec
    let pages := Dev.agentWords g p (fun i => ctxList rec + 4 * (lo + i)) (hi - lo) d
    let fault := if pages.2.1 then 0 else 0x402
    let n := pages.1.length
    let r := pages.2.2.agentRead g p pool 64
    match r.1 with
    | none => r.2.seqFree 0x402
    | some pr =>
      let hp := daCore pool / 16
      if d.cueState (poolCue pr) = 4 then { val := 3, fault := fault, dev := r.2 }
      else if 2 ^ poolLog2 pr < (poolTail pr + 2 ^ 32 - poolHead pr) % 2 ^ 32 + n then
        { val := 8, fault := fault, dev := r.2.err 3 2 (r.2.cacheUnit pool) pool }
      else
        let w := Dev.agentPut g p (fun i => poolSlot pr (poolTail pr + i)) pages.1 r.2
        if !w.1 then w.2.seqFree 0x402
        else
          let t := w.2.agentWrite g p (pool + 20) 4 ((poolTail pr + n) % 2 ^ 32)
          if !t.1 then t.2.seqFree 0x402
          else
            let s := t.2.agentCue hp p tenant who 0 (poolCue pr) n false
            match s.1 with
            | .refused _ => s.2.seqFree fault
            | _ => { val := 0, fault := fault, dev := s.2 }

/-- A take whose wait is satisfied (R197, R199): the slots are read, the list and the context written, HEAD advances.
After an error the pages go back to the cue and the context stays as it is. -/
def Dev.takePages (d : Dev) (g : Nat) (p : Option Nat) (tenant who da rec pr need : Nat) : SeqOut :=
  let undo := fun (d : Dev) =>
    (d.agentCue (daCore (ctxPool rec) / 16) p tenant who 0 (poolCue pr) need false).2.seqFree 0x402
  let pages := Dev.agentWords g p (fun i => poolSlot pr (poolHead pr + i)) need d
  if !pages.2.1 then undo pages.2.2
  else
    let l := Dev.agentPut g p (fun i => ctxList rec + 4 * (ctxNpages rec + i)) pages.1 pages.2.2
    if !l.1 then undo l.2
    else
      let h := l.2.agentWrite g p (ctxPool rec + 16) 4 ((poolHead pr + need) % 2 ^ 32)
      if !h.1 then undo h.2
      else
        let w := h.2.agentWrite g p da 64 (ctxSetPages (ctxSetState rec 1) (ctxNpages rec + need) 0)
        if w.1 then w.2.seqOk 0 else w.2.ctxError g p tenant da

/-! ### Waiting admissions (R200) -/

/-- The core whose admission waits on the context at a DA. -/
def Dev.seqWaiter (d : Dev) (da : Nat) : Option Nat :=
  (d.cores.find? (fun e => e.2.seqHeld.any (fun h => h.da == da))).map Prod.fst

/-- The waiting admission of a core ends with a status. -/
def Dev.seqEnd (d : Dev) (c val fault : Nat) : Dev :=
  (d.sleep c false).updCore c (fun k => { k with seqReq := none, seqHeld := none, seqAns := some (val, fault) })

/-- The context of a withdrawn or failed admission is READY again, with HELD 0; one whose record cannot be read goes
BROKEN. Answers whether the record was in order. -/
def Dev.seqUnhold (d : Dev) (g : Nat) (p : Option Nat) (tenant da : Nat) : Bool × Dev :=
  let r := d.agentRead g p da 64
  match r.1 with
  | none => (false, (r.2.ctxError g p tenant da).dev)
  | some rec =>
    if ctxState rec = 2 then r.2.agentWrite g p da 64 (ctxSetPages (ctxSetState rec 1) (ctxNpages rec) 0) else (true, r.2)

/-- A wake reached the agent for core `c`: granted `k`, or a fault kind of the pool cue. -/
def Dev.seqWake (d : Dev) (c : Nat) (h : SeqHeld) (k kind : Nat) : Dev :=
  let g := daCore h.da / 16
  let p := d.corePart c
  let tenant := d.rd CORE_SEQ_TENANT.TENANT c
  if kind = 0 then
    let r := d.agentRead g p h.da 64
    match r.1 with
    | none =>
      -- the record cannot be read: nothing is taken, and the grant goes back to the pool cue
      let o := (r.2.agentCue g p tenant c 0 h.cue k false).2.ctxError g p tenant h.da
      o.dev.seqEnd c o.val o.fault
    | some rec =>
      let q := r.2.agentRead g p (ctxPool rec) 64
      match q.1 with
      | none =>
        let o := (q.2.agentCue g p tenant c 0 h.cue k false).2.seqFree 0x402
        o.dev.seqEnd c o.val o.fault
      | some pr =>
        let o := q.2.takePages g p tenant c h.da rec pr h.need
        o.dev.seqEnd c o.val o.fault
  else
    let u := d.seqUnhold g p tenant h.da
    if !u.1 then u.2.seqEnd c 7 0x402
    else if kind = 6 then u.2.seqEnd c 3 0
    else if kind = 3 then u.2.seqEnd c 6 0
    else let o := u.2.seqFree 0; o.dev.seqEnd c o.val 0

/-- A waiting admission ends by its wake (R200). -/
def sqadmitWake (c : Nat) (d : Dev) : Dev :=
  match (d.core c).cueAns, (d.core c).seqHeld with
  | .wake _ k kind :: _, some h => (d.dropAns c).seqWake c h k kind
  | _, _ => d

def execSqadmitWake (c : Nat) (s : State) : Out := act s (sqadmitWake c)

/-- The entry of a waiting admission leaves the pool cue's queue; a grant already on its way is refused, and its pages
counted back. -/
def Dev.seqLeaveQueue (d : Dev) (c : Nat) : Dev :=
  match (d.core c).cueAns with
  | .wake cue k kind :: _ => (d.dropAns c).refuseWake cue k kind
  | _ => d.removeWaiter c

/-- HALT_REQ or a Curtain withdraws the waiting admission of core `c` (R200): the instruction does not retire. -/
def Dev.seqWithdraw (d : Dev) (c : Nat) : Dev :=
  match (d.core c).seqHeld with
  | none => d
  | some h =>
    let d := ((d.seqLeaveQueue c).seqUnhold (daCore h.da / 16) (d.corePart c)
      (d.rd CORE_SEQ_TENANT.TENANT c) h.da).2
    ((d.sleep c false).updCore c (fun k => { k with seqReq := none, seqHeld := none, wait := .run }))

/-- The waiting admission on a context ends first by a grant on its way, if there is one (R205); otherwise it is taken
out of the queue and ends with a status. -/
def Dev.seqSettle (d : Dev) (da status : Nat) : Dev :=
  match d.seqWaiter da with
  | none => d
  | some c =>
    match (d.core c).cueAns, (d.core c).seqHeld with
    | .wake _ k 0 :: _, some h => (d.dropAns c).seqWake c h k 0
    | _, _ => (d.seqLeaveQueue c).seqEnd c status 0

/-! ### The operations (R198) -/

/-- States an operation allows, by FN; SQSET, SQGET are checked apart. -/
def seqAllowed (fn st : Nat) (waiting : Bool) : Bool :=
  match fn with
  | 0 => st == 0 || st == 3 || st == 4
  | 1 => st == 1 || (st == 2 && !waiting)
  | 2 => st == 1
  | 3 => st == 1
  | 4 => st == 1 || (st == 2 && !waiting) || st == 3 || st == 4
  | 5 => st == 1 || st == 2
  | 8 => st == 1 || st == 2
  | _ => true

/-- SQSET: the new record, or the status that refuses it. The encodings 5 to 7 of STATE, which the spec does not use, are
taken as FREE (DESIGN CHOICE, log entry 70). -/
def seqSet (rec w v : Nat) : Nat × Nat :=
  let st := ctxState rec
  if w = 1 ∨ w = 2 ∨ w = 11 then (6, rec)
  else if (st = 1 ∨ st = 2) ∧ ¬(w = 7 ∨ w = 8 ∨ 12 ≤ w) then (5, rec)
  else if w = 0 then (0, setWord32 rec 0 (word32 rec 0 - word32 rec 0 / 2 ^ 26 % 8 * 2 ^ 26 + v / 2 ^ 26 % 8 * 2 ^ 26))
  else (0, setWord32 rec w v)

/-- SQPAGE (R198, R239). -/
def Dev.sqPage (d : Dev) (g p rec tok : Nat) (v : Bool) : SeqOut :=
  let size := d.pageSize p
  match ctxT rec size with
  | none => { val := 2 ^ 64 - 1, fault := 0, dev := d }
  | some t =>
    if ctxNpages rec * t ≤ tok then { val := 2 ^ 64 - 1, fault := 0, dev := d }
    else
      let r := d.agentRead g (some p) (ctxList rec + 4 * (tok / t)) 4
      match r.1 with
      | none => r.2.seqFree 0x402 (2 ^ 64)
      | some page =>
        let off := if !v then tok % t * 2 ^ ctxRowLog2 rec
          else size / 2 + (if ctxPim rec then 2 * (tok % t) else tok % t * 2 ^ ctxRowLog2 rec)
        { val := (pageDa page size + off) % 2 ^ 64, fault := 0, dev := r.2 }

/-- SQADMIT (R199). Answers none for an admission that waits: its context is HELD_PAGES and the core sleeps. While the pool
cue's storage has no room for the waiter the agent keeps the request and sends the WAIT again (R342). The take is TRYWAIT
when W is 0, so an admission behind queued waiters is SHORT whatever the pool holds (DESIGN CHOICE, log entry 67). -/
def Dev.sqAdmit (d : Dev) (g p tenant c ctx da rec n : Nat) (w : Bool) : Option SeqOut × Dev :=
  let done := fun (v : Nat) (d : Dev) => (some { val := v, fault := 0, dev := d : SeqOut }, d)
  match ctxT rec (d.pageSize p) with
  | none => done 6 d
  | some t =>
    let total := ceilDiv (ctxLength rec + n) t
    let need := total - ctxNpages rec
    if need = 0 then done 0 d
    else if ctxListCap rec < ctxNpages rec + need then done 4 d
    else if 1024 < need then done 6 d
    else
      let r := d.agentRead g (some p) (ctxPool rec) 64
      match r.1 with
      | none => let o := r.2.seqFree 0x402; (some o, o.dev)
      | some pr =>
        let cue := poolCue pr
        let home := daCore (ctxPool rec) / 16
        let held := ctxSetPages (ctxSetState rec 2) (ctxNpages rec) need
        let park := fun (again : Bool) (d : Dev) =>
          let h := d.agentWrite g (some p) da 64 held
          if !h.1 then let o := (h.2.seqLeaveQueue c).ctxError g (some p) tenant da; (some o, o.dev)
          else
            (none, (h.2.sleep c true).updCore c (fun k =>
              { k with seqReq := if again then k.seqReq else none,
                       seqHeld := some { ctx := ctx, da := da, need := need, cue := cue, home := home } }))
        let q := r.2.agentCue home (some p) tenant c (if w then 1 else 3) cue need true
        match q.1 with
        | .value v =>
          let o := if !w ∧ v = 2 ^ 64 - 1 then q.2.seqPut g p tenant da held (fun d => d.seqOk 1)
            else q.2.takePages g (some p) tenant c da rec pr need
          (some o, o.dev)
        | .refused kind =>
          if kind = 6 then done 3 q.2
          else if kind = 3 then done 6 q.2
          else let o := q.2.seqFree 0; (some o, o.dev)
        | .queued => park false q.2
        | .nack => park true q.2

/-- Return pages from list index `keep`, with the context written first. -/
def Dev.sqReturn (d : Dev) (g p tenant c da rec rec' keep : Nat) : SeqOut :=
  d.seqPut g p tenant da rec' (fun d => d.returnPages g (some p) tenant c rec keep (ctxNpages rec))

/-- Evict a context: the waiting admission ends, all pages return (R198, R205). `rec` is its record. -/
def Dev.sqEvict (d : Dev) (g p tenant c da rec : Nat) : SeqOut :=
  let granted := match d.seqWaiter da with
    | some k => (match (d.core k).cueAns with | .wake _ _ 0 :: _ => true | _ => false)
    | none => false
  let d := d.seqSettle da 2
  let r := if granted then d.agentRead g (some p) da 64 else (some rec, d)
  match r.1 with
  | none => r.2.ctxError g (some p) tenant da
  | some rec => r.2.sqReturn g p tenant c da rec (ctxSetPages (ctxSetState rec 3) 0 0) 0

/-- One operation on a context whose record could be read and whose owner is right. -/
def Dev.seqDo (d : Dev) (g p tenant c ctx da rec : Nat) (q : SeqReq) : Option SeqOut × Dev :=
  let ok := fun (v : Nat) (d : Dev) => (some { val := v, fault := 0, dev := d : SeqOut }, d)
  let out := fun (o : SeqOut) => (some o, o.dev)
  let size := d.pageSize p
  let st := ctxState rec
  if !seqAllowed q.fn st (d.seqWaiter da).isSome then ok 5 d
  else
    match q.fn with
    | 0 =>
      if (ctxT rec size).isNone ∨ ctxListCap rec = 0 then ok 6 d
      else
        let rec' := ctxSetPages (ctxSetLength (ctxSetState rec 1) 0) 0 0
        let w0 := word32 rec' 0 / 2 ^ 26 * 2 ^ 26 + p * 2 ^ 18 + tenant
        out (d.seqPut g p tenant da (setWord32 rec' 0 w0) (fun d => d.seqOk 0))
    | 1 => d.sqAdmit g p tenant c ctx da rec q.rb (q.imm % 2 == 1)
    | 2 =>
      match ctxT rec size with
      | none => ok 6 d
      | some t =>
        let len := ctxLength rec + q.rb
        if ctxNpages rec * t < len then ok 6 d
        else
          let rec' := ctxSetLength rec len
          if q.imm % 2 = 1 then
            let keep := ceilDiv len t
            out (d.sqReturn g p tenant c da rec (ctxSetPages rec' keep (ctxHeld rec)) keep)
          else out (d.seqPut g p tenant da rec' (fun d => d.seqOk 0))
    | 3 =>
      match ctxT rec size with
      | none => ok 6 d
      | some t =>
        if ctxLength rec < q.rb then ok 6 d
        else
          let len := ctxLength rec - q.rb
          let keep := min (ceilDiv len t) (ctxNpages rec)
          out (d.sqReturn g p tenant c da rec (ctxSetPages (ctxSetLength rec len) keep (ctxHeld rec)) keep)
    | 4 => out (d.sqReturn g p tenant c da rec (ctxSetPages (ctxSetLength (ctxSetState rec 0) 0) 0 0) 0)
    | 5 => out (d.sqEvict g p tenant c da rec)
    | 6 => ok (word32 rec (q.imm % 16)) d
    | 7 =>
      let r := seqSet rec (q.imm % 16) (q.rb % 2 ^ 32)
      if r.1 = 0 then out (d.seqPut g p tenant da r.2 (fun d => d.seqOk 0)) else ok r.1 d
    | _ => out (d.sqPage g p rec q.rb (q.imm % 2 == 1))

/-- SEQ_BASE of a partition. A value that names no DA stays as it is, and R28 applies to it (R26). -/
def Dev.seqBase (d : Dev) (p : Nat) : Nat := (daOf (d.rd PART_Pp_SEQ_BASE.DA 0 p)).getD (d.rd PART_Pp_SEQ_BASE.DA 0 p)

/-- The context a number names within its partition (R187, R203): its DA. -/
def Dev.ctxDa (d : Dev) (p ctx : Nat) : Option Nat :=
  let first := d.rd PART_Pp_SEQ_RANGE.FIRST 0 p
  if first ≤ ctx ∧ ctx < first + d.rd PART_Pp_SEQ_RANGE.COUNT 0 p then
    some (d.seqBase p + (ctx - first) * 64)
  else none

/-- The record of a context for core `c`, after the access rules of R203: the partition, the context's DA and its
record, or a result that ends the instruction, free among `lim` values where none is stated. -/
def Dev.ctxOpen (d : Dev) (c ctx : Nat) (lim : Nat := 9) : Sum (Nat × Nat × Nat) SeqOut × Dev :=
  match d.corePart c with
  | none => let o := d.seqFree 0x401 lim; (.inr o, o.dev)
  | some p =>
    match d.ctxDa p ctx with
    | none => let o := d.seqFree 0x401 lim; (.inr o, o.dev)
    | some da =>
      let g := homeOf da (coreCluster c)
      let lost := d.meshLost (coreCluster c) g
      let r := if lost then (none, d.agentErr 3 g da) else d.agentRead g (some p) da 64
      match r.1 with
      | none =>
        let o := r.2.ctxError g (some p) (d.rd CORE_SEQ_TENANT.TENANT c) da lim
        (.inr o, o.dev)
      | some rec =>
        if ctxState rec ≠ 0 ∧ ctxTenant rec ≠ d.rd CORE_SEQ_TENANT.TENANT c then
          let o := r.2.seqFree 0x401 lim
          (.inr o, o.dev)
        else (.inl (p, da, rec), r.2)

/-- The WAIT of an admission that was answered NACK is sent again (R342). -/
def seqRetry (c : Nat) (h : SeqHeld) (d : Dev) : Dev :=
  let took := fun (d : Dev) => d.updCore c (fun k => { k with seqReq := none })
  let q := d.agentCue h.home (d.corePart c) (d.rd CORE_SEQ_TENANT.TENANT c) c 1 h.cue h.need true
  match q.1 with
  | .value _ => (took q.2).seqWake c h h.need 0
  | .refused kind => q.2.seqWake c h 0 kind
  | .queued => took q.2
  | .nack => q.2

/-- The agent takes the operation of core `c` whole (R189); one on a context homed inside a Curtain is held (R527). A halt
that was requested while the agent worked abandons an admission that would wait (R81). -/
def seqAgentRequest (c : Nat) (d : Dev) : Dev :=
  match (d.core c).seqReq, (d.core c).seqHeld with
  | none, _ => d
  | some _, some h => seqRetry c h d
  | some q, none =>
    let finish := fun (o : SeqOut) => o.dev.updCore c (fun k => { k with seqReq := none, seqAns := some (o.val, o.fault) })
    if 2 ^ 15 ≤ q.ra then finish { val := if q.fn = 6 ∨ q.fn = 8 then 2 ^ 64 - 1 else 6, fault := 0, dev := d }
    else if ((d.corePart c).bind (fun p => d.ctxDa p q.ra)).any (fun da => d.clusterCurtained (daCore da / 16)) then d
    else
      match d.ctxOpen c q.ra (seqLim q.fn) with
      | (.inr o, _) => finish o
      | (.inl (p, da, rec), d) =>
        match d.seqDo (daCore da / 16) p (d.rd CORE_SEQ_TENANT.TENANT c) c q.ra da rec q with
        | (some o, _) => finish o
        | (none, d) => if (d.core c).halting = none then d else d.seqWithdraw c

def execSeqAgentRequest (c : Nat) (s : State) : Out := act s (seqAgentRequest c)

/-- The status returns: rd is written, the instruction retires, and a fault raises trap UNIT (R203). -/
def seqStatusReturn (c : Nat) (d : Dev) : Dev :=
  match (d.core c).seqAns, (d.core c).wait with
  | some (v, fault), .seq rd =>
    let pc := d.pc c
    let d := (d.updCore c (fun k => { k with seqAns := none })).setS c rd (BitVec.ofNat 64 v)
    let d := (d.retire c).endWait c
    if fault = 0 then d else d.unitFault c fault pc
  | some _, _ => d.updCore c (fun k => { k with seqAns := none })
  | none, _ => d

def execSeqStatusReturn (c : Nat) (s : State) : Out := act s (seqStatusReturn c)

/-! ### The instructions -/

/-- R198: fields an instruction uses. -/
def seqFieldsOk (fn : Nat) (w : W64) : Bool :=
  match fn with
  | 1 => regsOk w true true true && immBelow w 1
  | 2 => regsOk w true true true && immBelow w 1
  | 3 => regsOk w true true true && immBelow w 0
  | 6 => regsOk w true true false && immBelow w 4
  | 7 => regsOk w true true true && immBelow w 4
  | 8 => regsOk w true true true && immBelow w 1
  | _ => regsOk w true true false && immBelow w 0

def seqIssue (fn c : Nat) (d : Dev) : Dev :=
  d.issue c (isOpFn 0x30 fn) (fun d w => d.checked c w (seqFieldsOk fn w) (fun d =>
    let q : SeqReq := { fn := fn, ra := (d.sreg c (raOf w)).toNat, rb := (d.sreg c (rbOf w)).toNat, imm := immOf w }
    d.updCore c (fun k => { k with wait := .seq (rdOf w), seqReq := some q })))

def execSqopen (c : Nat) (s : State) : Out := act s (seqIssue 0 c)
def execSqadmit (c : Nat) (s : State) : Out := act s (seqIssue 1 c)
def execSqcommit (c : Nat) (s : State) : Out := act s (seqIssue 2 c)
def execSqtrim (c : Nat) (s : State) : Out := act s (seqIssue 3 c)
def execSqclose (c : Nat) (s : State) : Out := act s (seqIssue 4 c)
def execSqevict (c : Nat) (s : State) : Out := act s (seqIssue 5 c)
def execSqget (c : Nat) (s : State) : Out := act s (seqIssue 6 c)
def execSqset (c : Nat) (s : State) : Out := act s (seqIssue 7 c)
def execSqpage (c : Nat) (s : State) : Out := act s (seqIssue 8 c)

/-! ### Walks (R206-R208) -/

/-- The segments of a walk of `n` tokens from `t0`, `t` tokens to a page. -/
def kvSegs (mk : Nat → Nat → Nat → Nat → KvSeg) (t : Nat) : Nat → Nat → Nat → Nat → List KvSeg
  | 0, _, _, _ => []
  | fuel + 1, t0, n, r0 =>
    if n = 0 then []
    else
      let k := min n (t - t0 % t)
      mk (t0 / t) (t0 % t) k r0 :: kvSegs mk t fuel (t0 + k) (n - k) (r0 + k)

/-- KVLD: the checks of R98 on DDST, those of R207, then the chain of segments. A fault leaves rd 0: nothing was queued. -/
def kvldStep (c : Nat) (d : Dev) : Dev :=
  d.issue c (isOpFn 0x31 0) (fun d w =>
    d.checked c w (W64.bits w 37 32 == 0 && W64.bits w 23 0 == 0) (fun d => match descTrap w [d.desc c (W64.bits w 27 24)] with
    | some (cause, tval) => d.trap c cause tval
    | none =>
      let ra := (d.sreg c (raOf w)).toNat
      let walk := (d.sreg c (rbOf w)).toNat
      let ch := W64.bits w 30 28
      let dst := d.desc c (W64.bits w 27 24)
      let pc := d.pc c
      let fault := fun (code : Nat) (d : Dev) => ((d.setS c (rdOf w) 0).retire c).unitFault c code pc
      if 2 ^ 15 ≤ ra ∨ walk / 2 ^ 62 % 2 = 1 then fault 0x404 d
      else
        match d.ctxOpen c ra with
        | (.inr o, d) => fault o.fault d
        | (.inl (p, _, rec), d) =>
          let t0 := walk % 2 ^ 32
          let n := walk / 2 ^ 32 % 2 ^ 16
          let row := 2 ^ ctxRowLog2 rec
          if ctxState rec ≠ 1 ∧ ctxState rec ≠ 2 then fault 0x403 d
          else
            match ctxT rec (d.pageSize p) with
            | none => fault 0x404 d
            | some t =>
              if n = 0 ∨ ctxNpages rec * t < t0 + n ∨ dst.ring < row ∨ dst.ring % row ≠ 0 then fault 0x404 d
              else
                let cue := if walk / 2 ^ 63 = 1 then some (walk / 2 ^ 48 % 2 ^ 14) else none
                let mk := fun (e first rows r0 : Nat) =>
                  ({ entry := (ctxList rec + 4 * e) % 2 ^ 48, first := first, rows := rows, rowLog2 := ctxRowLog2 rec,
                     vRows := W64.bits w 31 31 == 1, pageSize := d.pageSize p, base := dst.base, ring := dst.ring,
                     r0 := r0, cue := cue } : KvSeg)
                let segs := kvSegs mk t n t0 n 0
                if (d.ch c ch).accepts segs.length then
                  ((d.pushDma c ch (segs.map (fun s => { raw := 0, ue := none, badDa := none, kv := some s }))).setS c
                    (rdOf w) 1).retire c
                else (d.setS c (rdOf w) 0).retire c))

def execKvld (c : Nat) (s : State) : Out := act s (kvldStep c)

/-- The local address of byte `i` of a segment. -/
def KvSeg.localAt (s : KvSeg) (i : Nat) : Nat :=
  s.base / s.ring * s.ring + (s.base % s.ring + s.r0 * 2 ^ s.rowLog2 + i) % s.ring

/-- Copy `n` bytes from byte `pos` of a segment, up to 4 KiB boundaries at a time. -/
def Dev.kvCopy (c : Nat) (s : KvSeg) (src : Nat) : Nat → Nat → Nat → Dev → ChunkRes
  | 0, pos, _, d => { done := pos, halt := none, dev := d }
  | fuel + 1, pos, n, d =>
    if n = 0 then { done := pos, halt := none, dev := d }
    else
      let k := min n (toBlockEnd ((src + pos : Nat) : Int))
      let r := d.chunkIn c ((src + pos : Nat) : Int) k 2 false (fun i => s.localAt (pos + i))
      match r.halt with
      | some h => { done := pos + r.done, halt := some h, dev := r.dev }
      | none => Dev.kvCopy c s src fuel (pos + r.done) (n - r.done) r.dev

/-- A walk segment runs: list entry, rows, cue (R208). V rows are copied as R193 lays them out, whatever PIM says: R208
copies rows and names no other layout (DESIGN CHOICE, log entry 68). -/
def kvldSegment (c ch : Nat) (d : Dev) : Dev :=
  let k := d.ch c ch
  match k.q with
  | [] => d
  | ent :: _ =>
    match ent.kv with
    | none => d
    | some s =>
      if k.halted then d
      else if s.base % 32 ≠ 0 then d.dmaHalt c ch 7 0
      else if !inSeg s.base ((s.base / s.ring * s.ring : Nat) : Int) s.ring then d.dmaHalt c ch 8 s.base
      else
        let a := d.dmaRefused c (s.entry : Int) false
        match a.1 with
        | some cause => a.2.dmaHalt c ch cause s.entry none 1
        | none =>
          let r := a.2.cachedRead s.entry 4 none
          if r.1.ue then r.2.dmaHalt c ch 4 s.entry none 1
          else
            let src := pageDa r.1.val s.pageSize + (if s.vRows then s.pageSize / 2 else 0) + s.first * 2 ^ s.rowLog2
            let n := s.rows * 2 ^ s.rowLog2
            let x := Dev.kvCopy c s src (n / 32 + 1) 0 n r.2
            let d := x.dev.add CORE_DMA_CHn_BYTES.BYTES x.done c ch
            match x.halt with
            | some h => d.dmaHalt c ch h.1 h.2.1 h.2.2.2 h.2.2.1
            | none => d.dmaComplete c ch s.cue

def execKvldSegment (c ch : Nat) (s : State) : Out := act s (kvldSegment c ch)

/-! ### Curtains (R204) and host eviction (R188) -/

/-- Apply `f` to the DA of every context of a partition. -/
def Dev.eachCtx (d : Dev) (p : Nat) (f : Nat → Dev → Dev) : Dev :=
  (List.range (d.rd PART_Pp_SEQ_RANGE.COUNT 0 p)).foldl (fun d i =>
    f (d.seqBase p + i * 64) d) d

/-- A waiting admission on a context ends with CTX_BROKEN: a grant on its way is refused (R204, R343). -/
def Dev.seqBroken (d : Dev) (da : Nat) : Dev :=
  match d.seqWaiter da with
  | none => d
  | some c => (d.seqLeaveQueue c).seqEnd c 7 0

/-- A tenant Curtain: the tenant's contexts go BROKEN and their pages return. A FREE context has no owner (R191), so its
TENANT field names none and it stays FREE (DEDUCED, log entry 69). -/
def Dev.seqTenantBreak (d : Dev) (tenant : Nat) : Dev :=
  d.partIn.foldl (fun d p => d.eachCtx p (fun da d =>
    let g := homeOf da 0
    let r := d.agentRead g (some p) da 64 true
    match r.1 with
    | none => r.2
    | some rec =>
      if ctxState rec ≠ 0 ∧ ctxTenant rec = tenant then
        let d := r.2.seqBroken da
        (d.sqReturn g p tenant 0 da rec (ctxSetPages (ctxSetState rec 4) 0 0) 0).dev
      else r.2)) d

/-- A partition Curtain: every context of the partition reads BROKEN. One whose record cannot be read is rewritten, with a
free TENANT. -/
def Dev.seqPartBreak (d : Dev) (p : Nat) : Dev :=
  d.eachCtx p (fun da d =>
    let g := homeOf da 0
    let r := (d.seqBroken da).agentRead g (some p) da 64 true
    match r.1 with
    | none => let v := r.2.draw 12; v.2.ctxRewrite g p v.1.toNat da true
    | some rec => (r.2.agentWrite g (some p) da 64 (ctxSetState rec 4) true).2)

end Sys2Proof.Machine
end

