-- ==== Sys2Proof/Machine/Control.lean ====
section
/-! DEFINITION. Program control: FENCE, register-space instructions up to their access, START, halts, RESUME and illegal
instructions (R77-R82, R84, R85, R91, R105, R111). -/
namespace Sys2Proof.Machine
open Sys2Proof

/-! ### FENCE (R105) -/

/-- The classes of a mask have reached their points. -/
def CoreSt.fenced (k : CoreSt) (mask : Nat) : Bool :=
  (!mask.testBit 0 || k.mxq.isEmpty) && (!mask.testBit 1 || (k.vq.isEmpty && k.vwr.isEmpty)) &&
  (!mask.testBit 2 || k.dma.all (fun e => e.2.quiet)) && (!mask.testBit 3 || k.sendq.isEmpty) &&
  (!mask.testBit 4 || k.pimq.isEmpty) &&
  (!mask.testBit 6 || k.atomq.all (fun a => match a.phase with | .done _ _ => true | _ => false))

/-- FENCE retires; with SLICE every DIRTY line of the core's slice has been written back (R284). -/
def Dev.fenceEnd (d : Dev) (c mask : Nat) : Dev := (if mask.testBit 5 then d.wbSlice c else d).retire c

def execFence (c : Nat) (s : State) : Out :=
  act s (fun d => d.issue c (isOpFn 0x18 0) (fun d w => d.checked c w (regsOk w false false false && immBelow w 7) (fun d =>
    if (d.core c).fenced (immOf w) then d.fenceEnd c (immOf w) else d.setWait c (.fence (immOf w)))))

def execFenceRelease (c : Nat) (s : State) : Out :=
  act s (fun d =>
    match (d.core c).wait with
    | .fence mask => if (d.core c).fenced mask then (d.fenceEnd c mask).endWait c else d
    | _ => d)

/-! ### REG (R91) -/

/-- Issue of a register-space access of `n` bytes. A value that names no DA ends as an access refused by R28 does (R26). -/
def regIssue (fn n : Nat) (write : Bool) (c : Nat) (d : Dev) : Dev :=
  d.issue c (isOpFn 7 fn) (fun d w => d.checked c w (regsOk w (!write) true write) (fun d =>
    let a := (d.sreg c (raOf w) + simm32 w).toNat
    match daOf a with
    | none => (if a % n = 0 then d.err 3 (if write then 2 else 1) (unitCore c 0 0) a else d).trap c 8 a
    | some da =>
      if da < 2 ^ 47 ∨ da % n ≠ 0 then d.trap c 8 a
      else d.setWait c (.reg write (n == 8) da (d.sreg c (rbOf w)).toNat (rdOf w) (d.epochBank (coreHalf c)))))

def execRld32 (c : Nat) (s : State) : Out := act s (regIssue 0 4 false c)
def execRst32 (c : Nat) (s : State) : Out := act s (regIssue 1 4 true c)
def execRld64 (c : Nat) (s : State) : Out := act s (regIssue 2 8 false c)
def execRst64 (c : Nat) (s : State) : Out := act s (regIssue 3 8 true c)

/-! ### Illegal instructions (R84, R85) -/

/-- The FN codes that each major opcode defines, the unit classes included. -/
def fnLegal (op f : Nat) : Bool :=
  match op with
  | 0x20 => decide (f < 3)
  | 0x21 => f == 0
  | 0x28 => decide (f ≤ 8) || (decide (16 ≤ f) && decide (f ≤ 25))
  | 0x29 => decide (f ≤ 8) || (decide (16 ≤ f) && decide (f ≤ 25))
  | 0x2A => decide (f ≤ 8) || (decide (16 ≤ f) && decide (f ≤ 25))
  | 0x2B => decide (f < 13)
  | 0x2C => decide (f < 13)
  | 0x2D => decide (f < 6)
  | 0x2E => decide (f < 6)
  | 0x30 => decide (f < 9)
  | 0x31 => f == 0
  | 0x32 => decide (f < 3)
  | 0x33 => decide (f < 3)
  | 0x34 => decide (f < 3)
  | 0x35 => f == 0
  | 0x36 => f == 0
  | 0x37 => decide (f < 2)
  | 0x38 => decide (f < 8)
  | 0x39 => decide (f < 4)
  | 0x3C => decide (f < 12)
  | 0x3D => decide (f < 2)
  | _ => fnDefined op f

/-- Major opcode 0x00, and every reserved major opcode or FN. -/
def execIllegal (c : Nat) (s : State) : Out :=
  act s (fun d => d.issue c (fun w => !fnLegal (opOf w) (fnOf w)) (fun d w => d.illegal c w))

/-! ### START (R77-R81) -/

/-- Every 64-bit counter that START sets to zero. -/
def startCounters : List Fld :=
  [CORE_MNG_BLOCKS.BLOCKS, CORE_ARR_STEPS.STEPS, CORE_ARR_VECS.VECS, CORE_ARR_CHECKED.CHECKED, CORE_VEC_INSTR.INSTR,
   CORE_VEC_VALUES.VALUES, CORE_MSG_SENT.COUNT, CORE_MSG_RCVD.COUNT, CORE_MSG_NACKS.COUNT, CORE_SLC_PIM_CMDS.CMDS,
   CORE_SLC_PIM_WORDS.WORDS, CORE_ARR_FRZ_ACT.CYCLES, CORE_ARR_FRZ_WGT.CYCLES, CORE_ARR_FRZ_DRN.CYCLES,
   CORE_VEC_BUSY_CYC.CYCLES, CORE_VEC_STALL_BANK.CYCLES, CORE_VEC_STALL_ACC.CYCLES, CORE_VEC_STALL_HAZ.CYCLES,
   CORE_SLC_PIM_WIN_WAIT.CYCLES, CORE_SLC_PIM_YIELD_CYC.CYCLES]

/-- Clear the scratchpad, accumulator memory and codebook table of a core (R78 step 2). -/
def Dev.clearLocal (d : Dev) (c : Nat) : Dev :=
  { d with lmem := d.lmem.filter (fun e => e.1 / 0x100000 != c), lue := FMap.drop d.lue (fun k => k / 0x100000 == c),
           lce := FMap.drop d.lce (fun k => k / 0x100000 == c) }

/-- STATE becomes LOADING; the queues and counters of the previous program go (R78, R327, R331). `wipe` clears local
memory whatever the tenant was. -/
def Dev.beginLoad (d : Dev) (c : Nat) (wipe : Bool) : Dev :=
  let tenant := d.rd CORE_SEQ_TENANT.TENANT c
  let changed := (d.core c).prevTenant != some tenant
  let d := d.wr CORE_SEQ_STAT.STATE 1 c
  let d := if changed || wipe then d.clearLocal c else d
  let d := if changed && !(d.core c).recvq.isEmpty then d.wr CORE_MSG_STAT.DROP_SEEN 1 c else d
  let d := startCounters.foldl (fun d f => d.wr f 0 c) d
  let d := (List.range 8).foldl (fun d n => d.wr CORE_DMA_CHn_BYTES.BYTES 0 c n) d
  d.updCore c (fun k =>
    { k with prevTenant := some tenant, recvq := if changed then [] else k.recvq, dma := [], mcks := ⟨false, false, 0, 0⟩,
             halting := none, wait := .run, traps := [] })

/-- START is discarded (R68, R81). -/
def Dev.startRefused (d : Dev) (c : Nat) : Bool :=
  d.rd CORE_SEQ_STAT.STATE c == 1 || d.rd CORE_SEQ_STAT.STATE c == 2 || d.bit CORE_SEQ_STAT.WITHDRAWN c ||
  !d.coreEnabled c || d.coreCurtained c

def Dev.ctrlLost (d : Dev) (c : Nat) : Dev := d.wr CORE_SEQ_STAT.CTRL_LOST 1 c

def Dev.startCore (d : Dev) (c : Nat) : Dev := if d.startRefused c then d.ctrlLost c else d.beginLoad c false

/-- What starts a program: the settings of steps 2 to 8 of R77. -/
structure Prog where
  tenant : Nat
  image : Nat
  count : Nat
  entry : Nat
  tvecValid : Bool
  tvec : Nat
  fp8Sat : Bool
  args : List Nat
  deriving DecidableEq, Repr

/-- Write a core's program settings. -/
def Dev.writeProg (d : Dev) (c : Nat) (p : Prog) : Dev :=
  let d := (d.wr CORE_SEQ_LOAD_LO.DA_LO (p.image / 8) c).wr CORE_SEQ_LOAD_HI.DA_HI (p.image / 2 ^ 32) c
  let d := (d.wr CORE_SEQ_LOAD_LEN.COUNT p.count c).wr CORE_SEQ_ENTRY.INDEX p.entry c
  let d := (d.wr CORE_SEQ_TVEC.VALID (if p.tvecValid then 1 else 0) c).wr CORE_SEQ_TVEC.INDEX p.tvec c
  let d := (d.wr CORE_SEQ_TENANT.TENANT p.tenant c).wr CORE_SEQ_CTRL.FP8_SAT (if p.fp8Sat then 1 else 0) c
  (List.range 4).foldl (fun d i => d.wr CORE_SEQ_ARGn.VALUE (p.args.getD i 0) c i) d

/-! ### Halts (R81, R82) -/

/-- A queue's START that waits for core `c` ends when the core enters HALTED (R459). -/
def Dev.hqHalted (d : Dev) (c cause : Nat) : Dev :=
  let res := (0, cause * 2 ^ 16 + d.rd CORE_SEQ_EXIT.CODE c, 0)
  { d with hqs := d.hqs.map (fun e => (e.1, { e.2 with cmds := e.2.cmds.map (fun k =>
      if k.core = some c ∧ k.ended = none then { k with ended := some res, core := none } else k) })) }

/-- STATE becomes HALTED with a cause, and a core event is raised. -/
def Dev.enterHalted (d : Dev) (c cause : Nat) : Dev :=
  let d := (d.wr CORE_SEQ_STAT.STATE 3 c).wr CORE_SEQ_STAT.HALT_CAUSE cause c
  let d := (d.sleep c false).updCore c (fun k => { k with halting := none, wait := .run, traps := [] })
  (d.hqHalted c cause).event 0 (d.corePart c)

/-- HALT_REQ (R81). -/
def Dev.haltReq (d : Dev) (c : Nat) : Dev :=
  let halting := fun (d : Dev) => d.updCore c (fun k => { k with halting := some 2 })
  if d.rd CORE_SEQ_STAT.STATE c = 1 then halting d
  else if !d.running c || (d.core c).halting != none then d
  else
    match (d.core c).wait with
    | .run => halting (d.sleep c false)
    | .cue 1 cue rd notrap _ => halting (d.setWait c (.cue 1 cue rd notrap true))
    | .barrier n _ _ _ =>
      -- the arrival of an abandoned BSYNC is withdrawn, so that it can be issued again
      let d := if fnOf (d.instr c) = 0 then d.barrWithdraw c n else d
      halting ((d.sleep c false).setWait c .run)
    | .seq _ => if (d.core c).seqHeld.isSome then halting (d.seqWithdraw c) else halting d
    | _ => halting d

/-- RESUME (R81). -/
def Dev.resumeCore (d : Dev) (c : Nat) : Dev :=
  if d.rd CORE_SEQ_STAT.STATE c = 3 ∧ d.rd CORE_SEQ_STAT.HALT_CAUSE c = 2 ∧ d.coreCurtained c = false
  then d.wr CORE_SEQ_STAT.STATE 2 c else d.ctrlLost c

/-- A write of CORE_SEQ_CTRL: HALT_REQ acts before START, which it discards. -/
def Dev.coreCtrl (d : Dev) (c v : Nat) : Dev :=
  let d := d.wr CORE_SEQ_CTRL.FP8_SAT v c
  let start := v.testBit 31
  let halt := v.testBit 30
  let d := if halt then d.haltReq c else d
  let d := if start then (if halt then d.ctrlLost c else d.startCore c) else d
  if v.testBit 29 then d.resumeCore c else d

/-- Writes of CORE_SEQ_CTRL with one bit set for the row; `v` holds the other bits of the word. -/
def execCoreStart (c v : Nat) (s : State) : Out := act s (fun d => d.coreReg c (fun d => d.coreCtrl c (v % 2 ^ 32 ||| 2 ^ 31)))
def execHaltReq (c v : Nat) (s : State) : Out := act s (fun d => d.coreReg c (fun d => d.coreCtrl c (v % 2 ^ 32 ||| 2 ^ 30)))
def execResume (c v : Nat) (s : State) : Out := act s (fun d => d.coreReg c (fun d => d.coreCtrl c (v % 2 ^ 32 ||| 2 ^ 29)))

/-- A write of CORE_SEQ_TENANT (R81). -/
def Dev.writeTenant (d : Dev) (c v : Nat) : Dev :=
  if d.rd CORE_SEQ_STAT.STATE c = 1 ∨ d.running c then d.ctrlLost c else d.wr CORE_SEQ_TENANT.TENANT v c

def execCoreSeqTenantWrite (c v : Nat) (s : State) : Out := act s (fun d => d.coreReg c (fun d => d.writeTenant c v))

/-! ### The image (R78, R79) -/

/-- Why a load ends: LOAD_CHECK, or an error completion with its record's class. -/
inductive LoadEnd where
  | check
  | error (cls : Nat)
  deriving DecidableEq, Repr

/-- The error completion of an image block, by its record's class: a DA that addresses nothing, or a slice or route that is
lost. The sequencer's read is no access of a program: R453 names none, so partition protection does not check it. -/
def Dev.loadRefused (d : Dev) (c da : Nat) : Option Nat :=
  match d.daRefused da with
  | some cls => some cls
  | none => if d.meshLost (coreCluster c) (daCore da / 16) then some 4 else none

/-- Read `n` bytes of the image from `da`, block by block: the value, or why the load ends. -/
def Dev.loadImage (c : Nat) : Nat → Nat → Nat → Dev → (Nat ⊕ LoadEnd) × Dev
  | 0, _, _, d => (.inl 0, d)
  | fuel + 1, da, n, d =>
    if n = 0 then (.inl 0, d)
    else
      let k := min n (4096 - da % 4096)
      match d.loadRefused c da with
      | some cls => (.inr (.error cls), d.err cls 6 (unitCore c 0 0) da)
      | none =>
        let a := d.seenDa (coreHalf c) da
        let r := d.dmaRead c a k 0 false 6
        if r.1.ue || r.1.poison || (wholeBlock da k && r.2.blkWrong a r.1.val) || (!wholeBlock da k && r.2.chkWrong a) then (.inr .check, r.2)
        else
          let rest := Dev.loadImage c fuel (da + k) (n - k) r.2
          (match rest.1 with
           | .inl v => .inl (r.1.val + 256 ^ k * v)
           | .inr e => .inr e, rest.2)

/-- The DA of the image. -/
def Dev.imageDa (d : Dev) (c : Nat) : Nat :=
  d.rd CORE_SEQ_LOAD_LO.DA_LO c * 8 + d.rd CORE_SEQ_LOAD_HI.DA_HI c * 2 ^ 32

/-- Fill instruction memory: `n` words of an image, zero in every index above. -/
def Dev.fillImem (d : Dev) (c n image : Nat) : Dev :=
  { d with imem := (List.range n).foldl (fun m i => FMap.put m 0 (c * 2048 + i) (BitVec.ofNat 64 (image / 2 ^ (64 * i))))
                     (FMap.drop d.imem (fun k => k / 2048 == c)) }

/-- Steps 4 to 6 of R78. -/
def Dev.beginProgram (d : Dev) (c : Nat) : Dev :=
  let arg := fun i => BitVec.ofNat 64 (d.rd CORE_SEQ_ARGn.VALUE c i)
  let d := d.updCore c (fun k =>
    { k with s := [(1, arg 0), (2, arg 1), (3, arg 2), (4, arg 3)], desc := [], loops := [] })
  let d := (d.wr CORE_SEQ_STAT.IN_TRAP 0 c).wr CORE_SEQ_RETIRED.RETIRED 0 c
  let d := d.wr CORE_SEQ_STAT.FP8_SAT (d.rd CORE_SEQ_CTRL.FP8_SAT c) c
  (d.wr CORE_SEQ_PC.PC (d.rd CORE_SEQ_ENTRY.INDEX c) c).wr CORE_SEQ_STAT.STATE 2 c

/-- The image read ends (R78, R79). -/
def programLoadDone (c : Nat) (d : Dev) : Dev :=
  if d.rd CORE_SEQ_STAT.STATE c ≠ 1 then d
  else
    let n := d.rd CORE_SEQ_LOAD_LEN.COUNT c
    let halt := fun (cause : Nat) (d : Dev) => (d.err 12 6 (unitCore c 0 0) 0).enterHalted c cause
    match Dev.loadImage c (n + 2) (d.imageDa c) (8 * n) d with
    | (.inr .check, d) => halt 5 d
    | (.inr (.error _), d) => halt 6 d
    | (.inl image, d) =>
      let stop := (d.core c).halting
      let d := (d.fillImem c n image).beginProgram c
      if stop = none then d else d.enterHalted c 2

def execProgramLoadDone (c : Nat) (s : State) : Out := act s (programLoadDone c)

/-- The core's units are empty (R82). -/
def CoreSt.drained (k : CoreSt) : Bool :=
  k.mxq.isEmpty && k.vq.isEmpty && k.vwr.isEmpty && k.pimq.isEmpty && k.sendq.isEmpty && k.dma.all (fun e => e.2.quiet)

def haltDrainDone (c : Nat) (d : Dev) : Dev :=
  match (d.core c).halting, (d.core c).wait with
  | some cause, .run => if d.running c && (d.core c).drained then d.enterHalted c cause else d
  | _, _ => d

def execHaltDrainDone (c : Nat) (s : State) : Out := act s (haltDrainDone c)

end Sys2Proof.Machine
end

