-- ==== Sys2Proof/Machine/HostQueue.lean ====
section
/-! DEFINITION. Host queues (R456-R463): doorbells, commands and their completions, and the host DMA engine. -/
namespace Sys2Proof.Machine
open Sys2Proof

/-! ### Functions and tenants (R445, R454, R455, R466) -/

/-- The tenants whose valid entries satisfy `p`, in rising order. -/
def Dev.tenantsWhere (d : Dev) (p : Nat → Bool) : List Nat := (List.range 4096).filter (fun t => (d.tenantEntry t).1.any p)

/-- The tenant of a BAR4 page of a function, and whether a second one matches. -/
def Dev.pageTenant (d : Dev) (func page : Nat) : Option Nat × Bool :=
  if func < 2 then (some (page % 4096), false)
  else
    let ts := d.tenantsWhere (fun e => tenFunc e == func && tenPage e == page)
    (ts.head?, decide (1 < ts.length))

/-- The tenant is inside a tenant Curtain, and its doorbells are discarded. -/
def Dev.tenantResetting (d : Dev) (t : Nat) : Bool := d.curtains.any (fun k => k.scope == .tenant t)

/-- The tenant is inside a Curtain of its own or of its partition, and starts nothing. -/
def Dev.tenantCurtained (d : Dev) (t : Nat) : Bool :=
  d.tenantResetting t || (d.tenantEntry t).1.any (fun e => d.curtains.any (fun k => k.scope == .part (tenPart e)))

/-! ### Queue pairs (R456) -/

def Dev.hq (d : Dev) (q : Nat) : HqSt := FMap.get d.hqs HqSt.init q
def Dev.updHq (d : Dev) (q : Nat) (f : HqSt → HqSt) : Dev := { d with hqs := FMap.upd d.hqs HqSt.init q f }
def Dev.updCmd (d : Dev) (q num : Nat) (f : HqCmd → HqCmd) : Dev :=
  d.updHq q (fun s => { s with cmds := s.cmds.map (fun k => if k.num = num then f k else k) })

def Dev.qpValid (d : Dev) (q : Nat) : Bool := d.bit HQ_QPn_CTRL.VALID (q / 1024) (q % 1024)
def Dev.qpTenant (d : Dev) (q : Nat) : Nat := d.rd HQ_QPn_CTRL.TENANT (q / 1024) (q % 1024)

/-- A command ends with a status, a completion word 2 and its bytes done. -/
def Dev.hqEnd (d : Dev) (q num status w2 bytes : Nat) : Dev :=
  d.updCmd q num (fun k => if k.ended = none then { k with ended := some (status, w2, bytes), core := none } else k)

/-! ### Doorbells (R457) -/

/-- The queue pairs that a doorbell of tenant `t`, slot `j` matches, by device queue number. -/
def Dev.doorbellHits (d : Dev) (t j : Nat) : List Nat :=
  (List.range 2048).filter (fun q =>
    d.qpValid q && d.qpTenant q == t && d.rd HQ_QPn_CTRL.SLOT (q / 1024) (q % 1024) == j)

/-- An index at most one ring ahead of another. -/
def Dev.ringIdx (d : Dev) (q old new lg : Nat) : Nat × Dev :=
  let r := ringAhead old new lg
  (r.1, if r.2 then d.clampQueue (q / 1024) else d)

/-- A write to a doorbell page: `off` is the offset within the function's BAR4. -/
def Dev.doorbell (d : Dev) (func off bytes v : Nat) : Dev :=
  let h := d.funcHalf func
  let lost := fun (d : Dev) => d.wr HQ_STAT.DB_LOST 1 h
  let o := off % 4096
  let pt := d.pageTenant func (off / 4096)
  let d := if pt.2 then d.wr HQ_STAT.MULTI_HIT 1 h else d
  if bytes ≠ 4 ∨ o % 8 ≠ 0 ∨ 64 ≤ o % 0x800 then lost d
  else
    match pt.1 with
    | none => lost d
    | some t =>
      let e := d.tenantEntry t
      let d := e.2
      if e.1.isNone || d.tenantResetting t then lost d
      else
        match d.doorbellHits t (o % 0x800 / 8) with
        | [] => lost d
        | q :: more =>
          let d := if more.isEmpty then d else d.wr HQ_STAT.MULTI_HIT 1 h
          if o < 0x800 then
            let r := d.ringIdx q (d.rd HQ_QPn_IDX.SQ_CI (q / 1024) (q % 1024)) v
              (d.rd HQ_QPn_SIZE.SQ_LOG2 (q / 1024) (q % 1024))
            r.2.updHq q (fun s => { s with sqPi := r.1 })
          else
            let r := d.ringIdx q (d.hq q).cqCi v (d.rd HQ_QPn_SIZE.CQ_LOG2 (q / 1024) (q % 1024))
            r.2.updHq q (fun s => { s with cqCi := r.1 })

/-- The offset is that of a completion doorbell. -/
def isCqOff (off : Nat) : Bool := decide (0x800 ≤ off % 4096)

def execHqSqDoorbell (func off bytes v : Nat) (s : State) : Out :=
  act s (fun d => if isCqOff off then d else d.doorbell func off bytes v)
def execHqCqDoorbell (func off bytes v : Nat) (s : State) : Out :=
  act s (fun d => if isCqOff off then d.doorbell func off bytes v else d)

/-! ### Starting a command (R458, R460) -/

def HqCmd.op (k : HqCmd) : Nat := word32 k.entry 0 / 2 ^ 28
def HqCmd.fence (k : HqCmd) : Bool := word32 k.entry 0 / 2 ^ 27 % 2 == 1
def HqCmd.irq (k : HqCmd) : Bool := word32 k.entry 0 / 2 ^ 26 % 2 == 1
/-- DIR of a COPY; 3 takes 2. -/
def HqCmd.dir (k : HqCmd) : Nat := min 2 (word32 k.entry 0 / 2 ^ 24 % 4)
def HqCmd.hint (k : HqCmd) : Nat := word32 k.entry 7 % 4
/-- LEN, a multiple of 32. -/
def HqCmd.len (k : HqCmd) : Nat := nearMul 32 (word32 k.entry 1)
/-- The host address, 4 B aligned, or source DA, 32 B aligned. -/
def HqCmd.src (k : HqCmd) : Nat :=
  nearMul (if k.op = 1 ∧ k.dir = 2 then 32 else 4) (word32 k.entry 2 + word32 k.entry 3 * 2 ^ 32)
def HqCmd.rawDa (k : HqCmd) : Nat := word32 k.entry 4 + word32 k.entry 5 * 2 ^ 32
/-- The DA, 32 B aligned. -/
def HqCmd.da (k : HqCmd) : Nat := nearMul 32 k.rawDa
def HqCmd.copies (k : HqCmd) : Bool := k.op == 1 || k.op == 2
def HqCmd.cuev (k : HqCmd) : Bool := word32 k.entry 6 / 2 ^ 31 == 1
def HqCmd.cueN (k : HqCmd) : Nat := max 1 (word32 k.entry 6 / 2 ^ 16 % 2 ^ 8)
def HqCmd.cue (k : HqCmd) : Nat := word32 k.entry 6 % 2 ^ 14
def HqCmd.coreNo (k : HqCmd) : Nat := word32 k.entry 1 % 2 ^ 12
def HqCmd.namesCore (k : HqCmd) : Bool := k.op == 3 || k.op == 4 || k.op == 5
def HqCmd.ctx (k : HqCmd) : Nat := word32 k.entry 1 % 2 ^ 15
def HqCmd.count (k : HqCmd) : Nat := max 1 (min 2048 (word32 k.entry 1 / 2 ^ 16 % 2 ^ 12))

/-- How many fields of an entry are outside their range (R458). -/
def HqCmd.clamps (k : HqCmd) : Nat :=
  let b := fun (x : Bool) => if x then 1 else 0
  b (k.cuev && word32 k.entry 6 / 2 ^ 16 % 2 ^ 8 == 0) +
  b (k.copies && k.len != word32 k.entry 1) + b (k.copies && k.da != k.rawDa) +
  b (k.op == 1 && k.src != word32 k.entry 2 + word32 k.entry 3 * 2 ^ 32) +
  b (k.op == 1 && word32 k.entry 0 / 2 ^ 24 % 4 == 3) +
  b (k.op == 3 && k.count != word32 k.entry 1 / 2 ^ 16 % 2 ^ 12)

/-- Host DMA commands in flight on a half. -/
def Dev.hdmaCmds (d : Dev) (h : Nat) : List HqCmd :=
  (d.hqs.filter (fun e => e.1 / 1024 == h)).flatMap (fun e => e.2.cmds.filter (fun k => k.copies && k.ended.isNone))

/-- Partition protection of a register inside a core's window, for a partition. -/
def Dev.protReg (d : Dev) (h part off : Nat) (write : Bool) : Bool × Dev := d.prot h (some part) (2 ^ 47 + off) write

/-- The queue pair takes its next entry, `entry`, when it may start it (R460), and `run` gives its effect, with the
partition of its tenant. An entry that a Curtain reached unread ends with the Curtain's status (R466). -/
def Dev.hqTake (d : Dev) (q entry : Nat) (isOp : Nat → Bool) (run : Nat → HqCmd → Dev → Dev) : Dev :=
  let h := q / 1024
  let n := q % 1024
  let s := d.hq q
  let ci := d.rd HQ_QPn_IDX.SQ_CI h n
  let t := d.qpTenant q
  let k : HqCmd := { num := s.num, tenant := t, entry := entry, pos := 0, core := none, ended := none, drop := false }
  let live := s.cmds.filter (fun k => !k.drop)
  let e := d.tenantEntry t
  let full := 2 ^ d.rd HQ_QPn_SIZE.CQ_LOG2 h n ≤
    (d.rd HQ_QPn_IDX.CQ_PI h n + 2 ^ 16 - s.cqCi) % 2 ^ 16 + live.length
  let next := (ci + 1) % 2 ^ 16
  let push := fun (k : HqCmd) (d : Dev) => (d.wr HQ_QPn_IDX.SQ_CI next h n).updHq q (fun s =>
    { s with num := s.num + 1, cmds := s.cmds ++ [k],
             flush := match s.flush with | some (_, upto) => if upto = next then none else s.flush | none => none })
  if 2048 ≤ q || !d.qpValid q || ci == s.sqPi || !isOp k.op || full then d
  else
    match s.flush with
    | some (status, _) => push { k with ended := some (status, 0, 0) } d
    | none =>
      let busy := d.hdmaCmds h
      let room := !k.copies || (decide (busy.length < 64) &&
        e.1.any (fun e => decide ((busy.filter (fun b => b.tenant == t)).length < tenHdmaMax e)))
      let home := (e.1.bind (fun v => d.ctxDa (tenPart v) k.ctx)).map (fun da => daCore da / 16)
      let wait := (k.fence && !live.isEmpty) || d.tenantCurtained t || (e.1.isSome && !room) ||
        (k.namesCore && d.coreCurtained k.coreNo) || (k.op == 7 && home.any d.clusterCurtained)
      if wait then d
      else
        let d := push k e.2
        let d := (List.range k.clamps).foldl (fun d _ => d.clampQueue h) d
        match e.1 with
        | none => d.hqEnd q k.num 4 0 0
        | some v =>
          let p := tenPart v
          if k.cuev && d.partOf (cueCluster k.cue) != some p then d.hqEnd q k.num 4 0 0
          else run p k d

/-- The command succeeds: its cue is signalled, and it ends OK. -/
def Dev.hqOk (d : Dev) (q : Nat) (k : HqCmd) (part w2 : Nat) : Dev :=
  let d := if k.cuev then (d.cuePerform 0 k.cue k.cueN false k.tenant (some part) 0 false).2 else d
  d.hqEnd q k.num 0 w2 0

/-! ### Commands without a transfer (R459) -/

/-- A NOP; OP 10 to 15 act as NOP. -/
def execHqNop (q entry : Nat) (s : State) : Out :=
  act s (fun d => d.hqTake q entry (fun o => o == 0 || decide (10 ≤ o)) (fun p k d => d.hqOk q k p 0))

def execHqSignal (q entry : Nat) (s : State) : Out :=
  act s (fun d => d.hqTake q entry (fun o => o == 6) (fun p k d => d.hqOk q k p 0))

/-- Why a command that names a core ends at once: protection (R28 records the access, with the DA of the core's CTRL
register), the core not ENABLED, or WITHDRAWN for Rehearsal. -/
def Dev.hqCore (d : Dev) (q : Nat) (k : HqCmd) (part : Nat) (f : Dev → Dev) : Dev :=
  let c := k.coreNo
  let p := d.protReg (q / 1024) part (CORE_SEQ_CTRL.addr c 0 0) true
  if !p.1 then
    (p.2.err 3 2 (unitHalf (q / 1024) 18 0) (2 ^ 47 + CORE_SEQ_CTRL.addr c 0 0)).hqEnd q k.num 4 0 0
  else if !p.2.coreEnabled c then p.2.hqEnd q k.num 2 0 0
  else if p.2.bit CORE_SEQ_STAT.WITHDRAWN c then p.2.hqEnd q k.num 1 0 0
  else f p.2

/-- The program that a START names. An image value that names no DA (R26) goes into CORE_SEQ_LOAD_ as 0x7FFF_FFFF_FFF8,
which addresses nothing either, since those registers hold 48 bits (DESIGN CHOICE, log entry 71). -/
def HqCmd.prog (k : HqCmd) : Prog :=
  { tenant := k.tenant, image := (daOf k.rawDa).getD 0x7FFFFFFFFFF8, count := k.count, entry := word32 k.entry 2 % 2 ^ 11,
    tvecValid := word32 k.entry 1 / 2 ^ 30 % 2 == 1, tvec := word32 k.entry 2 / 2 ^ 16 % 2 ^ 11,
    fp8Sat := word32 k.entry 1 / 2 ^ 31 == 1,
    args := (List.range 4).map (fun i => word32 k.entry (8 + 2 * i) + word32 k.entry (9 + 2 * i) * 2 ^ 32) }

/-- START: it waits for the core to enter HALTED, and its cue is signalled when the command ends. -/
def execHqStart (q entry : Nat) (s : State) : Out :=
  act s (fun d => d.hqTake q entry (fun o => o == 3) (fun p k d => d.hqCore q k p (fun d =>
    let c := k.coreNo
    if d.rd CORE_SEQ_STAT.STATE c = 1 ∨ d.running c then d.hqEnd q k.num 10 0 0
    else ((d.updCmd q k.num (fun k => { k with core := some c })).writeProg c k.prog).startCore c)))

def execHqHalt (q entry : Nat) (s : State) : Out :=
  act s (fun d => d.hqTake q entry (fun o => o == 4) (fun p k d => d.hqCore q k p (fun d =>
    (d.haltReq k.coreNo).hqOk q k p 0)))

def execHqResume (q entry : Nat) (s : State) : Out :=
  act s (fun d => d.hqTake q entry (fun o => o == 5) (fun p k d => d.hqCore q k p (fun d =>
    (d.resumeCore k.coreNo).hqOk q k p 0)))

/-- SQEVICT (R188, R198): the context lies in the partition's range and belongs to the tenant. -/
def hqSqevict (q part : Nat) (k : HqCmd) (d : Dev) : Dev :=
  match d.ctxDa part k.ctx with
  | none => d.hqEnd q k.num 4 0 0
  | some da =>
    let g := homeOf da (q / 1024 * 128)
    let r := d.agentRead g (some part) da 64
    match r.1 with
    | none => (r.2.ctxRewrite g part k.tenant da).hqEnd q k.num 11 7 0
    | some rec =>
      if ctxState rec ≠ 0 ∧ ctxTenant rec ≠ k.tenant then r.2.hqEnd q k.num 4 0 0
      else if !seqAllowed 5 (ctxState rec) (r.2.seqWaiter da).isSome then r.2.hqEnd q k.num 11 5 0
      else
        let o := r.2.sqEvict g part k.tenant 0 da rec
        if o.val = 0 ∧ o.fault = 0 then o.dev.hqOk q k part 0 else o.dev.hqEnd q k.num 11 o.val 0

def execHqSqevict (q entry : Nat) (s : State) : Out :=
  act s (fun d => d.hqTake q entry (fun o => o == 7) (fun p k d => hqSqevict q p k d))

/-! ### COPY and FILL (R463) -/

/-- The PASID that a tenant's host requests carry (R450). -/
def tenPasid (e : Nat) : Option Nat := if e / 2 ^ 63 % 2 = 1 then some (e / 2 ^ 32 % 2 ^ 20) else none

/-- A transfer ends with a fault after the bytes moved so far (R470). -/
def Dev.hdmaFail (d : Dev) (q : Nat) (k : HqCmd) (status : Nat) : Dev :=
  let h := q / 1024
  let d := d.addSat HDMA_FAULT_CNT.COUNT 1 h
  let d := if 6 ≤ status then d.wr HDMA_STAT.UE_SEEN 1 h else d
  d.hqEnd q k.num status 0 k.pos

/-- `n` bytes have moved; with the last the command succeeds. -/
def Dev.hdmaMoved (d : Dev) (q : Nat) (k : HqCmd) (part n : Nat) : Dev :=
  let d := d.updCmd q k.num (fun k => { k with pos := k.pos + n })
  if k.pos + n = k.len then d.hqOk q k part 0 else d

/-- A transfer ends on a DA that is refused: R28 records the access. -/
def Dev.hdmaRefuse (d : Dev) (q : Nat) (k : HqCmd) (op da : Nat) : Dev :=
  (d.err ((d.daRefused da).getD (if d.halfLost (q / 1024) (daCore da / 16) then 4 else 3)) op (unitHalf (q / 1024) 18 0) da).hdmaFail q k 4

/-- The bytes of `n` from a DA that the partition may access, from the first. -/
def Dev.hdmaAllowed (h part : Nat) (write : Bool) : Nat → Nat → Nat → Dev → Nat × Dev
  | 0, _, _, d => (0, d)
  | fuel + 1, da, n, d =>
    if n = 0 ∨ (d.daRefused da).isSome ∨ d.halfLost h (daCore da / 16) = true then (0, d)
    else
      let p := d.prot h (some part) da write
      if !p.1 then (0, p.2)
      else
        let k := min n (128 - da % 128)
        let r := Dev.hdmaAllowed h part write fuel (da + k) (n - k) p.2
        (k + r.1, r.2)

/-- Write `n` bytes that are at hand to the command's DA, with check values as OUT gives them (R323). -/
def Dev.hdmaOut (d : Dev) (q : Nat) (k : HqCmd) (part n v : Nat) : Dev :=
  let a := Dev.hdmaAllowed (q / 1024) part true (n / 128 + 2) (k.da + k.pos) n d
  if a.1 = 0 then a.2.hdmaRefuse q k 2 (k.da + k.pos)
  else (a.2.dmaWrite 0 (d.seenDa (q / 1024) (k.da + k.pos)) a.1 v k.hint true false).hdmaMoved q k part a.1

/-- DA to DA follows MOVE (R324). -/
def Dev.hdmaMove (d : Dev) (q : Nat) (k : HqCmd) (part n : Nat) : Dev :=
  let src := k.src + k.pos
  let dst := k.da + k.pos
  let a := Dev.hdmaAllowed (q / 1024) part false (n / 128 + 2) src n d
  let b := Dev.hdmaAllowed (q / 1024) part true (n / 128 + 2) dst a.1 a.2
  if a.1 = 0 then a.2.hdmaRefuse q k 1 src
  else if b.1 = 0 then b.2.hdmaRefuse q k 2 dst
  else
    let src := d.seenDa (q / 1024) src
    let dst := d.seenDa (q / 1024) dst
    let r := b.2.dmaRead 0 src b.1 k.hint true
    if r.1.ue then r.2.hdmaFail q k 8
    else if wholeBlock src b.1 && wholeBlock dst b.1 then
      let wrong := !r.1.poison && r.2.blkWrong src r.1.val
      let d := r.2.dmaWrite 0 dst b.1 r.1.val k.hint true (r.1.poison || wrong)
      if wrong then (d.err 8 2 (unitCore (daCore dst) 7 0) dst).hdmaFail q k 6 else d.hdmaMoved q k part b.1
    else (r.2.dmaWrite 0 dst b.1 r.1.val k.hint true false).hdmaMoved q k part b.1

/-- DA to host: a block that mismatches or is poisoned ends the command; its bytes in host memory are undefined. -/
def Dev.hdmaIn (d : Dev) (q : Nat) (k : HqCmd) (part n : Nat) : Dev :=
  let src := k.da + k.pos
  let a := Dev.hdmaAllowed (q / 1024) part false (n / 128 + 2) src n d
  if a.1 = 0 then a.2.hdmaRefuse q k 1 src
  else
    let src := d.seenDa (q / 1024) src
    let r := a.2.dmaRead 0 src a.1 k.hint true
    let e := r.2.tenantEntry k.tenant
    let func := tenFunc (e.1.getD 0)
    let put := fun (v : Nat) (d : Dev) => d.emit (.hostWrite func (e.1.bind tenPasid) (k.src + k.pos) a.1 v)
    if r.1.ue then e.2.hdmaFail q k 8
    else if wholeBlock src a.1 && (r.1.poison || e.2.blkWrong src r.1.val) then
      let v := e.2.draw (8 * a.1)
      (put v.1.toNat v.2).hdmaFail q k (if r.1.poison then 7 else 6)
    else
      ((put r.1.val e.2).add HDMA_BYTES_OUT.BYTES a.1 (q / 1024)).hdmaMoved q k part a.1

/-- The next request of a started COPY or FILL: it does not cross a 4 KiB block of a DA. `v` is the data that the host
returns, `hostOk` that the host address translated and completed without error, `misses` the translation requests it
sent (R450). -/
def Dev.hdmaStep (d : Dev) (q num v : Nat) (hostOk : Bool) (misses : Nat) (op : Nat) : Dev :=
  match (d.hq q).cmds.find? (fun k => k.num == num && k.ended.isNone && k.op == op) with
  | none => d
  | some k =>
    let e := d.tenantEntry k.tenant
    match e.1 with
    | none => e.2.hdmaFail q k 4
    | some ent =>
      let d := e.2
      let part := tenPart ent
      let left := k.len - k.pos
      let n := min left (toBlockEnd (k.da + k.pos : Nat))
      let host := op == 1 && k.dir != 2
      let d := if host then d.add PCIE_ATC_MISS.COUNT misses (d.funcHalf (tenFunc ent)) else d
      if left = 0 then d.hqOk q k part 0
      else if host && !hostOk then d.hdmaFail q k 5
      else if op = 2 then d.hdmaOut q k part n (fillVal (word32 k.entry 8) (n / 4))
      else if k.dir = 0 then (d.add HDMA_BYTES_IN.BYTES n (q / 1024)).hdmaOut q k part n (v % 256 ^ n)
      else if k.dir = 1 then d.hdmaIn q k part n
      else d.hdmaMove q k part n

/-- A COPY: without `num` it is the next entry of the ring and starts; with `num` the started command goes on. -/
def execHqCopy (q : Nat) (num : Option Nat) (v : Nat) (hostOk : Bool) (misses : Nat) (s : State) : Out :=
  act s (fun d =>
    match num with
    | none => d.hqTake q v (fun o => o == 1) (fun _ _ d => d)
    | some num => d.hdmaStep q num v hostOk misses 1)

def execHqFill (q : Nat) (num : Option Nat) (entry : Nat) (s : State) : Out :=
  act s (fun d =>
    match num with
    | none => d.hqTake q entry (fun o => o == 2) (fun _ _ d => d)
    | some num => d.hdmaStep q num 0 true 0 2)

/-! ### Completion (R460, R461) -/

/-- A command that has ended writes its completion entry and may send the vector. A START that ended OK signals its cue
first. -/
def hqComplete (q num : Nat) (d : Dev) : Dev :=
  let h := q / 1024
  let n := q % 1024
  match (d.hq q).cmds.find? (fun k => k.num == num) with
  | none => d
  | some k =>
    match k.ended with
    | none => d
    | some (status, w2, bytes) =>
      let e := d.tenantEntry k.tenant
      let d := if k.op = 3 ∧ status = 0 ∧ k.cuev then
          (e.2.cuePerform 0 k.cue k.cueN false k.tenant (e.1.map tenPart) 0 false).2
        else e.2
      let d := (d.add HQ_CMDS.COUNT 1 h).updHq q (fun s => { s with cmds := s.cmds.filter (fun k => k.num != num) })
      if k.drop then d
      else
        let lg := d.rd HQ_QPn_SIZE.CQ_LOG2 h n
        let pi := d.rd HQ_QPn_IDX.CQ_PI h n
        let phase := if pi / 2 ^ lg % 2 = 0 then 1 else 0
        let w0 := status * 2 ^ 24 + word32 k.entry 0 % 2 ^ 16
        let w1 := d.rd HQ_QPn_IDX.SQ_CI h n * 2 ^ 16 + phase
        let func := tenFunc (e.1.getD 0)
        let d := d.emit (.hostWrite func (e.1.bind tenPasid) (d.rd HQ_QPn_CQ.ADDR h n + 16 * (pi % 2 ^ lg)) 16
          (w0 + w1 * 2 ^ 32 + w2 * 2 ^ 64 + (if status = 0 then 0 else bytes) * 2 ^ 96))
        let d := d.wr HQ_QPn_IDX.CQ_PI (pi + 1) h n
        if (k.irq || status != 0) && d.bit HQ_QPn_CTRL.IRQ_EN h n then
          d.sendMsix func (vectorOf func (min 255 (d.rd HQ_QPn_CTRL.VECTOR h n)))
        else d

def execHqCommandComplete (q num : Nat) (s : State) : Out := act s (hqComplete q num)

/-! ### VALID (R456) -/

/-- VALID goes to 0: commands not started are dropped, and completions of started ones are discarded. -/
def Dev.qpClear (d : Dev) (q : Nat) : Dev :=
  let ci := d.rd HQ_QPn_IDX.SQ_CI (q / 1024) (q % 1024)
  (d.wr HQ_QPn_CTRL.VALID 0 (q / 1024) (q % 1024)).updHq q (fun s =>
    { s with sqPi := ci, flush := none, cmds := s.cmds.map (fun k => { k with drop := true }) })

/-- A write of HQ_QPn_CTRL: while VALID is 1 it acts on VALID only. -/
def Dev.qpCtrl (d : Dev) (q v : Nat) : Dev :=
  let h := q / 1024
  let n := q % 1024
  let fs := [HQ_QPn_CTRL.IRQ_EN, HQ_QPn_CTRL.SLOT, HQ_QPn_CTRL.VECTOR, HQ_QPn_CTRL.TENANT]
  if d.qpValid q then
    let differs := fs.any (fun f => v / 2 ^ f.lo % 2 ^ f.width != d.rd f h n)
    let d := if differs then d.wr HQ_STAT.WR_LOST 1 h else d
    if v.testBit 31 then d else d.qpClear q
  else (fs.foldl (fun d f => d.wr f (v / 2 ^ f.lo) h n) d).wr HQ_QPn_CTRL.VALID (v / 2 ^ 31) h n

def execHqQpValidWrite (q v : Nat) (s : State) : Out := act s (fun d => if q < 2048 then d.qpCtrl q v else d)

/-! ### Curtains (R466) -/

/-- A started COPY or FILL is cut: each block of device memory it touched takes the poison check value. -/
def Dev.hdmaCut (d : Dev) (k : HqCmd) : Dev :=
  if k.copies && k.ended.isNone && k.pos != 0 && (k.op == 2 || k.dir != 1) then
    (List.range ((k.da + k.pos - 1) / 4096 - k.da / 4096 + 1)).foldl (fun d i => d.setPoison ((k.da / 4096 + i) * 4096)) d
  else d

/-- A command that has ended with a fault and has no completion yet takes the status of a Curtain, which has precedence
(R462). -/
def HqCmd.curtained (k : HqCmd) (status : Nat) : HqCmd :=
  match k.ended with
  | some (st, _, bytes) => if st = 0 ∨ st = 3 ∨ st = 9 then k else { k with ended := some (status, 0, bytes) }
  | none => k

/-- A Curtain reaches the queue pairs of the tenants that `hit` names: started commands, and entries not yet read, end
with its status. -/
def Dev.hqCurtain (d : Dev) (hit : Nat → Bool) (status : Nat) : Dev :=
  d.hqs.foldl (fun d e =>
    let q := e.1
    let mine := e.2.cmds.filter (fun k => hit k.tenant && k.ended.isNone)
    let d := d.updHq q (fun s => { s with cmds := s.cmds.map (fun k => if hit k.tenant then k.curtained status else k) })
    let d := mine.foldl (fun d k => (d.hdmaCut k).hqEnd q k.num status 0 k.pos) d
    if d.qpValid q && hit (d.qpTenant q) && e.2.sqPi != d.rd HQ_QPn_IDX.SQ_CI (q / 1024) (q % 1024) && e.2.flush.isNone then
      d.updHq q (fun s => { s with flush := some (status, s.sqPi) })
    else d) d

/-- STARTs that wait for core `c` end with a status (R462, R468). -/
def Dev.hqCoreEnd (d : Dev) (c status : Nat) : Dev :=
  { d with hqs := d.hqs.map (fun e => (e.1, { e.2 with cmds := e.2.cmds.map (fun k =>
      if k.core = some c ∧ k.ended = none then { k with ended := some (status, 0, 0), core := none } else k) })) }

end Sys2Proof.Machine
end

