-- ==== Sys2Proof/Machine/Checking.lean ====
section
/-! DEFINITION. The Understudy service (R477-R485, R504) and Rehearsal (R486-R489). -/
namespace Sys2Proof.Machine
open Sys2Proof

/-! ### Memory of the service -/

/-- The service reads memory on the cached path; what addresses nothing reads as zeros (R28). -/
def Dev.chkRead (d : Dev) (inst da n : Nat) : MRes × Dev :=
  match d.daRefused da with
  | some cls => (⟨0, false, false⟩, d.err cls 1 (unitDev 31 inst) da)
  | none => d.cachedRead da n none

def Dev.chkWrite (d : Dev) (da n v : Nat) : Dev :=
  match d.daRefused da with
  | some cls => d.err cls 2 (unitDev 31 2) da
  | none => d.cachedWrite da n v none

/-- The data-only values of `n` blocks from `da`, read through their home caches (R473). -/
def Dev.dataOnly (da : Nat) : Nat → Dev → List Nat × Dev
  | 0, d => ([], d)
  | n + 1, d =>
    let r := d.chkRead 2 da 4096
    let rest := Dev.dataOnly (da + 4096) n r.2
    ((crc32c (bytesOf r.1.val 4096)).toNat :: rest.1, rest.2)

/-- The run digest of a region's data-only values. -/
def runDigest (vs : List Nat) : Nat := (crc32c (vs.flatMap (fun v => bytesOf v 4))).toNat

/-! ### Descriptors (R485) -/

def ChkStep.w (x : ChkStep) (i : Nat) : Nat := word32 x.desc i
def ChkStep.op (x : ChkStep) : Nat := x.w 0 / 2 ^ 28
def ChkStep.cuev (x : ChkStep) : Bool := x.w 0 / 2 ^ 27 % 2 == 1
def ChkStep.cqe (x : ChkStep) : Bool := x.w 0 / 2 ^ 26 % 2 == 1
def ChkStep.force (x : ChkStep) : Bool := x.w 0 / 2 ^ 25 % 2 == 1
def ChkStep.noCheck (x : ChkStep) : Bool := x.w 0 / 2 ^ 24 % 2 == 1
def ChkStep.tenant (x : ChkStep) : Nat := x.w 0 / 2 ^ 12 % 2 ^ 12
def ChkStep.primary (x : ChkStep) : Nat := x.w 0 % 2 ^ 12
def ChkStep.outDa (x : ChkStep) : Nat := x.w 5 / 4096 * 4096 + x.w 6 % 2 ^ 16 * 2 ^ 32
def ChkStep.stageDa (x : ChkStep) : Nat := x.w 8 / 4096 * 4096 + x.w 9 % 2 ^ 16 * 2 ^ 32
def ChkStep.blocks (x : ChkStep) : Nat := x.w 7 % 2 ^ 16
def ChkStep.bytes (x : ChkStep) : Nat := x.blocks * 4096
def ChkStep.cue (x : ChkStep) : Nat := x.w 10 % 2 ^ 14

/-- A field breaks the table, the OP is reserved, or OUT overlaps STAGE. -/
def ChkStep.bad (x : ChkStep) : Bool :=
  let w := x.w
  x.op != 1 || decide (w 1 / 2 ^ 27 % 8 ≠ 0) || decide (w 1 / 2 ^ 12 % 16 ≠ 0) || decide (w 1 % 2 ^ 12 = 0) ||
  decide (2048 < w 1 % 2 ^ 12) || decide (2 ^ 11 ≤ w 2) || decide (w 3 % 8 ≠ 0) || decide (2 ^ 16 ≤ w 4) ||
  decide (w 5 % 4096 ≠ 0) || decide (2 ^ 16 ≤ w 6) || decide (2 ^ 16 ≤ w 7) || w 7 == 0 || decide (w 8 % 4096 ≠ 0) ||
  decide (2 ^ 16 ≤ w 9) || decide (2 ^ 14 ≤ w 10) || decide (x.desc / 2 ^ 384 % 2 ^ 128 ≠ 0) ||
  decide (x.desc / 2 ^ 704 % 2 ^ 320 ≠ 0) ||
  (decide (x.outDa < x.stageDa + x.bytes) && decide (x.stageDa < x.outDa + x.bytes))

/-- The program of a run that writes the region at `arg3`. -/
def ChkStep.prog (x : ChkStep) (arg3 : Nat) : Prog :=
  { tenant := x.tenant, image := x.w 3 + x.w 4 % 2 ^ 16 * 2 ^ 32, count := x.w 1 % 2 ^ 12, entry := x.w 1 / 2 ^ 16 % 2 ^ 11,
    tvecValid := x.w 1 / 2 ^ 30 % 2 == 1, tvec := x.w 2 % 2 ^ 11, fp8Sat := x.w 1 / 2 ^ 31 == 1,
    args := (List.range 3).map (fun i => x.w (16 + 2 * i) + x.w (17 + 2 * i) * 2 ^ 32) ++ [arg3] }

/-! ### Steps in the state -/

def Dev.setStep (d : Dev) (x : ChkStep) : Dev := { d with steps := d.steps.map (fun y => if y.id = x.id then x else y) }
def Dev.stepAt (d : Dev) (id : Nat) : Option ChkStep := d.steps.find? (fun x => x.id == id)

/-- A core's run for a step ends: its write region goes, and with `role` its ROLE. -/
def Dev.runEnd (d : Dev) (c : Nat) (role : Bool) : Dev :=
  let d := { d with chkRuns := FMap.del d.chkRuns c }
  if role then d.wr CORE_UNIT_ROLE.ROLE 0 c else d

/-- A completion record of queue `p` (R483). -/
def Dev.chkRecord (d : Dev) (x : ChkStep) (status : Nat) (staged : Bool) : Dev :=
  let p := x.part
  let b := fun (v : Bool) (k : Nat) => if v then 2 ^ k else 0
  let flags := b x.selected 0 + b x.under.isSome 1 + b x.tie.isSome 2 + b (x.exit.testBit 14) 3 + b staged 4
  let pi := d.rd CHK_Qp_IDX.CQ_PI 0 p
  let base := d.rd CHK_Qp_CQ_LO.DA 0 p / 16 * 16 + d.rd CHK_Qp_CQ_HI.DA 0 p * 2 ^ 32
  let rec128 := status * 2 ^ 24 + flags * 2 ^ 16 + x.slot % 2 ^ 16 + x.w 11 * 2 ^ 32 +
    (x.under.getD 0 * 2 ^ 16 + x.primary) * 2 ^ 64 + (min x.diff 0xFFFF * 2 ^ 16 + x.exit) * 2 ^ 96
  (d.chkWrite (base + 16 * (pi % 2 ^ d.rd CHK_Qp_HI.LOG2 0 p)) 16 rec128).wr CHK_Qp_IDX.CQ_PI (pi + 1) 0 p

/-- A step that is not committed: the blocks of OUT that its tenant's partition may write take the poison check value,
and its cue goes BROKEN (R482). -/
def Dev.chkSpoil (d : Dev) (x : ChkStep) : Dev :=
  let e := d.tenantEntry x.tenant
  match e.1 with
  | none => e.2
  | some v =>
    let p := tenPart v
    let d := (List.range x.blocks).foldl (fun d i =>
      let a := d.allowed 1 p (x.outDa + 4096 * i) 4096 true
      if a.1 then a.2.setPoison (x.outDa + 4096 * i) else a.2) e.2
    let mine := d.partOf (cueCluster x.cue) == some p && d.cueState x.cue != 0 &&
      d.rd CL_CUE_Oj.TENANT (cueCluster x.cue) (cueIdx x.cue) == x.tenant
    if x.cuev && mine then d.breakCue x.cue else d

/-- A step ends (R482, R483). `note` is the record's opcode and core. -/
def Dev.stepDone (d : Dev) (x : ChkStep) (status : Nat) (staged : Bool) (note : Option (Nat × Nat)) : Dev :=
  let ran := x.stage != .held
  let d := { d with steps := d.steps.filter (fun y => y.id != x.id) }
  let d := if ran then d.runEnd x.primary true else d
  let d := x.under.toList.foldl (fun d c => d.runEnd c true) d
  let d := x.tie.toList.foldl (fun d c => d.runEnd c true) d
  let d := if status = 0 then
      (if x.cuev then
        let e := d.tenantEntry x.tenant
        (e.2.cuePerform 0 x.cue 1 false x.tenant (e.1.map tenPart) 0 false).2
       else d)
    else ((d.chkSpoil x).addSat CHK_FAILS.COUNT 1).wr CHK_STAT.FAIL_SEEN 1
  let d := match note with
    | some (op, core) => d.err 10 op (unitDev 31 2) core
    | none => d
  let d := (d.add CHK_STEPS.COUNT 1).add CHK_Qp_IDX.CI 1 0 x.part
  if x.cqe || status != 0 then d.chkRecord x status staged else d

/-! ### Dispatch (R479, R480, R488) -/

/-- Start a run on core `c` in a role, with `da` as its region: local memory is cleared, then START. -/
def Dev.chkStart (d : Dev) (x : ChkStep) (c role da : Nat) : Dev :=
  let run : ChkRun := { base := da, bytes := x.bytes, primary := if role = 1 then none else some x.primary }
  let d := { d with chkRuns := FMap.set d.chkRuns c run }
  let d := (d.wr CORE_UNIT_ROLE.ROLE role c).writeProg c (x.prog da)
  if d.startRefused c then d.ctrlLost c else d.beginLoad c true

/-- A dispatch waits: an earlier step has the primary, the core is WITHDRAWN or still ends a kernel, runs for another
step, or is inside a Curtain. -/
def Dev.heldUp (d : Dev) (x : ChkStep) : Bool :=
  let c := x.primary
  d.steps.any (fun y => y.primary == c && decide (y.id < x.id)) || d.bit CORE_SEQ_STAT.WITHDRAWN c ||
  d.rehs.any (fun r => r.core == c) || (FMap.find d.chkRuns c).isSome || d.coreCurtained c

/-- The cluster work queues dispatch what no longer waits. -/
def Dev.dispatch (d : Dev) : Dev :=
  d.steps.foldl (fun d y =>
    match d.stepAt y.id with
    | none => d
    | some x =>
      if x.stage != .held then d
      else if !d.coreEnabled x.primary then d.stepDone x 4 false none
      else if d.heldUp x then
        (if d.bit CORE_SEQ_STAT.WITHDRAWN x.primary then d.wr CL_QUEUE_STAT.HOLD_SEEN 1 (coreCluster x.primary) else d)
      else (d.setStep { x with stage := .primary }).chkStart x x.primary 1 x.outDa) d

/-- Core `c` is an understudy core for a step whose runs so far lie in the clusters `avoid` (R481). -/
def Dev.understudy (d : Dev) (x : ChkStep) (avoid : List Nat) (c : Nat) : Bool :=
  let st := d.rd CORE_SEQ_STAT.STATE c
  (d.rd CL_QUEUE_POOL.POOL (coreCluster c)).testBit (c % 16) && d.coreEnabled c && (st == 0 || st == 3) &&
  !d.bit CORE_SEQ_STAT.WITHDRAWN c && d.corePart c == some x.part && !avoid.contains (coreCluster c) &&
  (FMap.find d.chkRuns c).isNone && !d.coreCurtained c

/-- A step that wants a replay or tiebreak core takes the lowest one that qualifies. -/
def Dev.takeCore (d : Dev) (x : ChkStep) : Dev :=
  let tie := x.stage == .wantTie
  let avoid := coreCluster x.primary :: (if tie then x.under.toList.map coreCluster else [])
  match (List.range 4096).find? (d.understudy x avoid) with
  | none => d
  | some c =>
    if tie then
      ((d.setStep { x with stage := .tie, tie := some c }).add CHK_TIEBREAKS.COUNT 1).chkStart x c 3 x.stageDa
    else ((d.setStep { x with stage := .replay, under := some c }).add CHK_REPLAYS.COUNT 1).chkStart x c 2 x.stageDa

/-- The step waits for a pool core, and takes one at once if it can. -/
def Dev.wantCore (d : Dev) (x : ChkStep) (st : StepAt) : Dev :=
  let x := { x with stage := st }
  (d.setStep x).takeCore x

/-! ### Queues (R484) -/

def Dev.chkIdx (d : Dev) (p : Nat) : Nat × Nat := FMap.get d.chkQ (0, 0) p
def Dev.setChkIdx (d : Dev) (p : Nat) (v : Nat × Nat) : Dev := { d with chkQ := FMap.set d.chkQ p v }

/-- DA of the descriptor at a ring index. -/
def Dev.chkSlot (d : Dev) (p i : Nat) : Nat :=
  d.rd CHK_Qp_LO.DA 0 p / 128 * 128 + d.rd CHK_Qp_HI.DA 0 p * 2 ^ 32 + 128 * (i % 2 ^ d.rd CHK_Qp_HI.LOG2 0 p)

/-- A write of CHK_Qp_DB, checked as R420 does with the TENANT of the first descriptor. -/
def Dev.chkDoorbell (d : Dev) (p : Nat) (who : Requester) (v : Nat) : Dev :=
  let ix := d.chkIdx p
  let desc := d.chkRead 2 (d.chkSlot p ix.1) 4
  let tenant := desc.1.val / 2 ^ 12 % 2 ^ 12
  let a := desc.2.writerIs who tenant
  let b := a.2.writerIn who p tenant
  if !a.1 || !b.1 then b.2.wr CHK_STAT.DB_LOST 1
  else
    let d := b.2
    let r := ringAhead (d.rd CHK_Qp_IDX.CI 0 p) v (d.rd CHK_Qp_HI.LOG2 0 p)
    (if r.2 then d.noteClamp (CHK_Qp_DB.addr 0 p 0) else d).setChkIdx p (r.1, ix.2)

def execChkDoorbell (p : Nat) (who : Requester) (v : Nat) (s : State) : Out := act s (fun d => d.chkDoorbell (p % 64) who v)

/-- The fraction code of a partition (R478). -/
def Dev.fraction (d : Dev) (p : Nat) : Nat :=
  let fs := [CHK_FRACw.FRAC0, CHK_FRACw.FRAC1, CHK_FRACw.FRAC2, CHK_FRACw.FRAC3, CHK_FRACw.FRAC4, CHK_FRACw.FRAC5,
    CHK_FRACw.FRAC6, CHK_FRACw.FRAC7]
  d.rd (fs.getD (p % 8) CHK_FRACw.FRAC0) 0 (p / 8)

/-- The rule of R478 for fraction code `f`. -/
def selectedBy (f seq p : Nat) : Bool :=
  let h := (seq + p * 2 ^ 24) * 0x9E3779B9 % 2 ^ 32
  match f with
  | 0 => false
  | 1 => decide (h < 2 ^ 26)
  | 2 => decide (h < 2 ^ 28)
  | 3 => decide (h < 2 ^ 30)
  | _ => true

def ChkStep.select (x : ChkStep) (f : Nat) : Bool :=
  if x.force then true else if x.noCheck then false else selectedBy f x.seq x.part

/-- Stages 2 to 4 of R479 for a descriptor that passed stage 1. -/
def Dev.stepGo (d : Dev) (x : ChkStep) : Dev :=
  if !d.coreEnabled x.primary then d.stepDone x 4 false none
  else
    let e := d.tenantEntry x.tenant
    match e.1 with
    | none => e.2.stepDone x 5 false none
    | some v =>
      let p := tenPart v
      let a := e.2.protReg 1 p (CORE_SEQ_CTRL.addr x.primary 0 0) true
      let b := a.2.allowed 1 p x.outDa x.bytes true
      let c := b.2.allowed 1 p x.stageDa x.bytes true
      if !(a.1 && b.1 && c.1) then c.2.stepDone x 5 false none
      else
        let d := c.2
        let seq := FMap.get d.chkSeq 0 x.part
        let x := { x with seq := seq }
        let x := { x with selected := x.select (d.fraction x.part) }
        ({ d with chkSeq := FMap.set d.chkSeq x.part ((seq + 1) % 2 ^ 32), steps := d.steps ++ [x] }).dispatch

/-- The service reads the next descriptor of queue `p`, when its OP is of the row's kind and its record has room. -/
def chkTake (nop : Bool) (p : Nat) (d : Dev) : Dev :=
  let ix := d.chkIdx p
  let next := (ix.1, (ix.2 + 1) % 2 ^ 16)
  let mine := (d.steps.filter (fun x => x.part == p)).length
  let room := decide ((d.rd CHK_Qp_IDX.CQ_PI 0 p + mine + 2 ^ 16 - d.rd CHK_Qp_CQ_CI.CQ_CI 0 p) % 2 ^ 16 < 2 ^ d.rd CHK_Qp_HI.LOG2 0 p)
  if !d.bit CHK_CTRL.EN || ix.1 == ix.2 then d
  else if (FMap.get d.chkSkip [] p).contains ix.2 then
    { d.setChkIdx p next with chkSkip := FMap.set d.chkSkip p ((FMap.get d.chkSkip [] p).erase ix.2) }
  else if !room || decide (256 ≤ d.steps.length) then d
  else
    let r := d.chkRead 2 (d.chkSlot p ix.2) 128
    let x : ChkStep :=
      { id := d.stepN, part := p, slot := ix.2, desc := r.1.val, seq := 0, selected := false, stage := .held, under := none,
        tie := none, exit := 0, diff := 0, repDigest := 0, repExit := 0, repOk := false }
    if (x.op == 0) != nop then d
    else
      let d := { r.2.setChkIdx p next with stepN := d.stepN + 1 }
      let e := d.tenantEntry x.tenant
      if e.1.isSome && d.tenantCurtained x.tenant then e.2.setChkIdx p ix
      else if nop then
        let d := d.add CHK_Qp_IDX.CI 1 0 p
        if x.cqe then d.chkRecord x 0 false else d
      else if x.bad then d.stepDone x 6 false none
      else d.stepGo x

def execChkStep (p : Nat) (s : State) : Out := act s (chkTake false (p % 64))
def execChkStepNop (p : Nat) (s : State) : Out := act s (chkTake true (p % 64))

/-! ### Runs end (R479, R482) -/

/-- A core is HALTED. -/
def Dev.halted (d : Dev) (c : Nat) : Bool := d.rd CORE_SEQ_STAT.STATE c == 3

def primaryHalt (id : Nat) (d : Dev) : Dev :=
  match d.stepAt id with
  | none => d
  | some x =>
    let c := x.primary
    if x.stage != .primary || !d.halted c then d
    else
      let d := d.runEnd c false
      let x := { x with exit := d.rd CORE_SEQ_EXIT.CODE c }
      let sel := x.selected || (x.exit.testBit 14 && d.bit CHK_CTRL.FORCE_UNCHECKED)
      if d.rd CORE_SEQ_STAT.HALT_CAUSE c ≠ 1 then (d.stepDone { x with exit := 0 } 1 false (some (0x905, c))).dispatch
      else if x.exit.testBit 15 then (d.stepDone x 2 false (some (0x904, c))).dispatch
      else if !sel then (d.stepDone x 0 false none).dispatch
      else d.wantCore { x with selected := true } .wantReplay

def execPrimaryHalt (id : Nat) (s : State) : Out := act s (primaryHalt id)

def execUnderstudyCoreAvailable (id : Nat) (s : State) : Out :=
  act s (fun d =>
    match d.stepAt id with
    | some x => if x.stage == .wantReplay || x.stage == .wantTie then d.takeCore x else d
    | none => d)

def replayHalt (id : Nat) (d : Dev) : Dev :=
  match d.stepAt id with
  | none => d
  | some x =>
    match x.stage, x.under with
    | .replay, some c =>
      if !d.halted c then d
      else
        (d.runEnd c false).setStep { x with stage := .compare, repExit := d.rd CORE_SEQ_EXIT.CODE c,
                                            repOk := d.rd CORE_SEQ_STAT.HALT_CAUSE c == 1 }
    | _, _ => d

def execReplayHalt (id : Nat) (s : State) : Out := act s (replayHalt id)

/-- A replay or tiebreak that has run past 4 times the primary's cycles and 100 µs. -/
def execReplayTimeout (id : Nat) (s : State) : Out :=
  act s (fun d =>
    match d.stepAt id with
    | some x =>
      (match x.stage, x.under, x.tie with
       | .replay, some c, _ => d.haltReq c
       | .tie, _, some c => d.haltReq c
       | _, _, _ => d)
    | none => d)

def compareDone (id : Nat) (d : Dev) : Dev :=
  match d.stepAt id with
  | none => d
  | some x =>
    if x.stage != .compare then d
    else
      let a := Dev.dataOnly x.outDa x.blocks d
      let b := Dev.dataOnly x.stageDa x.blocks a.2
      let diff := ((a.1.zip b.1).filter (fun e => e.1 != e.2)).length
      let x := { x with diff := diff, repDigest := runDigest b.1 }
      let d := b.2
      if x.repOk && x.repExit == x.exit && diff == 0 then (d.stepDone x 0 false none).dispatch
      else if d.bit CHK_CTRL.TIEBREAK then d.wantCore x .wantTie
      else (d.stepDone x 3 false (some (0x903, x.primary))).dispatch

def execCompareDone (id : Nat) (s : State) : Out := act s (compareDone id)

/-- Copy STAGE into OUT by whole-block writes. -/
def Dev.commitStage (x : ChkStep) : Nat → Dev → Dev
  | 0, d => d
  | n + 1, d =>
    let d := Dev.commitStage x n d
    let r := d.cachedReadBlock (x.stageDa + 4096 * n) none
    r.2.blockWrite (x.outDa + 4096 * n) r.1.val r.1.poison

def tiebreakHalt (id : Nat) (d : Dev) : Dev :=
  match d.stepAt id with
  | none => d
  | some x =>
    match x.stage, x.tie with
    | .tie, some c =>
      if !d.halted c then d
      else
        let d := d.runEnd c false
        let exit := d.rd CORE_SEQ_EXIT.CODE c
        let ok := d.rd CORE_SEQ_STAT.HALT_CAUSE c == 1
        let a := Dev.dataOnly x.outDa x.blocks d
        let b := Dev.dataOnly x.stageDa x.blocks a.2
        let d := b.2
        (if ok && exit == x.exit && a.1 == b.1 then d.stepDone x 0 false (some (0x902, x.under.getD 0))
         else if ok && x.repOk && exit == x.repExit && runDigest b.1 == x.repDigest then
           (Dev.commitStage x x.blocks d).stepDone x 0 true (some (0x901, x.primary))
         else d.stepDone x 3 false (some (0x903, x.primary))).dispatch
    | _, _ => d

def execTiebreakHalt (id : Nat) (s : State) : Out := act s (tiebreakHalt id)

/-! ### Curtains on steps (R504, R538) -/

/-- A tenant Curtain: the tenant's steps, running and queued, end TENANT_RESET. -/
def Dev.chkTenant (d : Dev) (t : Nat) : Dev :=
  let d := (d.steps.filter (fun x => x.tenant == t)).foldl (fun d x => d.stepDone x 7 false none) d
  d.chkQ.foldl (fun d e =>
    let p := e.1
    (List.range ((e.2.1 + 2 ^ 16 - e.2.2) % 2 ^ 16)).foldl (fun d i =>
      let slot := (e.2.2 + i) % 2 ^ 16
      let r := d.chkRead 2 (d.chkSlot p slot) 128
      let x : ChkStep :=
        { id := d.stepN, part := p, slot := slot, desc := r.1.val, seq := 0, selected := false, stage := .held,
          under := none, tie := none, exit := 0, diff := 0, repDigest := 0, repExit := 0, repOk := false }
      if x.op = 1 ∧ x.tenant = t ∧ !(FMap.get d.chkSkip [] p).contains slot then
        let d := { r.2 with chkSkip := FMap.set r.2.chkSkip p (FMap.get r.2.chkSkip [] p ++ [slot]) }
        d.stepDone x 7 false none
      else d) d) d

/-- A partition Curtain: the partition's steps end ABORTED, and its queue is emptied. -/
def Dev.chkPart (d : Dev) (p : Nat) : Dev :=
  let d := (d.steps.filter (fun x => x.part == p)).foldl (fun d x => d.stepDone x 8 false none) d
  let ix := d.chkIdx p
  let d := (d.wr CHK_Qp_IDX.CI ix.1 0 p).setChkIdx p (ix.1, ix.1)
  { d with chkSkip := FMap.del d.chkSkip p }

/-- A core Curtain on a core that runs for a step: a primary's step ends, FAULT, or UNIT_DISABLED where the core is
retired; a replay or tiebreak is abandoned, and another core is taken. -/
def Dev.chkCore (d : Dev) (c : Nat) (retired : Bool) : Dev :=
  d.steps.foldl (fun d y =>
    match d.stepAt y.id with
    | none => d
    | some x =>
      if x.primary = c ∧ (x.stage != .held || retired) then
        (if retired then d.stepDone x 4 false none
         else if x.stage == .primary then d.stepDone x 1 false (some (0x905, c)) else d)
      else if x.stage == .replay && x.under == some c then
        (d.runEnd c true).wantCore { x with under := none } .wantReplay
      else if x.stage == .tie && x.tie == some c then (d.runEnd c true).wantCore { x with tie := none } .wantTie
      else d) d

/-! ### Rehearsal (R486-R489) -/

/-- A core on which Rehearsal may run. -/
def Dev.rehEligible (d : Dev) (c : Nat) : Bool :=
  let st := d.rd CORE_SEQ_STAT.STATE c
  d.coreEnabled c && (st == 0 || st == 3) && !d.bit CORE_SEQ_STAT.WITHDRAWN c &&
  !d.steps.any (fun x => x.primary == c) && (FMap.find d.chkRuns c).isNone && !d.rehs.any (fun r => r.core == c) &&
  !d.coreCurtained c

/-- A commanded run has ended on every core. -/
def Dev.rehSettle (d : Dev) : Dev :=
  if d.bit CHK_REH_RESULT.BUSY && !d.rehs.any (fun r => r.cmd && !r.gone) then
    (d.wr CHK_REH_RESULT.BUSY 0).wr CHK_REH_RESULT.CODE 1
  else d

/-- A core's Rehearsal ends with a result: 1 PASS, 2 FAIL, 3 INCOMPLETE. `run` keeps it until its kernel has halted. -/
def Dev.rehEnd (d : Dev) (r : Reh) (result kernel why : Nat) (run : Bool) : Dev :=
  let c := r.core
  let d : Dev := { d with rehs := d.rehs.filterMap (fun x : Reh =>
    if x.core = c then (if run then some { x with gone := true } else none) else some x) }
  let d := (d.wr CORE_SEQ_STAT.WITHDRAWN 0 c).wr CORE_UNIT_REH.RESULT result c
  let d := (d.wr CORE_UNIT_REH.KERNEL kernel c).wr CORE_UNIT_REH.WHY why c
  let d := d.add CHK_REH_RUNS.COUNT 1
  let d := if result = 1 then d else (d.addSat CHK_REH_FAILS.COUNT 1).err 11 (0xA00 + why) (unitDev 31 3) c
  d.rehSettle

/-- The Rehearsal is abandoned and recorded INCOMPLETE, with the kernel then running; the manual names no WHY. With
`halt` a kernel still running is halted by HALT_REQ. -/
def Dev.rehAbandon (d : Dev) (r : Reh) (halt : Bool) : Dev :=
  if r.gone then (if halt then d else { d with rehs := d.rehs.filter (fun x => x.core != r.core) })
  else
    let w := d.draw 2
    let d := w.2
    let going := d.rd CORE_SEQ_STAT.STATE r.core == 1 || d.running r.core
    let d := if halt && going then d.haltReq r.core else d
    d.rehEnd r 3 r.kernel w.1.toNat (halt && going)

/-- The next kernel of a Rehearsal starts, or the core has passed. -/
def Dev.rehNext (r : Reh) : List Nat → Dev → Dev
  | [], d => d.rehEnd r 1 0 0 false
  | i :: rest, d =>
    let m := d.chkRead 3 (d.rd CHK_REH_SET.DA * 1024 + 64 * i) 64
    let w := word32 m.1.val
    if m.1.ue || w 0 / 2 ^ 31 = 0 then Dev.rehNext r rest m.2
    else
      let c := r.core
      let d : Dev := { m.2 with rehs := m.2.rehs.map (fun x : Reh =>
        if x.core = c then { x with kernel := i, entry := m.1.val, todo := rest, limit := false } else x) }
      let p : Prog :=
        { tenant := d.rd CHK_REH_CTRL.TENANT, image := w 1 + w 2 % 2 ^ 16 * 2 ^ 32, count := max 1 (min 2048 (w 0 % 2 ^ 12)),
          entry := w 0 / 2 ^ 16 % 2 ^ 11, tvecValid := false, tvec := 0, fp8Sat := w 0 / 2 ^ 30 % 2 == 1,
          args := (List.range 3).map (fun k => w (8 + 2 * k) + w (9 + 2 * k) * 2 ^ 32) ++
            [sliceDa c (d.rd CHK_REH_SCRATCH.OFFSET * 4096)] }
      (d.writeProg c p).beginLoad c true

/-- Rehearsal starts on a core with the kernels of a mask. -/
def Dev.rehStart (d : Dev) (c mask : Nat) (cmd : Bool) : Dev :=
  let ks := (List.range 16).filter (fun i => mask.testBit i)
  let r : Reh := { core := c, kernel := 0, entry := 0, todo := ks, cmd := cmd, limit := false, gone := false }
  Dev.rehNext r ks ({ d with rehs := d.rehs ++ [r] }.wr CORE_SEQ_STAT.WITHDRAWN 1 c)

/-- A write of CHK_REH_CMD while no commanded run is in progress. -/
def Dev.rehCmd (d : Dev) (f : Dev → Dev) : Dev :=
  if d.bit CHK_REH_RESULT.BUSY then d.wr CHK_REH_RESULT.CMD_LOST 1 else f d

/-- RUN_CORE or RUN_CLUSTER over the cores `cs`. -/
def Dev.rehRun (d : Dev) (target mask : Nat) (cs : List Nat) : Dev :=
  d.rehCmd (fun d =>
    let d := d.wr CHK_REH_RESULT.TARGET target
    match cs.filter d.rehEligible with
    | [] => d.wr CHK_REH_RESULT.CODE 2
    | es =>
      let d := (d.wr CHK_REH_RESULT.CODE 0).wr CHK_REH_RESULT.BUSY 1
      (es.foldl (fun d c => d.rehStart c mask true) d).rehSettle)

def Dev.rehRunCore (d : Dev) (target mask : Nat) : Dev := d.rehRun target mask [target % 4096]
def Dev.rehRunCluster (d : Dev) (target mask : Nat) : Dev :=
  d.rehRun target mask ((List.range 16).map (fun k => target / 16 % 256 * 16 + k))
def Dev.rehStop (d : Dev) : Dev :=
  d.rehCmd (fun d => (d.rehs.foldl (fun d r => d.rehAbandon r true) d).wr CHK_REH_CTRL.AUTO 0)

def execRehRunCore (target mask : Nat) (s : State) : Out := act s (fun d => d.rehRunCore target mask)
def execRehRunCluster (target mask : Nat) (s : State) : Out := act s (fun d => d.rehRunCluster target mask)
def execRehStop (s : State) : Out := act s Dev.rehStop
def execRehNop (s : State) : Out := act s (fun d => d.rehCmd (fun d => d))

/-- AUTO starts Rehearsal on the next eligible core, one at a time. -/
def execRehAutoTimer (s : State) : Out :=
  act s (fun d =>
    if !d.bit CHK_REH_CTRL.AUTO || d.rehs.any (fun r => !r.cmd) then d
    else
      match ((List.range 4096).map (fun i => (d.rehLast + 1 + i) % 4096)).find? d.rehEligible with
      | some c => { d.rehStart c 0xFFFF false with rehLast := c }
      | none => d)

/-- A kernel has halted: it is judged (R486 step 3), and the next one starts or the result is written. -/
def rehKernelHalt (c : Nat) (d : Dev) : Dev :=
  match d.rehs.find? (fun r => r.core == c) with
  | none => d
  | some r =>
    if !d.halted c then d
    else if r.gone then { d with rehs := d.rehs.filter (fun x => x.core != c) }.dispatch
    else
      let w := word32 r.entry
      let blocks := max 1 (min 256 (w 3 % 2 ^ 9))
      if r.limit then (d.rehEnd r 2 r.kernel 2 false).dispatch
      else if d.rd CORE_SEQ_STAT.HALT_CAUSE c ≠ 1 then (d.rehEnd r 2 r.kernel 3 false).dispatch
      else if d.rd CORE_SEQ_EXIT.CODE c ≠ w 5 % 2 ^ 16 then (d.rehEnd r 2 r.kernel 0 false).dispatch
      else
        let v := Dev.dataOnly (sliceDa c (d.rd CHK_REH_SCRATCH.OFFSET * 4096)) blocks d
        if runDigest v.1 ≠ w 4 then (v.2.rehEnd r 2 r.kernel 1 false).dispatch
        else (Dev.rehNext r r.todo v.2).dispatch

def execRehKernelHalt (c : Nat) (s : State) : Out := act s (rehKernelHalt c)

/-- LIMIT µs have passed: HALT_REQ. -/
def execRehLimitTimeout (c : Nat) (s : State) : Out :=
  act s (fun d =>
    match d.rehs.find? (fun r => r.core == c) with
    | some r =>
      if r.gone || d.halted c then d
      else { d with rehs := d.rehs.map (fun x : Reh => if x.core = c then { x with limit := true } else x) }.haltReq c
    | none => d)

/-- A dispatch has waited 2 ms for a WITHDRAWN core (R488). -/
def execRehHoldTimeout (c : Nat) (s : State) : Out :=
  act s (fun d =>
    match d.rehs.find? (fun r => r.core == c && !r.gone), d.steps.any (fun x => x.stage == .held && x.primary == c) with
    | some r, true => ((d.addSat CL_QUEUE_ABANDON.COUNT 1 (coreCluster c)).rehAbandon r true).dispatch
    | _, _ => d)

/-- A core Curtain abandons the core's Rehearsal (R538). -/
def Dev.rehCore (d : Dev) (c : Nat) : Dev :=
  match d.rehs.find? (fun r => r.core == c) with
  | some r => d.rehAbandon r false
  | none => d

end Sys2Proof.Machine
end

