-- ==== Sys2Proof/Machine/DarnLog.lean ====
section
/-! DEFINITION. What the Darn map adds up to, the Darn log and COMMIT (R46, R60, R65-R67, R531). -/
namespace Sys2Proof.Machine
open Sys2Proof

/-! ### Minimums (R1, R45, R46, R60) -/

/-- Cores of a cluster, and cores and clusters of a half, that are ENABLED. -/
def Dev.coresIn (d : Dev) (g : Nat) : Nat := ((List.range 16).filter (fun k => d.coreEnabled (g * 16 + k))).length
def Dev.coresOf (d : Dev) (h : Nat) : Nat := ((List.range 128).map (fun c => d.coresIn (h * 128 + c))).sum
def Dev.clustersOf (d : Dev) (h : Nat) : Nat := ((List.range 128).filter (fun c => d.clusterEnabled (h * 128 + c))).length

/-- An ENABLED cluster has fewer than 14 ENABLED cores. -/
def Dev.clusterLow (d : Dev) (g : Nat) : Bool := d.clusterEnabled g && decide (d.coresIn g < 14)

/-- A minimum of R1 or R45 is not met. -/
def Dev.belowMin (d : Dev) : Bool :=
  (List.range 256).any d.clusterLow || [0, 1].any (fun h => decide (d.clustersOf h < 124) || decide (d.coresOf h < 1736))

/-- A condition of R60 holds: a minimum is not met, a slice is lost, a row waits for a repair that its bank or the remap
table cannot give, a remap table is full, the log is full with a change pending, or a change was not queued. -/
def Dev.replaceHolds (d : Dev) : Bool :=
  d.belowMin || (List.range 256).any (fun g => d.rd DARN_CL_ORPHAN.LOST 0 g != 0) ||
  d.slices.any (fun e => !e.2.unrepaired.isEmpty || d.bit CORE_SLC_STAT.REMAP_FULL e.1) ||
  (d.bit DARN_STAT.LOG_FULL && !d.darnQ.isEmpty) || d.bit DARN_STAT.QUEUE_OVF

/-- After a change of the map: a minimum that is no longer met raises a replace request. -/
def Dev.darnCheck (d : Dev) : Dev :=
  if d.belowMin then (d.wr DARN_STAT.BELOW_MIN 1).replace else d

/-! ### The Darn log (R65-R67) -/

def Dev.logWord (d : Dev) (slot w : Nat) : Nat := FMap.get d.darnLog 0 (slot * 4 + w)

/-- Some bit of the slot is programmed. -/
def Dev.slotUsed (d : Dev) (slot : Nat) : Bool := (List.range 4).any (fun w => d.logWord slot w != 0)

/-- The next free slot: the lowest above every consumed one (R530). -/
def Dev.nextSlot (d : Dev) : Nat := (List.range 256).foldl (fun m i => if d.slotUsed i then i + 1 else m) 0

/-- The validity word of a slot's first three words (R66). -/
def slotCrc (w0 w1 w2 : Nat) : Nat := (crc32c (bytesOf w0 4 ++ bytesOf w1 4 ++ bytesOf w2 4)).toNat

def Dev.slotValid (d : Dev) (slot : Nat) : Bool :=
  let v := d.logWord slot 3
  v == slotCrc (d.logWord slot 0) (d.logWord slot 1) (d.logWord slot 2) && v != 0 && v != 0xFFFFFFFF

def Dev.setSlot (d : Dev) (slot : Nat) (ws : List Nat) : Dev :=
  { d with darnLog := (List.range 4).foldl (fun m w => FMap.put m 0 (slot * 4 + w) (ws.getD w 0 % 2 ^ 32)) d.darnLog }

/-- A slot that is not valid once something is programmed in it (R65, R66): what it holds is open, but for some bit that is
programmed and a validity word that is not right. -/
def Dev.spoilSlot (d : Dev) (slot : Nat) : Dev :=
  let r := d.draw 128
  let d := r.2.setSlot slot ((List.range 4).map (fun i => max 1 r.1.toNat / 2 ^ (32 * i)))
  if d.slotValid slot then d.setSlot slot [d.logWord slot 0, d.logWord slot 1, d.logWord slot 2, 0] else d

/-- Program a slot with an entry. With `ok` false the slot fails verification. -/
def Dev.programSlot (d : Dev) (slot : Nat) (e : Nat × Nat × Nat) (ok : Bool) : Bool × Dev :=
  let w0 := e.1 * 2 ^ 28 + e.2.1
  let w1 := e.2.2
  let w2 := d.boots
  let d' := d.setSlot slot [w0, w1, w2, slotCrc w0 w1 w2]
  if ok && d'.slotValid slot then (true, d') else (false, d.spoilSlot slot)

/-- The post-package repair of a DRAM row entry (R65, R265): the layer's own fuses map the row to the spare that it has. A
row that they map to that spare already is left as it is. -/
def Dev.packageRepair (d : Dev) (e : Nat × Nat × Nat) : Dev :=
  if e.1 ≠ 7 then d
  else
    let kind := e.2.1 / 64 % 32
    let bank := e.2.1 % 64 + (if kind = 9 then 64 else 0)
    let n := e.2.1 / 2 ^ 16 * 16 + e.2.1 / 2 ^ 11 % 16
    let row := e.2.2 % 2 ^ 9
    match d.remapAt n (bank * 512 + row) with
    | none => d
    | some i => { d with ppr := FMap.upd d.ppr [] (n * 128 + bank) (fun l =>
                   l.filter (fun r => r.1 != row) ++ [(row, d.rd CORE_SLC_REMAP.SPARE n i)]) }

/-- What a COMMIT comes to: entries committed, whether one was left out after two failures, whether the log ran full. -/
structure Committed where
  done : List (Nat × Nat × Nat)
  partly : Bool
  full : Bool
  dev : Dev

/-- Handle the entries of the snapshot in order; `verify` answers for each slot in turn, and a missing answer is good. -/
def Dev.commitEntries : List (Nat × Nat × Nat) → List Bool → Dev → Committed
  | [], _, d => { done := [], partly := false, full := false, dev := d }
  | e :: rest, vs, d =>
    let slot := d.nextSlot
    if 256 ≤ slot then { done := [], partly := false, full := true, dev := d }
    else
      let a := (d.packageRepair e).programSlot slot e (vs.headD true)
      if a.1 then
        let r := Dev.commitEntries rest (vs.drop 1) a.2
        { r with done := e :: r.done }
      else if 256 ≤ slot + 1 then { done := [], partly := false, full := true, dev := a.2 }
      else
        let b := a.2.programSlot (slot + 1) e ((vs.drop 1).headD true)
        let r := Dev.commitEntries rest (vs.drop 2) b.2
        if b.1 then { r with done := e :: r.done } else { r with partly := true }

/-- A unit whose entry was committed moves from RETIRING to RETIRED; a cluster takes its cores with it. -/
def Dev.retired (d : Dev) (e : Nat × Nat × Nat) : Dev :=
  let g := e.2.1 / 2 ^ 16
  if e.1 = 1 then
    let n := g * 16 + e.2.1 / 2 ^ 11 % 16
    if d.rd DARN_CORE_STATE.STATE 0 n = 3 then (d.wr DARN_CORE_STATE.STATE 2 0 n).mapChange e.2.1 else d
  else if e.1 = 2 then
    if d.rd DARN_CL_STATE.STATE 0 g = 3 then
      ((List.range 16).foldl (fun d k =>
        if d.rd DARN_CORE_STATE.STATE 0 (g * 16 + k) = 3 ∧ d.rd DARN_CORE_STATE.CAUSE 0 (g * 16 + k) = 5
        then d.wr DARN_CORE_STATE.STATE 2 0 (g * 16 + k) else d) (d.wr DARN_CL_STATE.STATE 2 0 g)).mapChange e.2.1
    else d
  else d

/-- Slots consumed, and whether all are. -/
def Dev.noteLog (d : Dev) : Dev :=
  let d := d.wr DARN_STAT.LOG_USED ((List.range 256).filter d.slotUsed).length
  if d.nextSlot < 256 then d
  else
    let d := d.wr DARN_STAT.LOG_FULL 1
    if d.darnQ.isEmpty then d else d.replace

/-- A COMMIT ends with DONE, PARTIAL or LOG_FULL. -/
def Dev.commitEnd (d : Dev) (unit : Nat) (r : Committed) (cut : Bool) : Dev :=
  let d := { r.dev with commit := none, darnQ := r.done.foldl (fun q e => q.erase e) d.darnQ }
  let d := (r.done.foldl Dev.retired d).noteLog
  let code := if r.full then 5 else if r.partly || cut then 7 else 1
  ((d.wr DARN_CMD_RESULT.CODE code).wr DARN_CMD_RESULT.UNIT unit).wr DARN_STAT.COMMIT_BUSY 0

/-- COMMIT starts with a snapshot of the pending queue. -/
def Dev.darnCommit (d : Dev) (unit : Nat) : Dev :=
  if d.bit DARN_STAT.CMD_BUSY || d.bit DARN_STAT.COMMIT_BUSY then d.wr DARN_STAT.CMD_LOST 1
  else { d.wr DARN_STAT.COMMIT_BUSY 1 with commit := some (unit, d.darnQ) }

def execDarnCommit (unit : Nat) (s : State) : Out := act s (fun d => d.darnCommit (unit % 2 ^ 24))

def execCommitDone (verify : List Bool) (s : State) : Out :=
  act s (fun d =>
    match d.commit with
    | some (unit, es) => d.commitEnd unit (Dev.commitEntries es verify d) false
    | none => d)

/-- A reset meets a running COMMIT (R531): it ends PARTIAL after the entry being programmed. How far it had come is open. -/
def Dev.commitCut (d : Dev) : Dev :=
  match d.commit with
  | some (unit, es) =>
    let r := d.draw 7
    r.2.commitEnd unit (Dev.commitEntries (es.take (r.1.toNat % (es.length + 1))) [] r.2) true
  | none => d

end Sys2Proof.Machine
end

