-- ==== Sys2Proof/Machine/Matrix.lean ====
section
/-! DEFINITION. Matrix arrays: MMAC, its completion and checksum-column checking, and MCKS (R137-R163). -/
namespace Sys2Proof.Machine
open Sys2Proof

/-- Accumulate flags of R152. -/
def Dev.updMcks (d : Dev) (c : Nat) (f : Mcks → Mcks) : Dev := d.updCore c (fun k => { k with mcks := f k.mcks })

/-! ### Fields and classes (R139, R140, R148) -/

def mmWmx (w : W64) : Bool := W64.bits w 29 29 == 1
def mmXmx (w : W64) : Bool := W64.bits w 28 28 == 1
def mmZero (w : W64) : Bool := W64.bits w 27 27 == 1
def mmNochk (w : W64) : Bool := W64.bits w 26 26 == 1
def mmRsplit (w : W64) : Nat := W64.bits w 25 23
def mmCsplit (w : W64) : Nat := W64.bits w 22 20
def mmSteps (w : W64) : Nat := W64.bits w 15 0
def mmDws (w : W64) : Nat := W64.bits w 37 34
def mmDxs (w : W64) : Nat := W64.bits w 33 30

/-- Narrow weight formats of the SINGLE and DUAL classes. -/
def isFpWeight (f : Nat) : Bool := (3 ≤ f && f ≤ 7) || f == 11 || f == 12

/-- Logical rows K of the product class of a pair of formats, activation then weight; none when refused (R139, R140). -/
def mmK (x w : Nat) : Option Nat :=
  if x = 7 then (if isFpWeight w then some 32 else none)
  else if 3 ≤ x ∧ x ≤ 6 then (if isFpWeight w then some 16 else none)
  else if x = 8 then (if w = 8 then some 16 else none)
  else if x = 1 then (if w = 1 then some 8 else none)
  else if x = 2 then (if w = 2 then some 8 else none)
  else none

def popcount3 (v : Nat) : Nat := v % 2 + v / 2 % 2 + v / 4 % 2

/-- Values a stream holds, counted as R113 and R127 count elements. -/
def streamCount (e : Desc) : Nat :=
  if e.format = 11 then e.size / 3 * 512 else if e.format = 12 then e.size / 6 * 512 else e.size * valsPerElem e.format

/-- An LQ stream holds whole blocks (R127). -/
def lqWhole (e : Desc) : Bool :=
  if e.format = 11 then e.size % 3 == 0 else if e.format = 12 then e.size % 6 == 0 else true

/-- R84 over the fields of R148. -/
def mmFieldsOk (w : W64) : Bool :=
  decide (rdOf w < 16) && decide (raOf w < 16) && decide (rbOf w < 16) &&
  (mmWmx w || mmDws w == 0) && (mmXmx w || mmDxs w == 0) &&
  (fnOf w == 1 || (mmRsplit w == 0 && mmCsplit w == 0)) && W64.bits w 19 16 == 0 && mmSteps w != 0

/-- The array whose accumulator memory holds a local address. -/
def accArray (a : Nat) : Nat := (a - 0x40000) / 0x4000

/-- Formats, shapes and counts of R150. -/
def mmShapeOk (w : W64) (acc dw dx dws dxs : Desc) : Bool :=
  match mmK dx.format dw.format with
  | none => false
  | some k =>
    let ganged := fnOf w == 2
    let steps := mmSteps w
    let b := acc.count2
    let xper := if ganged then 4 * k else k
    let plainMx (f : Nat) : Bool := 3 ≤ f && f ≤ 8
    acc.format == 0 && (!mmWmx w || plainMx dw.format) && (!mmXmx w || plainMx dx.format) &&
    popcount3 (mmRsplit w) == popcount3 (mmCsplit w) &&
    acc.count0 == 16 && acc.count1 == (if ganged then 1 else 4) && 1 ≤ b &&
    (List.range b).all (fun v => (List.range (if ganged then 1 else 4)).all (fun a => (List.range 16).all (fun n =>
      let x := (acc.at n a v).toNat
      0x40000 ≤ x && x < 0x50000 && accArray x == (if ganged then accArray acc.base else a)))) &&
    lqWhole dw && streamCount dw == steps * 64 * k && streamCount dx == steps * b * xper &&
    (!mmWmx w || (dws.format == 10 && scalesFor (streamCount dw) ≤ dws.size)) &&
    (!mmXmx w || (dxs.format == 10 && scalesFor (streamCount dx) ≤ dxs.size))

/-- Issue of an MMAC: the checks of R98 and R150 in order, then the queue (R86, R151: stalls while four wait behind the
executing one). The instruction's descriptors and CORE_ARR_CTRL are copied now (R72, R162). -/
def mmacIssue (fn c : Nat) (d : Dev) : Dev :=
  d.issue c (isOpFn 0x20 fn) (fun d w =>
    d.checked c w (mmFieldsOk w) (fun d =>
      let acc := d.desc c (rdOf w)
      let dw := d.desc c (raOf w)
      let dx := d.desc c (rbOf w)
      let dws := d.desc c (mmDws w)
      let dxs := d.desc c (mmDxs w)
      let named := [acc, dw, dx] ++ (if mmWmx w then [dws] else []) ++ (if mmXmx w then [dxs] else [])
      match descTrap w named with
      | some t => d.trap c t.1 t.2
      | none =>
        if !mmShapeOk w acc dw dx dws dxs then d.illegal c w
        else if 5 ≤ (d.core c).mxq.length then d
        else
          let job : MxJob :=
            { word := w, pcIdx := d.pc c, dacc := d.descBits c (rdOf w), dw := d.descBits c (raOf w),
              dx := d.descBits c (rbOf w), dws := d.descBits c (mmDws w), dxs := d.descBits c (mmDxs w),
              ckEn := d.rd CORE_ARR_CTRL.CK_EN c, ckTrap := d.bit CORE_ARR_CTRL.CK_TRAP c,
              tol := d.rd CORE_ARR_CTRL.TOL c, entryFmt := d.rd CORE_MNG_CTRL.ENTRY_FMT c }
          (d.updCore c (fun k => { k with mxq := k.mxq ++ [job] })).retire c))

def execMmacIndependent (c : Nat) (s : State) : Out := act s (mmacIssue 0 c)
def execMmacPacked (c : Nat) (s : State) : Out := act s (mmacIssue 1 c)
def execMmacGanged (c : Nat) (s : State) : Out := act s (mmacIssue 2 c)

/-! ### Execution (R141-R149) -/

/-- One MMAC as the arrays run it: its operands' values and shape. -/
structure MxPlan where
  k : Nat
  fn : Nat
  rsplit : Nat
  csplit : Nat
  b : Nat
  ws : List Num
  xs : List Num
  int8 : Bool
  fx : List ArrayFx
  deriving DecidableEq, Repr

/-- Physical row of a logical row (R140). -/
def physRow (k r : Nat) : Nat := if k = 32 then r / 2 else if k = 8 then 2 * r else r

/-- The diagonal block of a physical row or column under split bits (R146). -/
def splitBlock (bits p : Nat) : Nat :=
  (if bits % 2 = 1 ∧ 4 ≤ p then 1 else 0) + (if bits / 2 % 2 = 1 ∧ 8 ≤ p then 1 else 0) +
  (if bits / 4 % 2 = 1 ∧ 12 ≤ p then 1 else 0)

/-- Logical row `r` feeds column `n` (R146). -/
def MxPlan.feeds (p : MxPlan) (r n : Nat) : Bool :=
  splitBlock p.rsplit (physRow p.k r) == splitBlock p.csplit n

/-- Weight of cell (r, n) of array `a` in tile step `t` (R141). -/
def MxPlan.w (p : MxPlan) (t a n r : Nat) : Num := p.ws.getD (t * 64 * p.k + a * 16 * p.k + n * p.k + r) .nan

/-- Activation of logical row `r` of array `a` for vector `v` of step `t` (R142). -/
def MxPlan.x (p : MxPlan) (t v a r : Nat) : Num :=
  if p.fn = 2 then p.xs.getD ((t * p.b + v) * 4 * p.k + a * p.k + r) .nan
  else p.xs.getD ((t * p.b + v) * p.k + r) .nan

/-- Physical row `q` holds cells of logical row `r` (R140): two logical rows share one in DUAL, and one takes two in
PAIR. -/
def rowHas (k r q : Nat) : Bool := if k = 32 then q == r / 2 else if k = 8 then q / 2 == r else q == r

/-- The weight of logical row `r` in column `n`, or the checksum weight where `n` is 16, met a parity error in a cell
earlier in the step or now (R161). -/
def MxPlan.tileBad (p : MxPlan) (t v a r n : Nat) : Bool :=
  p.fx.any (fun f => match f with
    | .tile t' v' a' q n' => t' == t && decide (v' ≤ v) && a' == a && rowHas p.k r q && n' == n
    | .column _ _ _ _ _ => false)

/-- A column sum that is formed wrong. -/
def MxPlan.wrong (p : MxPlan) (t v a n : Nat) : Option Nat :=
  p.fx.findSome? (fun f => match f with
    | .column t' v' a' n' code => if t' = t ∧ v' = v ∧ a' = a ∧ n' = n then some code else none
    | .tile _ _ _ _ _ => none)

/-- The products of column `n` of array `a` for one vector. -/
def MxPlan.products (p : MxPlan) (t v a n : Nat) : List Num :=
  ((List.range p.k).filter (fun r => p.feeds r n)).map (fun r =>
    if p.tileBad t v a r n then .nan else Num.mul (p.w t a n r) (p.x t v a r))

/-- The arrays whose columns chain into an output column: all four in ganged mode (R147). -/
def MxPlan.chain (p : MxPlan) (a : Nat) : List Nat := if p.fn = 2 then [0, 1, 2, 3] else [a]

/-- The terms of an output column of array `a` (array 3 stands for the chain in ganged mode). -/
def MxPlan.terms (p : MxPlan) (t v a n : Nat) : List Num :=
  (p.chain a).flatMap (fun a' => match p.wrong t v a' n with
    | some code => [decodeNum 0 code]
    | none => p.products t v a' n)

/-- The exact sum of row `r`'s weights over the columns it feeds: the checksum cell (R158). -/
def MxPlan.rowSum (p : MxPlan) (t a r : Nat) : Num :=
  Num.sum (((List.range 16).filter (fun n => p.feeds r n)).map (fun n => p.w t a n r))

/-- C, S and A of R158. The rounding of A is not stated: it is rounded once (log entry 25). -/
def MxPlan.checkC (p : MxPlan) (t v a : Nat) : Num :=
  roundF32 (Num.sum ((p.chain a).flatMap (fun a' =>
    (List.range p.k).map (fun r => if p.tileBad t v a' r 16 then .nan else Num.mul (p.x t v a' r) (p.rowSum t a' r)))))
def MxPlan.checkS (p : MxPlan) (t v a : Nat) : Num :=
  (List.range 16).foldl (fun s n =>
    let c := roundF32 (Num.sum (p.terms t v a n))
    if n = 0 then c else roundF32 (Num.add s c)) (.fin false 0 0)
def MxPlan.checkA (p : MxPlan) (t v a : Nat) : Num :=
  roundF32 (Num.sum ((p.chain a).flatMap (fun a' => (List.range 16).flatMap (fun n =>
    (p.products t v a' n).map Num.abs))))

/-- Outcome of one vector's check (R159): 0 pass, 1 mismatch, 2 skipped. In plain INT8 × INT8 a C or S that an
uncorrectable error made NaN is never equal to the other, and so is a mismatch (DEDUCED, log entry 73). -/
def MxPlan.outcome (p : MxPlan) (tol t v a : Nat) : Nat :=
  let c := p.checkC t v a
  let s := p.checkS t v a
  let m := p.checkA t v a
  if p.int8 then (if Num.eqv c s then 0 else 1)
  else if !(c.isFin && s.isFin && m.isFin) then 2
  else if Num.lt (m.scale (-(tol : Int))) (Num.add c s.neg).abs then 1 else 0

/-- The run of an instruction so far: device, fault codes raised, arrays with a CHECKSUM record already written. -/
structure MxRun where
  d : Dev
  codes : List Nat
  recorded : List Nat

/-- Accumulate one output entry (R143, R149, R161). -/
def mxAccumulate (c : Nat) (job : MxJob) (p : MxPlan) (t v a n : Nat) (r : MxRun) : MxRun :=
  let e := Desc.ofBits job.dacc
  let addr := (if p.fn = 2 then e.at n 0 v else e.at n a v).toNat
  let fresh := mmZero job.word && t == 0
  let terms := p.terms t v a n
  if !fresh && r.d.lbad c addr 4 then
    { r with d := (r.d.err 2 0x0202 (unitLocal c addr) 0).lwr c addr 4 (nanCode 0), codes := addOnce r.codes 0x0202 }
  else
    let old := if fresh then Num.fin false 0 0 else decodeNum 0 (r.d.lrd c addr 4)
    let d := if fresh then r.d else r.d.countLce c addr 4
    { r with d := d.lwr c addr 4 (encodeNum 0 true (Num.sum (old :: terms))) }

/-- Arrays that leave this instruction's vectors unchecked by their own condition (R159). -/
def mxUnchecked (d : Dev) (c : Nat) (job : MxJob) (a : Nat) : Bool :=
  mmNochk job.word || !job.ckEn.testBit a || !(d.rd DARN_CORE_STATE.CKCOL 0 c).testBit a

/-- A mismatch reported by array `a` (R160). -/
def mxMismatch (c : Nat) (job : MxJob) (t v a : Nat) (r : MxRun) : MxRun :=
  let seen := r.d.rd CORE_ARR_STAT.MISMATCH_SEEN c
  let d := if seen != 0 then r.d else
    (((r.d.wr CORE_ARR_CKFIRST.ARRAY a c).wr CORE_ARR_CKFIRST.STEP t c).wr CORE_ARR_CKVEC.VEC v c).wr
      CORE_ARR_CKPC.INDEX job.pcIdx c
  let d := d.wr CORE_ARR_STAT.MISMATCH_SEEN (seen ||| 2 ^ a) c
  let d := d.addSat CORE_ARR_CKCNT.MISMATCH 1 c
  let d := d.updMcks c (fun m => { m with mismatch := m.mismatch ||| 2 ^ a })
  let d := if r.recorded.contains a then d else d.err 7 (if job.ckTrap then 0x0201 else 0) (unitCore c 1 a) 0
  { d := d, codes := if job.ckTrap then addOnce r.codes 0x0201 else r.codes, recorded := addOnce r.recorded a }

/-- The check of one vector of array `a` (3 for the chain in ganged mode). A check that ends Skipped has been made, and
counts in CHECKED too (DESIGN CHOICE, log entry 74). -/
def mxCheck (c : Nat) (job : MxJob) (p : MxPlan) (t v a : Nat) (r : MxRun) : MxRun :=
  let un := (p.chain a).filter (fun a' => mxUnchecked r.d c job a')
  if un != [] then
    let add := if mmNochk job.word then 15 else un.foldl (fun x a' => x ||| 2 ^ a') 0
    { r with d := r.d.updMcks c (fun m => { m with unchecked := m.unchecked ||| add }) }
  else
    let r := { r with d := r.d.add CORE_ARR_CHECKED.CHECKED 1 c }
    match p.outcome job.tol t v a with
    | 0 => r
    | 1 => mxMismatch c job t v a r
    | _ =>
      let d := (r.d.addSat CORE_ARR_CKCNT.SKIPPED 1 c).wr CORE_ARR_STAT.SKIP_SEEN 1 c
      { r with d := d.updMcks c (fun m => { m with skipped := true }) }

/-- One vector of one tile step. -/
def mxVector (c : Nat) (job : MxJob) (p : MxPlan) (t v : Nat) (r : MxRun) : MxRun :=
  let outs := if p.fn = 2 then [3] else [0, 1, 2, 3]
  outs.foldl (fun r a =>
    mxCheck c job p t v a ((List.range 16).foldl (fun r n => mxAccumulate c job p t v a n r) r)) r

/-- Record a code raised and its UE status (R152, R163). -/
def mxUe (c code : Nat) (r : MxRun) : MxRun :=
  let d := r.d.updMcks c (fun m => { m with ue := true })
  { r with d := if code < 0x0200 then d.wr CORE_MNG_STAT.UE_SEEN 1 c else d.wr CORE_ARR_STAT.UE_SEEN 1 c,
           codes := addOnce r.codes code }

/-- Records of the operand errors of R135 and R161, one for each distinct granule or entry (log entry 72). -/
def mxBad (c code : Nat) (gs : List Nat) (unit : Nat → Nat) (r : MxRun) : MxRun :=
  gs.foldl (fun r g =>
    let r := mxUe c code r
    let d := r.d.err 2 code (unit g) 0
    { r with d := if code < 0x0200 then d.addSat CORE_MNG_UE_CNT.COUNT 1 c else d }) r

/-- The whole instruction: operands read, every vector of every step applied, errors recorded (R149, R161). -/
def mxRun (c : Nat) (job : MxJob) (fx : List ArrayFx) (d : Dev) : MxRun :=
  let w := job.word
  let ew := Desc.ofBits job.dw
  let ex := Desc.ofBits job.dx
  let isLq := ew.format == 11 || ew.format == 12
  let lq := if isLq then lqVals d c job.entryFmt ew else ⟨[], 0, [], [], false, false⟩
  let wv : Vals := if isLq then ⟨lq.vals, []⟩
    else if mmWmx w then mxVals d c ew (Desc.ofBits job.dws) else plainVals d c ew
  let xv := if mmXmx w then mxVals d c ex (Desc.ofBits job.dxs) else plainVals d c ex
  let p : MxPlan :=
    { k := (mmK ex.format ew.format).getD 16, fn := fnOf w, rsplit := mmRsplit w, csplit := mmCsplit w,
      b := (Desc.ofBits job.dacc).count2, ws := wv.vals, xs := xv.vals,
      int8 := ex.format == 8 && !mmWmx w && !mmXmx w, fx := fx }
  let reads := (if isLq then lqReads d c ew else []) ++ ew.addrs ++ ex.addrs ++
    (if mmWmx w then (Desc.ofBits job.dws).addrs else []) ++ (if mmXmx w then (Desc.ofBits job.dxs).addrs else [])
  let r : MxRun := ⟨d.countGran c reads, [], []⟩
  let r := mxBad c 0x0101 lq.badTable (fun _ => unitCore c 5 0) r
  let r := mxBad c 0x0102 lq.badData (unitLocal c) r
  let r := mxBad c 0x0203 (xv.bad.foldl addOnce wv.bad) (unitLocal c) r
  let r := fx.foldl (fun r f => match f with
    | .tile _ _ a _ _ => let r := mxUe c 0x0204 r; { r with d := r.d.err 2 0x0204 (unitCore c 1 a) 0 }
    | .column _ _ _ _ _ => r) r
  let dev := r.d.add CORE_MNG_BLOCKS.BLOCKS lq.blocks c
  let dev := if lq.nanScale then dev.wr CORE_MNG_STAT.NAN_SCALE_SEEN 1 c else dev
  let dev := if lq.rsvd then dev.wr CORE_MNG_STAT.RSVD_SEEN 1 c else dev
  let r := { r with d := dev }
  let r := (List.range (mmSteps w)).foldl (fun r t =>
    (List.range p.b).foldl (fun r v => mxVector c job p t v r) r) r
  let r := if r.codes.contains 0x0202 then mxUe c 0x0202 r else r
  { r with d := (r.d.add CORE_ARR_STEPS.STEPS (mmSteps w) c).add CORE_ARR_VECS.VECS (mmSteps w * p.b) c }

/-- The lowest of a list of codes; none when empty. -/
def lowest : List Nat → Option Nat
  | [] => none
  | a :: t => some (t.foldl min a)

/-- The executing MMAC completes: results stand in accumulator memory, and a fault raises trap UNIT with the lowest
code (R161). -/
def mmacComplete (c : Nat) (fx : List ArrayFx) (d : Dev) : Dev :=
  match (d.core c).mxq with
  | [] => d
  | job :: rest =>
    let r := mxRun c job fx (d.updCore c (fun k => { k with mxq := rest }))
    match lowest r.codes with
    | none => r.d
    | some code => r.d.unitFault c code job.pcIdx

def execMmacComplete (c : Nat) (fx : List ArrayFx) (s : State) : Out := act s (mmacComplete c fx)

/-- The summary word of R152. -/
def Mcks.word (m : Mcks) : W64 :=
  BitVec.ofNat 64 ((if m.ue then 512 else 0) + (if m.skipped then 256 else 0) + m.unchecked % 16 * 16 + m.mismatch % 16)

/-- MCKS: issues once no matrix instruction is left, and is issued again until then (R152). -/
def execMcks (c : Nat) (s : State) : Out :=
  act s (fun d => d.issue c (isOpFn 0x21 0) (fun d w =>
    d.checked c w (regsOk w true false false && immOf w == 0) (fun d =>
      if (d.core c).mxq != [] then d
      else
        let v := (d.core c).mcks.word
        ((d.setS c (rdOf w) v).updMcks c (fun _ => ⟨false, false, 0, 0⟩)).retire c)))

end Sys2Proof.Machine
end

