-- ==== Sys2Proof/Machine/Sites.lean ====
section
/-! DEFINITION. Where a BAR0 offset leads: its window, register, element and word (R38, R389). -/
namespace Sys2Proof.Machine
open Sys2Proof

/-- The window that a BAR0 offset lies in: its scope, the unit and the offset within the unit's window. -/
def windowOf (a : Nat) : Option (Scope × Nat × Nat) :=
  if a < 0x100000 then some (.dev, 0, a)
  else if a < 0x300000 then
    let h := (a - 0x100000) / 0x100000
    let o := a % 0x100000
    if 0x40000 ≤ o ∧ o < 0x80000 then some (.fport, 4 * h + (o - 0x40000) / 0x10000, o % 0x10000) else some (.half, h, o)
  else if a < 0x1000000 then none
  else if a < 0x9000000 then
    let g := (a - 0x1000000) / 0x80000
    let o := a % 0x80000
    if o < 0x10000 then some (.cluster, g, o)
    else if o < 0x50000 then some (.core, g * 16 + (o - 0x10000) / 0x4000, o % 0x4000)
    else none
  else none

/-- The element of a register array, and the word within it, at offset `o` of its window. -/
def Reg.elem (r : Reg) (o : Nat) : Option (Nat × Nat × Nat) :=
  if o < r.off then none
  else
    let x := o - r.off
    let i := if r.n = 1 then 0 else x / r.stride
    let y := x - i * r.stride
    let j := if r.n2 = 1 then 0 else y / r.stride2
    let w := (y - j * r.stride2) / 4
    if i < r.n ∧ j < r.n2 ∧ w < (if r.wide then 2 else 1) then some (i, j, w) else none

/-- A register found at a BAR0 offset: the register and its fields, its unit and element, and which word of it. -/
structure Site where
  reg : Reg
  fs : List Fld
  u : Nat
  i : Nat
  j : Nat
  word : Nat
  deriving DecidableEq, Repr

/-- The transport engine's registers exist only in the blocks of port 0 of each half (R389). -/
def Reg.absent (r : Reg) (u : Nat) : Bool := r.scope == .fport && decide (0x8000 ≤ r.off) && u % 4 != 0

/-- The register at a BAR0 offset; none at a reserved one. -/
def siteAt (a : Nat) : Option Site :=
  match windowOf a with
  | none => none
  | some (sc, u, o) =>
    (regTable sc).findSome? (fun e =>
      if e.1.absent u then none
      else (e.1.elem (o - o % 4)).map (fun x => { reg := e.1, fs := e.2, u := u, i := x.1, j := x.2.1, word := x.2.2 }))

/-- BAR0 offset of the site's register. -/
def Site.addr (x : Site) : Nat := x.reg.addr x.u x.i x.j

end Sys2Proof.Machine
end

