-- ==== Sys2Proof/Machine/Seam.lean ====
section
/-! DEFINITION. The Seam: frames, replay and credits of its ports, loop-back, the control channel (R360-R382), and the
epoch switch over both halves (R374-R376, R533-R536). -/
namespace Sys2Proof.Machine
open Sys2Proof

/-! ### Frames (R363, R364) -/

/-- Bytes 0 to 155 of a frame: DATA, PHDR, C0, C1 and the reserved C2. -/
def SeamFrame.body (f : SeamFrame) : Nat :=
  let one := fun (b : Bool) => if b then 1 else 0
  let c0 := f.seq % 2 ^ 12 + f.bank % 2 * 2 ^ 23 + one f.last * 2 ^ 24 + one f.first * 2 ^ 25 + f.vc % 4 * 2 ^ 26 +
    f.kind % 16 * 2 ^ 28
  let c1 := f.ack % 2 ^ 12 + f.cred % 2 ^ 16 * 2 ^ 16
  f.data % 2 ^ 1024 + f.phdr % 2 ^ 128 * 2 ^ 1024 + c0 * 2 ^ 1152 + c1 * 2 ^ 1184

/-- CRC-32C over bytes 0 to 155. -/
def seamCrc (body : Nat) : Nat := (crc32c (bytesOf body 156)).toNat

/-- The 160 bytes of a frame, as they cross the lanes. -/
def SeamFrame.word (f : SeamFrame) : Nat := f.body + seamCrc f.body * 2 ^ 1248

/-- What a receiver reads in 160 bytes; none when the CRC is wrong or KIND is reserved, which counts as a wrong CRC. -/
def SeamFrame.read (w : Nat) : Option SeamFrame :=
  let b := w % 2 ^ 1248
  if 4 ≤ b / 2 ^ 1180 % 16 ∨ w / 2 ^ 1248 % 2 ^ 32 ≠ seamCrc b then none
  else some
    { kind := b / 2 ^ 1180 % 16, vc := b / 2 ^ 1178 % 4, first := b / 2 ^ 1177 % 2 == 1, last := b / 2 ^ 1176 % 2 == 1,
      bank := b / 2 ^ 1175 % 2, seq := b / 2 ^ 1152 % 2 ^ 12, cred := b / 2 ^ 1200 % 2 ^ 16, ack := b / 2 ^ 1184 % 2 ^ 12,
      data := b % 2 ^ 1024, phdr := b / 2 ^ 1024 % 2 ^ 128 }

/-! ### Port ends (R365-R368) -/

def Dev.seam (d : Dev) (h x : Nat) : SeamEnd := FMap.get d.seams SeamEnd.init (h * 16 + x)
def Dev.updSeam (d : Dev) (h x : Nat) (f : SeamEnd → SeamEnd) : Dev :=
  { d with seams := FMap.upd d.seams SeamEnd.init (h * 16 + x) f }

/-- Port `x` is in service; the state reads the same in both halves. -/
def Dev.portUp (d : Dev) (x : Nat) : Bool := (d.rd SEAM_STAT.UP 0).testBit x
def Dev.portDown (d : Dev) (x : Nat) : Bool := (d.rd SEAM_STAT.DOWN 0).testBit x

/-- The half at the other end of port `x` of half `h`: its own when the port reflects (R379). -/
def Dev.seamPeer (d : Dev) (h x : Nat) : Nat := if d.reflects h x then h else 1 - h

/-- Half `s` sends IDLE, DATA and NAK frames on port `x`. -/
def Dev.seamRuns (d : Dev) (s x : Nat) : Bool := d.reflects s x || (d.portUp x && !d.portDown x)

/-- The credit field of a virtual channel. -/
def creditFld : Nat → Fld
  | 0 => SEAM_Pn_CREDIT.REQ
  | 1 => SEAM_Pn_CREDIT.RSP
  | 2 => SEAM_Pn_CREDIT.MSG
  | _ => SEAM_Pn_CREDIT.ESC

/-- An end takes an ACK: every frame up to and including the one it names is released. -/
def SeamEnd.acked (e : SeamEnd) (ack : Nat) : SeamEnd :=
  match e.replay.findIdx? (fun f => f.frame.seq == ack % 4096) with
  | some i => { e with replay := e.replay.drop (i + 1) }
  | none => e

/-- The frames of a channel in the receive buffers of an end. -/
def SeamEnd.buf (e : SeamEnd) (vc : Nat) : List SeamFrame := FMap.get e.rxBuf [] vc

/-- CRED of a frame that half `s` sends: at most as many credits of each channel as `cred` says, and no more than frames
in its buffers there. -/
def Dev.credits (d : Dev) (s x cred : Nat) : Nat :=
  ((List.range 4).map (fun vc => min (cred / 2 ^ (4 * vc) % 16) ((d.seam s x).buf vc).length * 2 ^ (4 * vc))).sum

/-- C1 of a frame that half `s` sends: it acknowledges a frame that the end has accepted, the newest or one of the 63
before it (`lag` behind), and returns credits. -/
def Dev.withC1 (d : Dev) (s x lag cred : Nat) (f : SeamFrame) : SeamFrame :=
  { f with ack := ((d.seam s x).rxExp + 4095 - lag % 64) % 4096, cred := d.credits s x cred }

/-- Half `h` takes the credits that half `s` returns: the oldest frames in the buffers of `s` have left for its routers. -/
def Dev.takeCredits (d : Dev) (h s x cred : Nat) : Dev :=
  (List.range 4).foldl (fun d vc =>
    let k := min (cred / 2 ^ (4 * vc) % 16) ((d.seam s x).buf vc).length
    let d := d.updSeam s x (fun e => { e with rxBuf := FMap.set e.rxBuf vc ((e.buf vc).drop k) })
    d.wr (creditFld vc) (min 32 (d.rd (creditFld vc) h x + k)) h x) d

/-- C1 of a frame that half `h` accepts on port `x`. -/
def Dev.frameC1 (d : Dev) (h x : Nat) (f : SeamFrame) : Dev :=
  (d.updSeam h x (fun e => e.acked f.ack)).takeCredits h (d.seamPeer h x) x f.cred

/-! ### Packets and sends (R365-R367) -/

/-- BANK of a packet: the epoch under which it was issued, the old one (`old`) only while its half has flipped and drains
(R374). -/
def Dev.packetBank (d : Dev) (s : Nat) (old : Bool) : Nat :=
  if old && decide (2 ≤ d.rd HALF_COMMIT.PHASE s) then 1 - d.epochBank s else d.epochBank s

/-- The next new DATA frame of half `s`, and what is then left of its packet: the next frame of the packet that is being
sent, or the first of a new one with `o.flits` flits of data, which takes max(n, 1) frames. -/
def Dev.newFrame (d : Dev) (s x : Nat) (o : SeamOut) : SeamFrame × Option SeamPacket :=
  let e := d.seam s x
  match e.packet with
  | some p =>
    ({ kind := 1, vc := p.vc, first := false, last := decide (p.left ≤ 1), bank := p.bank, seq := e.txSeq, cred := 0, ack := 0,
       data := o.data % 2 ^ 1024, phdr := 0 }, if p.left ≤ 1 then none else some { p with left := p.left - 1 })
  | none =>
    let b := d.packetBank s o.old
    ({ kind := 1, vc := o.vc % 4, first := true, last := decide (o.flits ≤ 1), bank := b, seq := e.txSeq, cred := 0, ack := 0,
       data := if o.flits = 0 then 0 else o.data % 2 ^ 1024, phdr := o.phdr % 2 ^ 128 },
     if o.flits ≤ 1 then none else some { vc := o.vc % 4, left := o.flits - 1, bank := b })

/-- Half `s` sends a DATA frame on port `x`: the next of a replay, or a new one, which takes a credit of its channel and a
place among 64 in the replay buffer. None when it may not send one. -/
def Dev.sendData (d : Dev) (s x : Nat) (o : SeamOut) (lag cred : Nat) : Option (SeamFrame × Dev) :=
  let e := d.seam s x
  if !d.seamRuns s x then none
  else
    match e.replay.find? (fun f => f.frame.seq == e.pos) with
    | some f =>
      some (d.withC1 s x lag cred f.frame,
        (d.updSeam s x (fun e => { e with pos := (e.pos + 1) % 4096 })).add SEAM_Pn_FRAMES.FRAMES 1 s x)
    | none =>
      let n := d.newFrame s x o
      if 64 ≤ e.replay.length || d.rd (creditFld n.1.vc) s x = 0 then none
      else
        let t := d.wr (creditFld n.1.vc) (d.rd (creditFld n.1.vc) s x - 1) s x
        some (d.withC1 s x lag cred n.1, (t.updSeam s x (fun e =>
          { e with txSeq := (e.txSeq + 1) % 4096, pos := (e.txSeq + 1) % 4096, packet := n.2,
                   replay := e.replay ++ [{ frame := n.1, fails := 0 }] })).add SEAM_Pn_FRAMES.FRAMES 1 s x)

/-- Half `s` notes whether the send of a frame came through: failures in a row are counted (R369). -/
def Dev.noteSent (d : Dev) (s x seq : Nat) (ok : Bool) : Dev :=
  d.updSeam s x (fun e => { e with replay := e.replay.map (fun f =>
    if f.frame.seq == seq then { f with fails := if ok then 0 else f.fails + 1 } else f) })

/-! ### Receipt (R368) -/

/-- A NAK reaches half `h`: frames before the SEQ it names are released, and every frame from it onward is sent again. -/
def Dev.seamReplay (d : Dev) (h x q : Nat) : Dev :=
  match (d.seam h x).replay.findIdx? (fun f => f.frame.seq == q % 4096) with
  | none => d
  | some i =>
    let d := d.updSeam h x (fun e => { e with replay := e.replay.drop i, pos := q % 4096 })
    let d := d.addSat SEAM_Pn_REPLAY.COUNT 1 h x
    let r := d.noteResend (4096 + 16 * h + x) (d.rd SEAM_CTRL.ERR_LIMIT h)
    if r.1 then (r.2.err 1 9 (unitHalf h 22 x) 0).wr SEAM_CTRL.ERR_SEEN 1 h else r.2

/-- A frame with a good CRC reaches half `h`; answers whether it was a DATA frame that is accepted. After a discard
nothing but the frame expected is accepted; the replay that a NAK asks of this end is made all the same. -/
def Dev.seamGood (d : Dev) (h x : Nat) (f : SeamFrame) : Bool × Dev :=
  let e := d.seam h x
  match f.kind with
  | 0 => (false, if e.nakOut then d else d.frameC1 h x f)
  | 1 =>
    if f.seq = e.rxExp then
      (true, (d.updSeam h x (fun e => { e with rxExp := (e.rxExp + 1) % 4096, nakOut := false, nakDue := false,
                                               rxBuf := FMap.set e.rxBuf f.vc (e.buf f.vc ++ [f]) })).frameC1 h x f)
    else (false, d.updSeam h x (fun e => { e with nakOut := true, nakDue := e.nakDue || !e.nakOut }))
  | 2 => (false, (if e.nakOut then d else d.takeCredits h (d.seamPeer h x) x f.cred).seamReplay h x f.ack)
  | _ => (false, d)

/-- A frame whose CRC fails is discarded, and a NAK names the SEQ expected. -/
def Dev.seamDiscard (d : Dev) (h x : Nat) : Dev := d.updSeam h x (fun e => { e with nakOut := true, nakDue := true })

/-- What half `h` does with the 160 bytes that reach it. -/
def Dev.seamTake (d : Dev) (h x w : Nat) : Bool × Dev :=
  match SeamFrame.read w with
  | none => (false, d.seamDiscard h x)
  | some f => d.seamGood h x f

/-- An IDLE frame of half `s`: no flit, and SEQ is not advanced. -/
def Dev.idleFrame (d : Dev) (s x lag cred : Nat) : SeamFrame :=
  d.withC1 s x lag cred { kind := 0, vc := 0, first := false, last := false, bank := 0, seq := (d.seam s x).txSeq, cred := 0,
                          ack := 0, data := 0, phdr := 0 }

/-- A DATA frame sent to half `h` on port `x` arrives whole. -/
def seamData (h x : Nat) (o : SeamOut) (lag cred : Nat) (d : Dev) : Dev :=
  let s := d.seamPeer h x
  match d.sendData s x o lag cred with
  | none => d
  | some (f, d) => let r := d.seamGood h x f; r.2.noteSent s x f.seq r.1

def execSeamDataFrame (h x : Nat) (o : SeamOut) (lag cred : Nat) (s : State) : Out := act s (seamData (h % 2) x o lag cred)

/-- A frame sent to half `h`, DATA or IDLE, arrives with the bits `noise` wrong. -/
def seamBad (h x : Nat) (f : SeamSend) (noise : Nat) (d : Dev) : Dev :=
  let s := d.seamPeer h x
  match f with
  | .data o lag cred =>
    match d.sendData s x o lag cred with
    | none => d
    | some (f, d) => let r := d.seamTake h x (f.word ^^^ noise); r.2.noteSent s x f.seq r.1
  | .idle lag cred =>
    if d.seamRuns s x then (d.seamTake h x ((d.idleFrame s x lag cred).word ^^^ noise)).2 else d

def execSeamBadFrame (h x : Nat) (f : SeamSend) (noise : Nat) (s : State) : Out := act s (seamBad (h % 2) x f noise)

/-- An IDLE frame: only its ACK and CRED. -/
def seamIdle (h x lag cred : Nat) (d : Dev) : Dev :=
  let s := d.seamPeer h x
  if d.seamRuns s x then (d.seamGood h x (d.idleFrame s x lag cred)).2 else d

def execSeamIdleFrame (h x lag cred : Nat) (s : State) : Out := act s (seamIdle (h % 2) x lag cred)

/-- A NAK of half `s`: it names the SEQ which that end expects, and returns credits. -/
def Dev.nakFrame (d : Dev) (s x cred : Nat) : SeamFrame :=
  { kind := 2, vc := 0, first := false, last := false, bank := 0, seq := (d.seam s x).txSeq, cred := d.credits s x cred,
    ack := (d.seam s x).rxExp, data := 0, phdr := 0 }

/-- The NAK that the other end owes reaches half `h`. -/
def seamNak (h x cred : Nat) (d : Dev) : Dev :=
  let s := d.seamPeer h x
  if d.seamRuns s x && (d.seam s x).nakDue then
    ((d.updSeam s x (fun e => { e with nakDue := false })).seamGood h x (d.nakFrame s x cred)).2
  else d

def execSeamNakFrame (h x cred : Nat) (s : State) : Out := act s (seamNak (h % 2) x cred)

/-- A TRAIN frame: with the pattern checker on the port it counts `errs` bit errors on a lane (R379). -/
def seamTrain (h x lane errs : Nat) (d : Dev) : Dev :=
  let mode := d.loopMode h x
  if decide (x < 16) && d.bit SEAM_PRBS.EN h && d.rd SEAM_PRBS.PORT h == x && (mode == 1 || mode == 2) && decide (lane < 80) then
    let d := d.updSeam h x (fun e => { e with prbs := FMap.set e.prbs lane (FMap.get e.prbs 0 lane + errs) })
    let worst := d.rd SEAM_Pn_LANE.WORST h x
    let d := if FMap.get (d.seam h x).prbs 0 worst < FMap.get (d.seam h x).prbs 0 lane then d.wr SEAM_Pn_LANE.WORST lane h x else d
    d.addSat SEAM_Pn_LANE.ERRS errs h x
  else d

def execSeamTrainFrame (h x lane errs : Nat) (s : State) : Out := act s (seamTrain (h % 2) x lane errs)

/-- Port `x` goes down (R369), seen by half `h` first: both halves and both row-7 clusters show it. -/
def Dev.seamDown (d : Dev) (h x : Nat) : Dev :=
  let d := [0, 1].foldl (fun d k => (d.setBit SEAM_STAT.DOWN x true k).setBit SEAM_STAT.UP x false k) d
  let d := (d.linkGoesDown (gridCluster 0 x 7) 5).err 4 9 (unitHalf h 22 x) 0
  let d := [0, 1].foldl (fun d k => d.updSeam k x (fun e => { e with replay := [], pos := e.txSeq, packet := none })) d
  d.cores.foldl (fun d e => d.failLost e.1 8) d

/-- 32 sends of one frame in a row have failed, at either end of port `x`. -/
def Dev.sendsFailed (d : Dev) (x : Nat) : Bool := [0, 1].any (fun h => (d.seam h x).replay.any (fun f => decide (32 ≤ f.fails)))

def execSeamPortDown (h x : Nat) (s : State) : Out :=
  act s (fun d => if 16 ≤ x || d.portDown x || !d.sendsFailed x then d else d.seamDown (h % 2) x)

/-- A port of a stand-alone half that begins to reflect starts as a trained one does: with 32 credits a channel and SEQ 0
(DESIGN CHOICE, log entry 80). -/
def Dev.startReflect (d : Dev) (h x : Nat) : Dev :=
  if d.reflects h x then
    (List.range 4).foldl (fun d vc => d.wr (creditFld vc) 32 h x) { d with seams := FMap.del d.seams (h * 16 + x) }
  else d

/-- A write of SEAM_LOOP: a port in service keeps its mode, and a write that would change it is noted (R379). -/
def Dev.seamLoop (d : Dev) (h v : Nat) : Dev :=
  (List.range 16).foldl (fun d x =>
    let old := d.loopMode h x
    let m := v / 4 ^ x % 4
    if old = m then d
    else if d.portUp x then d.wr SEAM_CTRL.LOOP_LOST 1 h
    else (d.wr SEAM_LOOP.MODE (d.rd SEAM_LOOP.MODE h - old * 4 ^ x + m * 4 ^ x) h).startReflect h x) d

def execSeamLoopWrite (h v : Nat) (s : State) : Out := act s (fun d => d.seamLoop (h % 2) v)

/-! ### The control channel (R372, R373) -/

/-- A heartbeat changes nothing. -/
def execCtrlHeartbeat (_h : Nat) (s : State) : Out := act s (fun d => d)

/-! ### Epoch switches -/

/-- Both halves record how a switch ended (R375). -/
def Dev.commitResult (d : Dev) (res cause : Nat) : Dev :=
  let d := [0, 1].foldl (fun d h =>
    ((d.wr HALF_COMMIT.PHASE 0 h).wr HALF_COMMIT.RESULT res h).wr HALF_COMMIT.CAUSE cause h) d
  { d with switch := none }

/-- The parties of a switch: one half alone when every shadow value stands in its own clusters and common blocks, else both,
since a device block serves both halves (R374, R376). -/
def Dev.switchParties (d : Dev) : List Nat :=
  match [0, 1].filter (fun h => !d.shadow.isEmpty && d.shadow.all (fun e => decide (0x100000 ≤ e.1 / 16) && halfOf (e.1 / 16) == h)) with
  | [] => [0, 1]
  | hs => hs

/-- PREPARE leaves Half A. -/
def Dev.startSwitch (d : Dev) : Dev :=
  let ps := d.switchParties
  let d := [0, 1].foldl (fun d h => d.wr HALF_COMMIT.PHASE 1 h) (d.wr SEQ_EPOCH_STAT.WAITING 0)
  { d with switch := some { parties := ps, answers := [], flip := false, cancel := false, flipped := [], drained := [] } }

/-- The switch needs the control channel, and it is lost. -/
def Dev.unheard (d : Dev) (w : Switch) : Bool := d.ctrlDown && w.parties == [0, 1]

/-- A switch that waited begins. -/
def Dev.nextSwitch (d : Dev) : Dev := if d.bit SEQ_EPOCH_STAT.WAITING then d.startSwitch else d

/-- SWITCH (R535): waits while another switch runs. -/
def Dev.epochSwitch (d : Dev) : Dev := if d.switch.isSome then d.wr SEQ_EPOCH_STAT.WAITING 1 else d.startSwitch

/-- DISCARD (R535). -/
def Dev.epochDiscard (d : Dev) : Dev :=
  if d.switch.isSome then d.wr SEQ_EPOCH_STAT.CMD_LOST 1 else ({ d with shadow := [] }).wr SEQ_EPOCH_STAT.DIRTY 0

def execEpochSwitch (s : State) : Out := act s Dev.epochSwitch
def execEpochDiscard (s : State) : Out := act s Dev.epochDiscard
def execEpochNop (s : State) : Out := act s (fun d => d)

/-- The hint window whose control word a BAR0 offset is: its cluster and number. -/
def windowAt (addr : Nat) : Option (Nat × Nat) :=
  let o := (addr - 0x1000000) % 0x80000
  let r := CL_CACHE_HINTWIN_CTRL
  if 0x1000000 ≤ addr ∧ r.off ≤ o ∧ (o - r.off) % r.stride = 0 ∧ (o - r.off) / r.stride < r.n
  then some ((addr - 0x1000000) / 0x80000, (o - r.off) / r.stride) else none

/-- A window that is invalid, or does not pin, gives no pin (R292). -/
def Dev.settlePins (d : Dev) (addr : Nat) : Dev :=
  match windowAt addr with
  | some (g, w) =>
    if d.bit CL_CACHE_HINTWIN_CTRL.VALID g w && d.bit CL_CACHE_HINTWIN_CTRL.PIN g w then d else d.releasePins g w
  | none => d

/-- The shadow banks of a half become active; the shadow keeps what was active (R374). -/
def Dev.flipHalf (d : Dev) (h : Nat) : Dev :=
  let keys := d.shadow.map Prod.fst
  let d := d.shadow.foldl (fun d e =>
    if halfOf (e.1 / 16) = h then
      match FMap.find d.regs e.1 with
      | some old => { d with regs := FMap.set d.regs e.1 e.2, shadow := FMap.set d.shadow e.1 old }
      | none => { d with regs := FMap.set d.regs e.1 e.2, shadow := FMap.del d.shadow e.1 }
    else d) d
  let d := keys.foldl (fun d k => if halfOf (k / 16) = h then d.settlePins (k / 16) else d) d
  d.wr HALF_COMMIT.BANK (1 - d.rd HALF_COMMIT.BANK h) h

/-- A shadow write of half `h` is in progress: the low word of a 64-bit banked register is held (R17). -/
def Dev.shadowOpen (d : Dev) (h : Nat) : Bool :=
  d.held.any (fun e => halfOf e.2.1 == h && (siteAt e.2.1).any (fun x => x.reg.banked))

/-- Why a half answers ABORT to PREPARE: a Curtain of partition or device scope on its clusters, a shadow write in
progress, or stand-alone mode when both halves are parties. -/
def Dev.abortCause (d : Dev) (h : Nat) : Option Nat :=
  if d.curtains.any (fun k => (match k.scope with | .part _ => true | _ => false) && k.clusters.any (fun g => g / 128 == h))
  then some 1
  else if d.shadowOpen h then some 2
  else if d.alone h && d.switchParties == [0, 1] then some 3
  else none

/-- Half `h` receives PREPARE and answers; over the control channel where both halves are parties. -/
def execPrepare (h : Nat) (s : State) : Out :=
  act s (fun d =>
    match d.switch with
    | some w => if !w.parties.contains (h % 2) ∨ (FMap.find w.answers (h % 2)).isSome ∨ w.cancel ∨ (h % 2 = 1 ∧ d.unheard w) then d
        else { d with switch := some { w with answers := FMap.set w.answers (h % 2) (d.abortCause (h % 2)) } }
    | none => d)

/-- Every party has answered READY: FLIP is sent. -/
def execCommitReady (s : State) : Out :=
  act s (fun d =>
    match d.switch with
    | some w => if w.parties.all (fun h => FMap.find w.answers h == some none) ∧ w.cancel = false
        then { d with switch := some { w with flip := true } } else d
    | none => d)

/-- A half has answered ABORT: CANCEL is sent, with its cause recorded. -/
def execCommitAbort (s : State) : Out :=
  act s (fun d =>
    match d.switch with
    | some w =>
      match (w.answers.filterMap Prod.snd).head? with
      | some cause =>
        let d := [0, 1].foldl (fun d h => (d.wr HALF_COMMIT.RESULT 2 h).wr HALF_COMMIT.CAUSE cause h) d
        { d with switch := some { w with cancel := true } }
      | none => d
    | none => d)

/-- Half B flips and answers FLIPPED. -/
def execFlip (s : State) : Out :=
  act s (fun d =>
    match d.switch with
    | some w => if w.flip && !w.flipped.contains 1 then
        { ((d.flipHalf 1).wr HALF_COMMIT.PHASE 2 1) with switch := some { w with flipped := [1] } } else d
    | none => d)

/-- FLIPPED reaches Half A: it flips too, and the epoch advances. -/
def execFlipped (s : State) : Out :=
  act s (fun d =>
    match d.switch with
    | some w => if w.flipped == [1] then
        let d := (d.flipHalf 0).add SEQ_EPOCH.EPOCH 1
        let d := [0, 1].foldl (fun d h => d.wr HALF_COMMIT.PHASE 3 h) d
        { d with switch := some { w with flipped := [1, 0] } } else d
    | none => d)

/-- Requests of half `h` that its cores issued under the old epoch and that are still outstanding: a REG access, atomics. -/
def Dev.oldRequests (d : Dev) (h : Nat) : Bool :=
  d.cores.any (fun e => coreHalf e.1 == h &&
    ((match e.2.wait with | .reg _ _ _ _ _ b => b != d.epochBank h | _ => false) || e.2.atomq.any (fun a => a.bank != d.epochBank h)))

/-- The count of requests of half `h` issued under the old epoch reaches zero. -/
def execEpochDrainEnd (h : Nat) (s : State) : Out :=
  act s (fun d =>
    match d.switch with
    | some w => if w.flipped.contains (h % 2) && !w.drained.contains (h % 2) && !d.oldRequests (h % 2) then
        { d with switch := some { w with drained := w.drained ++ [h % 2] } } else d
    | none => d)

/-- DRAINED reaches Half A, and the switch is DONE: the active banks are copied into the shadow banks, and a switch that waits begins. -/
def execDrained (s : State) : Out :=
  act s (fun d =>
    match d.switch with
    | some w => if w.flipped.length = 2 ∧ w.parties.all w.drained.contains ∧ d.unheard w = false then
        ((({ d with shadow := [] }).wr SEQ_EPOCH_STAT.DIRTY 0).commitResult 1 0).nextSwitch else d
    | none => d)

/-- CANCEL ends the switch; no bank changes. -/
def execCommitCancel (s : State) : Out :=
  act s (fun d =>
    match d.switch with
    | some w => if w.cancel then (d.commitResult (d.rd HALF_COMMIT.RESULT 0) (d.rd HALF_COMMIT.CAUSE 0)).nextSwitch else d
    | none => d)

/-- No answer within HALF_COMMIT_TMO: Half A sends CANCEL and records TIMEOUT. -/
def execCommitTimeout (s : State) : Out :=
  act s (fun d =>
    match d.switch with
    | some w => if w.flip || w.cancel || w.answers.length = w.parties.length then d
        else
          let d := [0, 1].foldl (fun d h => (d.wr HALF_COMMIT.RESULT 3 h).wr HALF_COMMIT.CAUSE 0 h) d
          { d with switch := some { w with cancel := true } }
    | none => d)

/-- The control channel is lost (R373); a switch between FLIP and FLIPPED ends SPLIT, and one not yet flipped TIMEOUT
(R375, R380). -/
def ctrlLostAll (d : Dev) : Dev :=
  let d := [0, 1].foldl (fun d h =>
    ((d.wr HALF_STAT.CTRL_LOST 1 h).wr HALF_STAT.CTRL_UP 0 h).err 4 9 (unitHalf h 22 0) 0) d
  let d := { d with ctrlDown := true }.svc 5
  match d.switch with
  | some w =>
    if !d.unheard w then d
    else if w.flip && w.flipped.length < 2 then d.commitResult 4 0
    else if !w.flip then d.commitResult 3 0
    else d
  | none => d

def execCtrlChannelLost (s : State) : Out := act s (fun d => if d.ctrlDown then d else ctrlLostAll d)

end Sys2Proof.Machine
end

