-- ==== Sys2Proof/Machine/Curtain.lean ====
section
/-! DEFINITION. Curtains (R525-R529) and the commands that raise them: SEQ_RST_CMD, PART_CMD and the VALID bit of a
partition. The steps RAISE to RESTORE are taken at once; LOWER is a command of its own. -/
namespace Sys2Proof.Machine
open Sys2Proof

/-! ### STOP and DRAIN of a core (R162, R185, R242, R333, R526) -/

/-- The executing MMAC stops: each entry holds a value it held during the instruction. How many tile steps had reached
it is open. -/
def Dev.mxStop (d : Dev) (c : Nat) : Dev :=
  match (d.core c).mxq with
  | [] => d
  | job :: _ =>
    let n := mmSteps job.word
    let e := Desc.ofBits job.dacc
    let cut := fun j => (mxRun c { job with word := job.word - BitVec.ofNat 64 n + BitVec.ofNat 64 j } [] d).d
    let at3 := (List.range e.count2).flatMap (fun v => (List.range e.count1).flatMap (fun a =>
      (List.range 16).map (fun i => (e.at i a v).toNat)))
    at3.foldl (fun r a =>
      let f := r.draw 17
      let j := f.1.toNat % (n + 1)
      if j = 0 then f.2 else f.2.lwr c a 4 ((cut j).lrd c a 4)) d

/-- The vector engine stops: each destination value holds its old or its new value, with correct check bits. -/
def Dev.vecStop (d : Dev) (c : Nat) : Dev :=
  (d.core c).vwr.foldl (fun d p => p.writes.foldl (fun d w =>
    let f := d.draw 1
    if f.1 = 1 then (vPut c p.destRead w (f.2, false)).1 else f.2) d) d

/-- Blocks of device memory that `n` bytes from `da` touch take the poison check value. -/
def Dev.poisonSpan (d : Dev) (da n : Nat) : Dev :=
  if n = 0 then d
  else (List.range ((da + n - 1) / 4096 - da / 4096 + 1)).foldl (fun d i => d.setPoison ((da / 4096 + i) * 4096)) d

/-- A channel's current descriptor, if it has begun to write device memory, leaves its blocks poisoned. -/
def Dev.dmaCut (d : Dev) (c n : Nat) : Dev :=
  let k := d.ch c n
  match k.q with
  | ent :: _ =>
    let e := DmaDesc.ofRaw ent.raw
    if !k.begun || k.halted || ent.kv.isSome || e.localDst || e.kind == 2 then d
    else (List.range (ceilDiv k.pos (max 1 e.len))).foldl (fun d r =>
      d.poisonSpan (e.at e.dst e.dstride (r * e.len)).toNat (min e.len (k.pos - r * e.len))) d
  | [] => d

/-- Atomics that have been started at the memory-side adders leave their blocks poisoned. -/
def Dev.atomCut (d : Dev) (c : Nat) : Dev :=
  (d.core c).atomq.foldl (fun d a => match a.phase with | .adder _ _ _ => d.setPoison a.da | _ => d) d

/-- The core leaves every wait: its WAIT is cancelled, grants on their way are refused (R343), a waiting admission is
withdrawn (R200). -/
def Dev.leaveWaits (d : Dev) (c : Nat) : Dev :=
  let d := { d.seqWithdraw c with cueOps := (d.seqWithdraw c).cueOps.filter (fun o => !(o.req.id == 4 * c && o.fn == 1)) }
  let d := d.removeWaiter c
  (d.core c).cueAns.foldl (fun d a => match a with | .wake cue k kind => d.refuseWake cue k kind | _ => d) d

/-! ### REVOKE (R349, R292, R219) -/

/-- Every cue that satisfies `p` goes BROKEN, a FREE one too (DEDUCED, log entry 16). -/
def Dev.breakCues (d : Dev) (cs : List Nat) (p : Dev → Nat → Bool) : Dev :=
  cs.foldl (fun d g => (List.range 64).foldl (fun d j =>
    let cue := cueNum g j
    if d.cueState cue ≠ 4 ∧ p d cue then d.breakCue cue else d) d) d

/-- Every OPEN barrier context that satisfies `p` goes BROKEN with a cause. -/
def Dev.breakBarrs (d : Dev) (cause : Nat) (p : Dev → Nat → Nat → Bool) : Dev :=
  [0, 1].foldl (fun d h => (List.range 64).foldl (fun d n =>
    if d.barrState h n = 1 ∧ p d h n then d.barrBreak h n cause else d) d) d

/-- Hint windows of a tenant lose VALID in both banks, and their pins (R292). -/
def Dev.dropWindows (d : Dev) (t : Nat) : Dev :=
  (List.range 256).foldl (fun d g => (List.range 16).foldl (fun d w =>
    if d.rd CL_CACHE_HINTWIN_CTRL.OWNER g w = t ∨ d.shadowRd CL_CACHE_HINTWIN_CTRL.OWNER g w 0 = t then
      let k := CL_CACHE_HINTWIN_CTRL.VALID.key g w 0
      ({ d.wr CL_CACHE_HINTWIN_CTRL.VALID 0 g w with shadow := FMap.del d.shadow k }).releasePins g w
    else d) d) d

/-- Near-bank registers that a tenant wrote last are cleared, in every slice. -/
def Dev.pimTenant (d : Dev) (t : Nat) : Dev :=
  { d with slices := d.slices.map (fun e => (e.1, { e.2 with pim := e.2.pim.filter (fun u => u.2.tenant != some t) })) }

/-! ### RESTORE (R12, R14, R303) -/

/-- Every field whose register lies in `[lo, hi)` of BAR0 returns to its Reset entry, in both banks, but those kept. -/
def Dev.resetRange (d : Dev) (lo hi : Nat) (keep : Nat → Bool) : Dev :=
  let p := fun k => decide (lo * 16 ≤ k) && decide (k < hi * 16) && !keep k
  { d with regs := FMap.drop d.regs p, shadow := FMap.drop d.shadow p }

/-- A core's registers but those of its slice controller and its page of unit registers, and its state. -/
def Dev.coreRestore (d : Dev) (c : Nat) : Dev :=
  let b := scopeBase .core c
  let d := d.resetRange b (b + 0x3000) (fun _ => false)
  d.updCore c (fun k => { CoreSt.init with atomN := k.atomN })

/-- The registers of a cluster's home cache, cue storage and work queue; the cues themselves keep the state REVOKE gave
them, and MULTI_HIT is sticky. -/
def Dev.clusterRestore (d : Dev) (g : Nat) : Dev :=
  let b := scopeBase .cluster g
  let d := d.resetRange b (b + 0x2400) (fun k => k == CL_CACHE_STAT.MULTI_HIT.key g 0 0)
  d.resetRange (b + 0x6000) (b + 0x7000) (fun _ => false)

/-! ### The scopes (R505) -/

/-- A core Curtain. -/
def Dev.coreAct (d : Dev) (c : Nat) : Dev :=
  let d := ((d.rehCore c).chkCore c false).leaveWaits c
  let d := (((d.mxStop c).vecStop c).pimCurtain c).pimClear c
  let d := ((List.range 8).foldl (fun d n => d.dmaCut c n) d).atomCut c
  let d := d.msgCurtain c
  let d := d.breakCues (List.range 256) (fun d cue =>
    d.bit CL_CUE_Sj.CORE_OWNED (cueCluster cue) (cueIdx cue) && d.rd CL_CUE_Oj.OWNER_CORE (cueCluster cue) (cueIdx cue) == c)
  let d := d.breakBarrs 2 (fun d h n => d.barrMember h n c)
  d.coreRestore c

/-- A cluster Curtain. -/
def Dev.clusterAct (d : Dev) (g : Nat) : Dev :=
  let d := (List.range 16).foldl (fun d k => d.coreAct (g * 16 + k)) d
  let d := (d.wbWhere g (fun _ => true)).updCache g (fun c => { c with lines := [], cmd := none })
  let d := d.breakCues [g] (fun _ _ => true)
  let d := d.breakBarrs 2 (fun d h n => h == g / 128 && d.barrCluster h n (g % 128))
  d.clusterRestore g

/-- The cores whose CORE_SEQ_TENANT is one of `ts`. -/
def Dev.coresFor (d : Dev) (ts : List Nat) : List Nat :=
  (List.range 4096).filter (fun c => ts.contains (d.rd CORE_SEQ_TENANT.TENANT c))

/-- The tenants of a partition. -/
def Dev.partTenants (d : Dev) (p : Nat) : List Nat := d.tenantsWhere (fun e => tenPart e == p)

/-- What a tenant holds in barriers, cues, cores, hint windows and near-bank units. Its barrier contexts and cues break as
its own (R349), before the Curtains of its cores reach those that the cores own or belong to. -/
def Dev.tenantRevoke (d : Dev) (t : Nat) : Dev :=
  let d := d.breakBarrs 3 (fun d h n => d.rd BARR_CTRLn.TENANT h n == t)
  let d := d.breakCues (List.range 256) (fun d cue => d.rd CL_CUE_Oj.TENANT (cueCluster cue) (cueIdx cue) == t)
  let d := (d.coresFor [t]).foldl (fun d c => d.coreAct c) d
  (d.dropWindows t).pimTenant t

/-- A tenant Curtain (R466). -/
def Dev.tenantAct (d : Dev) (t : Nat) : Dev :=
  let d := (d.hqCurtain (fun x => x == t) 3).collTenant t
  let d := d.connCurtain (fun k => k.tenant == t) 2 2
  ((d.chkTenant t).seqTenantBreak t).tenantRevoke t

/-- A partition Curtain over clusters `gs`. -/
def Dev.partAct (d : Dev) (p : Nat) (gs : List Nat) : Dev :=
  let ts := d.partTenants p
  let d := (d.hqCurtain (fun x => ts.contains x) 9).collPart p
  let d := d.connCurtain (fun k => k.part == p) 7 1
  let d := (d.chkPart p).seqPartBreak p
  let d := gs.foldl (fun d g => d.clusterAct g) d
  ts.foldl (fun d t => d.tenantRevoke t) d

/-! ### RAISE and LOWER (R525, R529) -/

/-- Scope `a` lies inside Curtain `k`. -/
def Dev.within (d : Dev) (a : CScope) (k : Curtain) : Bool :=
  a == k.scope ||
  (match a, k.scope with
   | .core c, _ => k.clusters.contains (coreCluster c)
   | .cluster g, _ => k.clusters.contains g
   | .tenant t, .part p => ((d.tenantEntry t).1.map tenPart) == some p
   | _, _ => false)

/-- The steps of a Curtain up to RESTORE. -/
def Dev.curtainAct (d : Dev) (k : Curtain) : Dev :=
  match k.scope with
  | .core c => d.coreAct c
  | .cluster g => d.clusterAct g
  | .tenant t => d.tenantAct t
  | .part p => d.partAct p k.clusters

/-- Raise a Curtain. One inside a running Curtain merges into it; one that holds running Curtains takes them over. -/
def Dev.raiseCurtain (d : Dev) (scope : CScope) (clusters : List Nat) (src : CurSrc) : Dev :=
  let cores := match scope with
    | .tenant t => d.coresFor [t]
    | .part p => d.coresFor (d.partTenants p)
    | _ => []
  let k : Curtain := { scope := scope, clusters := clusters, cores := cores, src := src, into := none }
  match d.curtains.find? (fun o => o.into.isNone && d.within scope o) with
  | some o => { d with curtains := d.curtains ++ [{ k with into := some o.scope }] }
  | none =>
    let inner := (d.curtains.filter (fun o => d.within o.scope k)).map Curtain.scope
    let old := d.curtains.map (fun o : Curtain =>
      if inner.contains o.scope || o.into.any inner.contains then { o with into := some scope } else o)
    let d : Dev := { d with curtains := old ++ [k] }
    (if src == .darn then d else d.commitCut).curtainAct k

def Dev.coreCurtain (d : Dev) (c : Nat) (src : CurSrc) : Dev := d.raiseCurtain (.core c) [] src
def Dev.clusterCurtain (d : Dev) (g : Nat) (src : CurSrc) : Dev := d.raiseCurtain (.cluster g) [g] src
def Dev.tenantCurtain (d : Dev) (t : Nat) (src : CurSrc) : Dev := d.raiseCurtain (.tenant t) [] src

/-- The clusters that a partition's mask names. -/
def Dev.maskOf (d : Dev) (p : Nat) : List Nat := (List.range 256).filter (d.partHas p)

/-- Membership follows VALID; a cluster named by two partitions in force sets PART_MULTI (R451, R452). -/
def Dev.setMember (d : Dev) (p : Nat) : Dev :=
  if !d.bit PART_Pp_CTRL.VALID 0 p then { d with partIn := d.partIn.filter (· != p) }
  else
    let others := d.partIn.filter (· != p)
    let d := { d with partIn := p :: others }
    if (d.maskOf p).any (fun g => others.any (fun q => d.partHas q g)) then d.wr PART_STAT.PART_MULTI 1 else d

/-- A Curtain that has lowered reports to what raised it. -/
def Dev.curtainReport (d : Dev) (k : Curtain) (merged : Bool) : Dev :=
  match k.src with
  | .rst target => ((d.wr SEQ_RST_RESULT.CODE (if merged then 4 else 1)).wr SEQ_RST_RESULT.TARGET target).wr SEQ_RST_RESULT.BUSY 0
  | .part target => ((d.wr PART_RESULT.CODE 1).wr PART_RESULT.TARGET target).wr PART_RESULT.BUSY 0
  | .valid p => d.setMember p
  | _ => d

/-- LOWER of the Curtain on a scope, and of those merged into it. -/
def curtainLower (scope : CScope) (d : Dev) : Dev :=
  match d.curtains.find? (fun k => k.scope == scope && k.into.isNone) with
  | none => d
  | some k =>
    let merged := d.curtains.filter (fun o => o.into == some scope)
    let d : Dev := { d with curtains := d.curtains.filter (fun o => !(o == k) && o.into != some scope) }
    ((merged.foldl (fun d o => d.curtainReport o true) (d.curtainReport k false))).dispatch

def execCurtainLower (scope : CScope) (s : State) : Out := act s (curtainLower scope)

/-! ### SEQ_RST_CMD (R505, R506, R537) -/

def execSeqRstArmWrite (v : Nat) (s : State) : Out := act s (fun d => { d with armed := v % 2 ^ 16 == 0x5EA7 })
def execArmExpiry (s : State) : Out := act s (fun d => { d with armed := false })

/-- A write of SEQ_RST_CMD: discarded while BUSY. An arming serves one command. -/
def Dev.rstCmd (d : Dev) (f : Dev → Dev) : Dev :=
  if d.bit SEQ_RST_RESULT.BUSY then d.wr SEQ_RST_RESULT.CMD_LOST 1 else f d

/-- The result of a command that ends at once. -/
def Dev.rstResult (d : Dev) (code target : Nat) : Dev :=
  (d.wr SEQ_RST_RESULT.CODE code).wr SEQ_RST_RESULT.TARGET target

/-- CORE or CLUSTER. -/
def Dev.rstScope (d : Dev) (target : Nat) (ok : Bool) (f : Dev → Dev) : Dev :=
  d.rstCmd (fun d =>
    let d := { d with armed := false }
    if !ok then d.rstResult 2 target else f ((d.rstResult 0 target).wr SEQ_RST_RESULT.BUSY 1))

def Dev.rstCore (d : Dev) (v : Nat) : Dev :=
  let c := v % 2 ^ 12
  d.rstScope c (d.coreEnabled c) (fun d => d.coreCurtain c (.rst c))

def Dev.rstCluster (d : Dev) (v : Nat) : Dev :=
  let g := v % 2 ^ 8
  d.rstScope (v % 2 ^ 12) (d.clusterEnabled g) (fun d => d.clusterCurtain g (.rst (v % 2 ^ 12)))

def execRstCore (target : Nat) (s : State) : Out := act s (fun d => d.rstCore target)
def execRstCluster (target : Nat) (s : State) : Out := act s (fun d => d.rstCluster target)
def execRstNop (s : State) : Out := act s (fun d => d.rstCmd (fun d => d))

/-! ### PART_CMD and VALID (R452, R466, R472) -/

def Dev.partCmd (d : Dev) (f : Dev → Dev) : Dev :=
  if d.bit PART_RESULT.BUSY then d.wr PART_RESULT.CMD_LOST 1 else f d

def Dev.partResult (d : Dev) (code target : Nat) : Dev := (d.wr PART_RESULT.CODE code).wr PART_RESULT.TARGET target

def Dev.partTenantReset (d : Dev) (v : Nat) : Dev :=
  let t := v % 2 ^ 12
  d.partCmd (fun d => ((d.partResult 0 t).wr PART_RESULT.BUSY 1).tenantCurtain t (.part t))

def Dev.partPartitionReset (d : Dev) (v : Nat) : Dev :=
  let p := v % 64
  let target := v % 2 ^ 12
  d.partCmd (fun d =>
    if !d.bit PART_Pp_CTRL.VALID 0 p then d.partResult 2 target
    else
      ((d.partResult 0 target).wr PART_RESULT.BUSY 1).raiseCurtain (.part p)
        ((List.range 256).filter (fun g => d.partOf g == some p)) (.part target))

/-- RELOAD: the next use reads the entry again (R455). -/
def Dev.partReload (d : Dev) (v : Nat) : Dev :=
  let t := v % 2 ^ 12
  d.partCmd (fun d => ({ d with tenants := FMap.del d.tenants t }).partResult 1 t)

def execPartTenantReset (v : Nat) (s : State) : Out := act s (fun d => d.partTenantReset v)
def execPartPartitionReset (v : Nat) (s : State) : Out := act s (fun d => d.partPartitionReset v)
def execPartReload (v : Nat) (s : State) : Out := act s (fun d => d.partReload v)
def execPartNop (s : State) : Out := act s (fun d => d.partCmd (fun d => d))

/-- A write of PART_Pp_CTRL. -/
def Dev.partCtrl (d : Dev) (p v : Nat) : Dev :=
  let size := v / 2 ^ 26 % 4
  let raise := fun (d : Dev) => d.raiseCurtain (.part p) (d.maskOf p) (.valid p)
  if d.bit PART_Pp_CTRL.VALID 0 p then
    let d := if size ≠ d.rd PART_Pp_CTRL.PAGE_SIZE 0 p then d.wr PART_STAT.WR_LOST 1 else d
    if v.testBit 31 then d else raise (d.wr PART_Pp_CTRL.VALID 0 0 p)
  else
    let d := if size = 3 then d.noteClamp (PART_Pp_CTRL.addr 0 p 0) else d
    let d := d.wr PART_Pp_CTRL.PAGE_SIZE (min size 2) 0 p
    if v.testBit 31 then raise (d.wr PART_Pp_CTRL.VALID 1 0 p) else d

def execPartitionValidWrite (p v : Nat) (s : State) : Out := act s (fun d => d.partCtrl (p % 64) v)

end Sys2Proof.Machine
end

