-- ==== Sys2Proof/Machine/HostCtl.lean ====
section
/-! DEFINITION. The PCIe links and functions (R442-R450, R467): link events, resets, BAR2 accesses, message holdoff. -/
namespace Sys2Proof.Machine
open Sys2Proof

/-- A field returns to its Reset entry; an I entry takes what the image loaded (R12, R523). -/
def Dev.rstImg (d : Dev) (f : Fld) (u : Nat := 0) (i : Nat := 0) (j : Nat := 0) : Dev :=
  match FMap.find d.imgRegs (f.key u i j) with
  | some v => d.wr f v u i j
  | none => d.rst f u i j

/-! ### Links (R443, R467, R507) -/

/-- The functions of the link of half `h`: its physical function and the virtual functions of its slots. -/
def Dev.linkFuncs (d : Dev) (h : Nat) : List Nat := (List.range 66).filter (fun f => d.funcHalf f == h)

/-- A link trains at a rate up to MAX_SPEED. `width` is log2 of the lanes. -/
def Dev.linkUp (d : Dev) (h speed width : Nat) (flit : Bool) : Dev :=
  let sp := min speed (d.rd PCIE_CTRL.MAX_SPEED h)
  let d := ((d.wr PCIE_STAT.SPEED sp h).wr PCIE_STAT.WIDTH (min width 4) h).wr PCIE_STAT.FLIT (if flit || sp == 5 then 1 else 0) h
  (d.wr PCIE_STAT.UP 1 h).event 6 none

def execPcieLinkUp (h speed width : Nat) (flit : Bool) (s : State) : Out :=
  act s (fun d => d.linkUp (h % 2) speed width flit)

/-- Tenants of some functions are reset, each by a tenant Curtain. -/
def Dev.resetFuncs (d : Dev) (fs : List Nat) : Dev :=
  (d.tenantsWhere (fun e => fs.contains (tenFunc e))).foldl (fun d t => d.tenantCurtain t .auto) d

/-- A Function Level Reset of a physical function, a hot reset or the loss of its link: its tenants and those of its
virtual functions are reset, and their queue pairs go to VALID = 0. -/
def Dev.resetLink (d : Dev) (h : Nat) : Dev :=
  let fs := d.linkFuncs h
  let ts := d.tenantsWhere (fun e => fs.contains (tenFunc e))
  let d := d.resetFuncs fs
  ((List.range 2048).filter (fun q => d.qpValid q && ts.contains (d.qpTenant q))).foldl (fun d q => d.qpClear q) d

def Dev.linkLost (d : Dev) (h : Nat) : Dev :=
  let d := [PCIE_STAT.UP, PCIE_STAT.FLIT, PCIE_STAT.SPEED, PCIE_STAT.WIDTH].foldl (fun d f => d.wr f 0 h) d
  ((d.wr PCIE_STAT.DOWN_SEEN 1 h).event 6 none).resetLink h

def execPcieLinkDown (h : Nat) (s : State) : Out :=
  act s (fun d => if d.bit PCIE_STAT.UP (h % 2) then d.linkLost (h % 2) else d)

/-- VF_WIN and the MSI-X state of a function return to their Reset values. -/
def Dev.resetFunc (d : Dev) (f : Nat) : Dev :=
  { d with vfWin := if f < 2 then d.vfWin else FMap.del d.vfWin (f - 2), msix := FMap.drop d.msix (fun k => k / 4096 == f) }

/-- PERST_A_N or PERST_B_N: the controller of the half is reset, and the link is lost. -/
def execPerstAssert (h : Nat) (s : State) : Out :=
  act s (fun d =>
    let h := h % 2
    let d := (d.linkLost h).rstImg PCIE_CTRL.MAX_SPEED h
    (d.linkFuncs h).foldl (fun d f => d.resetFunc f) d)

def execPcieHotReset (h : Nat) (s : State) : Out := act s (fun d => d.resetLink (h % 2))
def execPfFlr (h : Nat) (s : State) : Out := act s (fun d => d.resetLink (h % 2))

def execVfFlr (slot : Nat) (s : State) : Out :=
  act s (fun d => (d.resetFuncs [2 + slot % 64]).resetFunc (2 + slot % 64))

/-- An Invalidate Request for a function completes (R450). -/
def execAtsInvalidate (func : Nat) (s : State) : Out :=
  act s (fun d => d.add PCIE_INVAL.COUNT 1 (d.funcHalf func))

/-! ### Configuration space (R5-R7, R442, R444, R445)

No command of the table reads configuration space, so these are the values that such a read returns. -/

/-- What the spec gives a function's configuration space to report: identifiers, the Device Serial Number capability, TotalVFs
of the SR-IOV capability, and the header and data register of the Designated Vendor-Specific Extended Capability. -/
inductive CfgField where
  | vendorId
  | deviceId
  | revisionId
  | subsystemVendorId
  | subsystemId
  | serialNumber
  | totalVfs
  | dvsecVendorId
  | dvsecId
  | dvsecData
  deriving DecidableEq, Repr

/-- The subsystem identifiers, setting 0x0101 of the image (R7): Subsystem ID in [31:16], Subsystem Vendor ID in [15:0]. -/
def Dev.subsystem (d : Dev) : Nat := FMap.get d.opts 0x1E6B 0x0101

/-- What function `func` reports in configuration space; none where the spec gives the function no such value. -/
def Dev.config (d : Dev) (func : Nat) (x : CfgField) : Option Nat :=
  if 66 ≤ func then none
  else
    match x with
    | .vendorId => if func < 2 then some 0x1E6B else none
    | .deviceId => some (if func < 2 then d.rd SEQ_ID.PART else 0x0353)
    | .revisionId => if func < 2 then some (d.rd SEQ_ID.REV) else none
    | .subsystemVendorId => if func < 2 then some (d.subsystem % 2 ^ 16) else none
    | .subsystemId => if func < 2 then some (d.subsystem / 2 ^ 16 % 2 ^ 16) else none
    | .serialNumber => if func < 2 then some (d.rd SEQ_SERIAL.SERIAL) else none
    | .totalVfs => if func < 2 then some (if func = 0 then d.rd PCIE_SRIOV.SPLIT 0 else 64 - d.rd PCIE_SRIOV.SPLIT 0) else none
    | .dvsecVendorId => if func < 2 then some 0x1E6B else none
    | .dvsecId => if func < 2 then some 1 else none
    | .dvsecData => if func < 2 then some (func + (if d.bit PCIE_STAT.UP (1 - func) then 2 else 0)) else none

/-! ### BAR2 (R446, R447) -/

/-- The window of a function. -/
def Dev.window (d : Dev) (func : Nat) : Nat :=
  if func < 2 then d.rd HQ_BAR2.WIN func else FMap.get d.vfWin 0 (func - 2)

/-- Partition protection for a function's BAR2: physical functions are not checked, and virtual ones as their tenants'
partition. -/
def Dev.protFunc (d : Dev) (func da : Nat) (write : Bool) : Bool × Dev :=
  if func < 2 then (true, d)
  else
    match d.tenantsWhere (fun e => tenFunc e == func) with
    | [] => (false, d)
    | t :: _ =>
      let e := d.tenantEntry t
      match e.1 with
      | none => (false, e.2)
      | some v => e.2.prot (e.2.funcHalf func) (some (tenPart v)) da write

/-- Why the line of a DA is refused: the class of the record. -/
def Dev.lineRefused (d : Dev) (func da : Nat) (write : Bool) : Option Nat × Dev :=
  match d.daRefused da with
  | some cls => (some cls, d)
  | none =>
    if d.halfLost (d.funcHalf func) (daCore da / 16) then (some 4, d)
    else
      let p := d.protFunc func da write
      (if p.1 then none else some 3, p.2)

/-- The pieces of `n` bytes from `da`, one for each 128 B line: DA, bytes and offset. -/
def linePieces : Nat → Nat → Nat → Nat → List (Nat × Nat × Nat)
  | 0, _, _, _ => []
  | fuel + 1, da, n, o =>
    if n = 0 then []
    else
      let k := min n (128 - da % 128)
      (da, k, o) :: linePieces fuel (da + k) (n - k) (o + k)

/-- A refused inbound request: its record and count, and Unsupported Request where it expects a completion. -/
def Dev.inboundRefused (d : Dev) (who : Requester) (h cls op da : Nat) (write : Bool) : Dev :=
  let d := (d.err cls op (unitHalf h 18 0) da).addSat PCIE_UR_CNT.COUNT 1 h
  if write then d else d.emit (.errCompletion who da)

/-- An access of `n` bytes at offset `off` of a function's BAR2. `wr` is the value of a write. -/
def bar2Access (func off n : Nat) (wr : Option Nat) (d : Dev) : Dev :=
  let who : Requester := .fn func
  let h := d.funcHalf func
  let da := d.window func * 2 ^ 36 + off % 2 ^ 36
  if !d.bit SEQ_STAT.READY then (if wr.isSome then d else d.emit (.errCompletion who da))
  else
    let ps := linePieces (n / 128 + 2) da n 0
    let chk := ps.foldl (fun r p =>
      let x := r.2.lineRefused func p.1 wr.isSome
      (r.1 ++ [x.1], x.2)) (([] : List (Option Nat)), d)
    let bad := (ps.zip chk.1).findSome? (fun x => x.2.map (fun cls => (cls, x.1.1)))
    let d := match bad with
      | some (cls, a) => chk.2.inboundRefused who h cls (if wr.isSome then 2 else 1) a wr.isSome
      | none => chk.2
    match wr with
    | some v => (ps.zip chk.1).foldl (fun d x =>
        if x.2.isSome then d else d.cachedWrite (d.seenDa h x.1.1) x.1.2.1 (v / 256 ^ x.1.2.2 % 256 ^ x.1.2.1) none) d
    | none =>
      if bad.isSome then d
      else
        let r := d.cachedRead (d.seenDa h da) n none
        r.2.emit (.memData who da n r.1.val r.1.ue r.1.poison)

def execBar2Access (func off n : Nat) (wr : Option Nat) (s : State) : Out :=
  act s (bar2Access (func % 66) off (min n 4096) wr)

/-! ### Message holdoff (R449) -/

def execIrqHoldoffExpiry (i : Nat) (s : State) : Out :=
  act s (fun d =>
    match FMap.find d.irqHold i with
    | some folded =>
      let d := { d with irqHold := FMap.del d.irqHold i }
      if folded then d.irqSend i else d
    | none => d)

end Sys2Proof.Machine
end

