-- ==== Sys2Proof/Machine/Crypto.lean ====
section
/-! DEFINITION. SHA-384 (FIPS 180-4) and ECDSA verification on P-384 (FIPS 186-5), as R515 and R600 use them. -/
namespace Sys2Proof.Machine
open Sys2Proof

/-! ### SHA-384 -/

def shaK0 : List W64 := [0x428a2f98d728ae22, 0x7137449123ef65cd, 0xb5c0fbcfec4d3b2f, 0xe9b5dba58189dbbc,
  0x3956c25bf348b538, 0x59f111f1b605d019, 0x923f82a4af194f9b, 0xab1c5ed5da6d8118]
def shaK1 : List W64 := [0xd807aa98a3030242, 0x12835b0145706fbe, 0x243185be4ee4b28c, 0x550c7dc3d5ffb4e2,
  0x72be5d74f27b896f, 0x80deb1fe3b1696b1, 0x9bdc06a725c71235, 0xc19bf174cf692694]
def shaK2 : List W64 := [0xe49b69c19ef14ad2, 0xefbe4786384f25e3, 0x0fc19dc68b8cd5b5, 0x240ca1cc77ac9c65,
  0x2de92c6f592b0275, 0x4a7484aa6ea6e483, 0x5cb0a9dcbd41fbd4, 0x76f988da831153b5]
def shaK3 : List W64 := [0x983e5152ee66dfab, 0xa831c66d2db43210, 0xb00327c898fb213f, 0xbf597fc7beef0ee4,
  0xc6e00bf33da88fc2, 0xd5a79147930aa725, 0x06ca6351e003826f, 0x142929670a0e6e70]
def shaK4 : List W64 := [0x27b70a8546d22ffc, 0x2e1b21385c26c926, 0x4d2c6dfc5ac42aed, 0x53380d139d95b3df,
  0x650a73548baf63de, 0x766a0abb3c77b2a8, 0x81c2c92e47edaee6, 0x92722c851482353b]
def shaK5 : List W64 := [0xa2bfe8a14cf10364, 0xa81a664bbc423001, 0xc24b8b70d0f89791, 0xc76c51a30654be30,
  0xd192e819d6ef5218, 0xd69906245565a910, 0xf40e35855771202a, 0x106aa07032bbd1b8]
def shaK6 : List W64 := [0x19a4c116b8d2d0c8, 0x1e376c085141ab53, 0x2748774cdf8eeb99, 0x34b0bcb5e19b48a8,
  0x391c0cb3c5c95a63, 0x4ed8aa4ae3418acb, 0x5b9cca4f7763e373, 0x682e6ff3d6b2b8a3]
def shaK7 : List W64 := [0x748f82ee5defb2fc, 0x78a5636f43172f60, 0x84c87814a1f0ab72, 0x8cc702081a6439ec,
  0x90befffa23631e28, 0xa4506cebde82bde9, 0xbef9a3f7b2c67915, 0xc67178f2e372532b]
def shaK8 : List W64 := [0xca273eceea26619c, 0xd186b8c721c0c207, 0xeada7dd6cde0eb1e, 0xf57d4f7fee6ed178,
  0x06f067aa72176fba, 0x0a637dc5a2c898a6, 0x113f9804bef90dae, 0x1b710b35131c471b]
def shaK9 : List W64 := [0x28db77f523047d84, 0x32caab7b40c72493, 0x3c9ebe0a15c9bebc, 0x431d67c49c100d4c,
  0x4cc5d4becb3e42b6, 0x597f299cfc657e2a, 0x5fcb6fab3ad6faec, 0x6c44198c4a475817]
def shaK : List W64 := shaK0 ++ shaK1 ++ shaK2 ++ shaK3 ++ shaK4 ++ shaK5 ++ shaK6 ++ shaK7 ++ shaK8 ++ shaK9
def shaIv : List W64 := [0xcbbb9d5dc1059ed8, 0x629a292a367cd507, 0x9159015a3070dd17, 0x152fecd8f70e5939,
  0x67332667ffc00b31, 0x8eb44a8768581511, 0xdb0c2e0d64f98fa7, 0x47b5481dbefa4fa4]

def ror64 (x : W64) (n : Nat) : W64 := x.rotateRight n

/-- The big-endian number of a list of bytes. -/
def beNat (bs : List Byte) : Nat := bs.foldl (fun v b => v * 256 + b.toNat) 0

/-- The `n` big-endian bytes of a number. -/
def shaBytes (v : Nat) : Nat → List Byte
  | 0 => []
  | n + 1 => shaBytes (v / 256) n ++ [BitVec.ofNat 8 v]

/-- The schedule, newest word first. -/
def shaSchedule (ws : List W64) : Nat → List W64
  | 0 => ws
  | n + 1 =>
    let w := fun i => ws.getD (i - 1) 0
    let s0 := ror64 (w 15) 1 ^^^ ror64 (w 15) 8 ^^^ (w 15 >>> 7)
    let s1 := ror64 (w 2) 19 ^^^ ror64 (w 2) 61 ^^^ (w 2 >>> 6)
    shaSchedule ((w 16 + s0 + w 7 + s1) :: ws) n

/-- The eight working words. -/
structure ShaSt where
  a : W64
  b : W64
  c : W64
  d : W64
  e : W64
  f : W64
  g : W64
  h : W64

def shaRound (s : ShaSt) (kw : W64) : ShaSt :=
  let t1 := s.h + (ror64 s.e 14 ^^^ ror64 s.e 18 ^^^ ror64 s.e 41) + ((s.e &&& s.f) ^^^ (~~~s.e &&& s.g)) + kw
  let t2 := (ror64 s.a 28 ^^^ ror64 s.a 34 ^^^ ror64 s.a 39) + ((s.a &&& s.b) ^^^ (s.a &&& s.c) ^^^ (s.b &&& s.c))
  { a := t1 + t2, b := s.a, c := s.b, d := s.c, e := s.d + t1, f := s.e, g := s.f, h := s.g }

def ShaSt.words (s : ShaSt) : List W64 := [s.a, s.b, s.c, s.d, s.e, s.f, s.g, s.h]
def ShaSt.ofWords (w : List W64) : ShaSt :=
  let g := fun i => w.getD i 0
  { a := g 0, b := g 1, c := g 2, d := g 3, e := g 4, f := g 5, g := g 6, h := g 7 }

/-- One block of 128 bytes. -/
def shaBlock (hs : List W64) (bs : List Byte) : List W64 :=
  let ws := (List.range 16).map (fun i => BitVec.ofNat 64 (beNat ((bs.drop (8 * i)).take 8)))
  let sch := (shaSchedule ws.reverse 64).reverse
  let s := (shaK.zip sch).foldl (fun s kw => shaRound s (kw.1 + kw.2)) (ShaSt.ofWords hs)
  (hs.zip s.words).map (fun x => x.1 + x.2)

def shaBlocks : Nat → List W64 → List Byte → List W64
  | 0, hs, _ => hs
  | n + 1, hs, bs => if bs.isEmpty then hs else shaBlocks n (shaBlock hs (bs.take 128)) (bs.drop 128)

/-- The digest as a number of 48 bytes, the first byte highest. -/
def sha384 (m : List Byte) : Nat :=
  let zeros := (128 + 111 - m.length % 128) % 128
  let p := m ++ [0x80] ++ List.replicate zeros 0 ++ shaBytes (8 * m.length) 16
  ((shaBlocks (p.length / 128 + 1) shaIv p).take 6).foldl (fun v w => v * 2 ^ 64 + w.toNat) 0

/-! ### P-384 -/

def p384P : Nat := 2 ^ 384 - 2 ^ 128 - 2 ^ 96 + 2 ^ 32 - 1
def p384N : Nat := 0xffffffffffffffffffffffffffffffffffffffffffffffffc7634d81f4372ddf581a0db248b0a77aecec196accc52973
def p384B : Nat := 0xb3312fa7e23ee7e4988e056be3f82d19181d9c6efe8141120314088f5013875ac656398d8a2ed19d2a85c8edd3ec2aef
def p384G : Nat × Nat :=
  (0xaa87ca22be8b05378eb1c71ef320ad746e1d3b628ba79b9859f741e082542a385502f25dbf55296c3a545e3872760ab7,
   0x3617de4a96262c6f5d9e98bf9292dc29f8f41dbd289a147ce9da3113b5f0b8c00a60b1ce1d7e819d7a431d7c90ea0e5f)

/-- `x ^ e` modulo `m`, for an exponent of at most `fuel` bits. -/
def powMod (m : Nat) : Nat → Nat → Nat → Nat
  | 0, _, _ => 1 % m
  | fuel + 1, x, e =>
    let r := powMod m fuel (x * x % m) (e / 2)
    if e % 2 = 1 then r * x % m else r

/-- The inverse modulo a prime of 384 bits. -/
def invMod (m x : Nat) : Nat := powMod m 384 x (m - 2)

/-- The sum of two points; none is the point at infinity. -/
def ecAdd (a b : Option (Nat × Nat)) : Option (Nat × Nat) :=
  match a, b with
  | none, q => q
  | p, none => p
  | some (x1, y1), some (x2, y2) =>
    let m := p384P
    if x1 = x2 ∧ (y1 + y2) % m = 0 then none
    else
      let l := if x1 = x2 then (3 * x1 * x1 + (m - 3)) * invMod m (2 * y1 % m) % m
               else (y2 + m - y1) * invMod m ((x2 + m - x1) % m) % m
      let x := (l * l + (m - x1) + (m - x2)) % m
      some (x, (l * ((x1 + m - x) % m) + (m - y1)) % m)

/-- `k` times a point, `k` of at most `fuel` bits. -/
def ecMul : Nat → Nat → Option (Nat × Nat) → Option (Nat × Nat)
  | 0, _, _ => none
  | fuel + 1, k, p =>
    let r := ecMul fuel (k / 2) (ecAdd p p)
    if k % 2 = 1 then ecAdd r p else r

/-- A point lies on the curve. -/
def onCurve (q : Nat × Nat) : Bool :=
  decide (q.1 < p384P) && decide (q.2 < p384P) && q.2 * q.2 % p384P == (q.1 * q.1 * q.1 + (p384P - 3) * q.1 + p384B) % p384P

/-- The ECDSA signature (r, s) of a message digest under public key `q` is valid. -/
def ecdsaOk (q : Nat × Nat) (digest r s : Nat) : Bool :=
  let n := p384N
  if r = 0 ∨ s = 0 ∨ n ≤ r ∨ n ≤ s ∨ !onCurve q then false
  else
    let w := invMod n s
    match ecAdd (ecMul 384 (digest * w % n) (some p384G)) (ecMul 384 (r * w % n) (some q)) with
    | some (x, _) => x % n == r
    | none => false

/-- An uncompressed SEC1 point of 97 bytes. -/
def sec1 (bs : List Byte) : Option (Nat × Nat) :=
  if bs.length = 97 ∧ bs.headD 0 = 4 then some (beNat ((bs.drop 1).take 48), beNat (bs.drop 49)) else none

/-- The signature over a message is valid under a key given as an uncompressed point. -/
def signatureOk (key : List Byte) (msg : List Byte) (r s : Nat) : Bool :=
  match sec1 key with
  | some q => ecdsaOk q (sha384 msg) r s
  | none => false

end Sys2Proof.Machine
end

