-- ==== Sys2Proof/Machine/Darn.lean ====
section
/-! DEFINITION. Field retirement and repair (R61-R64) and failing lanes (R249). -/
namespace Sys2Proof.Machine
open Sys2Proof

/-! ### Unit IDs (R31) -/

def uidCluster (u : Nat) : Nat := u / 2 ^ 16 % 2 ^ 8
def uidSlot (u : Nat) : Nat := u / 2 ^ 11 % 2 ^ 5
def uidKind (u : Nat) : Nat := u / 2 ^ 6 % 2 ^ 5
def uidInst (u : Nat) : Nat := u % 2 ^ 6
def uidCore (u : Nat) : Nat := uidCluster u * 16 + uidSlot u

/-- The Unit ID names a block of a core, with instances below `n`. -/
def uidIsCore (u kind n : Nat) : Bool := decide (uidSlot u < 16) && uidKind u == kind && decide (uidInst u < n)
/-- The Unit ID names a cluster-common block. -/
def uidIsCluster (u kind : Nat) : Bool := uidSlot u == 16 && uidKind u == kind

/-! ### Retirement (R43, R44, R61, R64) -/

/-- The slice of core `n` becomes an orphan, unless it is lost. -/
def Dev.makeOrphan (d : Dev) (n : Nat) : Dev :=
  if d.lost n then d else d.setBit DARN_CL_ORPHAN.ORPHAN (n % 16) true 0 (n / 16)

/-- Core `n` becomes RETIRING with a cause; commands and steps that wait for it end UNIT_DISABLED (R63, R68). -/
def Dev.retireOne (d : Dev) (n cause : Nat) : Dev :=
  let d := (d.wr DARN_CORE_STATE.STATE 3 0 n).wr DARN_CORE_STATE.CAUSE cause 0 n
  ((d.makeOrphan n).hqCoreEnd n 2).chkCore n true

/-! ### DARN_CMD (R59, R61-R63) -/

/-- A refused command: its result is written at once. -/
def Dev.darnRefuse (d : Dev) (code unit : Nat) : Dev := (d.wr DARN_CMD_RESULT.CODE code).wr DARN_CMD_RESULT.UNIT unit

/-- A command that changes the map: its entry, the record, CMD_BUSY; the result is kept for its end. -/
def Dev.darnApply (d : Dev) (kind unit detail : Nat) (f : Dev → Dev) : Dev :=
  let p := d.darnPend kind unit detail
  let d := (((f p.1).mapChange unit).darnCheck).wr DARN_STAT.CMD_BUSY 1
  { d with darnCmd := some (if p.2 then 1 else 6, unit) }

/-- A write of DARN_CMD while CMD_BUSY is discarded. -/
def Dev.darnCmdW (d : Dev) (f : Dev → Dev) : Dev := if d.bit DARN_STAT.CMD_BUSY then d.wr DARN_STAT.CMD_LOST 1 else f d

def Dev.darnRetireCore (d : Dev) (unit : Nat) : Dev :=
  d.darnCmdW (fun d =>
    let n := uidCore unit
    if !uidIsCore unit 0 1 then d.darnRefuse 2 unit
    else if !d.coreEnabled n then d.darnRefuse 3 unit
    else (d.darnApply 1 unit 6 (fun d => d.retireOne n 6)).coreCurtain n .darn)

def Dev.darnRetireCluster (d : Dev) (unit : Nat) : Dev :=
  d.darnCmdW (fun d =>
    let g := uidCluster unit
    if !uidIsCluster unit 17 || uidInst unit != 0 then d.darnRefuse 2 unit
    else if !d.clusterEnabled g then d.darnRefuse 3 unit
    else
      (d.darnApply 2 unit 6 (fun d =>
        ((List.range 16).map (fun k => g * 16 + k)).foldl (fun d n => if d.coreEnabled n then d.retireOne n 5 else d)
          (d.wr DARN_CL_STATE.STATE 3 0 g))).clusterCurtain g .darn)

/-- The link is retired, or awaits retirement, at this end. -/
def Dev.linkGone (d : Dev) (g l : Nat) : Bool := d.linkRet.contains (g, l) || (d.rd DARN_CL_STATE.LINK_PEND 0 g).testBit l

/-- A local link (kind 14, instance 4) has no facing link, and R62 states no result for it: the model answers BAD_UNIT
(DESIGN CHOICE, log entry 65). -/
def Dev.darnRetireLink (d : Dev) (unit : Nat) : Dev :=
  d.darnCmdW (fun d =>
    let g := uidCluster unit
    let l := uidInst unit
    match (if uidIsCluster unit 14 then linkPeer g l else none) with
    | none => d.darnRefuse 2 unit
    | some peer =>
      if d.linkGone g l || d.linkGone peer (linkBack l) then d.darnRefuse 3 unit
      else d.darnApply 3 unit 0 (fun d =>
        (d.setBit DARN_CL_STATE.LINK_PEND l true 0 g).setBit DARN_CL_STATE.LINK_PEND (linkBack l) true 0 peer))

/-- REPAIR_ROW or REPAIR_COL. -/
def Dev.darnRepair (d : Dev) (unit kind : Nat) (used : Fld) (f : Dev → Dev) : Dev :=
  d.darnCmdW (fun d =>
    let n := uidCore unit
    if !uidIsCore unit 1 4 then d.darnRefuse 2 unit
    else if !d.coreEnabled n then d.darnRefuse 3 unit
    else if (d.rd used 0 n).testBit (uidInst unit) then d.darnRefuse 4 unit
    else
      (d.darnApply kind unit (d.rd DARN_CMD_ARG.INDEX) (fun d => f (d.setBit used (uidInst unit) true 0 n))).coreCurtain
        n .darn)

def Dev.darnRepairRow (d : Dev) (unit : Nat) : Dev := d.darnRepair unit 5 DARN_CORE_STATE.ROW_USED (fun d => d)

/-- REPAIR_COL takes the checksum column. -/
def Dev.darnRepairCol (d : Dev) (unit : Nat) : Dev :=
  d.darnRepair unit 6 DARN_CORE_STATE.COL_USED (fun d =>
    d.setBit DARN_CORE_STATE.CKCOL (uidInst unit) false 0 (uidCore unit))

def execDarnRetireCore (unit : Nat) (s : State) : Out := act s (fun d => d.darnRetireCore (unit % 2 ^ 24))
def execDarnRetireCluster (unit : Nat) (s : State) : Out := act s (fun d => d.darnRetireCluster (unit % 2 ^ 24))
def execDarnRetireLink (unit : Nat) (s : State) : Out := act s (fun d => d.darnRetireLink (unit % 2 ^ 24))
def execDarnRepairRow (unit : Nat) (s : State) : Out := act s (fun d => d.darnRepairRow (unit % 2 ^ 24))
def execDarnRepairCol (unit : Nat) (s : State) : Out := act s (fun d => d.darnRepairCol (unit % 2 ^ 24))
def execDarnNop (s : State) : Out := act s (fun d => d.darnCmdW (fun d => d))

/-- A command ends, once the Curtain it raised has lowered. -/
def execDarnCmdDone (s : State) : Out :=
  act s (fun d =>
    match d.darnCmd with
    | some (code, unit) =>
      if d.curtains.any (fun k => k.src == .darn) then d
      else ({ d with darnCmd := none }.darnRefuse code unit).wr DARN_STAT.CMD_BUSY 0
    | none => d)

/-! ### Failing lanes (R43, R44, R64, R249) -/

/-- A lane fails in a group whose spare is in use: the group is lost, the core is retired with CAUSE 3, and its slice
goes to narrow mode or is lost. A further lane of a group already lost changes no more than the pending queue. -/
def Dev.groupLost (d : Dev) (n lane : Nat) : Dev :=
  let d := (d.darnPend 4 (unitCore n 7 0) lane).1
  if (d.slice n).lostGroups.contains (lane / 32) then d
  else
    let was := d.coreEnabled n
    let d := if was then (d.darnPend 1 (unitCore n 0 0) 3).1.retireOne n 3 else d
    let d := d.dropGroup n (lane / 32)
    let d := (d.mapChange (unitCore n 0 0)).darnCheck
    if was then d.coreCurtain n .auto else d

/-- A lane's count has reached LANE_LIMIT. -/
def execLaneFailing (n lane : Nat) (s : State) : Out :=
  act s (fun d =>
    if 4096 ≤ n ∨ 1152 ≤ lane ∨ FMap.get (d.slice n).laneCnt 0 lane < d.rd CORE_SLC_CTRL.LANE_LIMIT n then d
    else if d.spareLaneUsed n lane then
      (d.updSlice n (fun k => { k with laneCnt := FMap.del k.laneCnt lane })).groupLost n lane
    else d.repairLane n lane)

end Sys2Proof.Machine
end

