-- ==== Sys2Proof/Machine/Power.lean ====
section
/-! DEFINITION. Regulators, operating points, the power governor and the thermal controller (R539-R562, R565-R568). -/
namespace Sys2Proof.Machine
open Sys2Proof

/-! ### Operating points (R543, R544) -/

def oppMHz (n : Nat) : Nat := [500, 700, 850, 1000, 1100, 1200, 1250, 1400].getD n 0
/-- The typical factory voltage, which is what a part has whose fuses name no other. -/
def oppMv (n : Nat) : Nat := [600, 640, 670, 710, 740, 770, 790, 860].getD n 0

/-- The factory voltage of an OPP: what the part's fuses hold, which PWR_OPPn reports (R543, R563). -/
def Dev.oppFuse (d : Dev) (n : Nat) : Nat := FMap.get d.regs (oppMv n) (PWR_OPPn.MV.key 0 n 0)

/-- The voltage that the device sets for an OPP. -/
def Dev.oppVolt (d : Dev) (n : Nat) : Nat := ((d.oppFuse n : Int) + d.rdS PWR_VOFS.MV).toNat

/-- The OPP field of a half, and the highest k field. -/
def oppField (h : Nat) : Fld := if h = 0 then PWR_OPP.OPP_A else PWR_OPP.OPP_B
def skipField (h : Nat) : Fld := if h = 0 then PWR_OPP.SKIP_A else PWR_OPP.SKIP_B

def Dev.reg (d : Dev) (n : Nat) : RegLink := FMap.get d.regLinks RegLink.init n
def Dev.updReg (d : Dev) (n : Nat) (f : RegLink → RegLink) : Dev := { d with regLinks := FMap.upd d.regLinks RegLink.init n f }

/-- Unit ID of regulator `n` (R565). -/
def unitReg (n : Nat) : Nat := unitDev 26 n

/-- The step of a half ends with the half at an OPP. -/
def Dev.dvfsEnd (d : Dev) (h opp : Nat) : Dev :=
  let d := d.wr (oppField h) opp
  let d := d.wr CLK_DOMn.STATE 2 0 (2 + h)
  { d with dvfs := FMap.del d.dvfs h, dvfsLast := FMap.set d.dvfsLast h d.now }

/-- The CORE PLL of a half starts to relock. -/
def Dev.relock (d : Dev) (h : Nat) (x : Dvfs) : Dev :=
  { d.wr CLK_DOMn.STATE 1 0 (2 + h) with dvfs := FMap.set d.dvfs h { x with relock := true } }

/-- The governor starts the step it has decided: at least 1 ms after the last one on the rail, with the link up. -/
def dvfsStep (h : Nat) (d : Dev) : Dev :=
  match FMap.find d.gov.want h with
  | none => d
  | some up =>
    let src := d.rd (oppField h)
    let late := match FMap.find d.dvfsLast h with | some t => decide (t + 1000000 ≤ d.now) | none => true
    if !late || (FMap.find d.dvfs h).isSome || d.rd PWR_REGn_STAT.LINK 0 h != 0 then d
    else
      let d := { d with gov := { d.gov with want := FMap.del d.gov.want h } }
      if up then
        if d.gov.oppMax ≤ src then d
        else { d with dvfs := FMap.set d.dvfs h { src := src, dst := src + 1, relock := false } }
      else if src = 0 then d
      else d.relock h { src := src, dst := src - 1, relock := true }

def execDvfsStep (h : Nat) (s : State) : Out := ctl s (dvfsStep (h % 2))

/-- The regulator reports the voltage of the step: a rise goes on to relock, a fall is done. -/
def dvfsVoltageReached (h : Nat) (d : Dev) : Dev :=
  match FMap.find d.dvfs h with
  | some x =>
    if x.relock then d
    else
      let d := d.wr PWR_REGn_STAT.SET_MV (d.oppVolt x.dst) 0 h
      if x.src < x.dst then d.relock h x else d.dvfsEnd h x.dst
  | none => d

def execDvfsVoltageReached (h : Nat) (s : State) : Out := ctl s (dvfsVoltageReached (h % 2))

/-- The PLL has relocked: a rise is done, a fall goes on to its voltage. -/
def pllRelockDone (h : Nat) (d : Dev) : Dev :=
  match FMap.find d.dvfs h with
  | some x =>
    if !x.relock then d
    else if x.src < x.dst then d.dvfsEnd h x.dst
    else { d.wr CLK_DOMn.STATE 2 0 (2 + h) with dvfs := FMap.set d.dvfs h { x with relock := false } }
  | none => d

def execPllRelockDone (h : Nat) (s : State) : Out := ctl s (pllRelockDone (h % 2))

/-- A failed transaction of regulator `n`. -/
def Dev.avsFail (d : Dev) (n : Nat) : Dev := d.updReg n (fun r => { r with fails := r.fails + 1 })

/-- A voltage not reached within 200 µs: the step is abandoned, and the rail keeps its OPP. -/
def dvfsTimeout (h : Nat) (d : Dev) : Dev :=
  match FMap.find d.dvfs h with
  | some x => if x.relock then d else (d.dvfsEnd h x.src).avsFail h
  | none => d

def execDvfsTimeout (h : Nat) (s : State) : Out := ctl s (dvfsTimeout (h % 2))

/-! ### Regulators (R540, R545) -/

/-- The link of a lost regulator returns: the higher voltage is written and confirmed. -/
def Dev.linkReturn (d : Dev) (n : Nat) : Dev :=
  let d := match (d.reg n).hold with
    | some mv => d.wr PWR_REGn_STAT.SET_MV mv 0 n
    | none => d
  (d.wr PWR_REGn_STAT.LINK 0 0 n).updReg n (fun r => { r with hold := none })

/-- A poll of a regulator: voltage in mV, current in A and whether it alerts; none when the transaction fails. -/
def avsPoll (n : Nat) (r : Option (Nat × Nat × Bool)) (d : Dev) : Dev :=
  match r with
  | none => (d.avsFail n).updReg n (fun r => { r with up := false })
  | some (mv, amps, alert) =>
    let link := d.rd PWR_REGn_STAT.LINK 0 n
    let d := d.updReg n (fun r => { r with fails := 0, last := d.now, up := true })
    let d := if link = 1 then d.linkReturn n else d
    let d := (d.wr PWR_REGn_TELEM.MV mv 0 n).wr PWR_REGn_TELEM.AMPS amps 0 n
    if alert then (d.wr PWR_REGn_STAT.FAULT_SEEN 1 0 n).err 15 0x0B22 (unitReg n) 0 else d

def execAvsPoll (n : Nat) (r : Option (Nat × Nat × Bool)) (s : State) : Out := ctl s (avsPoll (n % 6) r)

/-- A regulator's link is lost. A step under way leaves the half at the lower of the two frequencies. -/
def regLinkLost (n : Nat) (d : Dev) : Dev :=
  let r := d.reg n
  if d.rd PWR_REGn_STAT.LINK 0 n ≠ 0 ∨ (r.fails < 3 ∧ d.now < r.last + 1000000) then d
  else
    let d := (d.wr PWR_REGn_STAT.LINK 1 0 n).wr PWR_REGn_STAT.LOST_SEEN 1 0 n
    let d := (d.wr PWR_STAT.LINK_SEEN 1).err 15 0x0B20 (unitReg n) 0
    match FMap.find d.dvfs n with
    | some x =>
      (d.dvfsEnd n (min x.src x.dst)).updReg n (fun r => { r with hold := some (d.oppVolt (max x.src x.dst)) })
    | none => d

def execRegLinkLost (n : Nat) (s : State) : Out := ctl s (regLinkLost (n % 6))

/-- A link that has not returned within 100 ms puts its rail in degraded mode. -/
def regDegraded (n : Nat) (d : Dev) : Dev :=
  if d.rd PWR_REGn_STAT.LINK 0 n = 1 then
    (((d.wr PWR_REGn_STAT.LINK 2 0 n).wr PWR_STAT.DEGRADED 1).err 15 0x0B21 (unitReg n) 0).svc 4
  else d

def execRegDegradedTimeout (n : Nat) (s : State) : Out := ctl s (regDegraded (n % 6))

/-! ### The governor (R546-R550) -/

/-- Power of rail `n` in mW. A core rail cut in a step counts at the higher voltage; another rail without a link counts the
estimate plus 10 %. -/
def Dev.railPower (d : Dev) (n est : Nat) : Nat :=
  let amps := d.rd PWR_REGn_TELEM.AMPS 0 n
  let mv := d.rd PWR_REGn_TELEM.MV 0 n
  if d.rd PWR_REGn_STAT.LINK 0 n = 0 then mv * amps
  else if n < 2 then (match (d.reg n).hold with | some hi => hi * amps | none => mv * amps)
  else est * 11 / 10

/-- Package power in mW. -/
def Dev.packagePower (d : Dev) (ests : List Nat) : Nat :=
  ((List.range 6).map (fun n => d.railPower n (ests.getD n 0))).sum + 5000

/-- The power limit in W. -/
def powerLimit (env cut : Nat) : Nat := min env (max (env - cut) 300)

/-- A half has its highest OPP back, or cannot step: power comes back by OPP first, then edges, then near-bank units (R547). -/
def Dev.oppBack (d : Dev) (h : Nat) : Bool :=
  decide (d.gov.oppMax ≤ d.rd (oppField h)) || d.rd PWR_REGn_STAT.LINK 0 h != 0

/-- The steps the governor decides at a 1 ms tick. -/
def Dev.dvfsWant (d : Dev) (h : Nat) : Option Bool :=
  let opp := d.rd (oppField h)
  let mine := fun (m : FMap Nat) => m.filter (fun e => e.1 / 128 == h)
  if 0 < opp ∧ (d.gov.oppMax < opp ∨ (mine d.gov.kHigh).any (fun e => decide (1000 ≤ e.2))) then some false
  else if opp < d.gov.oppMax ∧ d.gov.est ≤ d.rd PWR_STAT.LIMIT * 1000 then some true
  else none

/-- The 1 ms tick: power, settings, limit and floor, OPP decisions. `ests` are the governor's own estimates by rail, in mW. -/
def governorMs (ests : List Nat) (d : Dev) : Dev :=
  let p := d.packagePower ests
  let env := d.rd PWR_ENV.WATTS
  let decay := d.rd PWR_FLOOR.DECAY
  let smooth := d.bit PWR_FLOOR.SMOOTH
  let limit := powerLimit env (d.rd THM_CUT.WATTS)
  let track := if smooth then max (p * 100) (d.gov.track - decay * env) else d.gov.track
  let floor := min (max (d.rd PWR_FLOOR.PCT * env / 100) (if smooth then track / 100000 else 0)) limit
  let g := { d.gov with env := env, pct := d.rd PWR_FLOOR.PCT, decay := decay, smooth := smooth,
                        oppMax := d.rd PWR_CTRL.OPP_MAX, track := track }
  let d := { d with gov := g, heat := { d.heat with watts := d.heat.watts + p / 1000, nP := d.heat.nP + 1 } }
  let d := ((d.wr PWR_POWER.WATTS (min 4095 (p / 1000))).wr PWR_POWER.FLOOR floor).wr PWR_STAT.LIMIT limit
  [0, 1].foldl (fun d h =>
    match d.dvfsWant h with
    | some up => { d with gov := { d.gov with want := FMap.set d.gov.want h up } }
    | none => { d with gov := { d.gov with want := FMap.del d.gov.want h } }) d

def execGovernorMsTick (ests : List Nat) (s : State) : Out := ctl s (governorMs ests)

/-- GOV_BANKS of every slice. -/
def Dev.govBanks (d : Dev) (f : Nat → Nat) : Dev :=
  (List.range 4096).foldl (fun d n =>
    let old := d.rd CORE_SLC_PIM_STAT.GOV_BANKS n
    let new := f old
    if new = old then d
    else if old < new then d.wr CORE_SLC_PIM_STAT.GOV_BANKS new n
    else (d.wr CORE_SLC_PIM_STAT.GOV_BANKS new n).pimPause n) d

/-- The 1 µs tick. `est` is the model's estimate in mW before PWR_GAIN, `ks` the edges each cluster loses, `rise` whether a
rise is being spread, `fall` whether fall filler runs. -/
def governorEstimate (est : Nat) (ks : List (Nat × Nat)) (rise fall : Bool) (d : Dev) : Dev :=
  let e := (est * (100 + d.rdS PWR_GAIN.PCT) / 100).toNat
  let ks := ks.map (fun x => (x.1 % 256, min x.2 15))
  let km : FMap Nat := ks.foldl (fun m x => FMap.set m x.1 x.2) []
  let high := (km.filter (fun x => decide (8 ≤ x.2))).map (fun x => (x.1, FMap.get d.gov.kHigh 0 x.1 + 1))
  let above := decide (d.rd PWR_STAT.LIMIT * 1000 < e)
  let d := { d with gov := { d.gov with est := e, ks := km, kHigh := high } }
  let d := if above then d.govBanks (fun g => if g ≤ 1 then g else g - 1)
           else if km.all (fun x => x.2 == 0) && d.oppBack 0 && d.oppBack 1 then d.govBanks (fun g => min 4 (g + 1)) else d
  let top := fun h => ((km.filter (fun x => x.1 / 128 == h)).map Prod.snd).foldl max 0
  let d := (d.wr PWR_OPP.SKIP_A (top 0)).wr PWR_OPP.SKIP_B (top 1)
  let d := (d.wr PWR_STAT.AT_LIMIT (if above then 1 else 0)).wr PWR_STAT.RAMPING (if rise then 1 else 0)
  let d := if rise then (d.wr PWR_STAT.RAMP_SEEN 1).add PWR_RAMP_US.US 1 else d
  let fill := !d.bit THM_STAT.SHUTDOWN &&
    (fall || (d.rd THM_CUT.WATTS == 0 && decide (e < d.rd PWR_POWER.FLOOR * 1000)))
  let d := d.wr PWR_STAT.FILLING (if fill then 1 else 0)
  if fill then d.add PWR_FILL_US.US 1 else d

def execGovernorEstimateTick (est : Nat) (ks : List (Nat × Nat)) (rise fall : Bool) (s : State) : Out :=
  ctl s (governorEstimate est ks rise fall)

/-! ### Governing temperatures (R552) -/

/-- The largest value of a list of (value, key) pairs, the first of equals. -/
def hottest : List (Int × Nat) → Option (Int × Nat)
  | [] => none
  | a :: t => match hottest t with | some b => some (if a.1 < b.1 then b else a) | none => some a

def Dev.dramHot (d : Dev) : Option (Int × Nat) :=
  hottest (d.layerS.map (fun e =>
    (sensorValue d.layerS e.1 (layerNbrs (e.1 / 8) (e.1 % 8)) (d.rdS THM_OFS.DRAM_OFS) d.dramThrot, e.1)))

/-- The value of front-end logic sensor `k` (half · 64 + instance). -/
def Dev.logicValue (d : Dev) (k : Nat) : Int :=
  sensorValue d.frontS k (logicNbrs (k / 64) (k % 64)) (d.rdS THM_OFS.LOGIC_OFS) d.logicThrot

def Dev.logicHot (d : Dev) : Option (Int × Nat) :=
  hottest ((d.frontS.filter (fun e => decide (e.1 % 64 < 32))).map (fun e => (d.logicValue e.1, e.1)))

/-- Both governing temperatures are at or below their shutdown threshold minus 15 K (R558). -/
def Dev.coolEnough (d : Dev) : Bool :=
  (match d.dramHot with | some t => decide (t.1 ≤ 93 * 8) | none => true) &&
  (match d.logicHot with | some t => decide (t.1 ≤ 95 * 8) | none => true)

/-! ### Thresholds, cut and shutdown (R555-R557) -/

/-- The state of a class (0 NORMAL to 3 NEAR) at a sample: each state begins above its threshold and ends 3 K below. -/
def thermState (cur : Nat) (t warn throttle near : Int) : Nat :=
  let holds := fun (lvl : Nat) (th : Int) => decide (th < t) || (decide (lvl ≤ cur) && decide (th - 24 < t))
  if holds 3 near then 3 else if holds 2 throttle then 2 else if holds 1 warn then 1 else 0

def unitTherm : Nat := unitDev 27 0

/-- A thermal event begins: its record, and a class 4 event for a warning or throttle. -/
def Dev.thermEvent (d : Dev) (opcode : Nat) (irq : Bool) : Dev :=
  let d := (d.wr THM_STAT.EVENT_SEEN 1).err 14 opcode unitTherm 0
  if irq then d.event 4 none else d

/-- A class moves to a state. -/
def Dev.thermMove (d : Dev) (f : Fld) (new : Nat) : Dev :=
  let cur := d.rd f
  let d := d.wr f new
  let d := if cur < 1 ∧ 1 ≤ new then d.thermEvent 0x0B10 true else d
  let d := if cur < 2 ∧ 2 ≤ new then d.thermEvent 0x0B11 true else d
  if cur < 3 ∧ new = 3 then (d.thermEvent 0x0B12 false).departSelf 1 else d

/-- A COMMIT is stopped at once (R66, R557): some entries are in the log, and the slot being programmed is invalid. The
DRAM repair of its entry, which comes before the slot is programmed, has been performed. -/
def Dev.commitStop (d : Dev) : Dev :=
  match d.commit with
  | none => d
  | some (unit, es) =>
    let r := d.draw 7
    let n := r.1.toNat % (es.length + 1)
    let part := Dev.commitEntries (es.take n) [] r.2
    let dev := match es[n]? with
      | some e =>
        if part.dev.nextSlot < 256 then (part.dev.packageRepair e).spoilSlot part.dev.nextSlot else part.dev
      | none => part.dev
    dev.commitEnd unit { part with dev := dev } true

/-- Thermal shutdown. -/
def Dev.shutdown (d : Dev) : Dev :=
  let d := d.commitStop.wearAdd 6 1
  let d := { d.emit (.pin "THERMTRIP_N" false) with trip := true, stopped := true }
  let d := [0, 1].foldl (fun d h =>
    [PCIE_STAT.UP, PCIE_STAT.FLIT, PCIE_STAT.SPEED, PCIE_STAT.WIDTH].foldl (fun d f => d.wr f 0 h) d) d
  let d := (List.range 20).foldl (fun d n => d.wr CLK_DOMn.STATE 0 0 (n + 2)) d
  let d := [0, 1].foldl (fun d h => { d.wr PWR_REGn_STAT.SET_MV 500 0 h with dvfs := [] }) d
  let d := d.wr PWR_STAT.FILLING 0
  (d.wr THM_STAT.SHUTDOWN 1).thermEvent 0x0B13 false

/-- How far a class is above its throttle threshold. -/
def excess (t : Option (Int × Nat)) (throttle : Int) : Nat :=
  match t with | some t => (t.1 - throttle).toNat | none => 0

/-- A class's governing temperature passes its shutdown threshold. -/
def pastTrip (t : Option (Int × Nat)) (trip : Int) : Bool :=
  match t with | some t => decide (trip < t.1) | none => false

/-- The 1 ms tick of the thermal controller. -/
def thermalTick (d : Dev) : Dev :=
  let td := d.dramHot
  let tl := d.logicHot
  let d := { d with wear := { d.wear with peak := match td, d.wear.peak with | some t, some m => some (max m t.1) | some t, none => some t.1 | none, m => m } }
  let d := match td with
    | some (t, k) =>
      (((d.wr THM_TEMP.DRAM (codeS 16 t)).wr THM_HOT_DRAM.LAYER (k % 8)).wr THM_HOT_DRAM.UNIT (unitCore (k / 8) 7 0)).thermMove
        THM_STAT.DRAM (thermState (d.rd THM_STAT.DRAM) t d.dramWarn d.dramThrot (105 * 8))
    | none => d
  let d := match tl with
    | some (t, k) =>
      ((d.wr THM_TEMP.LOGIC (codeS 16 t)).wr THM_HOT_LOGIC.UNIT (unitFront (k / 64) (k % 64))).thermMove
        THM_STAT.LOGIC (thermState (d.rd THM_STAT.LOGIC) t d.logicWarn d.logicThrot (107 * 8))
    | none => d
  let cut := d.rd THM_CTRL.RATE * max (excess td d.dramThrot) (excess tl d.logicThrot) / 8
  let d := d.wr THM_CUT.WATTS (min 4095 cut)
  let d := if 0 < cut then d.add THM_THROT_MS.MS 1 else d
  if !d.bit THM_STAT.SHUTDOWN && (pastTrip td (108 * 8) || pastTrip tl (110 * 8)) then d.shutdown else d

def execThermalTick (s : State) : Out := ctl s thermalTick

/-! ### Thermal cycles (R562) -/

/-- One second of the cycle count at DRAM temperature `t`: lo, hi and armed, whether a cycle ended and whether it was big. -/
def cycleStep (lo hi : Int) (armed : Bool) (t : Int) : (Int × Int × Bool) × Bool × Bool :=
  let lo := min lo t
  let hi := max hi t
  let armed := armed || decide (lo + 160 ≤ t)
  if armed && decide (t ≤ hi - 160) then ((t, t, false), true, decide (320 ≤ hi - lo))
  else ((lo, hi, armed), false, false)

def thermalCycle (d : Dev) : Dev :=
  match d.dramHot with
  | none => d
  | some (t, _) =>
    let c := d.cyc.getD (t, t, false)
    let r := cycleStep c.1 c.2.1 c.2.2 t
    let d := { d with cyc := some r.1 }
    let d := if r.2.1 then d.add THM_CYC.COUNT 1 else d
    let d := if r.2.2 then d.add THM_CYC_BIG.COUNT 1 else d
    if d.dramThrot < t then d.add THM_HOT_S.SECONDS 1 else d

def execThermalCycleCount (s : State) : Out := ctl s thermalCycle

/-! ### Active discharge (R542, R611) -/

/-- VAUX_1V8 (`vaux`) or a governed rail falls. With VAUX_1V8 the latch of THERMTRIP_N is released. -/
def activeDischarge (vaux : Bool) (d : Dev) : Dev :=
  let d := { d with discharge := true }
  if vaux && d.trip then { d.emit (.pin "THERMTRIP_N" true) with trip := false } else d

def execActiveDischarge (vaux : Bool) (s : State) : Out := .next { s with dev := activeDischarge vaux s.dev }

end Sys2Proof.Machine
end

