-- ==== Sys2Proof/Machine/RegView.lean ====
section
/-! DEFINITION. What a register read returns: stored fields, fields that follow other state, and fields whose value is
open (R11, R17, R533). -/
namespace Sys2Proof.Machine
open Sys2Proof

/-- The number whose bit `i` says whether `p i`, for `i < n`. -/
def maskBits (n : Nat) (p : Nat → Bool) : Nat := ((List.range n).map (fun i => if p i then 2 ^ i else 0)).sum

def bitVal (b : Bool) : Nat := if b then 1 else 0

/-! ### Device blocks -/

/-- The Darn map (R52-R54). -/
def Dev.viewDarn (d : Dev) (f : Fld) (i j : Nat) : Option Nat :=
  let ck := fun (k : Nat) => d.rd DARN_CORE_STATE.CKCOL 0 k
  if f == DARN_SUM.CLUSTERS then some (d.clustersOf i)
  else if f == DARN_SUM.CORES then some (d.coresOf i)
  else if f == DARN_STAT.BELOW_MIN then some (bitVal d.belowMin)
  else if f == DARN_STAT.REPLACE then some (bitVal d.replaceHolds)
  else if f == DARN_STAT.PENDING then some d.darnQ.length
  else if f == DARN_CLEN.MASK then some (maskBits 32 (fun b => d.clusterEnabled (i * 32 + b)))
  else if f == DARN_CL_STATE.CORES then some (d.coresIn i)
  else if f == DARN_CL_STATE.BELOW_MIN then some (bitVal (d.clusterLow i))
  else if f == DARN_CL_STATE.LINK_OK then some (maskBits 6 (d.linkServes i))
  else if f == DARN_CL_STATE.WINGS_ACTIVE then some (bitVal (d.rd DARN_CL_ORPHAN.ORPHAN 0 i != 0))
  else if f == DARN_CL_CORES.RETIRED then
    some (maskBits 16 (fun k => decide (2 ≤ d.rd DARN_CORE_STATE.STATE 0 (i * 16 + k))))
  else if f == DARN_CL_CORES.ENABLED then some (maskBits 16 (fun k => d.coreEnabled (i * 16 + k)))
  else if f == DARN_CL_CKCOL0.CKCOL then some ((List.range 8).map (fun k => ck (i * 16 + k) * 16 ^ k)).sum
  else if f == DARN_CL_CKCOL1.CKCOL then some ((List.range 8).map (fun k => ck (i * 16 + 8 + k) * 16 ^ k)).sum
  else if f == DARN_LOG.WORD then some (d.logWord i j)
  else none

/-- Nominal frequency of clock domain `n` in MHz (R570). -/
def Dev.domMHz (d : Dev) (n : Nat) : Nat :=
  let pcie := fun (h : Nat) => [125, 125, 125, 250, 500, 1000].getD (d.rd PCIE_STAT.SPEED h) 1000
  if n = 1 then 100
  else if n ≤ 3 then oppMHz (d.rd (oppField (n - 2)))
  else if n ≤ 5 then 1600
  else if n ≤ 7 then 500
  else if n ≤ 9 then 1600
  else if n ≤ 17 then (if d.rd FPORT_STAT.MODE (n - 10) % 2 = 1 then 830 else 415)
  else if n ≤ 19 then 830
  else if n ≤ 21 then pcie (n - 20)
  else [400, 200, 0, 1000].getD (n - 22) 0

/-- STATE of a clock domain: those that stop with their port or link follow it. -/
def Dev.domState (d : Dev) (n : Nat) : Nat :=
  if n = 8 ∨ n = 9 then
    2 * bitVal (!d.stopped && d.rd SEAM_STAT.UP (n - 8) != 0)
  else if 10 ≤ n ∧ n ≤ 17 then 2 * bitVal (!d.stopped && d.rd FPORT_STAT.LINK (n - 10) == 2)
  else if (n = 20 ∨ n = 21) ∧ !d.bit PCIE_STAT.UP (n - 20) then 0
  else d.rd CLK_DOMn.STATE 0 n

/-- Partitions, power, temperature, clocks and checking. -/
def Dev.viewDev (d : Dev) (f : Fld) (i j : Nat) : Option Nat :=
  match d.viewDarn f i j with
  | some v => some v
  | none =>
    if f == PART_STAT.VALID then some ((List.range 64).filter (fun p => d.bit PART_Pp_CTRL.VALID 0 p)).length
    else if f == PART_Pp_CTRL.BUSY then some (bitVal (d.curtains.any (fun k => k.scope == .part i)))
    else if f == PWR_OPPn.MHZ then some (oppMHz i)
    else if f == PWR_OPPn.MV then some (d.oppFuse i)
    else if f == THM_THRESH.DRAM_WARN then some (d.dramWarn / 8).toNat
    else if f == THM_THRESH.DRAM_THROT then some (d.dramThrot / 8).toNat
    else if f == THM_THRESH.LOGIC_WARN then some (d.logicWarn / 8).toNat
    else if f == THM_THRESH.LOGIC_THROT then some (d.logicThrot / 8).toNat
    else if f == THM_LAYER_LOST.COUNT then some (d.layerS.filter (fun e => e.2.st == 2)).length
    else if f == CLK_DOMn.MHZ then some (d.domMHz i)
    else if f == CLK_DOMn.STATE then some (d.domState i)
    else if f == CHK_STAT.POOL_WAIT then some (bitVal (d.steps.any (fun x => x.stage == .wantReplay || x.stage == .wantTie)))
    else if f == CHK_STAT.ACTIVE then some d.steps.length
    else none

/-! ### Half-common blocks -/

/-- Front-end instance `i` of half `h`: STATE and VALUE (R553, R569). -/
def Dev.frontView (d : Dev) (h i : Nat) : Nat × Nat :=
  if i = 32 ∨ i = 33 then
    ((match FMap.find d.bgRun h with | some _ => bitVal (d.bit SFE_STAT.BG_SUSPECT h) | none => 3), 0)
  else
    match FMap.find d.frontS (h * 64 + i) with
    | none => (3, 0)
    | some s => (s.st, codeS 16 (if i < 32 then d.logicValue (h * 64 + i) else s.raw.getD 0))

/-- The half that the die in place `h` reads from its identity connection, none when that is open (R361). -/
def Dev.halfRead (d : Dev) (h : Nat) : Option Nat := FMap.get d.ident (some h) h

def Dev.viewHalf (d : Dev) (f : Fld) (h i : Nat) : Option Nat :=
  if f == HALF_ID.HALF then some ((d.halfRead h).getD 0)
  else if f == HALF_ID.ID_OPEN then some (bitVal (d.halfRead h).isNone)
  else if f == HALF_HOME.SERVES then some (if d.bit HALF_ID.STANDALONE h then 0x3FF else if h = 0 then 0x1F else 0x3E0)
  else if f == BARR_STAT.OPEN then some ((List.range 64).filter (fun n => d.barrState h n == 1)).length
  else if f == HDMA_STAT.BUSY then
    some (min 64 ((d.hqs.filter (fun e => e.1 / 1024 == h)).flatMap (fun e => e.2.cmds.filter (fun k =>
      k.ended.isNone && (k.op == 1 || k.op == 2)))).length)
  else if f == HQ_STAT.QPS then some ((List.range 1024).filter (fun q => d.qpValid (h * 1024 + q))).length
  else if f == SFE_STAT.LOST then some (d.frontS.filter (fun e => e.1 / 64 == h && e.2.st == 2)).length
  else if f == SFE_Sn.STATE then some (d.frontView h i).1
  else if f == SFE_Sn.VALUE then some (d.frontView h i).2
  else none

/-! ### Clusters and cores -/

/-- A core is withdrawn from scheduling for Rehearsal, or for retirement while it is RETIRING or RETIRED (R76). -/
def Dev.withdrawn (d : Dev) (c : Nat) : Bool :=
  d.bit CORE_SEQ_STAT.WITHDRAWN c || decide (2 ≤ d.rd DARN_CORE_STATE.STATE 0 c)

def Dev.viewCluster (d : Dev) (f : Fld) (g i : Nat) : Option Nat :=
  if f == CL_WINGS_STAT.ORPHAN then some (d.rd DARN_CL_ORPHAN.ORPHAN 0 g)
  else if f == CL_WINGS_STAT.ACTIVE then some (bitVal (d.rd DARN_CL_ORPHAN.ORPHAN 0 g != 0))
  else if f == CL_ADD_STAT.BUSY then some (maskBits 16 (fun k => !(d.slice (g * 16 + k)).addq.isEmpty))
  else if f == CL_CACHE_STAT.PINNED then some ((d.cache g).lines.filter (fun e => !e.2.pin.isEmpty)).length
  else if f == CL_MESH_STAT.UP then some (maskBits 6 (d.linkServes g))
  else if f == CL_MESH_STAT.DETOUR then some (bitVal ((List.range 144).any (fun e => (d.routeEntry g e).1)))
  else if f == CL_MESH_ROUTE.ESC then some (bitVal (d.routeEntry g i).1)
  else if f == CL_MESH_ROUTE.LINK then some (d.routeEntry g i).2
  else if f == CL_CUE_STAT.WAITERS then some (d.waiters.filter (fun w => cueCluster w.cue == g)).length
  else if f == CL_CUE_Sj.WAITERS then some (min 15 (d.waiters.filter (fun w => w.cue == cueNum g i)).length)
  else if f == CL_QUEUE_STAT.HELD then
    some (min 16 (d.steps.filter (fun x => x.stage == .held && x.primary / 16 == g)).length)
  else if f == CL_QUEUE_STAT.WITHDRAWN then some (maskBits 16 (fun k => d.withdrawn (g * 16 + k)))
  else none

def Dev.viewCore (d : Dev) (f : Fld) (c i : Nat) : Option Nat :=
  let k := d.core c
  let jobs := d.pimJobs.filter (fun e => (e.2.phase == .waiting || e.2.started) && e.2.op != 0x37 && daCore e.2.da == c)
  if f == CORE_SEQ_STAT.LOOP_DEPTH then some k.loops.length
  else if f == CORE_SEQ_STAT.WITHDRAWN then some (bitVal (d.withdrawn c))
  else if f == CORE_MNG_STAT.BUSY then
    some (bitVal (match k.mxq with | [] => false | j :: _ => (Desc.ofBits j.dw).format == 11 || (Desc.ofBits j.dw).format == 12))
  else if f == CORE_ARR_STAT.BUSY then some (bitVal (!k.mxq.isEmpty))
  else if f == CORE_ARR_STAT.QUEUED then some (k.mxq.length - 1)
  else if f == CORE_ARR_STAT.CKCOL then some (d.rd DARN_CORE_STATE.CKCOL 0 c)
  else if f == CORE_VEC_STAT.BUSY then some (bitVal (!k.vwr.isEmpty))
  else if f == CORE_VEC_STAT.QUEUED then some k.vq.length
  else if f == CORE_SLC_PIM_STAT.BUSY then some (bitVal (!jobs.isEmpty))
  else if f == CORE_SLC_PIM_STAT.QUEUED then some (min 16 (d.pimHeld c))
  else if f == CORE_SLC_PIM_STAT.L6_ACTIVE then some (d.pimActive c 0)
  else if f == CORE_SLC_PIM_STAT.L7_ACTIVE then some (d.pimActive c 1)
  else if f == CORE_DMA_CHn_STAT.STATUS then some (d.ch c i).status
  else if f == CORE_MSG_STAT.SENDQ then some k.sendq.length
  else if f == CORE_MSG_STAT.RECVQ then some k.recvq.length
  else none

/-- A field that follows other state, in unit `u` of its scope. -/
def Dev.follow (d : Dev) (f : Fld) (u i j : Nat) : Option Nat :=
  match f.reg.scope with
  | .dev => d.viewDev f i j
  | .half => d.viewHalf f u i
  | .fport => none
  | .cluster => d.viewCluster f u i
  | .core => d.viewCore f u i

/-! ### Counters that the model has no cycles or line code to count with (log entry 6) -/

/-- Counters of cycles and of line codes, with the condition that the counter may have moved since it was last read: the
core has run a program, its matrix unit has applied a vector, its vector engine has an instruction or has completed one, a
near-bank command is there or has ended, the Wings port has carried something, the port's link is up. -/
def Dev.mayMove (d : Dev) (f : Fld) (u : Nat) : Bool :=
  let k := d.core u
  if f == CORE_SEQ_CYCLES.CYCLES then
    decide (2 ≤ d.rd CORE_SEQ_STAT.STATE u) || (d.bit CORE_SEQ_STAT.STATE u && d.bit CORE_SEQ_STAT.HALT_CAUSE u)
  else if f == CORE_ARR_FRZ_ACT.CYCLES || f == CORE_ARR_FRZ_WGT.CYCLES || f == CORE_ARR_FRZ_DRN.CYCLES then
    !k.mxq.isEmpty || d.bit CORE_ARR_VECS.VECS u
  else if f == CORE_VEC_BUSY_CYC.CYCLES || f == CORE_VEC_STALL_BANK.CYCLES || f == CORE_VEC_STALL_ACC.CYCLES ||
      f == CORE_VEC_STALL_HAZ.CYCLES then !k.vq.isEmpty || !k.vwr.isEmpty || d.bit CORE_VEC_INSTR.INSTR u
  else if f == CORE_SLC_PIM_WIN_WAIT.CYCLES || f == CORE_SLC_PIM_YIELD_CYC.CYCLES then
    d.pimJobs.any (fun e => e.2.op != 0x37 && daCore e.2.da == u) || d.bit CORE_SLC_PIM_CMDS.CMDS u
  else if f == CL_WINGS_WAIT.CYCLES then d.bit CL_WINGS_BYTES.BYTES u
  else if f == FPORT_FEC_CORR.CW || f == FPORT_FEC_UNCORR.CW then d.rd FPORT_STAT.LINK u == 2
  else false

/-- Requests in flight of a core's DMA channels: none while no channel has begun a transfer, else open up to its bound
(R328). -/
def Dev.inflight (d : Dev) (c : Nat) : Nat × Dev :=
  if (d.core c).dma.any (fun e => e.2.begun && !e.2.halted) then (let r := d.draw 64; (r.1.toNat % 257, r.2)) else (0, d)

/-- What a read of a field returns: nothing of a write-only one, the shadow of a banked one. A counter that may have moved
has moved by a free amount. -/
def Dev.readField (d : Dev) (f : Fld) (u i j : Nat) : Nat × Dev :=
  if f.acc == .wo then (0, d)
  else if f == CORE_DMA_INFLIGHT.REQS then d.inflight u
  else if d.mayMove f u then
    let d := d.advance f u
    (d.rd f u, d)
  else
    match d.follow f u i j with
    | some v => (v % 2 ^ f.width, d)
    | none => ((if f.reg.banked then d.shadowRd f u i j else d.rd f u i j), d)

/-- The value of a register: its fields in place, reserved bits zero (R13). -/
def Dev.readWhole (d : Dev) (fs : List Fld) (u i j : Nat) : Nat × Dev :=
  fs.foldl (fun (a : Nat × Dev) f =>
    let r := a.2.readField f u i j
    (a.1 + r.1 * 2 ^ f.lo, r.2)) (0, d)

end Sys2Proof.Machine
end

