-- ==== Sys2Proof/Machine/RegWrite.lean ====
section
/-! DEFINITION. What a write does to the fields of a register that starts no command (R11, R13, R16, R17, R39, R533). -/
namespace Sys2Proof.Machine
open Sys2Proof

/-! ### Units that are off (R39, R40) -/

/-- A register of a disabled unit, outside the pages that stay readable (R39, R40). -/
def Dev.unitOff (d : Dev) (x : Site) : Bool :=
  match x.reg.scope with
  | .core => decide (0x800 ≤ x.reg.off) && decide (x.reg.off < 0x3000) && !d.coreEnabled x.u
  | .cluster => (x.reg.off / 0x1000 == 1 || x.reg.off / 0x1000 == 2 || decide (0x5000 ≤ x.reg.off)) && !d.clusterEnabled x.u
  | _ => false

/-! ### Fields -/

/-- Addresses that must be aligned take the nearest aligned value (R16). -/
def Fld.align (f : Fld) : Nat :=
  if f == COLL_Qp_LO.DA || f == CHK_Qp_LO.DA || f == HQ_QPn_SQ.ADDR || f == PART_Pp_SEQ_BASE.DA then 64
  else if f == COLL_Qp_CQ_LO.DA || f == CHK_Qp_CQ_LO.DA || f == HQ_QPn_CQ.ADDR then 16
  else if f == MGT_DBG_TOKEN.DA then 8
  else 1

/-- The legal value nearest to `x` (R16). -/
def Fld.legal (f : Fld) (x : Nat) : Nat :=
  match f.range with
  | none => if f.align = 1 then x else min (nearMul f.align x) (2 ^ f.width - f.align)
  | some (lo, hi) =>
    let v : Int := if f.signed && decide (2 ^ (f.width - 1) ≤ x) then (x : Int) - 2 ^ f.width else x
    (nearRange v lo hi % 2 ^ f.width).toNat

/-- What a write addresses: the shadow of a banked field, the field itself otherwise. -/
def Dev.current (d : Dev) (f : Fld) (u i j : Nat) : Nat := if f.reg.banked then d.shadowRd f u i j else d.rd f u i j

/-- Put a value into the shadow bank (R533). -/
def Dev.shadowWr (d : Dev) (f : Fld) (v u i j : Nat) : Dev :=
  let k := f.key u i j
  let d := { d with regs := FMap.set d.regs k (d.rd f u i j), shadow := FMap.set d.shadow k (v % 2 ^ f.width) }
  d.wr SEQ_EPOCH_STAT.DIRTY 1

def Dev.place (d : Dev) (f : Fld) (v u i j : Nat) : Dev := if f.reg.banked then d.shadowWr f v u i j else d.wr f v u i j

/-- The bits of field `f` that mask `m` writes, and the field's value with those bits from the register value `v`. -/
def Dev.merged (d : Dev) (f : Fld) (u i j v m : Nat) : Nat × Nat :=
  let part := m / 2 ^ f.lo % 2 ^ f.width
  let cur := d.current f u i j
  (part, cur - (cur &&& part) + (v / 2 ^ f.lo &&& part))

/-- A write of the bits `m` of a register, with value `v`, as it meets field `f` (R11, R16). -/
def Dev.putField (d : Dev) (f : Fld) (u i j v m : Nat) : Dev :=
  let r := d.merged f u i j v m
  if r.1 = 0 then d
  else
    match f.acc with
    | .ro | .rc => d
    | .w1c => let cur := d.rd f u i j
              d.wr f (cur - (cur &&& (v / 2 ^ f.lo &&& r.1))) u i j
    | .rw | .rws | .wo =>
      let z := f.legal r.2
      (if z = r.2 then d else d.noteClamp (f.reg.addr u i j)).place f z u i j

/-! ### Writes that are discarded -/

/-- A write would change a field that can be written. -/
def Dev.differs (d : Dev) (x : Site) (v m : Nat) : Bool :=
  x.fs.any (fun f => (f.acc == .rw || f.acc == .rws) && (d.merged f x.u x.i x.j v m).2 != d.current f x.u x.i x.j)

/-- The debug port is open (R601). -/
def Dev.debugOpen (d : Dev) : Bool := d.rd MGT_DBG_STAT.STATE == 2

/-- Who may write the MGT_ registers (R604). -/
def Dev.mayManage (d : Dev) (who : Requester) : Bool := isPf who || (who == .debug && d.debugOpen)

def isRing (r : Reg) : Bool := r == COLL_Qp_LO || r == COLL_Qp_HI || r == COLL_Qp_CQ_LO || r == COLL_Qp_CQ_HI
def isChkRing (r : Reg) : Bool := r == CHK_Qp_LO || r == CHK_Qp_HI || r == CHK_Qp_CQ_LO || r == CHK_Qp_CQ_HI
def isSec (r : Reg) : Bool :=
  r == FPORT_SEC_CTRL || r == FPORT_SEC_STAT || r == FPORT_SA_d_a_CTRL || r == FPORT_SA_d_a_KEY ||
  r == FPORT_SA_d_a_SALT || r == FPORT_SA_d_a_SSCI || r == FPORT_SA_d_a_PN
def isPartRec (r : Reg) : Bool := r == PART_Pp_SEQ_BASE || r == PART_Pp_SEQ_RANGE || r == PART_Pp_CLUSTERSw
def isBarrMask (r : Reg) : Bool := r == BARR_CLMASKn_w || r == BARR_CMASKn_i
def isQp (r : Reg) : Bool := r == HQ_QPn_SQ || r == HQ_QPn_CQ || r == HQ_QPn_SIZE
def isMgt (r : Reg) : Bool := r.scope == .dev && r.off / 0x10000 == 4

/-- The device after a write that its rule discards; none for one that goes on. -/
def Dev.discarded (d : Dev) (who : Requester) (x : Site) (v m : Nat) : Option Dev :=
  let r := x.reg
  let u := x.u
  let i := x.i
  if r.banked && d.switch.isSome then some ((d.wr HALF_STAT.SHADOW_LOST 1 0).wr HALF_STAT.SHADOW_LOST 1 1)
  else if isMgt r && !d.mayManage who then some d
  else if isSec r && (!isPf who || ((r == FPORT_SA_d_a_KEY || r == FPORT_SA_d_a_SALT || r == FPORT_SA_d_a_SSCI ||
      r == FPORT_SA_d_a_PN) && d.saLocked u i)) then some d
  else if r == FAB_PEER_BASE && !d.conns.isEmpty then some (d.wr FAB_STAT.CFG_LOST 1)
  else if isRing r && ((d.collIdx u i).1 != (d.collIdx u i).2 || d.colls.any (fun c => c.half == u && c.part == i)) then
    some (d.wr COLL_STAT.DB_LOST 1 u)
  else if isChkRing r && ((d.chkIdx i).1 != (d.chkIdx i).2 || d.steps.any (fun c => c.part == i)) then
    some (d.wr CHK_STAT.DB_LOST 1)
  else if isPartRec r && d.bit PART_Pp_CTRL.VALID 0 i then
    some (if d.differs x v m then d.wr PART_STAT.WR_LOST 1 else d)
  else if r == PART_TENANT_BASE && (List.range 2048).any d.qpValid then some (d.wr PART_STAT.WR_LOST 1)
  else if isQp r && d.qpValid (u * 1024 + i) then some (d.wr HQ_STAT.WR_LOST 1 u)
  else if isBarrMask r && d.bit BARR_CTRLn.EN u i then some (d.wr BARR_STAT.WR_LOST 1 u)
  else if r == ERR_RING_BASE && d.bit ERR_CTRL.EN then some (d.wr ERR_STAT.BASE_LOST 1)
  else none

/-! ### Plain writes -/

/-- A write of the bits `m` of a register with value `v`: registers whose writes have a rule of their own, then any other. -/
def Dev.plainWrite (d : Dev) (who : Requester) (x : Site) (v m : Nat) : Dev :=
  match d.discarded who x v m with
  | some d => d
  | none =>
    let r := x.reg
    let put := fun (d : Dev) => x.fs.foldl (fun d f => d.putField f x.u x.i x.j v m) d
    if r == CORE_SEQ_TENANT then d.writeTenant x.u v
    else if r == CORE_SEQ_CTRL then d.coreCtrl x.u v
    else if r == SEAM_LOOP then d.seamLoop x.u v
    else if r == BARR_CTRLn then d.barrCtrl x.u x.i v
    else if r == HQ_QPn_CTRL then d.qpCtrl (x.u * 1024 + x.i) v
    else if r == PART_Pp_CTRL then d.partCtrl x.i v
    else if r == FPORT_SEC_CTRL then d.secCtrl x.u who v
    else if r == FPORT_SA_d_a_CTRL then d.saValid x.u who x.i v
    else if r == CORE_SLC_PIM_CTRL then (put d).pimPause x.u
    else if r == FAB_TIME_CTRL then (put d).notePtpPort
    else put d

/-! ### Words of 64-bit registers (R17) -/

/-- A 32-bit write of one word of a register: the value and mask that take effect, none for a low word, which is held for
the requester until it writes another register. -/
def Dev.wordWrite (d : Dev) (who : Requester) (x : Site) (v : Nat) : Option (Nat × Nat) × Dev :=
  let rest := d.held.filter (fun e => e.1 != who)
  if !x.reg.wide then (some (v, 2 ^ 32 - 1), { d with held := rest })
  else if x.word = 0 then (none, { d with held := rest ++ [(who, x.addr, v)] })
  else
    (match d.held.find? (fun e => e.1 == who && e.2.1 == x.addr) with
     | some e => some (e.2.2 + v * 2 ^ 32, 2 ^ 64 - 1)
     | none => some (v * 2 ^ 32, 2 ^ 64 - 2 ^ 32),
     { d with held := rest })

end Sys2Proof.Machine
end

