-- ==== Sys2Proof/Machine/Image.lean ====
section
/-! DEFINITION. The Oxtia image (R512-R517): the checks of a copy, what is kept of it, and its settings. -/
namespace Sys2Proof.Machine
open Sys2Proof

/-! ### Reading a copy (R512, R513) -/

/-- `n` bytes of a copy from byte `a`; bytes of flash that nothing has written read 0xFF. -/
def flashBytes (l : List Byte) (a n : Nat) : List Byte :=
  let bs := (l.drop a).take n
  bs ++ List.replicate (n - bs.length) 0xFF

/-- A little-endian number of `n` bytes. -/
def flashNum (l : List Byte) (a n : Nat) : Nat := ofBytes (flashBytes l a n)

def flashZero (l : List Byte) (a n : Nat) : Bool := (flashBytes l a n).all (· == 0)

/-- A section: TYPE, OFFSET, SIZE. -/
structure Section where
  typ : Nat
  off : Nat
  size : Nat
  deriving DecidableEq, Repr

def imgNsect (l : List Byte) : Nat := flashNum l 6 2
def imgLength (l : List Byte) : Nat := flashNum l 8 4
def imgSerial (l : List Byte) : Nat := flashNum l 12 4
def imgRb (l : List Byte) : Nat := flashNum l 16 1
def imgKey (l : List Byte) : Nat := flashNum l 17 1

/-- The sections of a copy, in table order. -/
def imgSections (l : List Byte) : List Section :=
  (List.range (imgNsect l)).map (fun n =>
    { typ := flashNum l (64 + 12 * n) 2, off := flashNum l (68 + 12 * n) 4, size := flashNum l (72 + 12 * n) 4 })

/-! ### The checks (R514, R515) -/

/-- FORMAT, NSECT and LENGTH are in range, KEY_INDEX and RB_LEVEL too, and every zero field is zero. -/
def formatOk (l : List Byte) : Bool :=
  let n := imgNsect l
  let len := imgLength l
  flashNum l 4 2 == 1 && decide (1 ≤ n) && decide (n ≤ 32) && len % 8 == 0 && decide (512 ≤ len) && decide (len ≤ 0xFFF00) &&
  decide (imgRb l ≤ 63) && decide (imgKey l ≤ 3) &&
  flashZero l 18 46 && flashZero l 448 64 && flashZero l (64 + 12 * n) (12 * (32 - n)) &&
  (List.range n).all (fun i => flashZero l (66 + 12 * i) 2) && flashZero l (len + 97) 7 && flashZero l (len + 200) 56

/-- The key slot named is neither empty nor revoked, and the public key's digest is the slot's. -/
def keyOk (keys : List (Option Nat × Bool)) (slot : Nat) (key : List Byte) : Bool :=
  match keys.getD slot (none, true) with
  | (some dg, false) => sha384 key == dg
  | _ => false

/-- No two sections with bytes in common. -/
def apart : List Section → Bool
  | [] => true
  | s :: t => t.all (fun r => s.size == 0 || r.size == 0 || decide (s.off + s.size ≤ r.off) || decide (r.off + r.size ≤ s.off)) && apart t

/-- The contents of one section have the form of R514. -/
def sectionOk (l : List Byte) (s : Section) : Bool :=
  s.typ != 0 && s.off % 8 == 0 && decide (512 ≤ s.off) && decide (s.off + s.size ≤ imgLength l) &&
  (match s.typ with
   | 1 => s.size % 8 == 0 && (List.range (s.size / 8)).all (fun i => flashZero l (s.off + 8 * i + 2) 2)
   | 2 => s.size % 8 == 0
   | 3 => decide (s.size ≤ 65536)
   | 4 => s.size % 2 == 0 && decide (s.size ≤ 2048) && (List.range (s.size / 2)).all (fun i => decide (flashNum l (s.off + 2 * i) 2 < 1024))
   | _ => true)

def sectionsOk (l : List Byte) : Bool :=
  let ss := imgSections l
  let ofType := fun (t : Nat) => ss.filter (fun s => s.typ == t)
  let kept := ((ofType 1 ++ ofType 2 ++ ofType 4).map Section.size).sum
  ss.all (sectionOk l) && apart ss && [1, 3, 4].all (fun t => decide ((ofType t).length ≤ 1)) && decide (kept ≤ 65536)

/-- The result code of a copy (R515): the first check that fails. -/
def checkCopy (l : List Byte) (readable : Bool) (keys : List (Option Nat × Bool)) (rb : Nat) : Nat :=
  let len := imgLength l
  let key := flashBytes l len 97
  if !readable then 2
  else if flashNum l 0 4 ≠ 0x4954584F then 3
  else if !formatOk l then 4
  else if !keyOk keys (imgKey l) key then 5
  else if !signatureOk key (flashBytes l 0 len) (beNat (flashBytes l (len + 104) 48)) (beNat (flashBytes l (len + 152) 48)) then 6
  else if imgRb l < rb then 7
  else if !sectionsOk l then 8
  else 1

/-- Which copy is loaded (R516): 0 none, 1 A, 2 B. -/
def selectCopy (ra rb sa sb : Nat) : Nat :=
  if ra = 1 ∧ rb = 1 then (if sa < sb then 2 else 1) else if ra = 1 then 1 else if rb = 1 then 2 else 0

/-- Entries of `n` bytes split as `k` and the rest. -/
def entries (l : List Byte) (s : Section) (n k skip : Nat) : List (Nat × Nat) :=
  (List.range (s.size / n)).map (fun i => (flashNum l (s.off + n * i) k, flashNum l (s.off + n * i + skip) (n - skip)))

/-- What is kept of a valid copy. -/
def imageOf (l : List Byte) : Image :=
  let ofType := fun (t : Nat) => (imgSections l).filter (fun s => s.typ == t)
  { sets := (ofType 1).flatMap (fun s => entries l s 8 2 4),
    presets := (ofType 2).flatMap (fun s => entries l s 8 4 4),
    joins := (ofType 4).flatMap (fun s => (entries l s 2 2 2).map Prod.fst),
    digest := sha384 (flashBytes l 0 (imgLength l)),
    agreement := sha384 ((ofType 3).flatMap (fun s => flashBytes l s.off s.size)) }

/-! ### Settings (R517, R564, R581, R583, R589, R599) -/

/-- The fields a setting loads, each with its unit and element, and the value given for it; none for an unknown ID. -/
def settingLoads (id v : Nat) : Option (List (Fld × Nat × Nat × Nat)) :=
  let whole := fun (fs : List Fld) (u : Nat) => fs.map (fun f => (f, u, 0, v / 2 ^ f.lo % 2 ^ f.width))
  if id = 0x0101 ∨ id = 0x0502 then some []
  else if id = 0x0102 then some ([0, 1].map (fun h => (PCIE_SRIOV.SPLIT, h, 0, v % 128)))
  else if id = 0x0103 then some ([0, 1].map (fun h => (PCIE_CTRL.MAX_SPEED, h, 0, v % 8)))
  else if id = 0x0104 then some ([0, 1].map (fun h => (HALF_ID.STANDALONE, h, 0, v % 2)))
  else if id = 0x0201 then some [(FAB_ID.DEV, 0, 0, v % 1024), (FAB_ID.VALID, 0, 0, 1)]
  else if id = 0x0202 then
    some [(FAB_ENCAP.UDP_PORT, 0, 0, if v / 65536 % 65536 = 0 then 58352 else v / 65536 % 65536),
          (FAB_ENCAP.ETYPE, 0, 0, if v % 65536 = 0 then 0x88B5 else v % 65536)]
  else if id = 0x0203 then some (whole [FAB_MAC_TMPL_LO.MAC] 0)
  else if id = 0x0204 then some (whole [FAB_MAC_TMPL_HI.MAC] 0)
  else if 0x0205 ≤ id ∧ id ≤ 0x0208 then some [(FAB_IP_TMPL.IP, 0, id - 0x0205, v % 2 ^ 32)]
  else if 0x0210 ≤ id ∧ id ≤ 0x0217 then
    some [(FPORT_CTRL.MODE, id - 0x0210, 0, v % 8), (FPORT_CTRL.AN, id - 0x0210, 0, v / 8 % 2)]
  else if id = 0x0220 then some (whole [FAB_TIME_CTRL.ROLE, FAB_TIME_CTRL.DOMAIN, FAB_TIME_CTRL.PORTS] 0)
  else if id = 0x0301 then some (whole [CLK_CTRL.SEL_MODE, CLK_CTRL.PCIE_EN] 0)
  else if id = 0x0401 then some (whole [PWR_ENV.WATTS] 0)
  else if id = 0x0402 then some (whole [PWR_FLOOR.SMOOTH, PWR_FLOOR.DECAY, PWR_FLOOR.PCT] 0)
  else if id = 0x0403 then some (whole [PWR_CTRL.OPP_MAX] 0)
  else if id = 0x0404 then some (whole [PWR_VOFS.MV] 0)
  else if id = 0x0405 then some (whole [PWR_GAIN.PCT] 0)
  else if id = 0x0410 then some (whole [THM_CTRL.RATE, THM_CTRL.DRAM_LOWER, THM_CTRL.LOGIC_LOWER] 0)
  else if id = 0x0411 then some (whole [THM_OFS.DRAM_OFS, THM_OFS.LOGIC_OFS] 0)
  else if id = 0x0412 then
    some (whole [THM_COOL_CTRL.FLOW_EN, THM_COOL_CTRL.IN_EN, THM_COOL_CTRL.OUT_EN, THM_COOL_CTRL.BOARD_EN,
      THM_COOL_CTRL.SPARE_EN, THM_COOL_CTRL.BAL_EN, THM_COOL_CTRL.BOARD_WARN, THM_COOL_CTRL.SPARE_WARN] 0)
  else if id = 0x0413 then some (whole [THM_FLOW_CAL.PULSES, THM_FLOW_CAL.CP] 0)
  else if id = 0x0414 then some (whole [THM_NTC_CAL.B, THM_NTC_CAL.R25] 0)
  else if id = 0x0420 then some ([0, 1].map (fun h => (SFE_STAT.AUTO_BG, h, 0, v % 2)))
  else if id = 0x0501 then some [(MGT_STAT.I3C, 0, 0, 1 - v % 2)]
  else none

/-- The legal value of a setting's field (R16): the field's own range, and 0 to 64 for the VF split. -/
def settingLegal (f : Fld) (v : Nat) : Nat := if f == PCIE_SRIOV.SPLIT then min v 64 else f.legal v

/-- A setting loads one field. A clamp is counted in PART_CLAMP_DEV0; no register was written, so LAST is open. -/
def Dev.loadField (d : Dev) (x : Fld × Nat × Nat × Nat) : Dev :=
  let z := settingLegal x.1 x.2.2.2
  let d := if z = x.2.2.2 then d
    else
      let r := d.draw 14
      r.2.clampIn PART_CLAMP_DEVn.SEEN PART_CLAMP_DEVn.COUNT PART_CLAMP_DEVn.LAST 0 0 0 0 r.1.toNat none
  { d with imgRegs := FMap.set d.imgRegs (x.1.key x.2.1 x.2.2.1 0) z }

def Dev.loadSetting (d : Dev) (e : Nat × Nat) : Dev :=
  match settingLoads e.1 e.2 with
  | none => d.addSat SEQ_IMG_STAT.UNKNOWN 1
  | some xs =>
    let d := if e.1 = 0x0101 ∨ e.1 = 0x0501 ∨ e.1 = 0x0502 then { d with opts := FMap.set d.opts e.1 e.2 } else d
    xs.foldl Dev.loadField d

/-- The host update path is enabled (setting 0x0502 bit 0, default 1); every debug unlock is refused (bit 1, default 0). -/
def Dev.hostUpd (d : Dev) : Bool := (FMap.get d.opts 1 0x0502).testBit 0
def Dev.dbgDis (d : Dev) : Bool := (FMap.get d.opts 1 0x0502).testBit 1

end Sys2Proof.Machine
end

