-- ==== Sys2Proof/Machine/Wear.lean ====
section
/-! DEFINITION. The wear record (R596, R597). -/
namespace Sys2Proof.Machine
open Sys2Proof

/-- SVC_REQ_N is asserted without a cause bit of its own. -/
def Dev.svcPin (d : Dev) : Dev :=
  if d.rd ERR_SVC.CAUSE = 0 then (d.emit (.pin "SVC_REQ_N" false)).event 3 none else d

/-- Write the record to the next slot, and on failure to the one after: `vs` answers for each slot in turn, and a missing
answer is good. -/
def Dev.wearTry : Nat → List Bool → Dev → Dev
  | 0, _, d => d
  | n + 1, vs, d =>
    let w := d.wear
    if w.off then d
    else
      let slot := (w.last + 1) % 64
      let gen := (w.slots.map (fun e => e.2.gen)).foldl max 0 + 1
      let ok := vs.headD true
      let w := { w with slots := FMap.set w.slots slot { gen := gen, words := w.words, ok := ok }, last := slot,
                        fails := if ok then 0 else w.fails + 1 }
      if ok then
        (List.range 10).foldl (fun d i => d.wr MGT_WEAR.VALUE (w.words.getD i 0) 0 i) { d with wear := w }
      else if 8 ≤ w.fails then ({ d with wear := { w with off := true } }.svcPin).err 2 0x0B50 (unitDev 29 1) 0
      else Dev.wearTry n (vs.drop 1) { d with wear := w }

/-- A write of the record, with what THM_CYC, THM_CYC_BIG and THM_HOT_S have counted since the last one and the highest
temperature. -/
def Dev.writeWear (d : Dev) (vs : List Bool) : Dev :=
  let cyc := d.rd THM_CYC.COUNT
  let big := d.rd THM_CYC_BIG.COUNT
  let hot := d.rd THM_HOT_S.SECONDS
  let w := d.wear
  let sub := fun (a b : Nat) => (a + 2 ^ 32 - b) % 2 ^ 32
  let d := ((d.wearAdd 3 (sub cyc w.cyc)).wearAdd 4 (sub big w.big)).wearAdd 5 (sub hot w.hot)
  let words := match w.peak with | some t => setNth d.wear.words 9 (codeS 16 t) | none => d.wear.words
  ({ d with wear := { d.wear with words := words, cyc := cyc, big := big, hot := hot, due := false } }).wearTry 8 vs

/-- The hourly write, which adds an hour, or the write that an event has made due. -/
def execWearWrite (hourly : Bool) (verify : List Bool) (s : State) : Out :=
  ctl s (fun d =>
    if hourly then (d.wearAdd 2 1).writeWear verify else if d.wear.due then d.writeWear verify else d)

/-- At a cold boot the valid slot with the highest generation is used; counters start again. -/
def Wear.boot (w : Wear) : Wear :=
  let best := w.slots.foldl (fun (b : Option (Nat × WearSlot)) e =>
    if e.2.ok && b.all (fun x => decide (x.2.gen < e.2.gen)) then some e else b) none
  match best with
  | some e => { Wear.init with words := e.2.words, slots := w.slots, last := e.1 }
  | none => { Wear.init with slots := w.slots, last := w.last }

end Sys2Proof.Machine
end

