-- ==== Sys2Proof/Machine/Boot.lean ====
section
/-! DEFINITION. Cold boot and warm reset (R505-R532, R558, R574, R611): the stages of the sequencer and what each reset keeps. -/
namespace Sys2Proof.Machine
open Sys2Proof

/-! ### Cold reset (R12, R507, R531, R611) -/

/-- What a cold reset leaves: fuses, flash, the wear record, the Darn log, the layers' own fuses, the latch of THERMTRIP_N
and the TAP. A COMMIT stops at once; SVC_REQ_N is released. -/
def Dev.coldBase (d : Dev) : Dev :=
  let d := d.commitStop.emit (.pin "SVC_REQ_N" true)
  { Dev.reset with part := d.part, rbFuse := d.rbFuse, flash := d.flash, wear := d.wear.boot, darnLog := d.darnLog,
                   boots := d.boots, ppr := d.ppr, trip := d.trip, dieTest := d.dieTest, tap := d.tap, stopped := true,
                   out := d.out, free := d.free }

/-- Fields that stand under their Reset entry F take what the part's fuses hold. -/
def Dev.fuseFields (d : Dev) (keep : Nat → Bool) : Dev :=
  { d with regs := d.part.fields.foldl (fun m e => if keep e.1 then m else FMap.set m e.1 e.2) d.regs }

/-- The rollback level: the factory's or the one that MGT_RB_CMD has raised, whichever is higher. -/
def Dev.rbLevel (d : Dev) : Nat := max d.part.rollback d.rbFuse

/-- Stage FUSES. -/
def Dev.bootFuses (d : Dev) : Dev :=
  let d := d.fuseFields (fun _ => false)
  let d := d.wr SEQ_SERIAL.SERIAL d.part.serial
  let d := (d.wr SEQ_IMG_STAT.RB_FUSE d.rbLevel).wr MGT_RB_RESULT.LEVEL d.rbLevel
  let d : Dev := { d with boots := d.wear.words.getD 0 0 }
  (List.range 10).foldl (fun d i => d.wr MGT_WEAR.VALUE (d.wear.words.getD i 0) 0 i) d

/-! ### Stage IMAGE (R511-R517) -/

def Dev.copyAt (d : Dev) (c : Nat) : List Byte := FMap.get d.flash [] c

/-- A rejected copy writes a record. -/
def Dev.copyResult (d : Dev) (f : Fld) (code : Nat) : Dev :=
  let d := d.wr f code
  if code = 1 then d else d.err 2 (0x0B00 + code) 0x7FFE40 0

/-- Fields that stand under their Reset entry I take what the image loaded. -/
def Dev.imageFields (d : Dev) (keep : Nat → Bool) : Dev :=
  { d with regs := d.imgRegs.foldl (fun m e => if keep e.1 then m else FMap.set m e.1 e.2) d.regs }

def Dev.bootImage (b : BootIn) (d : Dev) : Dev :=
  let ra := checkCopy (d.copyAt 1) b.readA d.part.keys d.rbLevel
  let rb := checkCopy (d.copyAt 2) b.readB d.part.keys d.rbLevel
  let d := (d.copyResult SEQ_IMG_STAT.A_RESULT ra).copyResult SEQ_IMG_STAT.B_RESULT rb
  let c := selectCopy ra rb (imgSerial (d.copyAt 1)) (imgSerial (d.copyAt 2))
  let d := d.wr SEQ_STAT.COPY c
  let d := if c = 0 then d.wr SEQ_STAT.RECOVERY 1
    else
      let l := d.copyAt c
      let i := imageOf l
      let d := (d.wr SEQ_IMG.SERIAL (imgSerial l)).wr SEQ_IMG_STAT.KEY_INDEX (imgKey l)
      i.sets.foldl Dev.loadSetting { d with image := some i }
  let d := d.imageFields (fun _ => false)
  if d.dbgDis then d.wr MGT_DBG_STAT.STATE 3 else d

/-! ### Stage CLOCKS (R539, R543, R574) -/

/-- The reference that stage CLOCKS takes, and whether it is not the preferred one. -/
def pickReference (mode : Nat) (p0 p1 : Bool) : Nat × Bool :=
  if mode = 1 then (if p1 then (1, false) else (0, true)) else if p0 then (0, false) else (1, true)

def Dev.bootClocks (b : BootIn) (d : Dev) : Dev :=
  let d := (d.wr CLK_STAT.REF0_PRESENT (if b.ref0 then 1 else 0)).wr CLK_STAT.REF1_PRESENT (if b.ref1 then 1 else 0)
  let p := pickReference (d.rd CLK_CTRL.SEL_MODE) b.ref0 b.ref1
  let d := d.wr CLK_STAT.SEL p.1
  let d := if p.2 then (d.wr CLK_STAT.FALLBACK 1).err 16 0x0B45 (unitClk 1) 0 else d
  let mv := [d.oppVolt 0, d.oppVolt 0, 750, 1100, 1800, 850]
  (List.range 6).foldl (fun d n => d.wr PWR_REGn_STAT.SET_MV (mv.getD n 0) 0 n) d

/-- Every domain that the device drives runs. -/
def Dev.clocksRun (d : Dev) : Dev :=
  ([1] ++ pllDomains).foldl (fun d n => d.wr CLK_DOMn.STATE 2 0 n) d

/-! ### Stage SEAM (R372, R377, R378) -/

/-- A half starts stand-alone: by the image, or by its DIETEST bit. -/
def Dev.standAlone (d : Dev) : Bool := [0, 1].any (fun h => d.bit HALF_ID.STANDALONE h || d.dieTest.contains h)

/-- A Seam port whose link is retired is not in service (R41, R310). -/
def Dev.noteRetired (d : Dev) : Dev :=
  (d.linkRet.filter (fun e => e.2 == 5)).foldl (fun d e =>
    [0, 1].foldl (fun d h => d.setBit SEAM_STAT.UP (clusterX e.1) false h) d) d

/-- Ports train: those that fail are down, and the rest are in service with 32 credits a channel. -/
def Dev.seamForm (d : Dev) (ports fails : List Nat) : Dev :=
  ports.foldl (fun d x =>
    let ok := !fails.contains x
    let d := [0, 1].foldl (fun d h => (d.setBit SEAM_STAT.UP x ok h).setBit SEAM_STAT.DOWN x (!ok) h) d
    let d := [0, 1].foldl (fun d h => d.setBit CL_MESH_STAT.DOWN 5 (!ok) (gridCluster h x 7)) d
    if ok then [0, 1].foldl (fun d h =>
      (List.range 4).foldl (fun d vc => d.wr (creditFld vc) 32 h x)
        { d with seams := FMap.del d.seams (h * 16 + x) }) d
    else d) d

/-- Half B takes its count from Half A's, to within 2 ns (R578). -/
def Dev.alignTime (d : Dev) : Dev :=
  let v := d.draw 3
  let ns : Int := ((v.1.toNat % 5 : Nat) : Int) - 2
  { v.2.wr CLK_TIME_SYNC.NS (ns % 2 ^ 16).toNat with skew := ns, lone := 0 }

/-- The Seam forms, or the boot holds at this stage; answers whether it goes on. -/
def Dev.bootSeam (b : BootIn) (d : Dev) : Bool × Dev :=
  let d := d.dieTest.foldl (fun d h => d.wr HALF_ID.STANDALONE 1 h) d
  let d := d.alignTime
  if d.standAlone then (true, d)
  else if (d.halfRead 0).getD 0 == (d.halfRead 1).getD 0 || b.seamFails.contains 16 then (false, (d.wr SEQ_STAT.STAGE 4).svc 5)
  else (true, [0, 1].foldl (fun d h => d.wr HALF_STAT.CTRL_UP 1 h) (d.seamForm (List.range 16) b.seamFails))

/-! ### Stage MAP (R47, R65-R67, R265, R530) -/

/-- A core is out of service in the map, with its state and cause. -/
def Dev.mapCore (d : Dev) (n st cause : Nat) : Dev :=
  if d.coreEnabled n then ((d.wr DARN_CORE_STATE.STATE st 0 n).wr DARN_CORE_STATE.CAUSE cause 0 n).makeOrphan n else d

/-- A lane of a slice is faulty: its group's spare takes over, and a second faulty lane costs the group. A lane that is
named again changes nothing. -/
def Dev.mapLane (d : Dev) (n lane : Nat) : Dev :=
  match FMap.find (d.slice n).spareLane (lane / 32) with
  | some l => if l = lane then d else d.dropGroup n (lane / 32)
  | none =>
    if (d.slice n).lostGroups.contains (lane / 32) then d
    else
      (d.updSlice n (fun k => { k with spareLane := FMap.set k.spareLane (lane / 32) lane })).wr DARN_CORE_STATE.BOND_USED
        (min 36 (d.rd DARN_CORE_STATE.BOND_USED 0 n + 1)) 0 n

/-- What the factory records say of bond groups; the map's fields that count them are fuses of their own (R47). -/
def Dev.mapFactory (d : Dev) : Dev :=
  let d := d.part.lanes.foldl (fun d e => d.updSlice (e.1 % 4096) (fun k =>
    { k with spareLane := FMap.set k.spareLane (e.2 % 1152 / 32) (e.2 % 1152) })) d
  d.part.groups.foldl (fun d e => d.updSlice (e.1 % 4096) (fun k =>
    if k.lostGroups.contains (e.2 % 36) then k else { k with lostGroups := e.2 % 36 :: k.lostGroups })) d

/-- The core of a Unit ID's slice controller, array, or core block. -/
def kindCore (unit : Nat) : Nat := uidCore unit % 4096

/-- Apply one valid entry of the log: KIND, UNIT, DETAIL. -/
def Dev.mapEntry (d : Dev) (e : Nat × Nat × Nat) : Dev :=
  let unit := e.2.1
  let n := kindCore unit
  let g := uidCluster unit
  match e.1 with
  | 1 => d.mapCore n 2 (e.2.2 % 16)
  | 2 =>
    let d := if d.clusterEnabled g then d.wr DARN_CL_STATE.STATE 2 0 g else d
    (List.range 16).foldl (fun d k => (d.mapCore (g * 16 + k) 2 5).wr DARN_CORE_STATE.CAUSE 5 0 (g * 16 + k)) d
  | 3 =>
    let l := uidInst unit
    match linkPeer g l with
    | some p => { d with linkRet := (d.linkRet ++ [(g, l), (p, linkBack l)]).eraseDups }
    | none => d
  | 5 => d.setBit DARN_CORE_STATE.ROW_USED (uidInst unit % 4) true 0 n
  | 6 => (d.setBit DARN_CORE_STATE.COL_USED (uidInst unit % 4) true 0 n).setBit DARN_CORE_STATE.CKCOL (uidInst unit % 4) false 0 n
  | _ => d

/-- The valid entries of the log, in slot order. -/
def Dev.logEntries (d : Dev) : List (Nat × Nat × Nat) :=
  ((List.range 256).filter d.slotValid).map (fun s =>
    (d.logWord s 0 / 2 ^ 28 % 16, d.logWord s 0 % 2 ^ 24, d.logWord s 1))

/-- Lanes of cores found faulty. -/
def Dev.mapLanes (d : Dev) (ls : List (Nat × Nat)) : Dev :=
  ls.foldl (fun d e => d.mapLane (e.1 % 4096) (e.2 % 1152)) d

/-- Bond training finds every group with a second faulty lane: a core that is still ENABLED becomes RETIRING, as while
running (R47, R64). -/
def Dev.trainRetire (d : Dev) : Dev :=
  (d.slices.filter (fun e => !e.2.lostGroups.isEmpty)).foldl (fun d e =>
    if d.coreEnabled e.1 then
      (((d.darnPend 1 (unitCore e.1 0 0) 3).1.mapCore e.1 3 3).mapChange (unitCore e.1 0 0))
    else d) d

/-- Rows that the layers' own fuses map to spares (R265). Those of the factory are in the map's fuse fields already. -/
def Dev.mapRows (d : Dev) : Dev :=
  let use := fun (d : Dev) (k : Nat) (spare : Nat) =>
    (d.updSlice (k / 128) (fun s => { s with spareUsed := FMap.upd s.spareUsed [] (k % 128) (fun l =>
      if l.contains spare then l else spare :: l) })).noteSpares (k / 128) (k % 128)
  let d := d.part.rows.foldl (fun d e => use d (e.1 % 2 ^ 19) (e.2.2 % 16)) d
  d.ppr.foldl (fun d e => (e.2.foldl (fun d r => use d e.1 r.2) d).add DARN_CORE_SPARE.ROWS_REPAIRED e.2.length 0 (e.1 / 128)) d

/-- The highest consumed slot is invalid: a COMMIT was cut. -/
def Dev.mapCut (d : Dev) : Dev :=
  let n := d.nextSlot
  if n = 0 ∨ d.slotValid (n - 1) then d
  else (d.wr SEQ_STAT.COMMIT_CUT 1).err 6 8 0x7FFFC0 (n - 1)

def Dev.bootMap (b : BootIn) (d : Dev) : Dev :=
  let es := d.logEntries.eraseDups
  let d := es.foldl Dev.mapEntry d.mapFactory
  let log := (es.filter (fun e => e.1 == 4)).map (fun e => (kindCore e.2.1, e.2.2 % 2048))
  let d := (d.mapLanes log).mapRows
  (((((d.mapLanes b.lanes).trainRetire).mapCut).noteLog).noteRetired).darnCheck

/-! ### Stage APPLY (R517-R519) -/

/-- A preset writes both banks, and the next one waits for the Curtain that it raised. -/
def Dev.presetEnd (d : Dev) : Dev :=
  let d := (d.curtains.map Curtain.scope).foldl (fun d c => curtainLower c d) d
  if d.shadow.isEmpty then d
  else ({ d with regs := d.shadow.foldl (fun (m : FMap Nat) (e : Nat × Nat) => FMap.set m e.1 e.2) d.regs, shadow := [] } : Dev).wr SEQ_EPOCH_STAT.DIRTY 0

/-- One preset: a 32-bit host write, or skipped and counted. -/
def Dev.preset (d : Dev) (e : Nat × Nat) : Dev :=
  match if e.1 % 4 = 0 ∧ e.1 < 0x9000000 then siteAt e.1 else none with
  | none => d.addSat SEQ_IMG_STAT.SKIPPED 1
  | some x =>
    if d.unitOff x || !x.fs.any (fun f => f.acc == .rw) then d.addSat SEQ_IMG_STAT.SKIPPED 1
    else
      let r := d.wordWrite .preset x (e.2 % 2 ^ 32)
      match r.1 with
      | some (v, m) => (r.2.plainWrite (.fn 0) x v m).presetEnd
      | none => r.2

def Dev.presets (d : Dev) : Dev :=
  match d.image with
  | some i => let d := i.presets.foldl Dev.preset d
              { d with held := d.held.filter (fun e => e.1 != .preset) }
  | none => d

/-- FAB_DIGEST holds the first 16 bytes of the digest of the agreement section. -/
def Dev.setDigest (d : Dev) : Dev :=
  match d.image with
  | some i =>
    let v := i.agreement / 2 ^ 256
    (List.range 4).foldl (fun d n => d.wr FAB_DIGEST.DIGEST (v / 2 ^ (32 * n)) 0 n) d
  | none => d

/-- The settings that a port's registers hold are those in force. -/
def Dev.portSame (d : Dev) (p : Nat) : Bool :=
  d.rd FPORT_STAT.MODE p == (if d.portsOff then 0 else d.rd FPORT_CTRL.MODE p) &&
  FMap.get d.anOn false p == d.bit FPORT_CTRL.AN p &&
  FMap.find d.pfcOn p == (if d.bit FPORT_CTRL.PFC_EN p then some (d.rd FPORT_CTRL.PFC_PRIO p) else none)

/-- A fabric port takes the settings that its registers hold: its active mode, AN and PFC. A port whose mode, AN or PFC
changes trains again. -/
def Dev.portTake (d : Dev) (p : Nat) : Dev :=
  let mode := if d.portsOff then 0 else d.rd FPORT_CTRL.MODE p
  let an := d.bit FPORT_CTRL.AN p
  let pfc := if d.bit FPORT_CTRL.PFC_EN p then some (d.rd FPORT_CTRL.PFC_PRIO p) else none
  let same := d.portSame p
  let d := d.wr FPORT_STAT.MODE mode p
  let d : Dev := { d with anOn := FMap.set d.anOn p an,
                          pfcOn := match pfc with | some k => FMap.set d.pfcOn p k | none => FMap.del d.pfcOn p }
  if mode = 0 then d.wr FPORT_STAT.LINK 0 p else if same then d else d.wr FPORT_STAT.LINK 1 p

def Dev.portsTake (d : Dev) : Dev := (List.range 8).foldl (fun d p => d.portTake p) d

/-! ### READY and joins (R520) -/

def Dev.startJoins (d : Dev) : Dev :=
  let l := match d.image with | some i => (i.joins.map (· % 1024)).eraseDups | none => []
  (({ d with joins := { on := true, left := l, todo := l, retry := [] } }).pumpJoins).noteJoined

/-- Stages MEMORY to READY. Memory is zero in a device just reset. -/
def Dev.bootRest (b : BootIn) (d : Dev) : Dev :=
  let d := ((d.bootMap b).setDigest.portsTake).presets
  let d := (d.wearAdd 0 1).writeWear b.verify
  let us := d.draw 32
  let d := us.2.wr SEQ_BOOT_US.US us.1.toNat
  let d : Dev := { d with boots := d.wear.words.getD 0 0, stopped := false, boot := none }
  ((d.wr SEQ_STAT.STAGE 8).wr SEQ_STAT.READY 1).startJoins

/-- From stage CLOCKS on, once the wait of R558 is over. -/
def Dev.bootOn (b : BootIn) (d : Dev) : Dev :=
  let r := Dev.bootSeam b { d.clocksRun with boot := none }
  if r.1 then r.2.bootRest b else r.2

/-- Boot from stage FUSES. A boot after a thermal shutdown waits at stage CLOCKS. -/
def Dev.bootFrom (b : BootIn) (d : Dev) : Dev :=
  let d := ((d.bootFuses).bootImage b).bootClocks b
  if d.trip then { d.wr SEQ_STAT.STAGE 3 with boot := some b } else d.bootOn b

/-- A cold boot with its SEQ_CAUSE code. With no reference present it does not begin. -/
def Dev.coldBoot (b : BootIn) (cause : Nat) (d : Dev) : Dev :=
  let d : Dev := { d with crst := false, part := b.part.getD d.part, ident := b.ident,
                          flash := match b.flash with | some (x, y) => [(1, x), (2, y)] | none => d.flash }
  let d : Dev := if b.power then { d with trip := false, dieTest := [], tap := Tap.init } else d
  let d := d.wr SEQ_CAUSE.COLD cause
  if b.ref0 || b.ref1 then d.bootFrom b else { d.emit (.pin "SVC_REQ_N" false) with boot := some b }

def execCrstNAssert (s : State) : Out := .next { s with dev := { s.dev.coldBase with crst := true } }

/-- CRST_N is released. Power that was applied anew also releases the latch of THERMTRIP_N. -/
def execCrstNRelease (b : BootIn) (s : State) : Out :=
  .next (if s.dev.crst then { s with dev := s.dev.coldBoot b (if b.power then 0 else 1) } else s)

/-- Reference `r` becomes present. -/
def referenceAppears (r : Nat) (d : Dev) : Dev :=
  match d.boot with
  | some b =>
    if b.ref0 || b.ref1 then d
    else ({ d with boot := none }.emit (.pin "SVC_REQ_N" true)).bootFrom { b with ref0 := r % 2 == 0, ref1 := r % 2 == 1 }
  | none => d

def execReferenceAppears (r : Nat) (s : State) : Out := .next { s with dev := referenceAppears r s.dev }

/-- Both governing temperatures are known and low enough. -/
def Dev.cooled (d : Dev) : Bool := d.dramHot.isSome && d.logicHot.isSome && d.coolEnough

def execColdBootContinue (s : State) : Out :=
  ctl s (fun d =>
    match d.boot with
    | some b =>
      if d.trip && (b.ref0 || b.ref1) && d.cooled then ({ d with trip := false }.emit (.pin "THERMTRIP_N" true)).bootOn b else d
    | none => d)

/-- Exchanges that ended TIMEOUT are repeated. -/
def execJoinRetryTimer (s : State) : Out :=
  act s (fun d =>
    if d.joins.on then
      ({ d with joins := { d.joins with todo := d.joins.todo ++ d.joins.retry, retry := [] } }).pumpJoins
    else d)

/-- 4.5 s after CRST_N, or after the command of a warm reset, automatic joins end. SEQ_JOIN.MS counts from CRST_N: after a
warm reset it takes a time of its own. -/
def execJoinDeadline (s : State) : Out :=
  act s (fun d =>
    if d.joins.on then
      let v := if d.rd SEQ_CAUSE.WARMS = 0 then (4500, d) else let v := d.draw 21; (v.1.toNat, v.2)
      { (((v.2.wr SEQ_STAT.JOINED 1).wr SEQ_STAT.STAGE 9).wr SEQ_JOIN.MISS d.joins.left.length).wr SEQ_JOIN.MS v.1
          with joins := Joins.init }
    else d)

/-! ### Warm reset (R522-R524) -/

/-- Registers whose fields a warm reset keeps: event counters that only a cold reset clears, ERR_SVC, what the sequencer
reports of the cold boot, peer entries (R439), the wear record, the state of links, and the frequency correction of the servo. -/
def warmRegs : List Reg :=
  [CL_MESH_FLITS, CL_MESH_RETRY, SEAM_Pn_FRAMES, SEAM_Pn_REPLAY, SEAM_Pn_LANE, SEAM_STAT, SEAM_Pn_CREDIT,
   FPORT_TX_FRAMES, FPORT_RX_FRAMES, FPORT_FEC_CORR, FPORT_FEC_UNCORR, FPORT_RX_DROP, FPORT_CE,
   FPORT_TE_TX_PKTS, FPORT_TE_RETX, FPORT_TE_ABORTS, COLL_DONE, COLL_BYTES, COLL_FAILS,
   PCIE_ATC_MISS, PCIE_INVAL, PCIE_UR_CNT, HDMA_BYTES_IN, HDMA_BYTES_OUT, HDMA_FAULT_CNT,
   CHK_STEPS, CHK_REPLAYS, CHK_TIEBREAKS, CHK_FAILS, CHK_REH_RUNS, CHK_REH_FAILS,
   FAB_PEERd, THM_CYC, THM_CYC_BIG, THM_HOT_S, ERR_UE_COUNT, ERR_SVC, MGT_WEAR, FAB_TIME_FREQ,
   SEQ_ID, SEQ_SERIAL, SEQ_BOOT_US, SEQ_IMG, SEQ_IMG_STAT, SEQ_CAUSE]

/-- Single fields that a warm reset keeps: links in service, references and clocks, what R524 names, and what stays frozen
or in force until a cold reset. -/
def warmFlds : List Fld :=
  [FPORT_STAT.LINK, FPORT_STAT.MODE, PCIE_STAT.UP, PCIE_STAT.FLIT, PCIE_STAT.SPEED, PCIE_STAT.WIDTH, HALF_STAT.CTRL_UP,
   HALF_COMMIT.RESULT, HALF_COMMIT.CAUSE, FAB_AGREE_STAT.AGREED, FAB_AGREE_STAT.QUAR,
   CLK_STAT.SEL, CLK_STAT.REF0_PRESENT, CLK_STAT.REF1_PRESENT, CLK_STAT.HOLDOVER, CLK_STAT.FALLBACK, CLK_STAT.SUSPECT,
   CLK_STAT.OTHER_SUSPECT, CLK_DOMn.STATE, CLK_TIME_SYNC.NS, FPORT_CTRL.MODE, FPORT_CTRL.AN, FPORT_CTRL.PFC_EN,
   FPORT_CTRL.PFC_PRIO, CLK_CTRL.SEL_MODE, PWR_REGn_STAT.LINK, PWR_REGn_STAT.SET_MV, SFE_STAT.BG_SEL, MGT_STAT.I3C,
   MGT_DBG_STAT.STATE, MGT_DBG_STAT.RESULT, MGT_RB_RESULT.LEVEL, HALF_ID.STANDALONE, HALF_ID.ID_OPEN, THM_STAT.SHUTDOWN,
   SEQ_STAT.RECOVERY, SEQ_STAT.COPY]

/-- The Darn map and its status, but not the command registers (R48). -/
def darnKeeps (f : Fld) : Bool :=
  f.reg.scope == .dev && f.reg.off / 0x10000 == 5 && f.reg != DARN_CMD_ARG && f.reg != DARN_CMD_RESULT &&
  f != DARN_STAT.CMD_BUSY && f != DARN_STAT.COMMIT_BUSY && f != DARN_STAT.CMD_LOST

/-- What a slice controller shows of its slice, its scrub settings, and the counters of a core's unit page (R268, R278,
R503). -/
def pageKeeps (f : Fld) : Bool :=
  f.reg.scope == .core &&
  ((decide (0x3000 ≤ f.reg.off) && decide (f.reg.off < 0x3500) && (f.acc == .ro || f.acc == .rc || f.reg == CORE_SLC_SCRUB)) || decide (0x3900 ≤ f.reg.off))

def fieldKeeps (f : Fld) : Bool :=
  f.acc == .rws || darnKeeps f || pageKeeps f || warmRegs.contains f.reg || warmFlds.contains f

/-- The field with a key. -/
def fieldAt (k : Nat) : Option Fld := (siteAt (k / 64 * 4)).bind (fun x => x.fs.find? (fun f => f.lo == k % 64))

/-- A warm reset keeps the field with this key. -/
def warmKeeps (k : Nat) : Bool := match fieldAt k with | some f => fieldKeeps f | none => false

/-- The bandgap of a half that stands suspect, after the reset: with AUTO_BG the one nearer the regulator's telemetry. -/
def Dev.bandgapPick (d : Dev) (h : Nat) : Dev :=
  if d.bit SFE_STAT.BG_SUSPECT h && d.bit SFE_STAT.AUTO_BG h then
    let t : Int := d.rd PWR_REGn_TELEM.MV 0 2
    let e0 := ((d.rd SFE_BG.BG0_MV h : Int) - t).natAbs
    let e1 := ((d.rd SFE_BG.BG1_MV h : Int) - t).natAbs
    if e0 < e1 then d.wr SFE_STAT.BG_SEL 0 h else if e1 < e0 then d.wr SFE_STAT.BG_SEL 1 h else d
  else d

/-- Every copy of a DEPARTING notice that is still to be sent. -/
def Dev.departAll (d : Dev) : Dev :=
  d.departs.foldl (fun d e => (List.range e.2.2.1).foldl (fun d i => d.sendDeparting e.1 e.2.1 (e.2.2.2 + i)) d) d

/-- Every connection is ABORTED with cause RESET, and ABORT leaves by each port of its paths that stays UP (R407). -/
def Dev.warmConns (d : Dev) : Dev :=
  let open_ := (d.conns.filter (fun e => e.2.active)).map Prod.fst
  let d := open_.foldl (fun d c =>
    let h := connHalf c
    match d.routeEntryOf h (d.conn c).peerDev with
    | (none, d) => d.wr FAB_STAT.RT_MISS 1
    | (some e, d) =>
      let ps := d.rtPorts h e
      (List.range ps.length).foldl (fun d k =>
        if d.portSame (ps.getD k 0) then d.sendOnPath e k { d.connFft c 11 with aux := 7 } else d) d) d
  let d := d.abortMany (open_.map (fun c => (c, 7, false, 1, 0)))
  d.conns.foldl (fun d e => if e.2.st = 5 then d else d.updConn e.1 (fun k => { k with st := 5, cause := 7 })) d

/-- Steps 1 to 3: READY clears, collectives end with DEPARTING of a cause, every unit stops and drains, caches write back. -/
def Dev.warmStop (d : Dev) (cause : Nat) : Dev :=
  let d := d.wr SEQ_STAT.READY 0
  let d := (if d.colls.isEmpty then d else d.departSelf cause).departAll
  let d := (d.cores.map Prod.fst).foldl (fun d c =>
    let d := ((d.mxStop c).vecStop c).pimCurtain c
    ((List.range 8).foldl (fun d n => d.dmaCut c n) d).atomCut c) d
  let d := d.hqCurtain (fun _ => true) 3
  let d := (d.steps.map ChkStep.part).eraseDups.foldl (fun d p => d.chkPart p) d
  let d := d.warmConns
  (d.caches.map Prod.fst).foldl (fun d g => d.wbWhere g (fun _ => true)) d

/-- A reset meets a commit that is under way, or a SPLIT that has left the halves on different banks (R375, R380). -/
def Dev.banksCut (d : Dev) : Bool :=
  d.switch.isSome || (d.rd HALF_COMMIT.RESULT 0 == 4 && d.rd HALF_COMMIT.BANK 0 != d.rd HALF_COMMIT.BANK 1)

/-- The registers with both halves on the banks that Half A holds active: where Half B is on the other bank, its shadow is
the bank of Half A's. -/
def Dev.bankA (d : Dev) : FMap Nat :=
  if d.rd HALF_COMMIT.BANK 0 = d.rd HALF_COMMIT.BANK 1 then d.regs
  else (d.shadow.filter (fun e => halfOf (e.1 / 16) == 1)).foldl (fun (m : FMap Nat) (e : Nat × Nat) => FMap.set m e.1 e.2) d.regs

/-- A banked field with this key outlives a warm reset that cuts a commit; the Curtain of the reset clears VALID of a hint
window all the same (R292). -/
def bankKeeps (k : Nat) : Bool :=
  match fieldAt k with | some f => f.reg.banked && f != CL_CACHE_HINTWIN_CTRL.VALID | none => false

/-- Step 4: every unit that R523 does not keep returns to its Reset entries. Records that Half A held for want of the
control channel are delivered. After a SPLIT, and where the reset cuts a commit, the banked tables of both halves are
those that Half A held active (R375, R380). -/
def Dev.warmBase (d : Dev) : Dev :=
  let keeps := fun k => warmKeeps k || (d.banksCut && bankKeeps k)
  let d := (d.bandgapPick 0).bandgapPick 1
  let d := d.heldRecs.foldl Dev.queueRec { d with heldRecs := [] }
  let z : Dev := { Dev.reset with
    regs := d.bankA.filter (fun e => keeps e.1),
    mem := d.mem, badw := d.badw, blk := d.blk,
    slices := d.slices.map (fun e => (e.1, { e.2 with pim := [], addq := [], test := none })),
    lmem := d.lmem, lue := d.lue, lce := d.lce, ceRun := d.ceRun, imem := d.imem,
    linkRet := d.linkRet, darnQ := d.darnQ, darnLog := d.darnLog, boots := d.boots, ppr := d.ppr,
    conns := d.conns,
    pfcOn := d.pfcOn, anOn := d.anOn, portsOff := d.portsOff,
    recs := d.recs, dropped := d.dropped, ctrlDown := d.ctrlDown, ueHours := d.ueHours, imgRegs := d.imgRegs, opts := d.opts,
    msix := d.msix.filter (fun e => decide (e.1 < 2 * 4096)),
    seams := d.seams, layerS := d.layerS, frontS := d.frontS, cyc := d.cyc, regLinks := d.regLinks,
    discharge := d.discharge, trip := d.trip, stopped := d.stopped, part := d.part, rbFuse := d.rbFuse, flash := d.flash,
    image := d.image, wear := d.wear, dieTest := d.dieTest, ident := d.ident, tap := d.tap,
    mgmt := { Mgmt.init with keyErased := d.mgmt.keyErased, erasing := d.mgmt.erasing, upd := { Update.init with next := d.mgmt.upd.next } },
    out := d.out, now := d.now, skew := d.skew, lone := d.lone, free := d.free }
  (z.fuseFields keeps).imageFields keeps

/-- Step 5, references: AUTO takes the other one in place of one that is suspect or absent (R574). -/
def Dev.warmReference (d : Dev) : Dev :=
  let sel := d.rd CLK_STAT.SEL
  let go := d.rd CLK_CTRL.SEL_MODE == 2 && d.bit (presentField (1 - sel)) && !d.bit CLK_STAT.OTHER_SUSPECT &&
    (d.bit CLK_STAT.SUSPECT || !d.bit (presentField sel))
  let d := (d.wr CLK_STAT.SUSPECT 0).wr CLK_STAT.OTHER_SUSPECT 0
  if go then
    (((d.wr CLK_STAT.SEL (1 - sel)).wr CLK_STAT.SWITCHED 1).err 16 0x0B44 (unitClk 1) 0 |>.wr CLK_STAT.HOLDOVER 0).pllAll 3 2
  else d

/-- Step 5, Seam: ports that are down, and the control channel, train again; those in `fails` (16 the channel) stay down. -/
def Dev.warmSeam (d : Dev) (fails : List Nat) : Dev :=
  if d.standAlone then d
  else
    let d := d.seamForm ((List.range 16).filter d.portDown) fails
    if !d.ctrlDown then d
    else if fails.contains 16 then d.svc 5
    else [0, 1].foldl (fun d h => d.wr HALF_STAT.CTRL_UP 1 h) { d with ctrlDown := false }.alignTime

/-- Step 5, links: retirements that waited take effect (R48). -/
def Dev.warmLinks (d : Dev) : Dev :=
  Dev.noteRetired <| (List.range 256).foldl (fun d g =>
    let p := d.rd DARN_CL_STATE.LINK_PEND 0 g
    if p = 0 then d
    else
      let ls := (List.range 6).filter (fun l => p.testBit l)
      let d := { d with linkRet := (d.linkRet ++ ls.map (fun l => (g, l))).eraseDups }
      -- a link is one change of the map, recorded under its end in the lower-numbered cluster
      let own := ls.filter (fun l => (linkPeer g l).all (fun p => decide (g < p)))
      own.foldl (fun d l => d.mapChange (unitCluster g 14 l)) (d.wr DARN_CL_STATE.LINK_PEND 0 0 g)) d

/-- Step 5, rails: one whose link is up leaves degraded mode; a rail that is not frozen returns to its lowest OPP. -/
def Dev.warmRails (d : Dev) : Dev :=
  let d := (List.range 6).foldl (fun d n =>
    if d.rd PWR_REGn_STAT.LINK 0 n = 2 ∧ (d.reg n).up then (d.wr PWR_REGn_STAT.LINK 0 0 n).updReg n (fun r => { r with hold := none })
    else d) d
  [0, 1].foldl (fun d h =>
    if d.rd PWR_REGn_STAT.LINK 0 h = 0 then d.wr PWR_REGn_STAT.SET_MV (d.oppVolt 0) 0 h else d) d

/-- Shutdown ends (R558, R611). -/
def Dev.shutdownEnd (d : Dev) : Dev :=
  if d.bit THM_STAT.SHUTDOWN then
    { (d.wr THM_STAT.SHUTDOWN 0).clocksRun.emit (.pin "THERMTRIP_N" true) with trip := false, stopped := false }
  else d

/-- OPP of a half whose rail is frozen stays (R545). -/
def Dev.keepOpp (old d : Dev) : Dev :=
  [0, 1].foldl (fun d h => if old.rd PWR_REGn_STAT.LINK 0 h = 0 then d else d.wr (oppField h) (old.rd (oppField h))) d

/-- Steps 1 to 4. -/
def Dev.warmA (d : Dev) (cause : Nat) : Dev := let d := d.warmStop cause; Dev.keepOpp d d.warmBase

/-- Steps 5 to 7. -/
def Dev.warmB (d : Dev) (fails : List Nat) : Dev :=
  let d := ((((d.shutdownEnd.warmReference).warmSeam fails).warmLinks).warmRails).portsTake
  let d := d.setDigest.presets
  ((d.wr SEQ_STAT.STAGE 8).wr SEQ_STAT.READY 1).startJoins

/-- A warm reset that has ended: its count and cause, and the result of a command. -/
def Dev.warmEnd (d : Dev) (src : Nat) : Dev :=
  let d := (d.addSat SEQ_CAUSE.WARMS 1).wr SEQ_CAUSE.WARM src
  (if src = 1 then d.rstResult 1 0 else d).wr SEQ_RST_RESULT.BUSY 0

/-- Wait for cooling after step 4, or go on. -/
def Dev.warmMid (d : Dev) (src : Nat) (fails : List Nat) : Dev :=
  if d.bit THM_STAT.SHUTDOWN && !d.cooled then
    { d.wr SEQ_RST_RESULT.BUSY 1 with warm := some (.cooling, src) }
  else (d.warmB fails).warmEnd src

/-- A warm reset is accepted: the wear record is written, and a COMMIT entry that is being programmed is waited for. -/
def Dev.warmGo (d : Dev) (src : Nat) (fails : List Nat) (verify : List Bool) : Dev :=
  let d := ((d.wr SEQ_RST_RESULT.BUSY 1).wearAdd 1 1).writeWear verify
  if d.commit.isSome then { d with warm := some (.entry, src) } else (d.warmA 3).warmMid src fails

/-- An armed command; COLD may come while a warm reset runs. -/
def Dev.armedCmd (d : Dev) (cold : Bool) (f : Dev → Dev) : Dev :=
  if d.bit SEQ_RST_RESULT.BUSY && !(cold && d.warm.isSome) then d.wr SEQ_RST_RESULT.CMD_LOST 1
  else if !d.armed then d.rstResult 3 0
  else f { d with armed := false }

def execRstWarm (fails : List Nat) (verify : List Bool) (s : State) : Out :=
  ctl s (fun d => d.armedCmd false (fun d => ((d.rstResult 0 0).warmGo 1 fails verify)))

def execWarmResetContinue (fails : List Nat) (s : State) : Out :=
  ctl s (fun d =>
    match d.warm with
    | some (.entry, src) => ((({ d with warm := none }.commitCut)).warmA 3).warmMid src fails
    | some (.cooling, src) => if d.cooled then ({ d with warm := none }.warmB fails).warmEnd src else d
    | none => d)

/-- COLD: the COMMIT ends after its entry, the wear record is written, and the cold boot begins. -/
def Dev.coldGo (d : Dev) (cause : Nat) (verify : List Bool) (b : BootIn) : Dev :=
  ((d.commitCut.writeWear verify).coldBase).coldBoot b cause

def execRstCold (verify : List Bool) (b : BootIn) (s : State) : Out :=
  ctl s (fun d => d.armedCmd true (fun d => d.coldGo 2 verify b))

/-- A boot that finds outside the sequencer what the last one found. -/
def Dev.bootSame (d : Dev) : BootIn :=
  { ref0 := d.bit CLK_STAT.REF0_PRESENT, ref1 := d.bit CLK_STAT.REF1_PRESENT, power := false, part := none, flash := none,
    readA := true, readB := true, seamFails := [], ident := d.ident, lanes := [], verify := [] }

end Sys2Proof.Machine
end

