-- ==== Sys2Proof/Machine/Mgmt.lean ====
section
/-! DEFINITION. The management responders (R583-R595): the I3C bus, MCTP control, PLDM and SPDM; the update engine
(R589-R591) and the fuse rollback level (R592). Numbers of DMTF commands and masks are the standards' (PRESUMED). -/
namespace Sys2Proof.Machine
open Sys2Proof

def Dev.updMgmt (d : Dev) (f : Mgmt → Mgmt) : Dev := { d with mgmt := f d.mgmt }
def Dev.updUpd (d : Dev) (f : Update → Update) : Dev := d.updMgmt (fun m => { m with upd := f m.upd })

/-- A responder has an answer; in I3C mode an in-band interrupt with data byte 0xAE says so (R584). -/
def Dev.respond (d : Dev) (proto : Nat) (a : Answer) : Dev :=
  (if d.bit MGT_STAT.I3C then d.emit (.inBand 0xAE) else d).emit (.reply proto a)

/-- Answer of the MCTP control, PLDM and SPDM responders. -/
def Dev.mctp (d : Dev) (a : Answer) : Dev := d.respond 0 a
def Dev.pldm (d : Dev) (a : Answer) : Dev := d.respond 1 a
/-- While an erase runs every SPDM request is answered Busy (R603). -/
def Dev.spdm (d : Dev) (f : Dev → Answer × Dev) : Dev :=
  if d.mgmt.erasing then d.respond 5 .busy else let r := f d; r.2.respond 5 r.1

/-! ### The bus and MCTP (R583, R584) -/

/-- The static address of setting 0x0501. -/
def Dev.busAddr (d : Dev) : Nat := FMap.get d.opts 0xB4 0x0501 / 2 % 128

/-- The Provisional ID. -/
def Dev.pid (d : Dev) : Nat := 0x3CD5 * 2 ^ 33 + 2 ^ 32 + d.rd SEQ_SERIAL.SERIAL % 2 ^ 32

/-- A dynamic address is assigned in I3C mode to a target that has none. -/
def Dev.takeAddr (d : Dev) (ok : Bool) (dyn : Nat) : Dev :=
  if d.bit MGT_STAT.I3C && ok && d.mgmt.i3c.isNone then
    (d.updMgmt (fun m => { m with i3c := some (dyn % 128) })).emit (.reply 16 (.ok [d.pid]))
  else d

def execI3cEntdaa (dyn : Nat) (s : State) : Out := ctl s (fun d => d.takeAddr true dyn)
def execI3cSetdasa (static dyn : Nat) (s : State) : Out := ctl s (fun d => d.takeAddr (static == d.busAddr) dyn)

/-- Set Endpoint ID. The null and the broadcast EID are no endpoint's. -/
def execSetEndpointId (eid : Nat) (s : State) : Out :=
  ctl s (fun d =>
    if eid = 0 ∨ 255 ≤ eid then d.mctp .invalid else (d.wr MGT_STAT.EID eid).mctp (.ok [eid]))

def execGetEndpointId (s : State) : Out := ctl s (fun d => d.mctp (.ok [d.rd MGT_STAT.EID]))

/-- The 16 bytes of the UUID. -/
def Dev.uuid (d : Dev) : List Nat :=
  let n := fun (i : Nat) => d.rd SEQ_SERIAL.SERIAL / 256 ^ (7 - i) % 256
  [0x1E, 0x6B, 0x03, 0x52, 0, 0, 0x80, 0, 0x80 + n 0 % 64] ++ (List.range 7).map (fun i => n (i + 1))

def execGetEndpointUuid (s : State) : Out := ctl s (fun d => d.mctp (.ok d.uuid))

/-- The base version is 1.3; the versions of the message types' bindings are not stated. -/
def execGetMctpVersionSupport (typ : Nat) (s : State) : Out :=
  ctl s (fun d =>
    if typ = 0 ∨ typ = 255 then d.mctp (.ok [1, 3])
    else if typ = 1 ∨ typ = 5 then (let v := d.draw 32; v.2.mctp (.ok [v.1.toNat]))
    else d.mctp .invalid)

def execGetMessageTypeSupport (s : State) : Out := ctl s (fun d => d.mctp (.ok [0, 1, 5]))

/-- A command that the chapter does not list, for a responder: 0 MCTP, 1 PLDM, 5 SPDM. -/
def execUnsupportedRequest (proto : Nat) (s : State) : Out :=
  ctl s (fun d => if proto = 5 then d.spdm (fun d => (.unsupported, d)) else d.respond proto .unsupported)

/-! ### PLDM base and monitoring (R586-R588) -/

def execGetTid (s : State) : Out := ctl s (fun d => d.pldm (.ok [d.mgmt.tid]))
def execSetTid (tid : Nat) (s : State) : Out :=
  ctl s (fun d =>
    if tid = 0 ∨ 255 ≤ tid then d.pldm .invalid else (d.updMgmt (fun m => { m with tid := tid })).pldm (.ok []))

/-- The versions of the types' specifications are not stated. -/
def execGetPldmVersion (typ : Nat) (s : State) : Out :=
  ctl s (fun d =>
    if typ = 0 ∨ typ = 2 ∨ typ = 5 then (let v := d.draw 32; v.2.pldm (.ok [v.1.toNat])) else d.pldm .invalid)

def execGetPldmTypes (s : State) : Out := ctl s (fun d => d.pldm (.ok [0, 2, 5]))

/-- The commands of each type. -/
def pldmCommands : Nat → Option (List Nat)
  | 0 => some [0x01, 0x02, 0x03, 0x04, 0x05]
  | 2 => some [0x11, 0x21, 0x31, 0x32, 0x39, 0x3A, 0x50, 0x51]
  | 5 => some [0x01, 0x02, 0x10, 0x13, 0x14, 0x15, 0x16, 0x17, 0x18, 0x1A, 0x1B, 0x1C, 0x1D]
  | _ => none

def execGetPldmCommands (typ : Nat) (s : State) : Out :=
  ctl s (fun d => d.pldm (match pldmCommands typ with | some l => .ok l | none => .invalid))

/-- The sensors and effecters, in order: ID, kind (0 numeric sensor, 1 state sensor, 2 state effecter, 3 numeric effecter)
and state set. -/
def pdrs : List (List Nat) :=
  [[1, 0, 0], [2, 0, 0], [3, 0, 0], [4, 0, 0], [5, 0, 0], [6, 0, 0], [7, 0, 0], [8, 0, 0],
   [20, 1, 0x8001], [21, 1, 0x8002], [22, 1, 0x8003], [40, 2, 0x8004], [41, 3, 0]]

def execGetPdrRepositoryInfo (s : State) : Out := ctl s (fun d => d.pldm (.ok [pdrs.length]))

/-- A record by its handle; handle 0 is the first. -/
def execGetPdr (handle : Nat) (s : State) : Out :=
  ctl s (fun d => d.pldm (match pdrs[handle - 1]? with | some r => .ok r | none => .invalid))

/-- A numeric sensor: its reading, none where its input is ABSENT or lost; none at all for an ID not listed. -/
def Dev.sensorRead (d : Dev) (id : Nat) : Option (Option Int) :=
  let front := fun (i : Nat) => match FMap.find d.frontS i with
    | some x => if x.st == 2 then none else x.raw
    | none => none
  match id with
  | 1 => some (if d.dramHot.isSome then some (d.rdS THM_TEMP.DRAM) else none)
  | 2 => some (if d.logicHot.isSome then some (d.rdS THM_TEMP.LOGIC) else none)
  | 3 => some (some (d.rd PWR_POWER.WATTS : Nat))
  | 4 => some (some (d.rd PWR_STAT.LIMIT : Nat))
  | 5 => some (front 40)
  | 6 => some (front 41)
  | 7 => some (front 44)
  | 8 => some (some ((d.coresOf 0 + d.coresOf 1 : Nat) : Int))
  | _ => none

def execGetSensorReading (id : Nat) (s : State) : Out :=
  ctl s (fun d => d.pldm (match d.sensorRead id with | some v => .reading v | none => .invalid))

/-- A state sensor. -/
def Dev.stateRead (d : Dev) (id : Nat) : Option (Option Int) :=
  match id with
  | 20 => some (some (if d.rd ERR_SVC.CAUSE = 0 then 1 else 2))
  | 21 =>
    some (if d.bit THM_STAT.SHUTDOWN then some 5
          else if d.dramHot.isNone && d.logicHot.isNone then none
          else some ((max (d.rd THM_STAT.DRAM) (d.rd THM_STAT.LOGIC) + 1 : Nat) : Int))
  | 22 =>
    some (some (if !d.bit SEQ_STAT.READY then 1 else if d.bit SEQ_STAT.RECOVERY then 4
                else if d.bit SEQ_STAT.JOINED then 3 else 2))
  | _ => none

def execGetStateSensorReadings (id : Nat) (s : State) : Out :=
  ctl s (fun d => d.pldm (match d.stateRead id with | some v => .reading v | none => .invalid))

/-- Effecter 40: a warm or cold reset under R505, recorded as MGMT, without arming. While a reset command runs another
finds BUSY. -/
def setEffecter (id st : Nat) (fails : List Nat) (verify : List Bool) (b : BootIn) (d : Dev) : Dev :=
  if id ≠ 40 ∨ st = 0 ∨ 3 < st then d.pldm .invalid
  else if st = 1 then d.pldm (.ok [])
  else if d.bit SEQ_RST_RESULT.BUSY && !(st == 3 && d.warm.isSome) then (d.wr SEQ_RST_RESULT.CMD_LOST 1).pldm .notReady
  else if st = 2 then (d.pldm (.ok [])).warmGo 2 fails verify
  else (d.pldm (.ok [])).coldGo 3 verify b

def execSetStateEffecterStates (id st : Nat) (fails : List Nat) (verify : List Bool) (b : BootIn) (s : State) : Out :=
  ctl s (setEffecter id st fails verify b)

def execGetStateEffecterStates (id : Nat) (s : State) : Out :=
  ctl s (fun d => d.pldm (if id = 40 then .ok [if d.warm.isSome then 2 else 1] else .invalid))

/-- Effecter 41 writes PWR_ENV as host software does. -/
def execSetNumericEffecterValue (id v : Nat) (s : State) : Out :=
  ctl s (fun d => if id = 41 then (d.putField PWR_ENV.WATTS 0 0 0 (min v 2047) (2 ^ 32 - 1)).pldm (.ok []) else d.pldm .invalid)

def execGetNumericEffecterValue (id : Nat) (s : State) : Out :=
  ctl s (fun d => d.pldm (if id = 41 then .ok [d.rd PWR_ENV.WATTS] else .invalid))

/-! ### The update engine (R589-R591) -/

/-- The copy that the sequencer did not load; copy A in recovery mode. -/
def Dev.targetCopy (d : Dev) : Nat := if d.rd SEQ_STAT.COPY = 1 then 2 else 1

/-- The engine starts to write: the target copy is erased. -/
def Dev.updStart (d : Dev) (owner : Nat) (bytes : List Byte) : Dev :=
  let d := ((d.wr MGT_STAT.UPD_OWNER owner).wr MGT_UPD_RESULT.BUSY 1).wr MGT_UPD_RESULT.COPY d.targetCopy
  { d with flash := FMap.set d.flash d.targetCopy [] }.updUpd (fun u => { u with job := some bytes, check := none })

/-- The engine stops writing. -/
def Dev.updStop (d : Dev) (owner : Nat) : Dev :=
  ((d.wr MGT_UPD_RESULT.BUSY 0).wr MGT_STAT.UPD_OWNER owner).updUpd (fun u => { u with job := none })

/-- The bytes at a DA, through the home caches; none when a read receives an error completion. -/
def Dev.stagedBytes (d : Dev) (da n : Nat) : Option (List Byte) × Dev :=
  (linePieces (n / 128 + 2) da n 0).foldl (fun (a : Option (List Byte) × Dev) p =>
    match a.1 with
    | none => a
    | some bs =>
      match a.2.daRefused p.1 with
      | some cls => (none, a.2.err cls 1 (unitDev 29 1) p.1)
      | none =>
        let r := a.2.cachedRead p.1 p.2.1 none
        (some (bs ++ bytesOf r.1.val p.2.1), r.2)) (some [], d)

/-- A write of MGT_UPD_CMD while the engine writes is discarded. -/
def Dev.imgCmd (d : Dev) (f : Dev → Dev) : Dev :=
  if d.bit MGT_UPD_RESULT.BUSY then d.wr MGT_UPD_RESULT.CMD_LOST 1 else f d

/-- WRITE. -/
def Dev.updWrite (d : Dev) : Dev :=
  if !d.hostUpd then d.imgCmd (fun d => d.wr MGT_UPD_RESULT.CODE 7)
  else if d.rd MGT_STAT.UPD_OWNER = 1 then (if d.bit MGT_UPD_RESULT.BUSY then d.wr MGT_UPD_RESULT.CMD_LOST 1 else d.wr MGT_UPD_RESULT.CODE 2)
  else
    d.imgCmd (fun d =>
      let r := (d.wr MGT_UPD_RESULT.CODE 0).stagedBytes (d.rd MGT_UPD_SRC.DA * 8) (d.rd MGT_UPD_LEN.BYTES)
      match r.1 with
      | some bs => r.2.updStart 2 bs
      | none => ((r.2.updStart 2 []).updStop 0).wr MGT_UPD_RESULT.CODE 3)

def execUpdWrite (s : State) : Out := ctl s Dev.updWrite

/-- CANCEL ends a host update that is being written. -/
def Dev.updCancel (d : Dev) : Dev :=
  if !d.bit MGT_UPD_RESULT.BUSY then d
  else if d.rd MGT_STAT.UPD_OWNER = 2 then (d.updStop 0).wr MGT_UPD_RESULT.CODE 6
  else d.wr MGT_UPD_RESULT.CMD_LOST 1

def execUpdCancel (s : State) : Out := ctl s Dev.updCancel
def execUpdNop (s : State) : Out := ctl s (fun d => d.imgCmd (fun d => d))

/-- The rollback level in force: a level that MGT_RB_CMD has fused takes effect at the next cold reset (R592). -/
def Dev.rbInForce (d : Dev) : Nat := d.rd SEQ_IMG_STAT.RB_FUSE

/-- The engine has programmed and verified the target copy. `ok` says whether the flash took it; what a flash that failed
holds is open: how much of the copy reached it. A PLDM update must have all its bytes first. -/
def updateDone (ok : Bool) (verify : List Bool) (d : Dev) : Dev :=
  match d.mgmt.upd.job with
  | none => d
  | some bs =>
    let host := d.rd MGT_STAT.UPD_OWNER == 2
    if !host && d.mgmt.upd.stage != .verify then d
    else
      let cut := d.draw 21
      let d := if ok then d else cut.2
      let l := if ok then bs else bs.take cut.1.toNat
      let c := d.targetCopy
      let d : Dev := { d with flash := FMap.set d.flash c l }
      let code := if ok then checkCopy l true d.part.keys d.rbInForce else 2
      let pass := ok && code == 1 && (d.bit SEQ_STAT.RECOVERY || decide (d.rd SEQ_IMG.SERIAL < imgSerial l))
      let d := (d.updStop (if host then 0 else 1)).wr MGT_UPD_RESULT.CHECK code
      let d := if host then d.wr MGT_UPD_RESULT.CODE (if !ok then 5 else if pass then 1 else 4) else d
      let d := d.updUpd (fun u => { u with check := some (code, pass), next := if pass then some (imgSerial l) else u.next })
      if pass then (d.wearAdd 7 1).writeWear verify else d

def execUpdateDone (ok : Bool) (verify : List Bool) (s : State) : Out := ctl s (updateDone ok verify)

/-! ### PLDM firmware update (R590) -/

/-- A request of the update agent that is legal in some stages. -/
def Dev.updStep (d : Dev) (stages : List UpdStage) (f : Dev → Dev) : Dev :=
  if stages.contains d.mgmt.upd.stage then (f d).pldm (.ok []) else d.pldm .badState

def Dev.setStage (d : Dev) (x : UpdStage) : Dev := d.updUpd (fun u => { u with stage := x })

def execQueryDeviceIdentifiers (s : State) : Out := ctl s (fun d => d.pldm (.ok [0x1E6B, 0x0352]))

/-- The component, its active version, and the version that waits for a cold reset. -/
def execGetFirmwareParameters (s : State) : Out :=
  ctl s (fun d => d.pldm (.ok ([0x0352, d.rd SEQ_IMG.SERIAL] ++ d.mgmt.upd.next.toList)))

def execRequestUpdate (s : State) : Out :=
  ctl s (fun d =>
    if d.rd MGT_STAT.UPD_OWNER ≠ 0 ∨ d.mgmt.upd.stage ≠ .idle then d.pldm .alreadyInUpdate
    else ((d.wr MGT_STAT.UPD_OWNER 1).setStage .learn).pldm (.ok []))

def execPassComponentTable (s : State) : Out := ctl s (fun d => d.updStep [.learn, .ready] (fun d => d.setStage .ready))

/-- While bytes of the image are missing, the device asks for the next piece (RequestFirmwareData, with its offset). -/
def Dev.askData (d : Dev) : Dev :=
  match d.mgmt.upd.job with
  | some bs => if bs.length < d.mgmt.upd.size then d.pldm (.request 0x15 bs.length) else d
  | none => d

/-- UpdateComponent for a component of `size` bytes. -/
def execUpdateComponent (comp size : Nat) (s : State) : Out :=
  ctl s (fun d =>
    if comp ≠ 0x0352 ∨ 2 ^ 20 < size then d.pldm .invalid
    else if d.mgmt.upd.stage ≠ .ready then d.pldm .badState
    else ((((d.updStart 1 []).setStage .download).updUpd (fun u => { u with size := size })).pldm (.ok [])).askData)

/-- A piece of up to 1,024 B arrives for the next bytes. -/
def firmwareData (data : List Byte) (d : Dev) : Dev :=
  let u := d.mgmt.upd
  match u.stage, u.job with
  | .download, some bs =>
    let piece := (data.take 1024).take (u.size - bs.length)
    (d.updUpd (fun u => { u with job := some (bs ++ piece) })).askData
  | _, _ => d

def execFirmwareDataReceive (data : List Byte) (s : State) : Out := ctl s (firmwareData data)

/-- With every byte here, the device sends TransferComplete. -/
def execTransferComplete (s : State) : Out :=
  ctl s (fun d =>
    match d.mgmt.upd.stage, d.mgmt.upd.job with
    | .download, some bs =>
      if d.mgmt.upd.size ≤ bs.length then (d.setStage .verify).pldm (.request 0x16 0) else d
    | _, _ => d)

/-- With the copy verified, the device sends VerifyComplete with what the checks found: 0 when they passed. -/
def execVerifyComplete (s : State) : Out :=
  ctl s (fun d =>
    match d.mgmt.upd.stage, d.mgmt.upd.check with
    | .verify, some (code, pass) =>
      if pass then (d.setStage .apply).pldm (.request 0x17 0) else d.pldm (.request 0x17 code)
    | _, _ => d)

def execApplyComplete (s : State) : Out :=
  ctl s (fun d => if d.mgmt.upd.stage = .apply then (d.setStage .ready).pldm (.request 0x18 0) else d)

/-- PLDM gives the engine up. -/
def Dev.updLeave (d : Dev) : Dev := (d.updStop 0).setStage .idle

def execActivateFirmware (s : State) : Out := ctl s (fun d => d.updStep [.ready] Dev.updLeave)

def stageNum : UpdStage → Nat
  | .idle => 0
  | .learn => 1
  | .ready => 2
  | .download => 3
  | .verify => 4
  | .apply => 5

def execGetStatus (s : State) : Out := ctl s (fun d => d.pldm (.ok [stageNum d.mgmt.upd.stage]))

def execCancelUpdateComponent (s : State) : Out :=
  ctl s (fun d => d.updStep [.download, .verify, .apply] (fun d => (d.updStop 1).setStage .ready))

def execCancelUpdate (s : State) : Out :=
  ctl s (fun d => d.updStep [.learn, .ready, .download, .verify, .apply] Dev.updLeave)

/-! ### The fuse rollback level (R592) -/

/-- Both copies are valid, as read now, and carry at least a level. -/
def Dev.copiesCarry (d : Dev) (level : Nat) (readA readB : Bool) : Bool :=
  checkCopy (d.copyAt 1) readA d.part.keys d.rbLevel == 1 && checkCopy (d.copyAt 2) readB d.part.keys d.rbLevel == 1 &&
  decide (level ≤ imgRb (d.copyAt 1)) && decide (level ≤ imgRb (d.copyAt 2))

def Dev.rbCmd (d : Dev) (v : Nat) (readA readB : Bool) : Dev :=
  let level := v % 64
  if v / 2 ^ 16 % 2 ^ 16 ≠ 0x7B1E then d.wr MGT_RB_RESULT.CODE 2
  else if d.bit MGT_UPD_RESULT.BUSY || !decide (d.rbLevel < level) || !d.copiesCarry level readA readB then d.wr MGT_RB_RESULT.CODE 3
  else { (d.wr MGT_RB_RESULT.CODE 1).wr MGT_RB_RESULT.LEVEL level with rbFuse := level }

def execRbCmd (v : Nat) (readA readB : Bool) (s : State) : Out := ctl s (fun d => d.rbCmd v readA readB)

/-! ### SPDM (R593-R595) -/

def execGetVersion (s : State) : Out := ctl s (fun d => d.spdm (fun d => (.ok [0x12], d)))
/-- CERT_CAP, CHAL_CAP and MEAS_CAP with signatures. -/
def execGetCapabilities (s : State) : Out := ctl s (fun d => d.spdm (fun d => (.ok [0x16], d)))
/-- The one algorithm of each kind, where the requester offers it. -/
def execNegotiateAlgorithms (asym hash : Nat) (s : State) : Out :=
  ctl s (fun d => d.spdm (fun d => (.ok [asym &&& 0x80, hash &&& 0x02, 0x04], d)))

def Dev.chainDigest (d : Dev) : Nat := sha384 d.part.chain

def execGetDigests (s : State) : Out := ctl s (fun d => d.spdm (fun d => (.ok [1, d.chainDigest], d)))

/-- A portion of the chain of slot 0: its bytes, then how many remain. -/
def execGetCertificate (slot off len : Nat) (s : State) : Out :=
  ctl s (fun d => d.spdm (fun d =>
    if slot ≠ 0 ∨ d.part.chain.length < off then (.invalid, d)
    else
      let p := (d.part.chain.drop off).take len
      (.ok ([p.length, d.part.chain.length - off - p.length] ++ p.map BitVec.toNat), d)))

/-- An answer with a signature, whose value is open. Once the attestation key is erased there is none. -/
def Dev.signReply (d : Dev) (data : List Nat) : Answer × Dev :=
  if d.mgmt.keyErased then (.unexpected, d)
  else let v := d.draw 768; (.ok (data ++ [v.1.toNat]), v.2)

def execSpdmChallenge (slot : Nat) (s : State) : Out :=
  ctl s (fun d => d.spdm (fun d => if slot ≠ 0 then (.invalid, d) else d.signReply [d.chainDigest]))

/-- A measurement block. The digest of a copy that was not loaded is open, and so is the form in which the fused digests
are hashed. -/
def Dev.measure (d : Dev) (i : Nat) : Nat × Dev :=
  let free := let v := d.draw 384; (v.1.toNat, v.2)
  match i with
  | 1 => match d.image with | some m => (m.digest, d) | none => free
  | 2 => ((match d.image with | some m => m.agreement | none => sha384 []), d)
  | 3 => free
  | 4 => ((if d.rd MGT_DBG_STAT.STATE = 2 then 1 else 0) + 2 * d.rd SEQ_STAT.RECOVERY + 4 * d.rd SEQ_STAT.COPY +
          16 * d.rd SEQ_IMG_STAT.RB_FUSE, d)
  | _ => (d.rd SEQ_ID.PART * 2 ^ 16 + d.rd SEQ_ID.REV * 2 ^ 8, d)

/-- GET_MEASUREMENTS: index 0 asks how many there are, 0xFF for all. -/
def getMeasurements (index : Nat) (sign : Bool) (d : Dev) : Answer × Dev :=
  let is := if index = 0xFF then [1, 2, 3, 4, 5] else [index]
  if index = 0 then (if sign then d.signReply [5] else (.ok [5], d))
  else if 5 < index ∧ index ≠ 0xFF then (.invalid, d)
  else
    let r := is.foldl (fun (a : List Nat × Dev) i => let m := a.2.measure i; (a.1 ++ [m.1], m.2)) ([], d)
    if sign then r.2.signReply r.1 else (.ok r.1, r.2)

def execGetMeasurements (index : Nat) (sign : Bool) (s : State) : Out := ctl s (fun d => d.spdm (getMeasurements index sign))

end Sys2Proof.Machine
end

