-- ==== Sys2Proof/Machine/Debug.lean ====
section
/-! DEFINITION. The debug unlock and its erase (R599, R600, R602, R603) and the test access port (R598, R600). -/
namespace Sys2Proof.Machine
open Sys2Proof

/-! ### Nonces (R599) -/

/-- 32 random bytes replace any earlier nonce. -/
def Dev.drawNonce (d : Dev) : Dev :=
  let v := d.draw 256
  let n := v.1.toNat
  ((List.range 8).foldl (fun d i => d.wr MGT_DBG_NONCE.NONCE (n / 2 ^ (32 * i)) 0 i) v.2).updMgmt (fun m => { m with nonce := some n })

def Dev.dropNonce (d : Dev) : Dev := d.updMgmt (fun m => { m with nonce := none })

def execNonceExpiry (s : State) : Out := ctl s Dev.dropNonce

/-! ### Tokens (R600) -/

def Dev.tokenOk (d : Dev) (t : List Byte) : Bool :=
  let key := t.take 97
  let part := fun (a n : Nat) => (t.drop a).take n
  let slot := ofBytes (part 144 1)
  t.length == 256 && (part 97 7 ++ part 145 7 ++ part 248 8).all (· == 0) &&
  d.mgmt.nonce == some (ofBytes (part 104 32)) && ofBytes (part 136 8) == d.rd SEQ_SERIAL.SERIAL &&
  decide (slot < 2) && keyOk d.part.dbgKeys slot key &&
  signatureOk key (part 104 48) (beNat (part 152 48)) (beNat (part 200 48))

/-! ### The erase (R602) -/

/-- Steps 1 to 5: DEPARTING, the first steps of a warm reset, and every memory and secret. Row tables of the slices stay. -/
def Dev.eraseStart (d : Dev) : Dev :=
  let d := (d.commitCut).warmA 2
  let d : Dev := { d with mem := [], badw := [], blk := [], lmem := [], lue := [], lce := [], imem := [], portsOff := true,
                          slices := d.slices.map (fun e => (e.1, { e.2 with raw := [] })) }
  ((d.wr MGT_DBG_STAT.STATE 1).wr MGT_DBG_STAT.BUSY 1).updMgmt (fun m => { m with keyErased := true, erasing := true, nonce := none })

/-- Step 6, and the port opens. Thermal shutdown holds it back as it does a warm reset. -/
def debugEraseDone (fails : List Nat) (verify : List Bool) (d : Dev) : Dev :=
  if !d.mgmt.erasing || (d.bit THM_STAT.SHUTDOWN && !d.cooled) then d
  else
    let d := (d.warmB fails).updMgmt (fun m => { m with erasing := false })
    let d := ((d.wr MGT_DBG_STAT.STATE 2).wr MGT_DBG_STAT.RESULT 1).wr MGT_DBG_STAT.BUSY 0
    (d.wearAdd 8 1).writeWear verify

def execDebugEraseDone (fails : List Nat) (verify : List Bool) (s : State) : Out := ctl s (debugEraseDone fails verify)

/-- An unlock with a token: the nonce is spent whatever comes of it. -/
def Dev.unlock (d : Dev) (token : Option (List Byte)) : Dev :=
  let ok := token.any d.tokenOk
  let d := d.dropNonce
  if d.rd MGT_DBG_STAT.STATE = 3 ∨ d.bit MGT_UPD_RESULT.BUSY then d.wr MGT_DBG_STAT.RESULT 3
  else if ok then d.eraseStart else d.wr MGT_DBG_STAT.RESULT 2

/-! ### MGT_DBG_CMD (R604) -/

def Dev.dbgCmd (d : Dev) (f : Dev → Dev) : Dev :=
  if d.bit MGT_DBG_STAT.BUSY then d.wr MGT_DBG_STAT.CMD_LOST 1 else f d

def Dev.dbgUnlock (d : Dev) : Dev :=
  d.dbgCmd (fun d => let r := d.stagedBytes (d.rd MGT_DBG_TOKEN.DA) 256; r.2.unlock r.1)

def execDbgChallenge (s : State) : Out := ctl s (fun d => d.dbgCmd Dev.drawNonce)
def execDbgUnlock (s : State) : Out := ctl s Dev.dbgUnlock
def execDbgNop (s : State) : Out := ctl s (fun d => d.dbgCmd (fun d => d))

/-! ### The test access port (R598): its clock is the tester's -/

/-- A change of the port, which nothing else stops. -/
def tapStep (s : State) (f : Dev → Dev) : Out := .next { s with dev := f s.dev }

def Dev.updTap (d : Dev) (f : Tap → Tap) : Dev := { d with tap := f d.tap }

/-- An instruction of half `h`. -/
def Dev.setIr (d : Dev) (h code : Nat) : Dev := d.updTap (fun t => { t with ir := FMap.set t.ir (h % 2) code })

/-- IDCODE is what a half holds after Test-Logic-Reset. -/
def Dev.irOf (d : Dev) (h : Nat) : Nat := FMap.get d.tap.ir 1 (h % 2)

def execTapTestLogicReset (s : State) : Out := tapStep s (fun d => d.updTap (fun t => { t with ir := [] }))
def execTapIdcode (h : Nat) (s : State) : Out := tapStep s (fun d => (d.setIr h 1).emit (.tdo (h % 2) 0x10352B9B))
def execTapBypass (h : Nat) (s : State) : Out := tapStep s (fun d => (d.setIr h 0xFF).emit (.tdo (h % 2) 0))

/-- EXTEST drives the boundary register; outside CRST_N it is BYPASS. -/
def execTapExtest (h v : Nat) (s : State) : Out :=
  tapStep s (fun d =>
    if d.crst then
      ((d.setIr h 0).updTap (fun t => { t with bnd := FMap.set t.bnd (h % 2) v })).emit (.boundary (h % 2) (some v))
    else (d.setIr h 0xFF).emit (.tdo (h % 2) 0))

/-- SAMPLE/PRELOAD: the levels of the balls are captured, and the boundary register loaded. -/
def execTapSamplePreload (h balls v : Nat) (s : State) : Out :=
  tapStep s (fun d =>
    ((d.setIr h 2).updTap (fun t => { t with bnd := FMap.set t.bnd (h % 2) v })).emit (.tdo (h % 2) balls))

/-- CLAMP: the outputs hold what the boundary register holds; outside CRST_N it is BYPASS. -/
def execTapClamp (h : Nat) (s : State) : Out :=
  tapStep s (fun d =>
    if d.crst then (d.setIr h 4).emit (.boundary (h % 2) (some (FMap.get d.tap.bnd 0 (h % 2))))
    else (d.setIr h 0xFF).emit (.tdo (h % 2) 0))

def execTapHighz (h : Nat) (s : State) : Out := tapStep s (fun d => (d.setIr h 5).emit (.boundary (h % 2) none))

/-- The bit that a cold reset samples. -/
def execTapDietest (h : Nat) (b : Bool) (s : State) : Out :=
  tapStep s (fun d =>
    let d := d.setIr h 0x10
    let rest := d.dieTest.filter (· != h % 2)
    { d with dieTest := if b then rest ++ [h % 2] else rest })

/-- DBG_UNLOCK: a capture draws a nonce and shows it; Update-DR submits a token. -/
def execTapDbgUnlock (capture : Bool) (token : Option Nat) (s : State) : Out :=
  tapStep s (fun d =>
    let d := (d.setIr 0 0x20).setIr 1 0x20
    if d.dark || d.bit MGT_DBG_STAT.BUSY then d
    else
      let d := if capture then (let d := d.drawNonce; d.emit (.tdo 0 (d.mgmt.nonce.getD 0))) else d
      match token with
      | some t => d.unlock (some (bytesOf t 256))
      | none => d)

/-- DBG_ACCESS: a capture shows STATUS and data of the last access, zeros until the port opens. -/
def execTapDbgAccess (s : State) : Out :=
  tapStep s (fun d =>
    let d := (d.setIr 0 0x21).setIr 1 0x21
    d.emit (.tdo 0 (if d.debugOpen then d.tap.res.1 * 2 ^ 80 + d.tap.res.2 else 0)))

end Sys2Proof.Machine
end

