-- ==== Sys2Proof/Machine/Bus.lean ====
section
/-! DEFINITION. Register accesses (R11, R17, R18, R29, R39, R372, R527): by functions, cores, queues and the debug port. -/
namespace Sys2Proof.Machine
open Sys2Proof

/-! ### Command registers -/

/-- A write of a register that starts a command of the half-common and device blocks: its effect, none for another register. -/
def Dev.devCmd (d : Dev) (who : Requester) (x : Site) (v : Nat) : Option Dev :=
  let r := x.reg
  let op := v / 2 ^ 29 % 8
  let t := v % 2 ^ 24
  if r == DARN_CMD then
    some (match op with
      | 1 => d.darnRetireCore t
      | 2 => d.darnRetireCluster t
      | 3 => d.darnRetireLink t
      | 4 => d.darnRepairRow t
      | 5 => d.darnRepairCol t
      | 6 => d.darnCommit t
      | _ => d.darnCmdW (fun d => d))
  else if r == CHK_REH_CMD then
    some (match op with
      | 1 => d.rehRunCore (v / 2 ^ 16 % 2 ^ 12) (v % 2 ^ 16)
      | 2 => d.rehRunCluster (v / 2 ^ 16 % 2 ^ 12) (v % 2 ^ 16)
      | 3 => d.rehStop
      | _ => d.rehCmd (fun d => d))
  else if r == CHK_Qp_DB then some (d.chkDoorbell x.i who v)
  else if r == COLL_Qp_DB then some (d.collDoorbell x.u x.i who v)
  else if r == FAB_TIME_CMD then some (if v.testBit 31 then d.stepTime (signed 64 (d.rd FAB_TIME_STEP.NS)) else d)
  else if r == FAB_AGREE_CMD then
    some (match op with
      | 1 => d.agreeJoin v false
      | 2 => d.agreeJoin v true
      | 3 => d.agreeLeave v
      | 4 => d.agreeForget v
      | _ => d.agreeCmd v (fun _ d => d))
  else if r == PART_CMD then
    some (match op with
      | 1 => d.partTenantReset (v % 2 ^ 12)
      | 2 => d.partPartitionReset (v % 2 ^ 12)
      | 3 => d.partReload (v % 2 ^ 12)
      | _ => d.partCmd (fun d => d))
  else if r == SEQ_RST_ARM then some { d with armed := v % 2 ^ 16 == 0x5EA7 }
  else if r == SEQ_RST_CMD then
    some (match op with
      | 1 => d.rstCore (v % 2 ^ 12)
      | 2 => d.rstCluster (v % 2 ^ 12)
      | 3 => d.armedCmd false (fun d => (d.rstResult 0 0).warmGo 1 [] [])
      | 4 => d.armedCmd true (fun d => d.coldGo 2 [] d.bootSame)
      | _ => d.rstCmd (fun d => d))
  else if r == SEQ_EPOCH_CMD then
    some (match v / 2 ^ 30 % 4 with
      | 1 => d.epochSwitch
      | 2 => d.epochDiscard
      | _ => d)
  else if r == MGT_UPD_CMD then
    some (match op with
      | 1 => d.updWrite
      | 2 => d.updCancel
      | _ => d.imgCmd (fun d => d))
  else if r == MGT_RB_CMD then some (d.rbCmd v true true)
  else if r == MGT_DBG_CMD then
    some (match op with
      | 1 => d.dbgCmd Dev.drawNonce
      | 2 => d.dbgUnlock
      | _ => d.dbgCmd (fun d => d))
  else none

/-- The same for the blocks of ports, clusters and cores. -/
def Dev.unitCmd (d : Dev) (who : Requester) (x : Site) (v : Nat) : Option Dev :=
  let r := x.reg
  let u := x.u
  let op := v / 2 ^ 29 % 8
  if r == FPORT_TE_DB then some (d.teDoorbell (u / 4) who v)
  else if r == FPORT_TE_CMD then
    some (match op with
      | 1 => d.teOpen (u / 4) v
      | 2 => d.teClose (u / 4) v
      | 3 => d.teAbort (u / 4) v
      | 4 => d.teFree (u / 4) v
      | 5 => d.teProbe (u / 4) v
      | _ => d.teCmd (u / 4) v (fun _ d => d))
  else if r == CL_CACHE_CMD then
    some (match op with
      | 1 => d.wbAll u
      | 2 => d.preload u (v % 16)
      | 3 => d.unpinCmd u (v % 16)
      | 4 => d.wbSliceCmd u (v / 16 % 16)
      | _ => d.cacheNop u)
  else if r == CL_CUE_CMD then
    some (match op with
      | 1 => d.cueCmdInit u (v % 64) (v.testBit 6)
      | 2 => d.cueCmdFree u (v % 64)
      | 3 => d.cueCmdBreak u (v % 64)
      | 4 => d.cueCmdSignal u (v % 64)
      | _ => d.cueCmdNop u)
  else if r == CORE_DMA_CHn_CMD then
    some (match v % 4 with
      | 1 => d.dmaResume u x.i false
      | 2 => d.dmaResume u x.i true
      | _ => d)
  else if r == CORE_SLC_TEST_CMD then
    let un := v.testBit 28
    let layer := v / 2 ^ 25 % 8
    let bank := v / 2 ^ 21 % 16
    let sel := v / 2 ^ 16 % 32
    let word := v % 64
    let d := if 16 < sel then d.noteClamp x.addr else d
    some (match op with
      | 1 => d.rawRd u un layer bank (min 16 sel) word
      | 2 => d.rawWr u un layer bank (min 16 sel) word
      | 3 => d.decRd u un layer bank (min 16 sel) word
      | 4 => d.testMarkRow u un
      | 5 => d.fixLane u
      | _ => d.testNop u)
  else none

/-! ### Accesses to a register -/

/-- A register of a unit inside a Curtain, outside the pages that stay readable for disabled units (R527). -/
def Dev.siteCurtained (d : Dev) (x : Site) : Bool :=
  match x.reg.scope with
  | .core => decide (0x800 ≤ x.reg.off) && decide (x.reg.off < 0x3000) && d.coreCurtained x.u
  | .cluster => (x.reg.off / 0x1000 == 1 || x.reg.off / 0x1000 == 2 || decide (0x5000 ≤ x.reg.off)) && d.clusterCurtained x.u
  | _ => false

/-- A write of the bits `m` of a register takes effect. -/
def Dev.siteWrite (d : Dev) (who : Requester) (x : Site) (v m : Nat) : Dev :=
  if d.unitOff x then d
  else if d.siteCurtained x then d.wr SEQ_STAT.ACCESS_LOST 1
  else if isMgt x.reg && !d.mayManage who then d
  else
    match (d.devCmd who x v).or (d.unitCmd who x v) with
    | some d => d
    | none => d.plainWrite who x v m

/-- The whole value of a register. -/
def Dev.siteRead (d : Dev) (x : Site) : Nat × Dev :=
  if d.unitOff x then (0, d)
  else if d.siteCurtained x then (0, d.wr SEQ_STAT.ACCESS_LOST 1)
  else d.readWhole x.fs x.u x.i x.j

/-- The RC fields with a bit in word `w` clear; `w` 2 means both words. -/
def Dev.clearRc (d : Dev) (x : Site) (w : Nat) : Dev :=
  if d.unitOff x || d.siteCurtained x then d
  else x.fs.foldl (fun d f => if f.acc == .rc && (w == 2 || f.lo / 32 == w) then d.wr f 0 x.u x.i x.j else d) d

/-- A 32-bit read of one word (R17). -/
def Dev.readWord32 (d : Dev) (who : Requester) (x : Site) : Nat × Dev :=
  let taken : Option (Requester × Nat × Nat) :=
    if x.word = 1 then d.capt.find? (fun (e : Requester × Nat × Nat) => e.1 == who && e.2.1 == x.addr) else none
  let rest := d.capt.filter (fun (e : Requester × Nat × Nat) => !(e.1 == who && e.2.1 == x.addr))
  match taken with
  | some e => (e.2.2, { d with capt := rest })
  | none =>
    let r := d.siteRead x
    let d := r.2.clearRc x x.word
    if x.word = 1 then (r.1 / 2 ^ 32, d)
    else
      (r.1 % 2 ^ 32, if x.reg.wide then { d with capt := rest ++ [(who, x.addr, r.1 / 2 ^ 32)] } else d)

/-- A read of 1, 2, 4 or 8 bytes at an aligned BAR0 offset (R17, R18, R39). -/
def Dev.barRead (d : Dev) (who : Requester) (a n : Nat) : Nat × Dev :=
  let word := fun (d : Dev) (a : Nat) =>
    match siteAt a with
    | some x => d.readWord32 who x
    | none => (0, d)
  match n with
  | 4 => word d a
  | 8 =>
    match siteAt a with
    | some x =>
      if x.reg.wide && x.word == 0 then (let r := d.siteRead x; (r.1, r.2.clearRc x 2))
      else (let lo := d.readWord32 who x
            let hi := word lo.2 (a + 4)
            (lo.1 + hi.1 * 2 ^ 32, hi.2))
    | none => (let hi := word d (a + 4); (hi.1 * 2 ^ 32, hi.2))
  | _ =>
    match siteAt (a - a % 4) with
    | some x => (let r := d.siteRead x; (r.1 / 2 ^ (32 * x.word) / 2 ^ (8 * (a % 4)) % 2 ^ (8 * n), r.2))
    | none => (0, d)

/-- A 32-bit write of one word. -/
def Dev.writeWord32 (d : Dev) (who : Requester) (a v : Nat) : Dev :=
  match siteAt a with
  | none => d
  | some x =>
    let r := d.wordWrite who x (v % 2 ^ 32)
    match r.1 with
    | some (v, m) => r.2.siteWrite who x v m
    | none => r.2

/-- A write of 1, 2, 4 or 8 bytes at an aligned BAR0 offset. -/
def Dev.barWrite (d : Dev) (who : Requester) (a n v : Nat) : Dev :=
  match n with
  | 4 => d.writeWord32 who a v
  | 8 =>
    match siteAt a with
    | some x =>
      if x.reg.wide && x.word == 0 then
        { d with held := d.held.filter (fun (e : Requester × Nat × Nat) => e.1 != who) }.siteWrite who x (v % 2 ^ 64) (2 ^ 64 - 1)
      else (d.writeWord32 who a v).writeWord32 who (a + 4) (v / 2 ^ 32)
    | none => d.writeWord32 who (a + 4) (v / 2 ^ 32)
  | _ => d

/-! ### MSI-X tables (R445, R448) -/

/-- Where a function's access falls in its own MSI-X table: the word of the table; none elsewhere. -/
def msixWord (func a : Nat) : Option Nat :=
  if func < 2 then
    let o := a - (0x100000 + func * 0x100000 + 0x10000)
    if 0x118000 + func * 0x100000 ≤ a ∧ o < 0x9000 then some ((o - 0x8000) / 4) else none
  else if 0x800 ≤ a ∧ a < 0x900 then some ((a - 0x800) / 4) else none

/-- A table word; a vector starts masked. -/
def Dev.msixRd (d : Dev) (func w : Nat) : Nat := FMap.get d.msix (if w % 4 = 3 then 1 else 0) (func * 4096 + w)

def Dev.msixWr (d : Dev) (func w v : Nat) : Dev :=
  let v := if w % 4 = 3 then v % 2 else if w % 4 = 0 then v % 2 ^ 32 / 4 * 4 else v % 2 ^ 32
  { d with msix := FMap.set d.msix (func * 4096 + w) v }

/-- A function's access of 4 or 8 bytes to its table. -/
def Dev.msixAccess (d : Dev) (func w n : Nat) (wr : Option Nat) : Nat × Dev :=
  match wr with
  | some v =>
    if n = 4 then (0, d.msixWr func w v)
    else if n = 8 then (0, (d.msixWr func w v).msixWr func (w + 1) (v / 2 ^ 32))
    else (0, d)
  | none => (d.msixRd func w + (if n = 8 then d.msixRd func (w + 1) * 2 ^ 32 else 0), d)

/-- BAR0 of a virtual function: VF_WIN, and reserved offsets. -/
def Dev.vfAccess (d : Dev) (func a n : Nat) (wr : Option Nat) : Nat × Dev :=
  match wr with
  | some v => (0, if a = 0 ∧ 4 ≤ n then { d with vfWin := FMap.set d.vfWin (func - 2) (v % 8) } else d)
  | none => (if a = 0 then FMap.get d.vfWin 0 (func - 2) else 0, d)

/-! ### Requesters -/

/-- The half by which a requester's access enters. -/
def Dev.entryHalf (d : Dev) : Requester → Nat
  | .fn f => d.funcHalf f
  | .core c => coreHalf c
  | .queue h _ => h
  | .preset => 0
  | .debug => 0

/-- Partition protection of a register DA (R446, R453), in the bank that the request carries. -/
def Dev.regAllowed (d : Dev) (who : Requester) (da : Nat) (write : Bool) (bank : Option Nat := none) : Bool × Dev :=
  match who with
  | .core c => d.protCoreAt (bank.getD (d.epochBank (coreHalf c))) c da write
  | .queue h q =>
    let e := d.tenantEntry (d.qpTenant (h * 1024 + q))
    match e.1 with
    | some v => e.2.prot h (some (tenPart v)) da write
    | none => (false, e.2)
  | _ => (true, d)

/-- The route to a register of a cluster or core is down: the access completes LOST (R312, R369). -/
def Dev.regRouteLost (d : Dev) (who : Requester) (a : Nat) : Bool :=
  decide (0x1000000 ≤ a) &&
    match who with
    | .core c => d.meshLost (coreCluster c) ((a - 0x1000000) / 0x80000)
    | _ => d.halfLost (d.entryHalf who) ((a - 0x1000000) / 0x80000)

/-- The register offset at which an access of half `h` is served (R379). -/
def Dev.seenOff (d : Dev) (h a : Nat) : Nat :=
  if 0x1000000 ≤ a then 0x1000000 + d.seenAt h ((a - 0x1000000) / 0x80000) * 0x80000 + (a - 0x1000000) % 0x80000 else a

/-- An access of `n` bytes at a register DA: the value read, none for an error completion (R28, R29, R373). -/
def Dev.regAccess (d : Dev) (who : Requester) (da n : Nat) (wr : Option Nat) (bank : Option Nat := none) : Option Nat × Dev :=
  let off := da % 2 ^ 28
  let a := off - off % n
  let fail := fun (cls : Nat) (d : Dev) => d.err cls (if wr.isSome then 2 else 1) (reqUnit who) da
  if da / 2 ^ 28 ≠ 2 ^ 19 then (none, fail 3 d)
  else
    let p := d.regAllowed who da wr.isSome bank
    let d := p.2
    if !p.1 then (none, fail 3 d)
    else if d.ctrlDown && decide (a < 0x100000) && halfOf a != d.entryHalf who then (none, fail 4 d)
    else if d.regRouteLost who a then (none, fail 4 d)
    else
      let a := d.seenOff (d.entryHalf who) a
      match wr with
      | some v => (some 0, d.barWrite who a n v)
      | none => (let r := d.barRead who a n; (some r.1, r.2))

/-- A function's access to its BAR0: refused before READY (R507). -/
def Dev.fnAccess (d : Dev) (func a n : Nat) (wr : Option Nat) : Option Nat × Dev :=
  let a := a - a % n
  if !d.bit SEQ_STAT.READY then (none, d)
  else
    match msixWord func (if func < 2 then a % 2 ^ 28 else a % 4096) with
    | some w => (let r := d.msixAccess func w n wr; (some r.1, r.2))
    | none =>
      if func < 2 then d.regAccess (.fn func) (2 ^ 47 + a % 2 ^ 28) n wr
      else (let r := d.vfAccess func (a % 4096) n wr; (some r.1, r.2))

/-- A register access by any requester at a BAR0 offset, with its answer. -/
def Dev.access (d : Dev) (who : Requester) (a n : Nat) (wr : Option Nat) : Dev :=
  let go := fun (r : Option Nat × Dev) =>
    match r.1, wr with
    | some v, none => r.2.emit (.regData who a n v)
    | some _, some _ => r.2
    | none, none => r.2.emit (.errCompletion who a)
    | none, some _ => match who with
      | .fn _ => r.2
      | _ => r.2.emit (.errCompletion who a)
  match who with
  | .fn f => go (d.fnAccess (f % 66) a n wr)
  | .preset => d
  | .debug => if d.debugOpen then go (d.regAccess .debug (2 ^ 47 + a % 2 ^ 28) n wr) else d
  | .core _ => go (d.regAccess who (2 ^ 47 + a % 2 ^ 28) n wr)
  | .queue _ _ => go (d.regAccess who (2 ^ 47 + a % 2 ^ 28) n wr)

/-- 1, 2, 4 or 8 bytes. -/
def accessBytes (n : Nat) : Nat := if n = 1 ∨ n = 2 ∨ n = 8 then n else 4

/-- The word of a 64-bit register at an offset: 0 low, 1 high; none elsewhere. -/
def wideWord (a : Nat) : Option Nat :=
  match siteAt (a - a % 4) with
  | some x => if x.reg.wide then some x.word else none
  | none => none

/-! ### Rows -/

/-- A 32-bit or 64-bit write. -/
def execRegisterWrite (who : Requester) (a n v : Nat) (s : State) : Out :=
  act s (fun d => d.access who a (if n = 8 then 8 else 4) (some v))

/-- A read of 1, 2, 4 or 8 bytes; one of 4 or 8 clears the RC fields it covers. -/
def execRcFieldRead (who : Requester) (a n : Nat) (s : State) : Out :=
  act s (fun d => d.access who a (accessBytes n) none)

def execLowWordRead (who : Requester) (a : Nat) (s : State) : Out :=
  act s (fun d => if wideWord a = some 0 then d.access who a 4 none else d)

def execLowWordWrite (who : Requester) (a v : Nat) (s : State) : Out :=
  act s (fun d => if wideWord a = some 0 then d.access who a 4 (some v) else d)

def execHighWordWrite (who : Requester) (a v : Nat) (s : State) : Out :=
  act s (fun d => if wideWord a = some 1 then d.access who a 4 (some v) else d)

def execNarrowRegisterWrite (who : Requester) (a n v : Nat) (s : State) : Out :=
  act s (fun d => d.access who a (if n = 2 then 2 else 1) (some v))

/-- An access that enters one half and is served in the home half of its block. -/
def execForwardedAccess (who : Requester) (a n : Nat) (wr : Option Nat) (s : State) : Out :=
  act s (fun d =>
    if a % 2 ^ 28 < 0x100000 ∧ halfOf (a % 2 ^ 28) ≠ d.entryHalf who then d.access who a (accessBytes n) wr else d)

/-- The REG access of core `c` completes (R91). -/
def regComplete (c : Nat) (d : Dev) : Dev :=
  match (d.core c).wait with
  | .reg write wide da val rd bank =>
    let r := d.regAccess (.core c) da (if wide then 8 else 4) (if write then some val else none) (some bank)
    let d := r.2
    match (d.core c).wait with
    | .reg _ _ _ _ _ _ =>
      (match r.1 with
       | none => d.endWaitTrap c 8 da
       | some v => ((if write then d else d.setS c rd (BitVec.ofNat 64 v)).retire c).endWait c)
    | _ => d
  | _ => d

def execRegAccessComplete (c : Nat) (s : State) : Out := act s (regComplete c)

/-- REGW and REGR: an error completion ends the command ACCESS. -/
def Dev.hqReg (d : Dev) (q part : Nat) (k : HqCmd) (wr : Option Nat) : Dev :=
  let r := d.regAccess (.queue (q / 1024) (q % 1024)) ((daOf k.rawDa).getD k.rawDa) 4 wr
  match r.1 with
  | none => r.2.hqEnd q k.num 4 0 0
  | some v => r.2.hqOk q k part v

def execHqRegw (q entry : Nat) (s : State) : Out :=
  act s (fun d => d.hqTake q entry (fun o => o == 8) (fun p k d => d.hqReg q p k (some (word32 k.entry 8))))

def execHqRegr (q entry : Nat) (s : State) : Out :=
  act s (fun d => d.hqTake q entry (fun o => o == 9) (fun p k d => d.hqReg q p k none))

/-! ### DBG_ACCESS (R601) -/

/-- STATUS and data of an access to a DA as a physical function makes it. -/
def Dev.dbgAt (d : Dev) (da : Nat) (wr : Option Nat) : (Nat × Nat) × Dev :=
  let da := da % 2 ^ 48
  if 2 ^ 47 ≤ da then
    if d.stopped && decide (0x100000 ≤ da % 2 ^ 28) then ((1, 0), d)
    else
      let r := d.regAccess .debug da 4 wr
      (match r.1 with | some v => (0, v) | none => (2, 0), r.2)
  else if d.stopped then ((1, 0), d)
  else
    let a := da - da % 4
    match d.daRefused a with
    | some cls => ((2, 0), d.err cls (if wr.isSome then 2 else 1) (reqUnit .debug) a)
    | none =>
      match wr with
      | some v => ((0, 0), d.cachedWrite a 4 (v % 2 ^ 32) none)
      | none => (let r := d.cachedRead a 4 none
                 ((if r.1.ue || r.1.poison then 2 else 0, r.1.val), r.2))

/-- One access per Update-DR while the port is open and DBG_ACCESS is selected. -/
def Dev.dbgAccess (d : Dev) (f : Dev → (Nat × Nat) × Dev) : Dev :=
  if d.debugOpen && d.irOf 0 == 0x21 && !d.dark then
    (let r := f d; r.2.updTap (fun t => { t with res := r.1 }))
  else d

def execDbgRead32 (da : Nat) (s : State) : Out := tapStep s (fun d => d.dbgAccess (fun d => d.dbgAt da none))
def execDbgWrite32 (da v : Nat) (s : State) : Out := tapStep s (fun d => d.dbgAccess (fun d => d.dbgAt da (some v)))
def execDbgAccessNop (s : State) : Out := tapStep s (fun d => d.dbgAccess (fun d => ((0, 0), d)))

end Sys2Proof.Machine
end

