-- ==== Sys2Proof/Machine/ErrLog.lean ====
section
/-! DEFINITION. The error logger (R490-R499). -/
namespace Sys2Proof.Machine
open Sys2Proof

/-! ### Where a unit lies (R31, R32) -/

def unitSel (u : Nat) : Nat := u / 2048 % 32
def unitKind (u : Nat) : Nat := u / 64 % 32

/-- A unit of a core or cluster; its global cluster number is `u / 65536`. -/
def inCluster (u : Nat) : Bool := decide (unitSel u ≤ 16)

/-- The partition of a unit, or none for device and half-common units. -/
def Dev.unitPart (d : Dev) (u : Nat) : Option Nat := if inCluster u then d.partOf (u / 65536) else none

/-- A sensor's code in a record: its latest sample with the THM_OFS of its class, 0x7FFF when that is invalid. -/
def recTemp (s : Option Sensor) (ofs : Int) : Nat :=
  match s.bind Sensor.raw with | some t => codeS 16 (t + ofs) | none => 0x7FFF

/-- TEMP of a record: the layer sensor for slice and DRAM units, the logic sensor of the cluster or of the front-end
instance. Which sensor of a half lies nearest to another unit is open. -/
def Dev.unitTemp (d : Dev) (u : Nat) : Nat × Dev :=
  let g := u / 65536
  let core := g * 16 + unitSel u
  let k := unitKind u
  let ofs := d.rdS THM_OFS.LOGIC_OFS
  if unitSel u < 16 ∧ 7 ≤ k ∧ k ≤ 10 then
    let layer := if k = 7 then 0 else if k = 8 then u % 64 / 16 else if k = 9 then 4 + u % 64 / 16 else 6 + u % 64 / 16
    (recTemp (FMap.find d.layerS (core * 8 + layer % 8)) (d.rdS THM_OFS.DRAM_OFS), d)
  else if inCluster u then
    (recTemp (FMap.find d.frontS (g / 128 * 64 + clusterX g / 2 + 8 * (clusterY g / 2))) ofs, d)
  else if k = 23 ∧ u % 64 < 32 then (recTemp (FMap.find d.frontS (u / 2 ^ 23 % 2 * 64 + u % 64)) ofs, d)
  else let r := d.draw 16; (r.1.toNat, r.2)

/-- The governed rail that supplies a unit (R539); none for what VAUX_1V8 supplies. -/
def unitRail (u : Nat) : Option Nat :=
  let k := unitKind u
  if k ≤ 6 ∨ k = 11 then some (u / 2 ^ 23 % 2)
  else if 8 ≤ k ∧ k ≤ 10 then some 3
  else if k = 18 ∨ k = 20 then some 5
  else if k = 23 ∨ 25 ≤ k then none
  else some 2

/-- VOLT of a record. -/
def Dev.unitVolt (d : Dev) (u : Nat) : Nat :=
  match unitRail u with
  | some n => if d.rd PWR_REGn_STAT.LINK 0 n = 0 then d.rd PWR_REGn_TELEM.MV 0 n else 0
  | none => 0

/-! ### Records (R490, R493, R496) -/

def Dev.recWord (d : Dev) (i w : Nat) : Nat := d.rd ERR_RECi.RECORD 0 i w
def Dev.recSeq (d : Dev) (i : Nat) : Nat := d.recWord i 7 % 2 ^ 24

/-- A register record as one number, byte 0 lowest. -/
def Dev.recVal (d : Dev) (i : Nat) : Nat := (List.range 8).foldl (fun v w => v + d.recWord i w * 2 ^ (32 * w)) 0

def Dev.setRec (d : Dev) (i v : Nat) : Dev :=
  (List.range 8).foldl (fun d w => d.wr ERR_RECi.RECORD (v / 2 ^ (32 * w)) 0 i w) d

/-- Register record `i` holds the same occurrence as a new record. -/
def Dev.recMatch (d : Dev) (r : ErrRec) (i : Nat) : Bool :=
  let v := d.recVal i
  let t := v % 2 ^ 64
  v / 2 ^ 176 % 2 ^ 16 != 0 && v / 2 ^ 64 % 2 ^ 64 == r.addr && v / 2 ^ 128 % 2 ^ 24 == r.unit &&
  v / 2 ^ 152 % 2 ^ 8 == r.cls && v / 2 ^ 160 % 2 ^ 16 == r.op && decide (r.time ≤ t + 1000000) && decide (t ≤ r.time + 1000000)

/-- The newest matching record: the one whose SEQ lies least far behind the next. -/
def Dev.recFind (d : Dev) (r : ErrRec) : Option Nat :=
  let pi := d.rd ERR_PI.SEQ
  let back := fun i => (pi + 2 ^ 24 - d.recSeq i) % 2 ^ 24
  ((List.range 16).filter (d.recMatch r)).foldl (fun m i => match m with
    | none => some i
    | some j => if back i < back j then some i else some j) none

/-- A record goes to the ring, while memory can be reached. Answers whether it did. -/
def Dev.ringWrite (d : Dev) (da v : Nat) : Bool × Dev :=
  if d.stopped || (d.daRefused da).isSome then (false, d) else (true, d.cachedWrite da 32 v none)

/-- A record merges: COUNT and MERGED, and the ring copy. -/
def Dev.recMerge (d : Dev) (i : Nat) : Dev :=
  let v := d.recVal i
  let n := v / 2 ^ 176 % 2 ^ 16
  let v := if n < 0xFFFF then v + 2 ^ 176 else v
  let v := if v.testBit 248 then v else v + 2 ^ 248
  let d := d.setRec i v
  match FMap.find d.ringed i with
  | some da => if d.bit ERR_CTRL.EN then (d.ringWrite da v).2 else d
  | none => d

/-- A record not written to the ring, or written over the oldest one: the loss counts. -/
def Dev.ringLoss (d : Dev) : Dev := (d.addSat ERR_LOST.COUNT 1).wr ERR_STAT.LOST_SEEN 1

/-- A record takes the next SEQ. -/
def Dev.recNew (d : Dev) (r : ErrRec) : Dev :=
  let t := d.unitTemp r.unit
  let d := t.2
  let seq := d.rd ERR_PI.SEQ
  let i := seq % 16
  let en := d.bit ERR_CTRL.EN
  let full := en && decide (4096 ≤ (seq + 2 ^ 24 - d.rd ERR_CI.SEQ) % 2 ^ 24)
  let overwrite := full && d.bit ERR_CTRL.OVERWRITE
  let ring := en && (!full || overwrite)
  let flag := d.dropped || overwrite || (ring && d.ringLost)
  let v := r.time % 2 ^ 64 + r.addr % 2 ^ 64 * 2 ^ 64 + r.unit % 2 ^ 24 * 2 ^ 128 + r.cls % 2 ^ 8 * 2 ^ 152 +
    r.op % 2 ^ 16 * 2 ^ 160 + 2 ^ 176 + t.1 * 2 ^ 192 + d.unitVolt r.unit * 2 ^ 208 + seq * 2 ^ 224 +
    (if flag then 2 ^ 249 else 0)
  let d := { (d.setRec i v).wr ERR_PI.SEQ (seq + 1) with dropped := false, ringed := FMap.del d.ringed i }
  let d := if overwrite then d.ringLoss else d
  let lose := fun (d : Dev) => { d.ringLoss with ringLost := true }
  let d :=
    if ring then
      let da := d.rd ERR_RING_BASE.DA * 2 ^ 17 + 32 * (seq % 4096)
      let w := d.ringWrite da v
      if w.1 then { w.2 with ringLost := false, ringed := FMap.set w.2.ringed i da } else lose w.2
    else if en then lose d else d
  d.event 1 (d.unitPart r.unit)

/-! ### The rate of uncorrectable errors (R499) -/

/-- The window's sum, and UE_RATE when it reaches LIMIT. -/
def Dev.ueCheck (d : Dev) : Dev :=
  let n := (d.ueHours.take (d.rd ERR_UE_CTRL.WINDOW)).sum
  let d := d.wr ERR_UE_COUNT.COUNT (min n (2 ^ 32 - 1))
  if d.rd ERR_UE_CTRL.LIMIT ≤ n ∧ !(d.rd ERR_SVC.CAUSE).testBit 1 then d.svc 1 else d

def Dev.ueNote (d : Dev) : Dev :=
  match d.ueHours with
  | n :: t => Dev.ueCheck { d with ueHours := (n + 1) :: t }
  | [] => Dev.ueCheck { d with ueHours := [1] }

/-- The logger takes the oldest record of its queue. -/
def errorRecord (d : Dev) : Dev :=
  match d.recs with
  | [] => d
  | r :: rest =>
    let d := { d with recs := rest }
    let d := match d.recFind r with
      | some i => d.recMerge i
      | none => d.recNew r
    if r.cls = 2 then d.ueNote else d

def execErrorRecord (s : State) : Out := ctl s errorRecord

/-- An hour ends: the oldest of 168 buckets goes. -/
def execUeRateHour (s : State) : Out :=
  ctl s (fun d => Dev.ueCheck { d with ueHours := (0 :: d.ueHours).take 168 })

end Sys2Proof.Machine
end

