-- ==== Sys2Proof/Machine/Dispatch.lean ====
section
/-! DEFINITION. One arm for each command: the call of its meaning. -/
namespace Sys2Proof.Machine
open Sys2Proof

def exec (i : Instr) (s : State) : Host.Outcome State Fault Refusal :=
  match i with
  | .registerWrite who addr n v => Sys2Proof.Machine.execRegisterWrite who addr n v s
  | .rcFieldRead who addr n => Sys2Proof.Machine.execRcFieldRead who addr n s
  | .lowWordRead who addr => Sys2Proof.Machine.execLowWordRead who addr s
  | .lowWordWrite who addr v => Sys2Proof.Machine.execLowWordWrite who addr v s
  | .highWordWrite who addr v => Sys2Proof.Machine.execHighWordWrite who addr v s
  | .narrowRegisterWrite who addr n v => Sys2Proof.Machine.execNarrowRegisterWrite who addr n v s
  | .crstNAssert => Sys2Proof.Machine.execCrstNAssert s
  | .crstNRelease b => Sys2Proof.Machine.execCrstNRelease b s
  | .joinRetryTimer => Sys2Proof.Machine.execJoinRetryTimer s
  | .joinDeadline => Sys2Proof.Machine.execJoinDeadline s
  | .seqRstArmWrite v => Sys2Proof.Machine.execSeqRstArmWrite v s
  | .armExpiry => Sys2Proof.Machine.execArmExpiry s
  | .rstCore target => Sys2Proof.Machine.execRstCore target s
  | .rstCluster target => Sys2Proof.Machine.execRstCluster target s
  | .rstWarm fails verify => Sys2Proof.Machine.execRstWarm fails verify s
  | .rstCold verify b => Sys2Proof.Machine.execRstCold verify b s
  | .rstNop => Sys2Proof.Machine.execRstNop s
  | .warmResetContinue fails => Sys2Proof.Machine.execWarmResetContinue fails s
  | .curtainLower scope => Sys2Proof.Machine.execCurtainLower scope s
  | .epochSwitch => Sys2Proof.Machine.execEpochSwitch s
  | .epochDiscard => Sys2Proof.Machine.execEpochDiscard s
  | .epochNop => Sys2Proof.Machine.execEpochNop s
  | .prepare h => Sys2Proof.Machine.execPrepare h s
  | .commitReady => Sys2Proof.Machine.execCommitReady s
  | .commitAbort => Sys2Proof.Machine.execCommitAbort s
  | .flip => Sys2Proof.Machine.execFlip s
  | .flipped => Sys2Proof.Machine.execFlipped s
  | .epochDrainEnd h => Sys2Proof.Machine.execEpochDrainEnd h s
  | .drained => Sys2Proof.Machine.execDrained s
  | .commitCancel => Sys2Proof.Machine.execCommitCancel s
  | .commitTimeout => Sys2Proof.Machine.execCommitTimeout s
  | .ctrlHeartbeat h => Sys2Proof.Machine.execCtrlHeartbeat h s
  | .forwardedAccess who addr n wr => Sys2Proof.Machine.execForwardedAccess who addr n wr s
  | .ctrlChannelLost => Sys2Proof.Machine.execCtrlChannelLost s
  | .seamIdleFrame h x lag cred => Sys2Proof.Machine.execSeamIdleFrame h x lag cred s
  | .seamDataFrame h x o lag cred => Sys2Proof.Machine.execSeamDataFrame h x o lag cred s
  | .seamBadFrame h x f noise => Sys2Proof.Machine.execSeamBadFrame h x f noise s
  | .seamNakFrame h x cred => Sys2Proof.Machine.execSeamNakFrame h x cred s
  | .seamTrainFrame h x lane errs => Sys2Proof.Machine.execSeamTrainFrame h x lane errs s
  | .seamPortDown h x => Sys2Proof.Machine.execSeamPortDown h x s
  | .seamLoopWrite h v => Sys2Proof.Machine.execSeamLoopWrite h v s
  | .meshFlitReceive g l crcOk => Sys2Proof.Machine.execMeshFlitReceive g l crcOk s
  | .meshLinkDown g l => Sys2Proof.Machine.execMeshLinkDown g l s
  | .coreStart c v => Sys2Proof.Machine.execCoreStart c v s
  | .programLoadDone c => Sys2Proof.Machine.execProgramLoadDone c s
  | .haltReq c v => Sys2Proof.Machine.execHaltReq c v s
  | .resume c v => Sys2Proof.Machine.execResume c v s
  | .coreSeqTenantWrite c v => Sys2Proof.Machine.execCoreSeqTenantWrite c v s
  | .haltDrainDone c => Sys2Proof.Machine.execHaltDrainDone c s
  | .ifetchUe c => Sys2Proof.Machine.execIfetchUe c s
  | .illegal c => Sys2Proof.Machine.execIllegal c s
  | .add c => Sys2Proof.Machine.execAdd c s
  | .sub c => Sys2Proof.Machine.execSub c s
  | .and c => Sys2Proof.Machine.execAnd c s
  | .or c => Sys2Proof.Machine.execOr c s
  | .xor c => Sys2Proof.Machine.execXor c s
  | .sll c => Sys2Proof.Machine.execSll c s
  | .srl c => Sys2Proof.Machine.execSrl c s
  | .sra c => Sys2Proof.Machine.execSra c s
  | .slt c => Sys2Proof.Machine.execSlt c s
  | .sltu c => Sys2Proof.Machine.execSltu c s
  | .min c => Sys2Proof.Machine.execMin c s
  | .max c => Sys2Proof.Machine.execMax c s
  | .minu c => Sys2Proof.Machine.execMinu c s
  | .maxu c => Sys2Proof.Machine.execMaxu c s
  | .mul c => Sys2Proof.Machine.execMul c s
  | .mulh c => Sys2Proof.Machine.execMulh c s
  | .mulhu c => Sys2Proof.Machine.execMulhu c s
  | .div c => Sys2Proof.Machine.execDiv c s
  | .divu c => Sys2Proof.Machine.execDivu c s
  | .rem c => Sys2Proof.Machine.execRem c s
  | .remu c => Sys2Proof.Machine.execRemu c s
  | .clz c => Sys2Proof.Machine.execClz c s
  | .popc c => Sys2Proof.Machine.execPopc c s
  | .liw c => Sys2Proof.Machine.execLiw c s
  | .ld8u c => Sys2Proof.Machine.execLd8u c s
  | .ld8s c => Sys2Proof.Machine.execLd8s c s
  | .ld16u c => Sys2Proof.Machine.execLd16u c s
  | .ld16s c => Sys2Proof.Machine.execLd16s c s
  | .ld32u c => Sys2Proof.Machine.execLd32u c s
  | .ld32s c => Sys2Proof.Machine.execLd32s c s
  | .ld64 c => Sys2Proof.Machine.execLd64 c s
  | .st8 c => Sys2Proof.Machine.execSt8 c s
  | .st16 c => Sys2Proof.Machine.execSt16 c s
  | .st32 c => Sys2Proof.Machine.execSt32 c s
  | .st64 c => Sys2Proof.Machine.execSt64 c s
  | .rld32 c => Sys2Proof.Machine.execRld32 c s
  | .rst32 c => Sys2Proof.Machine.execRst32 c s
  | .rld64 c => Sys2Proof.Machine.execRld64 c s
  | .rst64 c => Sys2Proof.Machine.execRst64 c s
  | .regAccessComplete c => Sys2Proof.Machine.execRegAccessComplete c s
  | .beq c => Sys2Proof.Machine.execBeq c s
  | .bne c => Sys2Proof.Machine.execBne c s
  | .blt c => Sys2Proof.Machine.execBlt c s
  | .bge c => Sys2Proof.Machine.execBge c s
  | .bltu c => Sys2Proof.Machine.execBltu c s
  | .bgeu c => Sys2Proof.Machine.execBgeu c s
  | .jal c => Sys2Proof.Machine.execJal c s
  | .jr c => Sys2Proof.Machine.execJr c s
  | .loop c => Sys2Proof.Machine.execLoop c s
  | .dld c => Sys2Proof.Machine.execDld c s
  | .dst c => Sys2Proof.Machine.execDst c s
  | .dsetb c => Sys2Proof.Machine.execDsetb c s
  | .daddb c => Sys2Proof.Machine.execDaddb c s
  | .dsetw c => Sys2Proof.Machine.execDsetw c s
  | .dgetw c => Sys2Proof.Machine.execDgetw c s
  | .msend c => Sys2Proof.Machine.execMsend c s
  | .mrecv c => Sys2Proof.Machine.execMrecv c s
  | .mpoll c => Sys2Proof.Machine.execMpoll c s
  | .msgArrive src n ue => Sys2Proof.Machine.execMsgArrive src n ue s
  | .msgAck c num => Sys2Proof.Machine.execMsgAck c num s
  | .msgNack c num => Sys2Proof.Machine.execMsgNack c num s
  | .msgBackoffExpiry c num => Sys2Proof.Machine.execMsgBackoffExpiry c num s
  | .dmaq c => Sys2Proof.Machine.execDmaq c s
  | .dmac c => Sys2Proof.Machine.execDmac c s
  | .dmaw c => Sys2Proof.Machine.execDmaw c s
  | .dmas c => Sys2Proof.Machine.execDmas c s
  | .dmar c => Sys2Proof.Machine.execDmar c s
  | .dmaCopy c ch => Sys2Proof.Machine.execDmaCopy c ch s
  | .dmaFill c ch => Sys2Proof.Machine.execDmaFill c ch s
  | .dmaMark c ch => Sys2Proof.Machine.execDmaMark c ch s
  | .dmaResponse c ch => Sys2Proof.Machine.execDmaResponse c ch s
  | .dmaChanRestart c ch => Sys2Proof.Machine.execDmaChanRestart c ch s
  | .dmaChanDiscard c ch => Sys2Proof.Machine.execDmaChanDiscard c ch s
  | .dmaChanNop c ch => Sys2Proof.Machine.execDmaChanNop c ch s
  | .fence c => Sys2Proof.Machine.execFence c s
  | .fenceRelease c => Sys2Proof.Machine.execFenceRelease c s
  | .nop c => Sys2Proof.Machine.execNop c s
  | .halt c => Sys2Proof.Machine.execHalt c s
  | .trap c => Sys2Proof.Machine.execTrap c s
  | .tret c => Sys2Proof.Machine.execTret c s
  | .rdsys c => Sys2Proof.Machine.execRdsys c s
  | .setmode c => Sys2Proof.Machine.execSetmode c s
  | .mmacIndependent c => Sys2Proof.Machine.execMmacIndependent c s
  | .mmacPacked c => Sys2Proof.Machine.execMmacPacked c s
  | .mmacGanged c => Sys2Proof.Machine.execMmacGanged c s
  | .mmacComplete c fx => Sys2Proof.Machine.execMmacComplete c fx s
  | .mcks c => Sys2Proof.Machine.execMcks c s
  | .vadd c => Sys2Proof.Machine.execVadd c s
  | .vsub c => Sys2Proof.Machine.execVsub c s
  | .vmul c => Sys2Proof.Machine.execVmul c s
  | .vfma c => Sys2Proof.Machine.execVfma c s
  | .vmin c => Sys2Proof.Machine.execVmin c s
  | .vmax c => Sys2Proof.Machine.execVmax c s
  | .vcmplt c => Sys2Proof.Machine.execVcmplt c s
  | .vcmple c => Sys2Proof.Machine.execVcmple c s
  | .vcmpeq c => Sys2Proof.Machine.execVcmpeq c s
  | .viadd c => Sys2Proof.Machine.execViadd c s
  | .visub c => Sys2Proof.Machine.execVisub c s
  | .vimul c => Sys2Proof.Machine.execVimul c s
  | .vimin c => Sys2Proof.Machine.execVimin c s
  | .vimax c => Sys2Proof.Machine.execVimax c s
  | .vand c => Sys2Proof.Machine.execVand c s
  | .vor c => Sys2Proof.Machine.execVor c s
  | .vxor c => Sys2Proof.Machine.execVxor c s
  | .vshl c => Sys2Proof.Machine.execVshl c s
  | .vsra c => Sys2Proof.Machine.execVsra c s
  | .exp2 c => Sys2Proof.Machine.execExp2 c s
  | .exp c => Sys2Proof.Machine.execExp c s
  | .log2 c => Sys2Proof.Machine.execLog2 c s
  | .log c => Sys2Proof.Machine.execLog c s
  | .rcp c => Sys2Proof.Machine.execRcp c s
  | .sqrt c => Sys2Proof.Machine.execSqrt c s
  | .rsqrt c => Sys2Proof.Machine.execRsqrt c s
  | .tanh c => Sys2Proof.Machine.execTanh c s
  | .sigmoid c => Sys2Proof.Machine.execSigmoid c s
  | .silu c => Sys2Proof.Machine.execSilu c s
  | .gelu c => Sys2Proof.Machine.execGelu c s
  | .sinpi c => Sys2Proof.Machine.execSinpi c s
  | .cospi c => Sys2Proof.Machine.execCospi c s
  | .rsum c => Sys2Proof.Machine.execRsum c s
  | .rsumsq c => Sys2Proof.Machine.execRsumsq c s
  | .rmax c => Sys2Proof.Machine.execRmax c s
  | .rmin c => Sys2Proof.Machine.execRmin c s
  | .rmaxabs c => Sys2Proof.Machine.execRmaxabs c s
  | .rdot c => Sys2Proof.Machine.execRdot c s
  | .vmov c => Sys2Proof.Machine.execVmov c s
  | .vcvt c => Sys2Proof.Machine.execVcvt c s
  | .vfill c => Sys2Proof.Machine.execVfill c s
  | .vabs c => Sys2Proof.Machine.execVabs c s
  | .vneg c => Sys2Proof.Machine.execVneg c s
  | .vrot c => Sys2Proof.Machine.execVrot c s
  | .vectorReadStart c => Sys2Proof.Machine.execVectorReadStart c s
  | .vectorComplete c => Sys2Proof.Machine.execVectorComplete c s
  | .sqopen c => Sys2Proof.Machine.execSqopen c s
  | .sqadmit c => Sys2Proof.Machine.execSqadmit c s
  | .sqcommit c => Sys2Proof.Machine.execSqcommit c s
  | .sqtrim c => Sys2Proof.Machine.execSqtrim c s
  | .sqclose c => Sys2Proof.Machine.execSqclose c s
  | .sqevict c => Sys2Proof.Machine.execSqevict c s
  | .sqget c => Sys2Proof.Machine.execSqget c s
  | .sqset c => Sys2Proof.Machine.execSqset c s
  | .sqpage c => Sys2Proof.Machine.execSqpage c s
  | .seqAgentRequest c => Sys2Proof.Machine.execSeqAgentRequest c s
  | .seqStatusReturn c => Sys2Proof.Machine.execSeqStatusReturn c s
  | .sqadmitWake c => Sys2Proof.Machine.execSqadmitWake c s
  | .kvld c => Sys2Proof.Machine.execKvld c s
  | .kvldSegment c ch => Sys2Proof.Machine.execKvldSegment c ch s
  | .apos c => Sys2Proof.Machine.execApos c s
  | .arope c => Sys2Proof.Machine.execArope c s
  | .amask c => Sys2Proof.Machine.execAmask c s
  | .asmx c => Sys2Proof.Machine.execAsmx c s
  | .asfin c => Sys2Proof.Machine.execAsfin c s
  | .asrec c => Sys2Proof.Machine.execAsrec c s
  | .pwr c => Sys2Proof.Machine.execPwr c s
  | .prd c => Sys2Proof.Machine.execPrd c s
  | .pclr c => Sys2Proof.Machine.execPclr c s
  | .pdot c => Sys2Proof.Machine.execPdot c s
  | .pcol c => Sys2Proof.Machine.execPcol c s
  | .pmark c => Sys2Proof.Machine.execPmark c s
  | .pfence c => Sys2Proof.Machine.execPfence c s
  | .pimDispatch c num => Sys2Proof.Machine.execPimDispatch c num s
  | .pimResume c num => Sys2Proof.Machine.execPimResume c num s
  | .pimComplete c num perr => Sys2Proof.Machine.execPimComplete c num perr s
  | .sliceRead who da n flips again slot cut => Sys2Proof.Machine.execSliceRead who da n flips again slot cut s
  | .sliceWrite who da n v chk => Sys2Proof.Machine.execSliceWrite who da n v chk s
  | .rowCopyDone n key => Sys2Proof.Machine.execRowCopyDone n key s
  | .laneFailing n lane => Sys2Proof.Machine.execLaneFailing n lane s
  | .laneIntervalEnd n => Sys2Proof.Machine.execLaneIntervalEnd n s
  | .layerTempSample n layer temp => Sys2Proof.Machine.execLayerTempSample n layer temp s
  | .refresh n layer bank row => Sys2Proof.Machine.execRefresh n layer bank row s
  | .patrolScrub w flips again slot last => Sys2Proof.Machine.execPatrolScrub w flips again slot last s
  | .adderOp n => Sys2Proof.Machine.execAdderOp n s
  | .testNop n => Sys2Proof.Machine.execTestNop n s
  | .rawRd n unmapped layer bank rowsel word => Sys2Proof.Machine.execRawRd n unmapped layer bank rowsel word s
  | .rawWr n unmapped layer bank rowsel word => Sys2Proof.Machine.execRawWr n unmapped layer bank rowsel word s
  | .decRd n unmapped layer bank rowsel word => Sys2Proof.Machine.execDecRd n unmapped layer bank rowsel word s
  | .markRow n unmapped => Sys2Proof.Machine.execMarkRow n unmapped s
  | .fixLane n => Sys2Proof.Machine.execFixLane n s
  | .testCmdDone n => Sys2Proof.Machine.execTestCmdDone n s
  | .cacheRead who da n hint err flip => Sys2Proof.Machine.execCacheRead who da n hint err flip s
  | .cacheWrite who da n v hint err flip => Sys2Proof.Machine.execCacheWrite who da n v hint err flip s
  | .cacheFillDone g num => Sys2Proof.Machine.execCacheFillDone g num s
  | .aadd c => Sys2Proof.Machine.execAadd c s
  | .amin c => Sys2Proof.Machine.execAmin c s
  | .amax c => Sys2Proof.Machine.execAmax c s
  | .aminu c => Sys2Proof.Machine.execAminu c s
  | .amaxu c => Sys2Proof.Machine.execAmaxu c s
  | .aand c => Sys2Proof.Machine.execAand c s
  | .aor c => Sys2Proof.Machine.execAor c s
  | .axor c => Sys2Proof.Machine.execAxor c s
  | .aswap c => Sys2Proof.Machine.execAswap c s
  | .acas c => Sys2Proof.Machine.execAcas c s
  | .afadd c => Sys2Proof.Machine.execAfadd c s
  | .ahadd c => Sys2Proof.Machine.execAhadd c s
  | .lred c => Sys2Proof.Machine.execLred c s
  | .cwb c => Sys2Proof.Machine.execCwb c s
  | .atomExecute c num err flip => Sys2Proof.Machine.execAtomExecute c num err flip s
  | .atomResult c num => Sys2Proof.Machine.execAtomResult c num s
  | .wbAll g => Sys2Proof.Machine.execWbAll g s
  | .preload g win => Sys2Proof.Machine.execPreload g win s
  | .unpin g win => Sys2Proof.Machine.execUnpin g win s
  | .wbSlice g slice => Sys2Proof.Machine.execWbSlice g slice s
  | .cacheCmdNop g => Sys2Proof.Machine.execCacheCmdNop g s
  | .cacheCmdDone g => Sys2Proof.Machine.execCacheCmdDone g s
  | .signal c => Sys2Proof.Machine.execSignal c s
  | .wait c => Sys2Proof.Machine.execWait c s
  | .take c => Sys2Proof.Machine.execTake c s
  | .trywait c => Sys2Proof.Machine.execTrywait c s
  | .arm c => Sys2Proof.Machine.execArm c s
  | .cread c => Sys2Proof.Machine.execCread c s
  | .cinit c => Sys2Proof.Machine.execCinit c s
  | .cfree c => Sys2Proof.Machine.execCfree c s
  | .cueOpArrive num => Sys2Proof.Machine.execCueOpArrive num s
  | .cueReply c => Sys2Proof.Machine.execCueReply c s
  | .cueWake c => Sys2Proof.Machine.execCueWake c s
  | .cueCancel c => Sys2Proof.Machine.execCueCancel c s
  | .waitNackResend c => Sys2Proof.Machine.execWaitNackResend c s
  | .signalRefused c => Sys2Proof.Machine.execSignalRefused c s
  | .cueCmdInit g j co => Sys2Proof.Machine.execCueCmdInit g j co s
  | .cueCmdFree g j => Sys2Proof.Machine.execCueCmdFree g j s
  | .cueCmdBreak g j => Sys2Proof.Machine.execCueCmdBreak g j s
  | .cueCmdSignal g j => Sys2Proof.Machine.execCueCmdSignal g j s
  | .cueCmdNop g => Sys2Proof.Machine.execCueCmdNop g s
  | .bsync c => Sys2Proof.Machine.execBsync c s
  | .barrive c => Sys2Proof.Machine.execBarrive c s
  | .bwait c => Sys2Proof.Machine.execBwait c s
  | .bread c => Sys2Proof.Machine.execBread c s
  | .barrierArrival h n c par => Sys2Proof.Machine.execBarrierArrival h n c par s
  | .barrEnable h n v => Sys2Proof.Machine.execBarrEnable h n v s
  | .barrDisable h n v => Sys2Proof.Machine.execBarrDisable h n v s
  | .fportLinkUp p => Sys2Proof.Machine.execFportLinkUp p s
  | .fportLinkDown e => Sys2Proof.Machine.execFportLinkDown e s
  | .arpRequest r => Sys2Proof.Machine.execArpRequest r s
  | .neighborSolicitation r => Sys2Proof.Machine.execNeighborSolicitation r s
  | .pfcFrame r quanta => Sys2Proof.Machine.execPfcFrame r quanta s
  | .fftWrite r f => Sys2Proof.Machine.execFftWrite r f s
  | .fftReadReq r f => Sys2Proof.Machine.execFftReadReq r f s
  | .fftReadRsp r f => Sys2Proof.Machine.execFftReadRsp r f s
  | .fftSignal r f => Sys2Proof.Machine.execFftSignal r f s
  | .fftAck r f => Sys2Proof.Machine.execFftAck r f s
  | .fftSack r f => Sys2Proof.Machine.execFftSack r f s
  | .fftOpen r f => Sys2Proof.Machine.execFftOpen r f s
  | .fftOpenAck r f => Sys2Proof.Machine.execFftOpenAck r f s
  | .fftClose r f => Sys2Proof.Machine.execFftClose r f s
  | .fftAbort r f => Sys2Proof.Machine.execFftAbort r f s
  | .fftProbe r f => Sys2Proof.Machine.execFftProbe r f s
  | .fftProbeRsp r f => Sys2Proof.Machine.execFftProbeRsp r f s
  | .teDoorbell h who v => Sys2Proof.Machine.execTeDoorbell h who v s
  | .wrNop c => Sys2Proof.Machine.execWrNop c s
  | .wrWrite c => Sys2Proof.Machine.execWrWrite c s
  | .wrRead c => Sys2Proof.Machine.execWrRead c s
  | .wrSignal c => Sys2Proof.Machine.execWrSignal c s
  | .teOpen h v => Sys2Proof.Machine.execTeOpen h v s
  | .teClose h v => Sys2Proof.Machine.execTeClose h v s
  | .teAbort h v => Sys2Proof.Machine.execTeAbort h v s
  | .teFree h v => Sys2Proof.Machine.execTeFree h v s
  | .teProbe h v => Sys2Proof.Machine.execTeProbe h v s
  | .teNop h v => Sys2Proof.Machine.execTeNop h v s
  | .openResendTimer c => Sys2Proof.Machine.execOpenResendTimer c s
  | .openTimeout c => Sys2Proof.Machine.execOpenTimeout c s
  | .retxTimeout c psn => Sys2Proof.Machine.execRetxTimeout c psn s
  | .ackDelayExpiry c => Sys2Proof.Machine.execAckDelayExpiry c s
  | .rateIncreaseTimer c => Sys2Proof.Machine.execRateIncreaseTimer c s
  | .probeTimeout h => Sys2Proof.Machine.execProbeTimeout h s
  | .lldpSendTimer p => Sys2Proof.Machine.execLldpSendTimer p s
  | .lldpduReceive r chSub ch chLen pSub pid pLen ttl => Sys2Proof.Machine.execLldpduReceive r chSub ch chLen pSub pid pLen ttl s
  | .neighborTtlExpiry p => Sys2Proof.Machine.execNeighborTtlExpiry p s
  | .ptpSyncReceive r src dom twoStep t1 => Sys2Proof.Machine.execPtpSyncReceive r src dom twoStep t1 s
  | .ptpFollowUpReceive r src dom t1 => Sys2Proof.Machine.execPtpFollowUpReceive r src dom t1 s
  | .ptpAnnounceReceive r src dom => Sys2Proof.Machine.execPtpAnnounceReceive r src dom s
  | .ptpDelayReqReceive r dom => Sys2Proof.Machine.execPtpDelayReqReceive r dom s
  | .ptpDelayRespReceive r src dom t4 => Sys2Proof.Machine.execPtpDelayRespReceive r src dom t4 s
  | .ptpSyncSendTimer => Sys2Proof.Machine.execPtpSyncSendTimer s
  | .ptpAnnounceSendTimer => Sys2Proof.Machine.execPtpAnnounceSendTimer s
  | .ptpDelayReqSendTimer => Sys2Proof.Machine.execPtpDelayReqSendTimer s
  | .ptpHoldoverTimeout => Sys2Proof.Machine.execPtpHoldoverTimeout s
  | .timeStep => Sys2Proof.Machine.execTimeStep s
  | .secTxAnWrite p who v => Sys2Proof.Machine.execSecTxAnWrite p who v s
  | .saValidWrite p who num v => Sys2Proof.Machine.execSaValidWrite p who num v s
  | .collDoorbell h p who v => Sys2Proof.Machine.execCollDoorbell h p who v s
  | .allreduce h p => Sys2Proof.Machine.execAllreduce h p s
  | .reduceScatter h p => Sys2Proof.Machine.execReduceScatter h p s
  | .allgather h p => Sys2Proof.Machine.execAllgather h p s
  | .broadcast h p => Sys2Proof.Machine.execBroadcast h p s
  | .reduce h p => Sys2Proof.Machine.execReduce h p s
  | .alltoall h p => Sys2Proof.Machine.execAlltoall h p s
  | .collBarrier h p => Sys2Proof.Machine.execCollBarrier h p s
  | .collNop h p => Sys2Proof.Machine.execCollNop h p s
  | .collData r f => Sys2Proof.Machine.execCollData r f s
  | .collReady r f => Sys2Proof.Machine.execCollReady r f s
  | .collComplete id => Sys2Proof.Machine.execCollComplete id s
  | .agreeJoin v => Sys2Proof.Machine.execAgreeJoin v s
  | .agreeRejoin v => Sys2Proof.Machine.execAgreeRejoin v s
  | .agreeLeave v => Sys2Proof.Machine.execAgreeLeave v s
  | .agreeForget v => Sys2Proof.Machine.execAgreeForget v s
  | .agreeNop v => Sys2Proof.Machine.execAgreeNop v s
  | .join r f => Sys2Proof.Machine.execJoin r f s
  | .joinAck r f => Sys2Proof.Machine.execJoinAck r f s
  | .joinDone r f => Sys2Proof.Machine.execJoinDone r f s
  | .joinResendTimer dev => Sys2Proof.Machine.execJoinResendTimer dev s
  | .recheckTimer dev => Sys2Proof.Machine.execRecheckTimer dev s
  | .departing r f => Sys2Proof.Machine.execDeparting r f s
  | .departingResend dev => Sys2Proof.Machine.execDepartingResend dev s
  | .pcieLinkUp h speed width flit => Sys2Proof.Machine.execPcieLinkUp h speed width flit s
  | .pcieLinkDown h => Sys2Proof.Machine.execPcieLinkDown h s
  | .perstAssert h => Sys2Proof.Machine.execPerstAssert h s
  | .pcieHotReset h => Sys2Proof.Machine.execPcieHotReset h s
  | .pfFlr h => Sys2Proof.Machine.execPfFlr h s
  | .vfFlr slot => Sys2Proof.Machine.execVfFlr slot s
  | .atsInvalidate func => Sys2Proof.Machine.execAtsInvalidate func s
  | .bar2Access func off n wr => Sys2Proof.Machine.execBar2Access func off n wr s
  | .hqSqDoorbell func off bytes v => Sys2Proof.Machine.execHqSqDoorbell func off bytes v s
  | .hqCqDoorbell func off bytes v => Sys2Proof.Machine.execHqCqDoorbell func off bytes v s
  | .hqNop q entry => Sys2Proof.Machine.execHqNop q entry s
  | .hqCopy q num v hostOk misses => Sys2Proof.Machine.execHqCopy q num v hostOk misses s
  | .hqFill q num entry => Sys2Proof.Machine.execHqFill q num entry s
  | .hqStart q entry => Sys2Proof.Machine.execHqStart q entry s
  | .hqHalt q entry => Sys2Proof.Machine.execHqHalt q entry s
  | .hqResume q entry => Sys2Proof.Machine.execHqResume q entry s
  | .hqSignal q entry => Sys2Proof.Machine.execHqSignal q entry s
  | .hqSqevict q entry => Sys2Proof.Machine.execHqSqevict q entry s
  | .hqRegw q entry => Sys2Proof.Machine.execHqRegw q entry s
  | .hqRegr q entry => Sys2Proof.Machine.execHqRegr q entry s
  | .hqCommandComplete q num => Sys2Proof.Machine.execHqCommandComplete q num s
  | .hqQpValidWrite q v => Sys2Proof.Machine.execHqQpValidWrite q v s
  | .irqHoldoffExpiry num => Sys2Proof.Machine.execIrqHoldoffExpiry num s
  | .partTenantReset v => Sys2Proof.Machine.execPartTenantReset v s
  | .partPartitionReset v => Sys2Proof.Machine.execPartPartitionReset v s
  | .partReload v => Sys2Proof.Machine.execPartReload v s
  | .partNop => Sys2Proof.Machine.execPartNop s
  | .partitionValidWrite p v => Sys2Proof.Machine.execPartitionValidWrite p v s
  | .chkDoorbell p who v => Sys2Proof.Machine.execChkDoorbell p who v s
  | .chkStep p => Sys2Proof.Machine.execChkStep p s
  | .chkStepNop p => Sys2Proof.Machine.execChkStepNop p s
  | .primaryHalt id => Sys2Proof.Machine.execPrimaryHalt id s
  | .understudyCoreAvailable id => Sys2Proof.Machine.execUnderstudyCoreAvailable id s
  | .replayHalt id => Sys2Proof.Machine.execReplayHalt id s
  | .replayTimeout id => Sys2Proof.Machine.execReplayTimeout id s
  | .compareDone id => Sys2Proof.Machine.execCompareDone id s
  | .tiebreakHalt id => Sys2Proof.Machine.execTiebreakHalt id s
  | .rehRunCore target mask => Sys2Proof.Machine.execRehRunCore target mask s
  | .rehRunCluster target mask => Sys2Proof.Machine.execRehRunCluster target mask s
  | .rehStop => Sys2Proof.Machine.execRehStop s
  | .rehNop => Sys2Proof.Machine.execRehNop s
  | .rehAutoTimer => Sys2Proof.Machine.execRehAutoTimer s
  | .rehKernelHalt c => Sys2Proof.Machine.execRehKernelHalt c s
  | .rehLimitTimeout c => Sys2Proof.Machine.execRehLimitTimeout c s
  | .rehHoldTimeout c => Sys2Proof.Machine.execRehHoldTimeout c s
  | .errorRecord => Sys2Proof.Machine.execErrorRecord s
  | .ueRateHour => Sys2Proof.Machine.execUeRateHour s
  | .darnRetireCore unit => Sys2Proof.Machine.execDarnRetireCore unit s
  | .darnRetireCluster unit => Sys2Proof.Machine.execDarnRetireCluster unit s
  | .darnRetireLink unit => Sys2Proof.Machine.execDarnRetireLink unit s
  | .darnRepairRow unit => Sys2Proof.Machine.execDarnRepairRow unit s
  | .darnRepairCol unit => Sys2Proof.Machine.execDarnRepairCol unit s
  | .darnCommit unit => Sys2Proof.Machine.execDarnCommit unit s
  | .darnNop => Sys2Proof.Machine.execDarnNop s
  | .darnCmdDone => Sys2Proof.Machine.execDarnCmdDone s
  | .commitDone verify => Sys2Proof.Machine.execCommitDone verify s
  | .avsPoll n r => Sys2Proof.Machine.execAvsPoll n r s
  | .regLinkLost n => Sys2Proof.Machine.execRegLinkLost n s
  | .regDegradedTimeout n => Sys2Proof.Machine.execRegDegradedTimeout n s
  | .dvfsStep h => Sys2Proof.Machine.execDvfsStep h s
  | .dvfsVoltageReached h => Sys2Proof.Machine.execDvfsVoltageReached h s
  | .dvfsTimeout h => Sys2Proof.Machine.execDvfsTimeout h s
  | .pllRelockDone h => Sys2Proof.Machine.execPllRelockDone h s
  | .governorEstimateTick est ks rise fall => Sys2Proof.Machine.execGovernorEstimateTick est ks rise fall s
  | .governorMsTick ests => Sys2Proof.Machine.execGovernorMsTick ests s
  | .thermalTick => Sys2Proof.Machine.execThermalTick s
  | .logicSensorSample h temps => Sys2Proof.Machine.execLogicSensorSample h temps s
  | .bandgapMeasure h mv0 mv1 => Sys2Proof.Machine.execBandgapMeasure h mv0 mv1 s
  | .thermistorSample rs => Sys2Proof.Machine.execThermistorSample rs s
  | .flowSample pulses => Sys2Proof.Machine.execFlowSample pulses s
  | .heatBalanceWindow => Sys2Proof.Machine.execHeatBalanceWindow s
  | .thermalCycleCount => Sys2Proof.Machine.execThermalCycleCount s
  | .wearWrite hourly verify => Sys2Proof.Machine.execWearWrite hourly verify s
  | .activeDischarge vaux => Sys2Proof.Machine.execActiveDischarge vaux s
  | .pllUnlock n => Sys2Proof.Machine.execPllUnlock n s
  | .referenceLost r => Sys2Proof.Machine.execReferenceLost r s
  | .referenceReturn r => Sys2Proof.Machine.execReferenceReturn r s
  | .driftWindow devs rOther => Sys2Proof.Machine.execDriftWindow devs rOther s
  | .i3cEntdaa dyn => Sys2Proof.Machine.execI3cEntdaa dyn s
  | .i3cSetdasa static dyn => Sys2Proof.Machine.execI3cSetdasa static dyn s
  | .setEndpointId eid => Sys2Proof.Machine.execSetEndpointId eid s
  | .getEndpointId => Sys2Proof.Machine.execGetEndpointId s
  | .getEndpointUuid => Sys2Proof.Machine.execGetEndpointUuid s
  | .getMctpVersionSupport typ => Sys2Proof.Machine.execGetMctpVersionSupport typ s
  | .getMessageTypeSupport => Sys2Proof.Machine.execGetMessageTypeSupport s
  | .getTid => Sys2Proof.Machine.execGetTid s
  | .setTid tid => Sys2Proof.Machine.execSetTid tid s
  | .getPldmVersion typ => Sys2Proof.Machine.execGetPldmVersion typ s
  | .getPldmTypes => Sys2Proof.Machine.execGetPldmTypes s
  | .getPldmCommands typ => Sys2Proof.Machine.execGetPldmCommands typ s
  | .getPdrRepositoryInfo => Sys2Proof.Machine.execGetPdrRepositoryInfo s
  | .getPdr handle => Sys2Proof.Machine.execGetPdr handle s
  | .getSensorReading id => Sys2Proof.Machine.execGetSensorReading id s
  | .getStateSensorReadings id => Sys2Proof.Machine.execGetStateSensorReadings id s
  | .setStateEffecterStates id st fails verify b => Sys2Proof.Machine.execSetStateEffecterStates id st fails verify b s
  | .getStateEffecterStates id => Sys2Proof.Machine.execGetStateEffecterStates id s
  | .setNumericEffecterValue id v => Sys2Proof.Machine.execSetNumericEffecterValue id v s
  | .getNumericEffecterValue id => Sys2Proof.Machine.execGetNumericEffecterValue id s
  | .queryDeviceIdentifiers => Sys2Proof.Machine.execQueryDeviceIdentifiers s
  | .getFirmwareParameters => Sys2Proof.Machine.execGetFirmwareParameters s
  | .requestUpdate => Sys2Proof.Machine.execRequestUpdate s
  | .passComponentTable => Sys2Proof.Machine.execPassComponentTable s
  | .updateComponent comp size => Sys2Proof.Machine.execUpdateComponent comp size s
  | .firmwareDataReceive data => Sys2Proof.Machine.execFirmwareDataReceive data s
  | .transferComplete => Sys2Proof.Machine.execTransferComplete s
  | .verifyComplete => Sys2Proof.Machine.execVerifyComplete s
  | .applyComplete => Sys2Proof.Machine.execApplyComplete s
  | .activateFirmware => Sys2Proof.Machine.execActivateFirmware s
  | .getStatus => Sys2Proof.Machine.execGetStatus s
  | .cancelUpdateComponent => Sys2Proof.Machine.execCancelUpdateComponent s
  | .cancelUpdate => Sys2Proof.Machine.execCancelUpdate s
  | .getVersion => Sys2Proof.Machine.execGetVersion s
  | .getCapabilities => Sys2Proof.Machine.execGetCapabilities s
  | .negotiateAlgorithms asym hash => Sys2Proof.Machine.execNegotiateAlgorithms asym hash s
  | .getDigests => Sys2Proof.Machine.execGetDigests s
  | .getCertificate slot off len => Sys2Proof.Machine.execGetCertificate slot off len s
  | .spdmChallenge slot => Sys2Proof.Machine.execSpdmChallenge slot s
  | .getMeasurements index sign => Sys2Proof.Machine.execGetMeasurements index sign s
  | .updWrite => Sys2Proof.Machine.execUpdWrite s
  | .updCancel => Sys2Proof.Machine.execUpdCancel s
  | .updNop => Sys2Proof.Machine.execUpdNop s
  | .updateDone ok verify => Sys2Proof.Machine.execUpdateDone ok verify s
  | .rbCmd v readA readB => Sys2Proof.Machine.execRbCmd v readA readB s
  | .dbgChallenge => Sys2Proof.Machine.execDbgChallenge s
  | .dbgUnlock => Sys2Proof.Machine.execDbgUnlock s
  | .dbgNop => Sys2Proof.Machine.execDbgNop s
  | .debugEraseDone fails verify => Sys2Proof.Machine.execDebugEraseDone fails verify s
  | .nonceExpiry => Sys2Proof.Machine.execNonceExpiry s
  | .tapTestLogicReset => Sys2Proof.Machine.execTapTestLogicReset s
  | .tapExtest h v => Sys2Proof.Machine.execTapExtest h v s
  | .tapIdcode h => Sys2Proof.Machine.execTapIdcode h s
  | .tapSamplePreload h balls v => Sys2Proof.Machine.execTapSamplePreload h balls v s
  | .tapClamp h => Sys2Proof.Machine.execTapClamp h s
  | .tapHighz h => Sys2Proof.Machine.execTapHighz h s
  | .tapDietest h b => Sys2Proof.Machine.execTapDietest h b s
  | .tapDbgUnlock capture token => Sys2Proof.Machine.execTapDbgUnlock capture token s
  | .tapDbgAccess => Sys2Proof.Machine.execTapDbgAccess s
  | .tapBypass h => Sys2Proof.Machine.execTapBypass h s
  | .dbgRead32 da => Sys2Proof.Machine.execDbgRead32 da s
  | .dbgWrite32 da v => Sys2Proof.Machine.execDbgWrite32 da v s
  | .dbgAccessNop => Sys2Proof.Machine.execDbgAccessNop s
  | .pfcPauseExpiry p => Sys2Proof.Machine.execPfcPauseExpiry p s
  | .pllLockRegained n => Sys2Proof.Machine.execPllLockRegained n s
  | .msgFailReply c num => Sys2Proof.Machine.execMsgFailReply c num s
  | .unsupportedRequest proto => Sys2Proof.Machine.execUnsupportedRequest proto s
  | .referenceAppears r => Sys2Proof.Machine.execReferenceAppears r s
  | .coldBootContinue => Sys2Proof.Machine.execColdBootContinue s

end Sys2Proof.Machine
end

