-- ==== Sys2Proof/Machine/Tick.lean ====
section
/-! DEFINITION. What happens when no command waits. -/
namespace Sys2Proof.Machine
open Sys2Proof

/-- While the control channel is lost Half B's count drifts from Half A's by at most 1 ppm, which way is open (R578). -/
def Dev.drift1 (d : Dev) : Dev :=
  if d.lone + 1 < 1000000 then { d with lone := d.lone + 1 }
  else
    let v := d.draw 2
    { v.2 with skew := v.2.skew + ((v.1.toNat % 3 : Nat) : Int) - 1, lone := 0 }

/-- One TIME cycle: the count of nanoseconds advances (R578), unless the device is held with its clocks off. -/
def Dev.tick (d : Dev) : Dev :=
  if d.dark then d
  else
    let d : Dev := { d with now := (d.now + 1) % 2 ^ 64 }
    if d.ctrlDown then d.drift1 else d

end Sys2Proof.Machine
end

