-- ==== Sys2Proof/Machine/Step.lean ====
section
/-! DEFINITION. One step: the command that waits longest, or a tick of the time count when none waits. -/
namespace Sys2Proof.Machine
open Sys2Proof

/-- The command at the front of the queue runs on the device with the rest of the queue. -/
def step (s : State) : Host.Outcome State Fault Refusal :=
  match s.pending with
  | [] => .next { s with dev := s.dev.tick }
  | i :: rest => exec i { s with pending := rest }

/-- The command that a word spells goes to the front of the queue; no word spells one. -/
def State.withFetchWord (s : State) (nbits w : Nat) : State :=
  match decodeTableWord nbits w with
  | some i => { s with pending := i :: s.pending }
  | none => s

end Sys2Proof.Machine
end

