-- ==== Sys2Proof/Safety.lean ====
section
/-! DEFINITION. What counts as a safe run, in the terms that claims use. -/
namespace Sys2Proof.Machine
open Sys2Proof

/-- The next step is a step of the machine: no fault, no refusal. -/
def State.goesOn (s : State) : Prop := ∃ t, step s = .next t

/-- What `n` steps come to. -/
def State.runs : Nat → State → Out
  | 0, s => .next s
  | n + 1, s =>
    match step s with
    | .next t => State.runs n t
    | .fault r => .fault r
    | .refused r => .refused r

/-- A run of `n` steps that neither faults nor is refused. -/
def State.safeFor (n : Nat) (s : State) : Prop := ∃ t, s.runs n = .next t

/-- Every memory is in canonical form. -/
def Dev.memWf (d : Dev) : Prop := Memory.wf d.mem ∧ Memory.wf d.lmem

end Sys2Proof.Machine
end

