-- ==== Sys2Proof/WellFormed.lean ====
section
/-! DEFINITION. Well-formed commands: each names units that the device has (R19, R31, R37, R38). Meanings are total and do not lean on it. -/
namespace Sys2Proof

def isHalf (h : Nat) : Bool := decide (h < 2)
def isCluster (g : Nat) : Bool := decide (g < 256)
def isCore (c : Nat) : Bool := decide (c < 4096)
def isChannel (n : Nat) : Bool := decide (n < 8)
def isPort (p : Nat) : Bool := decide (p < 8)
def isSeamPort (x : Nat) : Bool := decide (x < 16)
def isLink (l : Nat) : Bool := decide (l < 6)
def isVc (v : Nat) : Bool := decide (v < 4)
/-- A packet has 0, 1 or 2 flits of 128 B (R308). -/
def isSeamOut (o : SeamOut) : Bool :=
  isVc o.vc && decide (o.flits ≤ 2) && decide (o.data < 2 ^ 1024) && decide (o.phdr < 2 ^ 128)
/-- An ACK lags by at most 63, and CRED has 16 bits. -/
def isC1 (lag cred : Nat) : Bool := decide (lag < 64) && decide (cred < 2 ^ 16)
def isSeamSend : SeamSend → Bool
  | .idle lag cred => isC1 lag cred
  | .data o lag cred => isSeamOut o && isC1 lag cred
def isPortLoss : PortLoss → Bool
  | .alignment p => decide (p < 8)
  | .codewords p _ => decide (p < 8)
def isQueuePair (q : Nat) : Bool := decide (q < 2048)
def isFunction (f : Nat) : Bool := decide (f < 66)
def isSeamLane (n : Nat) : Bool := decide (n < 80)
def isFramePlace (n : Nat) : Bool := decide (n < 32)
def isSlot (s : Nat) : Bool := decide (s < 64)
def isPartition (p : Nat) : Bool := decide (p < 64)
def isContext (n : Nat) : Bool := decide (n < 64)
def isConn (c : Nat) : Bool := decide (c < 8192)
def isDevice (d : Nat) : Bool := decide (d < 1024)
def isDomain (n : Nat) : Bool := decide (1 ≤ n) && decide (n ≤ 25)
def isRail (n : Nat) : Bool := decide (n < 6)
def isLane (n : Nat) : Bool := decide (n < 1152)
def isLayer (n : Nat) : Bool := decide (n < 8)
def isBank (n : Nat) : Bool := decide (n < 16)
def isSlice (n : Nat) : Bool := decide (n < 16)
def isWindow (n : Nat) : Bool := decide (n < 16)
def isCueSlot (n : Nat) : Bool := decide (n < 64)
def isUnit (u : Nat) : Bool := decide (u < 2 ^ 24)
def isByte (n : Nat) : Bool := decide (n < 256)
def isI3c (n : Nat) : Bool := decide (n < 128)

def isRequester : Requester → Bool
  | .fn f => isFunction f
  | .core c => isCore c
  | .queue h q => isHalf h && decide (q < 1024)
  | .preset => false
  | .debug => true

def isScope : CScope → Bool
  | .core n => isCore n
  | .cluster g => isCluster g
  | .tenant t => decide (t < 4096)
  | .part p => isPartition p

def isRx (r : Rx) : Bool := isPort r.port

/-- Every unit that the command names exists. -/
def Instr.wf : Instr → Bool
  | .registerWrite who _ _ _ => isRequester who
  | .rcFieldRead who _ _ => isRequester who
  | .lowWordRead who _ => isRequester who
  | .lowWordWrite who _ _ => isRequester who
  | .highWordWrite who _ _ => isRequester who
  | .narrowRegisterWrite who _ _ _ => isRequester who
  | .crstNAssert => true
  | .crstNRelease _ => true
  | .joinRetryTimer => true
  | .joinDeadline => true
  | .seqRstArmWrite _ => true
  | .armExpiry => true
  | .rstCore _ => true
  | .rstCluster _ => true
  | .rstWarm _ _ => true
  | .rstCold _ _ => true
  | .rstNop => true
  | .warmResetContinue _ => true
  | .curtainLower scope => isScope scope
  | .epochSwitch => true
  | .epochDiscard => true
  | .epochNop => true
  | .prepare h => isHalf h
  | .commitReady => true
  | .commitAbort => true
  | .flip => true
  | .flipped => true
  | .epochDrainEnd h => isHalf h
  | .drained => true
  | .commitCancel => true
  | .commitTimeout => true
  | .ctrlHeartbeat h => isHalf h
  | .forwardedAccess who _ _ _ => isRequester who
  | .ctrlChannelLost => true
  | .seamIdleFrame h x _ _ => isHalf h && isSeamPort x
  | .seamDataFrame h x o lag cred => isHalf h && isSeamPort x && isSeamOut o && isC1 lag cred
  | .seamBadFrame h x f noise => isHalf h && isSeamPort x && isSeamSend f && decide (noise < 2 ^ 1280)
  | .seamNakFrame h x cred => isHalf h && isSeamPort x && isC1 0 cred
  | .seamTrainFrame h x lane _ => isHalf h && isSeamPort x && isSeamLane lane
  | .seamPortDown h x => isHalf h && isSeamPort x
  | .seamLoopWrite h _ => isHalf h
  | .meshFlitReceive g l _ => isCluster g && isLink l
  | .meshLinkDown g l => isCluster g && isLink l
  | .coreStart c _ => isCore c
  | .programLoadDone c => isCore c
  | .haltReq c _ => isCore c
  | .resume c _ => isCore c
  | .coreSeqTenantWrite c _ => isCore c
  | .haltDrainDone c => isCore c
  | .ifetchUe c => isCore c
  | .illegal c => isCore c
  | .add c => isCore c
  | .sub c => isCore c
  | .and c => isCore c
  | .or c => isCore c
  | .xor c => isCore c
  | .sll c => isCore c
  | .srl c => isCore c
  | .sra c => isCore c
  | .slt c => isCore c
  | .sltu c => isCore c
  | .min c => isCore c
  | .max c => isCore c
  | .minu c => isCore c
  | .maxu c => isCore c
  | .mul c => isCore c
  | .mulh c => isCore c
  | .mulhu c => isCore c
  | .div c => isCore c
  | .divu c => isCore c
  | .rem c => isCore c
  | .remu c => isCore c
  | .clz c => isCore c
  | .popc c => isCore c
  | .liw c => isCore c
  | .ld8u c => isCore c
  | .ld8s c => isCore c
  | .ld16u c => isCore c
  | .ld16s c => isCore c
  | .ld32u c => isCore c
  | .ld32s c => isCore c
  | .ld64 c => isCore c
  | .st8 c => isCore c
  | .st16 c => isCore c
  | .st32 c => isCore c
  | .st64 c => isCore c
  | .rld32 c => isCore c
  | .rst32 c => isCore c
  | .rld64 c => isCore c
  | .rst64 c => isCore c
  | .regAccessComplete c => isCore c
  | .beq c => isCore c
  | .bne c => isCore c
  | .blt c => isCore c
  | .bge c => isCore c
  | .bltu c => isCore c
  | .bgeu c => isCore c
  | .jal c => isCore c
  | .jr c => isCore c
  | .loop c => isCore c
  | .dld c => isCore c
  | .dst c => isCore c
  | .dsetb c => isCore c
  | .daddb c => isCore c
  | .dsetw c => isCore c
  | .dgetw c => isCore c
  | .msend c => isCore c
  | .mrecv c => isCore c
  | .mpoll c => isCore c
  | .msgArrive src _ _ => isCore src
  | .msgAck c _ => isCore c
  | .msgNack c _ => isCore c
  | .msgBackoffExpiry c _ => isCore c
  | .dmaq c => isCore c
  | .dmac c => isCore c
  | .dmaw c => isCore c
  | .dmas c => isCore c
  | .dmar c => isCore c
  | .dmaCopy c ch => isCore c && isChannel ch
  | .dmaFill c ch => isCore c && isChannel ch
  | .dmaMark c ch => isCore c && isChannel ch
  | .dmaResponse c ch => isCore c && isChannel ch
  | .dmaChanRestart c ch => isCore c && isChannel ch
  | .dmaChanDiscard c ch => isCore c && isChannel ch
  | .dmaChanNop c ch => isCore c && isChannel ch
  | .fence c => isCore c
  | .fenceRelease c => isCore c
  | .nop c => isCore c
  | .halt c => isCore c
  | .trap c => isCore c
  | .tret c => isCore c
  | .rdsys c => isCore c
  | .setmode c => isCore c
  | .mmacIndependent c => isCore c
  | .mmacPacked c => isCore c
  | .mmacGanged c => isCore c
  | .mmacComplete c _ => isCore c
  | .mcks c => isCore c
  | .vadd c => isCore c
  | .vsub c => isCore c
  | .vmul c => isCore c
  | .vfma c => isCore c
  | .vmin c => isCore c
  | .vmax c => isCore c
  | .vcmplt c => isCore c
  | .vcmple c => isCore c
  | .vcmpeq c => isCore c
  | .viadd c => isCore c
  | .visub c => isCore c
  | .vimul c => isCore c
  | .vimin c => isCore c
  | .vimax c => isCore c
  | .vand c => isCore c
  | .vor c => isCore c
  | .vxor c => isCore c
  | .vshl c => isCore c
  | .vsra c => isCore c
  | .exp2 c => isCore c
  | .exp c => isCore c
  | .log2 c => isCore c
  | .log c => isCore c
  | .rcp c => isCore c
  | .sqrt c => isCore c
  | .rsqrt c => isCore c
  | .tanh c => isCore c
  | .sigmoid c => isCore c
  | .silu c => isCore c
  | .gelu c => isCore c
  | .sinpi c => isCore c
  | .cospi c => isCore c
  | .rsum c => isCore c
  | .rsumsq c => isCore c
  | .rmax c => isCore c
  | .rmin c => isCore c
  | .rmaxabs c => isCore c
  | .rdot c => isCore c
  | .vmov c => isCore c
  | .vcvt c => isCore c
  | .vfill c => isCore c
  | .vabs c => isCore c
  | .vneg c => isCore c
  | .vrot c => isCore c
  | .vectorReadStart c => isCore c
  | .vectorComplete c => isCore c
  | .sqopen c => isCore c
  | .sqadmit c => isCore c
  | .sqcommit c => isCore c
  | .sqtrim c => isCore c
  | .sqclose c => isCore c
  | .sqevict c => isCore c
  | .sqget c => isCore c
  | .sqset c => isCore c
  | .sqpage c => isCore c
  | .seqAgentRequest c => isCore c
  | .seqStatusReturn c => isCore c
  | .sqadmitWake c => isCore c
  | .kvld c => isCore c
  | .kvldSegment c ch => isCore c && isChannel ch
  | .apos c => isCore c
  | .arope c => isCore c
  | .amask c => isCore c
  | .asmx c => isCore c
  | .asfin c => isCore c
  | .asrec c => isCore c
  | .pwr c => isCore c
  | .prd c => isCore c
  | .pclr c => isCore c
  | .pdot c => isCore c
  | .pcol c => isCore c
  | .pmark c => isCore c
  | .pfence c => isCore c
  | .pimDispatch c _ => isCore c
  | .pimResume c _ => isCore c
  | .pimComplete c _ _ => isCore c
  | .sliceRead who _ _ _ _ slot _ => isRequester who && isFramePlace slot
  | .sliceWrite who _ _ _ _ => isRequester who
  | .rowCopyDone n _ => isCore n
  | .laneFailing n lane => isCore n && isLane lane
  | .laneIntervalEnd n => isCore n
  | .layerTempSample n layer _ => isCore n && isLayer layer
  | .refresh n layer bank _ => isCore n && isLayer layer && isBank bank
  | .patrolScrub _ _ _ slot _ => isFramePlace slot
  | .adderOp n => isCore n
  | .testNop n => isCore n
  | .rawRd n _ layer bank _ _ => isCore n && isLayer layer && isBank bank
  | .rawWr n _ layer bank _ _ => isCore n && isLayer layer && isBank bank
  | .decRd n _ layer bank _ _ => isCore n && isLayer layer && isBank bank
  | .markRow n _ => isCore n
  | .fixLane n => isCore n
  | .testCmdDone n => isCore n
  | .cacheRead who _ _ _ _ _ => isRequester who
  | .cacheWrite who _ _ _ _ _ _ => isRequester who
  | .cacheFillDone g _ => isCluster g
  | .aadd c => isCore c
  | .amin c => isCore c
  | .amax c => isCore c
  | .aminu c => isCore c
  | .amaxu c => isCore c
  | .aand c => isCore c
  | .aor c => isCore c
  | .axor c => isCore c
  | .aswap c => isCore c
  | .acas c => isCore c
  | .afadd c => isCore c
  | .ahadd c => isCore c
  | .lred c => isCore c
  | .cwb c => isCore c
  | .atomExecute c _ _ _ => isCore c
  | .atomResult c _ => isCore c
  | .wbAll g => isCluster g
  | .preload g win => isCluster g && isWindow win
  | .unpin g win => isCluster g && isWindow win
  | .wbSlice g slice => isCluster g && isSlice slice
  | .cacheCmdNop g => isCluster g
  | .cacheCmdDone g => isCluster g
  | .signal c => isCore c
  | .wait c => isCore c
  | .take c => isCore c
  | .trywait c => isCore c
  | .arm c => isCore c
  | .cread c => isCore c
  | .cinit c => isCore c
  | .cfree c => isCore c
  | .cueOpArrive _ => true
  | .cueReply c => isCore c
  | .cueWake c => isCore c
  | .cueCancel c => isCore c
  | .waitNackResend c => isCore c
  | .signalRefused c => isCore c
  | .cueCmdInit g j _ => isCluster g && isCueSlot j
  | .cueCmdFree g j => isCluster g && isCueSlot j
  | .cueCmdBreak g j => isCluster g && isCueSlot j
  | .cueCmdSignal g j => isCluster g && isCueSlot j
  | .cueCmdNop g => isCluster g
  | .bsync c => isCore c
  | .barrive c => isCore c
  | .bwait c => isCore c
  | .bread c => isCore c
  | .barrierArrival h n c _ => isHalf h && isContext n && isCore c
  | .barrEnable h n _ => isHalf h && isContext n
  | .barrDisable h n _ => isHalf h && isContext n
  | .fportLinkUp p => isPort p
  | .fportLinkDown e => isPortLoss e
  | .arpRequest r => isRx r.rx
  | .neighborSolicitation r => isRx r.rx
  | .pfcFrame r _ => isRx r
  | .fftWrite r _ => isRx r
  | .fftReadReq r _ => isRx r
  | .fftReadRsp r _ => isRx r
  | .fftSignal r _ => isRx r
  | .fftAck r _ => isRx r
  | .fftSack r _ => isRx r
  | .fftOpen r _ => isRx r
  | .fftOpenAck r _ => isRx r
  | .fftClose r _ => isRx r
  | .fftAbort r _ => isRx r
  | .fftProbe r _ => isRx r
  | .fftProbeRsp r _ => isRx r
  | .teDoorbell h who _ => isHalf h && isRequester who
  | .wrNop c => isConn c
  | .wrWrite c => isConn c
  | .wrRead c => isConn c
  | .wrSignal c => isConn c
  | .teOpen h _ => isHalf h
  | .teClose h _ => isHalf h
  | .teAbort h _ => isHalf h
  | .teFree h _ => isHalf h
  | .teProbe h _ => isHalf h
  | .teNop h _ => isHalf h
  | .openResendTimer c => isConn c
  | .openTimeout c => isConn c
  | .retxTimeout c _ => isConn c
  | .ackDelayExpiry c => isConn c
  | .rateIncreaseTimer c => isConn c
  | .probeTimeout h => isHalf h
  | .lldpSendTimer p => isPort p
  | .lldpduReceive r _ _ _ _ _ _ _ => isRx r
  | .neighborTtlExpiry p => isPort p
  | .ptpSyncReceive r _ _ _ _ => isRx r
  | .ptpFollowUpReceive r _ _ _ => isRx r
  | .ptpAnnounceReceive r _ _ => isRx r
  | .ptpDelayReqReceive r _ => isRx r
  | .ptpDelayRespReceive r _ _ _ => isRx r
  | .ptpSyncSendTimer => true
  | .ptpAnnounceSendTimer => true
  | .ptpDelayReqSendTimer => true
  | .ptpHoldoverTimeout => true
  | .timeStep => true
  | .secTxAnWrite p who _ => isPort p && isRequester who
  | .saValidWrite p who _ _ => isPort p && isRequester who
  | .collDoorbell h p who _ => isHalf h && isPartition p && isRequester who
  | .allreduce h p => isHalf h && isPartition p
  | .reduceScatter h p => isHalf h && isPartition p
  | .allgather h p => isHalf h && isPartition p
  | .broadcast h p => isHalf h && isPartition p
  | .reduce h p => isHalf h && isPartition p
  | .alltoall h p => isHalf h && isPartition p
  | .collBarrier h p => isHalf h && isPartition p
  | .collNop h p => isHalf h && isPartition p
  | .collData r _ => isRx r
  | .collReady r _ => isRx r
  | .collComplete _ => true
  | .agreeJoin _ => true
  | .agreeRejoin _ => true
  | .agreeLeave _ => true
  | .agreeForget _ => true
  | .agreeNop _ => true
  | .join r _ => isRx r
  | .joinAck r _ => isRx r
  | .joinDone r _ => isRx r
  | .joinResendTimer dev => isDevice dev
  | .recheckTimer dev => isDevice dev
  | .departing r _ => isRx r
  | .departingResend dev => isDevice dev
  | .pcieLinkUp h _ _ _ => isHalf h
  | .pcieLinkDown h => isHalf h
  | .perstAssert h => isHalf h
  | .pcieHotReset h => isHalf h
  | .pfFlr h => isHalf h
  | .vfFlr slot => isSlot slot
  | .atsInvalidate func => isFunction func
  | .bar2Access func _ _ _ => isFunction func
  | .hqSqDoorbell func _ _ _ => isFunction func
  | .hqCqDoorbell func _ _ _ => isFunction func
  | .hqNop q _ => isQueuePair q
  | .hqCopy q _ _ _ _ => isQueuePair q
  | .hqFill q _ _ => isQueuePair q
  | .hqStart q _ => isQueuePair q
  | .hqHalt q _ => isQueuePair q
  | .hqResume q _ => isQueuePair q
  | .hqSignal q _ => isQueuePair q
  | .hqSqevict q _ => isQueuePair q
  | .hqRegw q _ => isQueuePair q
  | .hqRegr q _ => isQueuePair q
  | .hqCommandComplete q _ => isQueuePair q
  | .hqQpValidWrite q _ => isQueuePair q
  | .irqHoldoffExpiry _ => true
  | .partTenantReset _ => true
  | .partPartitionReset _ => true
  | .partReload _ => true
  | .partNop => true
  | .partitionValidWrite p _ => isPartition p
  | .chkDoorbell p who _ => isPartition p && isRequester who
  | .chkStep p => isPartition p
  | .chkStepNop p => isPartition p
  | .primaryHalt _ => true
  | .understudyCoreAvailable _ => true
  | .replayHalt _ => true
  | .replayTimeout _ => true
  | .compareDone _ => true
  | .tiebreakHalt _ => true
  | .rehRunCore _ _ => true
  | .rehRunCluster _ _ => true
  | .rehStop => true
  | .rehNop => true
  | .rehAutoTimer => true
  | .rehKernelHalt c => isCore c
  | .rehLimitTimeout c => isCore c
  | .rehHoldTimeout c => isCore c
  | .errorRecord => true
  | .ueRateHour => true
  | .darnRetireCore unit => isUnit unit
  | .darnRetireCluster unit => isUnit unit
  | .darnRetireLink unit => isUnit unit
  | .darnRepairRow unit => isUnit unit
  | .darnRepairCol unit => isUnit unit
  | .darnCommit unit => isUnit unit
  | .darnNop => true
  | .darnCmdDone => true
  | .commitDone _ => true
  | .avsPoll n _ => isRail n
  | .regLinkLost n => isRail n
  | .regDegradedTimeout n => isRail n
  | .dvfsStep h => isHalf h
  | .dvfsVoltageReached h => isHalf h
  | .dvfsTimeout h => isHalf h
  | .pllRelockDone h => isHalf h
  | .governorEstimateTick _ _ _ _ => true
  | .governorMsTick _ => true
  | .thermalTick => true
  | .logicSensorSample h _ => isHalf h
  | .bandgapMeasure h _ _ => isHalf h
  | .thermistorSample _ => true
  | .flowSample _ => true
  | .heatBalanceWindow => true
  | .thermalCycleCount => true
  | .wearWrite _ _ => true
  | .activeDischarge _ => true
  | .pllUnlock n => isDomain n
  | .referenceLost r => isHalf r
  | .referenceReturn r => isHalf r
  | .driftWindow _ _ => true
  | .i3cEntdaa dyn => isI3c dyn
  | .i3cSetdasa static dyn => isI3c static && isI3c dyn
  | .setEndpointId eid => isByte eid
  | .getEndpointId => true
  | .getEndpointUuid => true
  | .getMctpVersionSupport _ => true
  | .getMessageTypeSupport => true
  | .getTid => true
  | .setTid tid => isByte tid
  | .getPldmVersion _ => true
  | .getPldmTypes => true
  | .getPldmCommands _ => true
  | .getPdrRepositoryInfo => true
  | .getPdr _ => true
  | .getSensorReading _ => true
  | .getStateSensorReadings _ => true
  | .setStateEffecterStates _ _ _ _ _ => true
  | .getStateEffecterStates _ => true
  | .setNumericEffecterValue _ _ => true
  | .getNumericEffecterValue _ => true
  | .queryDeviceIdentifiers => true
  | .getFirmwareParameters => true
  | .requestUpdate => true
  | .passComponentTable => true
  | .updateComponent _ _ => true
  | .firmwareDataReceive _ => true
  | .transferComplete => true
  | .verifyComplete => true
  | .applyComplete => true
  | .activateFirmware => true
  | .getStatus => true
  | .cancelUpdateComponent => true
  | .cancelUpdate => true
  | .getVersion => true
  | .getCapabilities => true
  | .negotiateAlgorithms _ _ => true
  | .getDigests => true
  | .getCertificate slot _ _ => isByte slot
  | .spdmChallenge slot => isByte slot
  | .getMeasurements _ _ => true
  | .updWrite => true
  | .updCancel => true
  | .updNop => true
  | .updateDone _ _ => true
  | .rbCmd _ _ _ => true
  | .dbgChallenge => true
  | .dbgUnlock => true
  | .dbgNop => true
  | .debugEraseDone _ _ => true
  | .nonceExpiry => true
  | .tapTestLogicReset => true
  | .tapExtest h _ => isHalf h
  | .tapIdcode h => isHalf h
  | .tapSamplePreload h _ _ => isHalf h
  | .tapClamp h => isHalf h
  | .tapHighz h => isHalf h
  | .tapDietest h _ => isHalf h
  | .tapDbgUnlock _ _ => true
  | .tapDbgAccess => true
  | .tapBypass h => isHalf h
  | .dbgRead32 _ => true
  | .dbgWrite32 _ _ => true
  | .dbgAccessNop => true
  | .pfcPauseExpiry p => isPort p
  | .pllLockRegained n => isDomain n
  | .msgFailReply c _ => isCore c
  | .unsupportedRequest _ => true
  | .referenceAppears r => isHalf r
  | .coldBootContinue => true

end Sys2Proof
end

