-- ==== Sys2Proof/Certificates/Slice0/Obligations.lean ====
section
/-! DEFINITION. The statements for the provers. Each docstring says which rules it formalises. -/

namespace Sys2Proof.Claims
open Sys2Proof Sys2Proof.Machine

/-- Command `i` in state `s` answers a next state whose device is `d`. The commands that wait stay as they are. -/
def Gives (i : Instr) (s : State) (d : Dev) : Prop := exec i s = .next { s with dev := d }

/-- The clock domains of the units run. -/
def Live (s : State) : Prop := s.dev.stopped = false

/-- Core `c` may issue, its next word is `w` with major opcode `op` and function `fn`, and no register that `w` names is
still to be written by an atomic. -/
def Issues (s : State) (c op fn : Nat) : Prop :=
  Live s ∧ s.dev.canIssue c = true ∧ opOf (s.dev.instr c) = op ∧ fnOf (s.dev.instr c) = fn ∧
    s.dev.interlocked c (s.dev.instr c) = false

/-- Register fields that an instruction does not use are zero, and bits [37:32]. -/
def Unused (w : W64) (rd ra rb : Bool) : Prop :=
  (rd = false → rdOf w = 0) ∧ (ra = false → raOf w = 0) ∧ (rb = false → rbOf w = 0) ∧ W64.bits w 37 32 = 0

/-- The second operand `b` of an arithmetic instruction at the head of core `c`: register rb in the register form (OP 0x01,
nothing below FN), IMM32 sign-extended in the immediate form (OP 0x02, no rb). -/
def SecondOperand (s : State) (c : Nat) (b : W64) : Prop :=
  let w := s.dev.instr c
  (opOf w = 1 ∧ W64.bits w 37 0 = 0 ∧ b = s.dev.sreg c (rbOf w)) ∨
  (opOf w = 2 ∧ rbOf w = 0 ∧ W64.bits w 37 32 = 0 ∧ b = (BitVec.extractLsb' 0 32 w).signExtend 64)

/-- Core `c` may issue an arithmetic instruction with function `fn`, first operand `a` and second operand `b`. -/
def Arith (s : State) (c fn : Nat) (a b : W64) : Prop :=
  Live s ∧ s.dev.canIssue c = true ∧ fnOf (s.dev.instr c) = fn ∧ s.dev.interlocked c (s.dev.instr c) = false ∧
    a = s.dev.sreg c (raOf (s.dev.instr c)) ∧ SecondOperand s c b

/-- The device after core `c` writes `v` to the rd of its instruction and retires it. -/
def writeRd (d : Dev) (c : Nat) (v : W64) : Dev := (d.setS c (rdOf (d.instr c)) v).retire c

/-- A scalar access of `n` bytes at local address ra + IMM32 passes the checks of R74: aligned, and inside one mapped memory. -/
def LocalAccess (s : State) (c n : Nat) (a : W64) : Prop :=
  a = s.dev.sreg c (raOf (s.dev.instr c)) + (BitVec.extractLsb' 0 32 (s.dev.instr c)).signExtend 64 ∧
    a.toNat % n = 0 ∧ a.toNat < 2 ^ 20 ∧ spanOk a.toNat n = true

end Sys2Proof.Claims

open Sys2Proof Sys2Proof.Machine Sys2Proof.Claims in
/-- R87, R71: ADD, SUB, AND, OR, XOR, SLL, SRL and SRA complete in both operand forms: rd takes the result, s0
discards it, and the instruction retires. SLT to REMU complete in both operand forms with the result of R87. A
division by zero gives a quotient of all ones and the dividend as remainder. -/
def Obligations.ComputingInstructions : Prop :=
  (∀ (s : State) (c : Nat) (a b : W64),
    (Arith s c 0 a b → Gives (.add c) s (writeRd s.dev c (a + b))) ∧
    (Arith s c 1 a b → Gives (.sub c) s (writeRd s.dev c (a - b))) ∧
    (Arith s c 2 a b → Gives (.and c) s (writeRd s.dev c (a &&& b))) ∧
    (Arith s c 3 a b → Gives (.or c) s (writeRd s.dev c (a ||| b))) ∧
    (Arith s c 4 a b → Gives (.xor c) s (writeRd s.dev c (a ^^^ b))) ∧
    (Arith s c 5 a b → Gives (.sll c) s (writeRd s.dev c (a <<< (b.toNat % 64)))) ∧
    (Arith s c 6 a b → Gives (.srl c) s (writeRd s.dev c (a >>> (b.toNat % 64)))) ∧
    (Arith s c 7 a b → Gives (.sra c) s (writeRd s.dev c (a.sshiftRight (b.toNat % 64))))) ∧
  (∀ (s : State) (c : Nat) (a b : W64),
    (Arith s c 8 a b → Gives (.slt c) s (writeRd s.dev c (if a.toInt < b.toInt then 1 else 0))) ∧
    (Arith s c 9 a b → Gives (.sltu c) s (writeRd s.dev c (if a.toNat < b.toNat then 1 else 0))) ∧
    (Arith s c 10 a b → Gives (.min c) s (writeRd s.dev c (if a.toInt < b.toInt then a else b))) ∧
    (Arith s c 11 a b → Gives (.max c) s (writeRd s.dev c (if a.toInt < b.toInt then b else a))) ∧
    (Arith s c 12 a b → Gives (.minu c) s (writeRd s.dev c (if a.toNat < b.toNat then a else b))) ∧
    (Arith s c 13 a b → Gives (.maxu c) s (writeRd s.dev c (if a.toNat < b.toNat then b else a))) ∧
    (Arith s c 14 a b → Gives (.mul c) s (writeRd s.dev c (a * b))) ∧
    (Arith s c 15 a b → Gives (.mulh c) s (writeRd s.dev c (BitVec.ofInt 64 (a.toInt * b.toInt / 2 ^ 64)))) ∧
    (Arith s c 16 a b → Gives (.mulhu c) s (writeRd s.dev c (BitVec.ofNat 64 (a.toNat * b.toNat / 2 ^ 64)))) ∧
    (Arith s c 17 a b → b ≠ 0 → Gives (.div c) s (writeRd s.dev c (BitVec.ofInt 64 (a.toInt.tdiv b.toInt)))) ∧
    (Arith s c 18 a b → b ≠ 0 → Gives (.divu c) s (writeRd s.dev c (BitVec.ofNat 64 (a.toNat / b.toNat)))) ∧
    (Arith s c 19 a b → b ≠ 0 → Gives (.rem c) s (writeRd s.dev c (BitVec.ofInt 64 (a.toInt.tmod b.toInt)))) ∧
    (Arith s c 20 a b → b ≠ 0 → Gives (.remu c) s (writeRd s.dev c (BitVec.ofNat 64 (a.toNat % b.toNat)))) ∧
    (Arith s c 17 a 0 → Gives (.div c) s (writeRd s.dev c (BitVec.allOnes 64))) ∧
    (Arith s c 18 a 0 → Gives (.divu c) s (writeRd s.dev c (BitVec.allOnes 64))) ∧
    (Arith s c 19 a 0 → Gives (.rem c) s (writeRd s.dev c a)) ∧
    (Arith s c 20 a 0 → Gives (.remu c) s (writeRd s.dev c a)) ∧
    (Arith s c 17 (BitVec.intMin 64) (-1) → Gives (.div c) s (writeRd s.dev c (BitVec.intMin 64))) ∧
    (Arith s c 19 (BitVec.intMin 64) (-1) → Gives (.rem c) s (writeRd s.dev c 0)))

open Sys2Proof Sys2Proof.Machine Sys2Proof.Claims in
/-- R88: CLZ writes the number of leading zeros of ra, 0 to 64, POPC the number of set bits, LIW the sign-extended
IMM48. -/
def Obligations.CountsOfBits : Prop :=
  ∀ (s : State) (c : Nat) (a : W64),
    let w := s.dev.instr c
    (Arith s c 21 a 0 → (opOf w = 1 → rbOf w = 0) → (opOf w = 2 → immOf w = 0) →
      ∃ n : Nat, n ≤ 64 ∧ a.toNat < 2 ^ (64 - n) ∧ (n < 64 → 2 ^ (63 - n) ≤ a.toNat) ∧
        Gives (.clz c) s (writeRd s.dev c (BitVec.ofNat 64 n))) ∧
    (Arith s c 22 a 0 → (opOf w = 1 → rbOf w = 0) → (opOf w = 2 → immOf w = 0) →
      Gives (.popc c) s (writeRd s.dev c (BitVec.ofNat 64 ((List.range 64).countP (fun i => a.getLsbD i))))) ∧
    (Live s → s.dev.canIssue c = true → opOf w = 3 → raOf w = 0 → s.dev.interlocked c w = false →
      Gives (.liw c) s (writeRd s.dev c ((BitVec.extractLsb' 0 48 w).signExtend 64)))

open Sys2Proof Sys2Proof.Machine Sys2Proof.Claims in
/-- R89: LD and ST of every width complete at an aligned address inside one local memory without an uncorrectable
word: a load writes rd with the bytes zero or sign extended, a store writes the low bytes of rb there. -/
def Obligations.LoadsAndStores : Prop :=
  ∀ (s : State) (c : Nat) (a : W64),
    let d := s.dev
    let w := d.instr c
    let load := fun (fn n : Nat) => Issues s c 5 fn ∧ Unused w true true false ∧ LocalAccess s c n a ∧ d.lbad c a.toNat n = false
    let store := fun (fn n : Nat) =>
      Issues s c 6 fn ∧ Unused w false true true ∧ LocalAccess s c n a ∧ (n < 4 → d.lbad c a.toNat n = false)
    let loaded := fun (n : Nat) (v : W64) => (((d.countLce c a.toNat n).setS c (rdOf w) v).retire c)
    let v := (d.sreg c (rbOf w)).toNat
    let part := fun (n : Nat) => (d.lwrPart c a.toNat n v).retire c
    let stored := fun (n : Nat) => (d.lwr c a.toNat n v).retire c
    (load 0 1 → Gives (.ld8u c) s (loaded 1 (BitVec.ofNat 64 (d.lrd c a.toNat 1)))) ∧
    (load 1 1 → Gives (.ld8s c) s (loaded 1 ((BitVec.ofNat 8 (d.lrd c a.toNat 1)).signExtend 64))) ∧
    (load 2 2 → Gives (.ld16u c) s (loaded 2 (BitVec.ofNat 64 (d.lrd c a.toNat 2)))) ∧
    (load 3 2 → Gives (.ld16s c) s (loaded 2 ((BitVec.ofNat 16 (d.lrd c a.toNat 2)).signExtend 64))) ∧
    (load 4 4 → Gives (.ld32u c) s (loaded 4 (BitVec.ofNat 64 (d.lrd c a.toNat 4)))) ∧
    (load 5 4 → Gives (.ld32s c) s (loaded 4 ((BitVec.ofNat 32 (d.lrd c a.toNat 4)).signExtend 64))) ∧
    (load 6 8 → Gives (.ld64 c) s (loaded 8 (BitVec.ofNat 64 (d.lrd c a.toNat 8)))) ∧
    (store 0 1 → Gives (.st8 c) s (part 1)) ∧ (store 2 2 → Gives (.st16 c) s (part 2)) ∧
    (store 4 4 → Gives (.st32 c) s (stored 4)) ∧ (store 6 8 → Gives (.st64 c) s (stored 8))

open Sys2Proof Sys2Proof.Machine Sys2Proof.Claims in
/-- R92, R93, R94: A branch whose condition holds sets pc to TARGET, otherwise it retires. JAL and JR set pc. JR of
2,048 or more traps with PC_RANGE. LOOP with ra = 0 skips its body, and otherwise pushes an entry. -/
def Obligations.BranchesAndJumps : Prop :=
  ∀ (s : State) (c : Nat),
    let d := s.dev
    let w := d.instr c
    let a := d.sreg c (raOf w)
    let b := d.sreg c (rbOf w)
    let t := targetOf w
    let stack := (d.core c).loops
    let br := fun (fn : Nat) => Issues s c 8 fn ∧ Unused w false true true ∧ W64.bits w 37 11 = 0
    let go := fun (x : Prop) [Decidable x] => if x then d.retireTo c t else d.retire c
    let loop := Issues s c 11 0 ∧ Unused w false true false ∧ W64.bits w 37 11 = 0 ∧ d.pc c < t ∧ (∀ l ∈ stack.head?, t ≤ l.fin)
    (br 0 → Gives (.beq c) s (go (a = b))) ∧ (br 1 → Gives (.bne c) s (go (a ≠ b))) ∧
    (br 2 → Gives (.blt c) s (go (a.toInt < b.toInt))) ∧ (br 3 → Gives (.bge c) s (go (b.toInt ≤ a.toInt))) ∧
    (br 4 → Gives (.bltu c) s (go (a.toNat < b.toNat))) ∧ (br 5 → Gives (.bgeu c) s (go (b.toNat ≤ a.toNat))) ∧
    (Issues s c 9 0 → Unused w true false false → W64.bits w 37 11 = 0 →
      Gives (.jal c) s ((d.setS c (rdOf w) (BitVec.ofNat 64 (d.pc c + 1))).retireTo c t)) ∧
    (Issues s c 10 0 → Unused w false true false → W64.bits w 37 0 = 0 → a.toNat < 2048 →
      Gives (.jr c) s (d.retireTo c a.toNat)) ∧
    (Issues s c 10 0 → Unused w false true false → W64.bits w 37 0 = 0 → 2048 ≤ a.toNat →
      Gives (.jr c) s (d.trap c 6 a.toNat)) ∧
    (loop → a = 0 → Gives (.loop c) s ((d.add CORE_SEQ_RETIRED.RETIRED 1 c).wr CORE_SEQ_PC.PC (t + 1) c)) ∧
    (loop → a ≠ 0 → stack.length ≠ 4 → Gives (.loop c) s
      (((d.updCore c (fun k => { k with loops := { start := d.pc c + 1, fin := t, left := a.toNat } :: stack })).add
        CORE_SEQ_RETIRED.RETIRED 1 c).wr CORE_SEQ_PC.PC (d.pc c + 1) c)) ∧
    (loop → a ≠ 0 → stack.length = 4 → Gives (.loop c) s (d.trap c 7 0))

open Sys2Proof Sys2Proof.Machine Sys2Proof.Claims in
/-- R99: Each of the six instructions of R99 completes with its operation: descriptors load and store as 32 B, and
BASE or one word is set or read. BASE stays in its ring block when RING is not zero. -/
def Obligations.DescriptorInstructions : Prop :=
  ∀ (s : State) (c : Nat) (a : W64),
    let d := s.dev
    let w := d.instr c
    let n := rbOf w
    let v := d.descBits c n
    let e := d.desc c n
    let x := d.sreg c (raOf w) + (BitVec.extractLsb' 0 32 w).signExtend 64
    let ok := fun (fn : Nat) (rd ra : Bool) => Issues s c 12 fn ∧ Unused w rd ra true ∧ n < 16
    let based := fun (y : Nat) => (d.setDesc c n (setWord32 v 0 (word32 v 0 / 2 ^ 20 * 2 ^ 20 + y % 2 ^ 20))).retire c
    (ok 0 false true → LocalAccess s c 32 a → d.lbad c a.toNat 32 = false →
      Gives (.dld c) s (((d.countLce c a.toNat 32).setDesc c n (d.lrd c a.toNat 32)).retire c)) ∧
    (ok 1 false true → LocalAccess s c 32 a → Gives (.dst c) s ((d.lwr c a.toNat 32 v).retire c)) ∧
    (ok 2 false true → Gives (.dsetb c) s (based x.toNat)) ∧
    (ok 3 false true → e.ring = 0 → Gives (.daddb c) s (based (e.base + x.toNat))) ∧
    (ok 3 false true → e.ring ≠ 0 →
      Gives (.daddb c) s (based (e.base / e.ring * e.ring + (e.base + x.toNat) % 2 ^ 20 % e.ring))) ∧
    (ok 4 false true → immOf w < 8 →
      Gives (.dsetw c) s ((d.setDesc c n (setWord32 v (immOf w) (d.sreg c (raOf w)).toNat)).retire c)) ∧
    (ok 5 true false → immOf w < 8 → Gives (.dgetw c) s (writeRd d c (BitVec.ofNat 64 (word32 v (immOf w)))))

open Sys2Proof Sys2Proof.Machine Sys2Proof.Claims in
/-- R106, R107, R109, R110, R111, R84: NOP retires. HALT writes the exit code, retires and drains with cause 1. TRAP
and a reserved opcode take their traps. TRET restores pc, the loop stack and IN_TRAP. RDSYS reads its value, for
CYCLES a count that has moved on by a free amount. SETMODE sets the FP8 mode. A fetch error writes a record and traps. -/
def Obligations.SystemInstructions : Prop :=
  ∀ (s : State) (c : Nat),
    let d := s.dev
    let w := d.instr c
    let pc := (d.rd CORE_SEQ_TPC.TPC c + immOf w % 2) % 2048
    (Issues s c 0x1C 0 → Unused w false false false → immOf w = 0 → Gives (.nop c) s (d.retire c)) ∧
    (Issues s c 0x1C 1 → Unused w false false false →
      Gives (.halt c) s (((d.wr CORE_SEQ_EXIT.CODE (immOf w % 65536) c).retire c).beginHalt c 1)) ∧
    (Issues s c 0x1C 2 → Unused w false false false → Gives (.trap c) s (d.trap c 12 ((BitVec.extractLsb' 0 32 w).signExtend 64).toNat)) ∧
    (Issues s c 0x1C 3 → Unused w false false false → d.rd CORE_SEQ_STAT.IN_TRAP c ≠ 0 →
      Gives (.tret c) s ((((d.updCore c (fun k => { k with loops := k.shadowLoops, shadowLoops := [] })).wr
        CORE_SEQ_STAT.IN_TRAP 0 c)).retireTo c pc)) ∧
    (Issues s c 0x1C 3 → Unused w false false false → d.rd CORE_SEQ_STAT.IN_TRAP c = 0 →
      Gives (.tret c) s (d.trap c 1 w.toNat)) ∧
    (Issues s c 0x1C 4 → Unused w true false false →
      (immOf w % 16 = 0 → let t := d.advance CORE_SEQ_CYCLES.CYCLES c
        Gives (.rdsys c) s (writeRd t c (BitVec.ofNat 64 (t.rd CORE_SEQ_CYCLES.CYCLES c)))) ∧
      (immOf w % 16 = 1 → Gives (.rdsys c) s (writeRd d c (BitVec.ofNat 64 (d.rd CORE_SEQ_RETIRED.RETIRED c)))) ∧
      (immOf w % 16 = 2 → Gives (.rdsys c) s (writeRd d c (BitVec.ofNat 64 (d.timeOf (coreHalf c))))) ∧
      (immOf w % 16 = 3 → Gives (.rdsys c) s (writeRd d c (BitVec.ofNat 64 c))) ∧
      (immOf w % 16 = 4 → Gives (.rdsys c) s (writeRd d c (BitVec.ofNat 64 (d.rd CORE_SEQ_TENANT.TENANT c)))) ∧
      (∀ p, immOf w % 16 = 5 → d.corePart c = some p → Gives (.rdsys c) s (writeRd d c (BitVec.ofNat 64 p))) ∧
      (immOf w % 16 = 5 → d.corePart c = none → Gives (.rdsys c) s (writeRd d c (BitVec.allOnes 64)))) ∧
    (Issues s c 0x1C 5 → Unused w false true false → immOf w = 0 →
      Gives (.setmode c) s ((d.wr CORE_SEQ_STAT.FP8_SAT ((d.sreg c (raOf w)).toNat % 2) c).retire c)) ∧
    (∀ op fn, Issues s c op fn → (op = 0 ∨ op = 4 ∨ op = 13 ∨ (op = 0x18 ∧ fn ≠ 0) ∨ (op = 0x1C ∧ 6 ≤ fn)) →
      Gives (.illegal c) s (d.trap c 1 w.toNat)) ∧
    (Live s → d.canIssue c = true → Gives (.ifetchUe c) s ((d.err 2 5 (unitCore c 0 0) 0).trap c 2 (d.pc c)))

open Sys2Proof Sys2Proof.Machine Sys2Proof.Claims in
/-- R109: With IN_TRAP set the core halts with DOUBLE_TRAP, without a trap vector with NO_VECTOR. Otherwise TCAUSE,
TVAL and TPC are written, the loop stack goes to its shadow copy, IN_TRAP is set and pc goes to TVEC.INDEX, while
scalar registers and descriptors stay. -/
def Obligations.TakingATrap : Prop :=
  ∀ (d : Dev) (c cause tval : Nat) (imprecise : Bool),
    let t := d.trap c cause tval imprecise
    (d.rd CORE_SEQ_STAT.IN_TRAP c ≠ 0 → t = (d.beginHalt c 4).err 12 0 (unitCore c 0 0) 0) ∧
    (d.rd CORE_SEQ_STAT.IN_TRAP c = 0 → d.rd CORE_SEQ_TVEC.VALID c = 0 → t = (d.beginHalt c 3).err 12 0 (unitCore c 0 0) 0) ∧
    (d.rd CORE_SEQ_STAT.IN_TRAP c = 0 → d.rd CORE_SEQ_TVEC.VALID c ≠ 0 → cause < 32 → tval < 2 ^ 64 → d.pc c < 2048 →
      d.rd CORE_SEQ_TVEC.INDEX c < 2048 →
      t.rd CORE_SEQ_TCAUSE.CAUSE c = cause ∧ t.rd CORE_SEQ_TVAL.TVAL c = tval ∧
      t.rd CORE_SEQ_TCAUSE.IMPRECISE c = (if imprecise then 1 else 0) ∧ t.rd CORE_SEQ_TPC.TPC c = d.pc c ∧
      t.core c = { d.core c with loops := [], shadowLoops := (d.core c).loops } ∧ t.rd CORE_SEQ_STAT.IN_TRAP c = 1 ∧
      t.rd CORE_SEQ_PC.PC c = d.rd CORE_SEQ_TVEC.INDEX c ∧
      (∀ r, t.sreg c r = d.sreg c r) ∧ (∀ n, t.descBits c n = d.descBits c n) ∧
      (∀ c', c' ≠ c → t.core c' = d.core c') ∧ t.lmem = d.lmem ∧ t.mem = d.mem)

open Sys2Proof Sys2Proof.Machine Sys2Proof.Claims in
/-- R95: Outside a loop end pc advances by one index. At the end of the innermost loop it returns to the start while
passes are left, and otherwise pops the entry. A redirected pc pops every entry whose body does not hold it. -/
def Obligations.Retirement : Prop :=
  ∀ (d : Dev) (c : Nat),
    let pc := d.pc c
    ((∀ l ∈ (d.core c).loops.head?, l.fin ≠ pc) →
      (d.retire c).rd CORE_SEQ_PC.PC c = (pc + 1) % 2048 ∧ ((d.retire c).core c).loops = (d.core c).loops) ∧
    (∀ l t, (d.core c).loops = l :: t → l.fin = pc → 1 < l.left → l.start < 2048 →
      (d.retire c).rd CORE_SEQ_PC.PC c = l.start ∧
      ((d.retire c).core c).loops = { l with left := l.left - 1 } :: t) ∧
    (∀ l, (d.core c).loops = [l] → l.fin = pc → l.left ≤ 1 →
      (d.retire c).rd CORE_SEQ_PC.PC c = (pc + 1) % 2048 ∧ ((d.retire c).core c).loops = []) ∧
    (∀ t, t < 2048 → (d.retireTo c t).rd CORE_SEQ_PC.PC c = t ∧
      ((d.retireTo c t).core c).loops = (d.core c).loops.filter (fun l => decide (l.start ≤ t) && decide (t ≤ l.fin))) ∧
    ((d.retire c).rd CORE_SEQ_RETIRED.RETIRED c = (d.rd CORE_SEQ_RETIRED.RETIRED c + 1) % 2 ^ 64) ∧
    (∀ r, (d.retire c).sreg c r = d.sreg c r) ∧ (d.retire c).lmem = d.lmem ∧ (d.retire c).mem = d.mem

open Sys2Proof Sys2Proof.Machine Sys2Proof.Claims in
/-- R70, R87, R95: Writing rd and retiring changes scalar register rd (none for s0), PC, RETIRED, SLEEPING and the
loop stack of that core: every other scalar register, register field, core and byte of memory stays. -/
def Obligations.WritingRdTouchesNothingElse : Prop :=
  ∀ (d : Dev) (c : Nat) (v : W64),
    let r := rdOf (d.instr c)
    let t := writeRd d c v
    (r ≠ 0 → t.sreg c r = v) ∧ t.sreg c 0 = 0 ∧ (∀ r', r' ≠ r → t.sreg c r' = d.sreg c r') ∧
    (∀ c', c' ≠ c → t.core c' = d.core c') ∧ (t.core c).desc = (d.core c).desc ∧
    t.mem = d.mem ∧ t.lmem = d.lmem ∧ t.lue = d.lue ∧ t.out = d.out ∧ t.imem = d.imem ∧
    (∀ (f : Fld) (u i j : Nat),
      f.key u i j ∉ [CORE_SEQ_PC.PC.key c 0 0, CORE_SEQ_RETIRED.RETIRED.key c 0 0, CORE_SEQ_STAT.SLEEPING.key c 0 0] →
      t.rd f u i j = d.rd f u i j)

open Sys2Proof Sys2Proof.Machine Sys2Proof.Claims in
/-- R81, R82, R78, R79: START loads a core that is not refused, and otherwise sets CTRL_LOST. HALT_REQ marks a running
or loading core as halting with cause 2. RESUME runs a core halted by HALT_REQ, and otherwise sets CTRL_LOST. TENANT
can be written only while the core neither loads nor runs. A write inside a Curtain sets ACCESS_LOST
and changes nothing else. A halting core whose units are empty becomes HALTED. A good
image fills instruction memory and the program begins, or the core halts at once where HALT_REQ came while it loaded.
A failed check halts it with cause 5, an error completion with cause 6, both with a record of class HALT. -/
def Obligations.ProgramControl : Prop :=
  (∀ (s : State) (c v : Nat), Live s → s.dev.coreCurtained c = true →
    ∀ i ∈ [Instr.coreStart c v, .haltReq c v, .resume c v, .coreSeqTenantWrite c v],
      Gives i s (s.dev.wr SEQ_STAT.ACCESS_LOST 1)) ∧
  (∀ (s : State) (c v : Nat), Live s → s.dev.coreCurtained c = false →
    let d := s.dev
    let e := d.wr CORE_SEQ_CTRL.FP8_SAT v c
    let st := d.rd CORE_SEQ_STAT.STATE c
    (v < 2 ^ 29 → e.startRefused c = false → Gives (.coreStart c v) s (e.beginLoad c false)) ∧
    (v < 2 ^ 29 → e.startRefused c = true → Gives (.coreStart c v) s (e.wr CORE_SEQ_STAT.CTRL_LOST 1 c)) ∧
    (v < 2 ^ 29 → st = 1 → Gives (.haltReq c v) s (e.updCore c (fun k => { k with halting := some 2 }))) ∧
    (v < 2 ^ 29 → st = 2 → (d.core c).halting = none → (d.core c).wait = .run →
      Gives (.haltReq c v) s ((e.wr CORE_SEQ_STAT.SLEEPING 0 c).updCore c (fun k => { k with halting := some 2 }))) ∧
    (v < 2 ^ 29 → (st = 0 ∨ st = 3) → Gives (.haltReq c v) s e) ∧
    (v < 2 ^ 29 → st = 3 → d.rd CORE_SEQ_STAT.HALT_CAUSE c = 2 →
      Gives (.resume c v) s (e.wr CORE_SEQ_STAT.STATE 2 c)) ∧
    (v < 2 ^ 29 → (st ≠ 3 ∨ d.rd CORE_SEQ_STAT.HALT_CAUSE c ≠ 2) →
      Gives (.resume c v) s (e.wr CORE_SEQ_STAT.CTRL_LOST 1 c)) ∧
    ((st = 1 ∨ st = 2) → Gives (.coreSeqTenantWrite c v) s (d.wr CORE_SEQ_STAT.CTRL_LOST 1 c)) ∧
    (st ≠ 1 → st ≠ 2 → Gives (.coreSeqTenantWrite c v) s (d.wr CORE_SEQ_TENANT.TENANT v c)) ∧
    (∀ cause, (d.core c).halting = some cause → (d.core c).wait = .run → st = 2 → (d.core c).drained = true →
      Gives (.haltDrainDone c) s (d.enterHalted c cause)) ∧
    ((d.core c).drained = false → Gives (.haltDrainDone c) s d)) ∧
  (∀ (s : State) (c : Nat) (d' : Dev), Live s → s.dev.rd CORE_SEQ_STAT.STATE c = 1 →
    let d := s.dev
    let n := d.rd CORE_SEQ_LOAD_LEN.COUNT c
    let load := Dev.loadImage c (n + 2) (d.imageDa c) (8 * n) d
    (∀ image, load = (.inl image, d') → (d'.core c).halting = none →
      Gives (.programLoadDone c) s ((d'.fillImem c n image).beginProgram c)) ∧
    (∀ image k, load = (.inl image, d') → (d'.core c).halting = some k →
      Gives (.programLoadDone c) s (((d'.fillImem c n image).beginProgram c).enterHalted c 2)) ∧
    (load = (.inr .check, d') →
      Gives (.programLoadDone c) s ((d'.err 12 6 (unitCore c 0 0) 0).enterHalted c 5)) ∧
    (∀ cls, load = (.inr (.error cls), d') →
      Gives (.programLoadDone c) s ((d'.err 12 6 (unitCore c 0 0) 0).enterHalted c 6)))

open Sys2Proof Sys2Proof.Machine Sys2Proof.Claims in
/-- R78: Scalar registers 1 to 4 hold the low words of the four arguments, every other scalar register and descriptor
reads zero, the loop stack is empty, IN_TRAP and RETIRED are 0, pc is the entry index and STATE is RUNNING. -/
def Obligations.AProgramBegins : Prop :=
  ∀ (d : Dev) (c : Nat),
    let t := d.beginProgram c
    (∀ i, i < 4 → t.sreg c (i + 1) = BitVec.ofNat 64 (d.rd CORE_SEQ_ARGn.VALUE c i)) ∧
    (∀ r, r = 0 ∨ 5 ≤ r → t.sreg c r = 0) ∧ (∀ n, t.descBits c n = 0) ∧ (t.core c).loops = [] ∧
    t.rd CORE_SEQ_STAT.IN_TRAP c = 0 ∧ t.rd CORE_SEQ_RETIRED.RETIRED c = 0 ∧ t.rd CORE_SEQ_STAT.STATE c = 2 ∧
    (d.rd CORE_SEQ_ENTRY.INDEX c < 2048 → t.rd CORE_SEQ_PC.PC c = d.rd CORE_SEQ_ENTRY.INDEX c) ∧
    t.mem = d.mem ∧ t.lmem = d.lmem ∧ t.imem = d.imem ∧ (∀ c', c' ≠ c → t.core c' = d.core c')

open Sys2Proof Sys2Proof.Machine Sys2Proof.Claims in
/-- R78: When START begins a load for a tenant that is not the one of the previous program, every byte of the core's
local memories reads zero and its receive queue is empty. Local memories of other cores stay. For the same tenant
local memory and the receive queue stay. -/
def Obligations.ANewTenantFindsNothing : Prop :=
  ∀ (d : Dev) (c : Nat),
    let t := d.beginLoad c false
    t.rd CORE_SEQ_STAT.STATE c = 1 ∧ (t.core c).halting = none ∧ (t.core c).traps = [] ∧ (t.core c).dma = [] ∧
    ((d.core c).prevTenant ≠ some (d.rd CORE_SEQ_TENANT.TENANT c) →
      (∀ a n, a + n ≤ 2 ^ 20 → t.lrd c a n = 0) ∧ (t.core c).recvq = [] ∧
      (∀ c' a n, c' ≠ c → a + n ≤ 2 ^ 20 → t.lrd c' a n = d.lrd c' a n)) ∧
    ((d.core c).prevTenant = some (d.rd CORE_SEQ_TENANT.TENANT c) → t.lmem = d.lmem ∧ (t.core c).recvq = (d.core c).recvq) ∧
    (t.core c).prevTenant = some (d.rd CORE_SEQ_TENANT.TENANT c) ∧ t.mem = d.mem

open Sys2Proof Sys2Proof.Machine Sys2Proof.Claims in
/-- R105, R91, R26, R374: FENCE retires when the classes of its mask are empty, and otherwise waits until FENCE_RELEASE
finds them so. A register-space load or store at an aligned register DA waits for its access, which carries the BANK of
its issue, and traps with REG_FAULT elsewhere, with an error record where the value addresses nothing. The access then
writes rd, or traps with cause 8. -/
def Obligations.FenceAndRegisterSpace : Prop :=
  ∀ (s : State) (c : Nat),
    let d := s.dev
    let w := d.instr c
    let a := (d.sreg c (raOf w) + (BitVec.extractLsb' 0 32 w).signExtend 64).toNat
    let at_ := fun (fn n : Nat) (wr : Bool) (i : Instr) =>
      (Issues s c 7 fn → Unused w (!wr) true wr → (∀ da, daOf a = some da → 2 ^ 47 ≤ da → da % n = 0 →
        Gives i s (d.updCore c (fun k =>
          { k with wait := .reg wr (n == 8) da (d.sreg c (rbOf w)).toNat (rdOf w) (d.epochBank (coreHalf c)) })))) ∧
      (Issues s c 7 fn → Unused w (!wr) true wr → (∀ da, daOf a = some da → da < 2 ^ 47 ∨ da % n ≠ 0) →
        Gives i s ((if daOf a = none ∧ a % n = 0 then d.err 3 (if wr then 2 else 1) (unitCore c 0 0) a else d).trap c 8 a))
    (Issues s c 0x18 0 → Unused w false false false → immOf w < 128 →
      ((d.core c).fenced (immOf w) = true → Gives (.fence c) s (d.fenceEnd c (immOf w))) ∧
      ((d.core c).fenced (immOf w) = false → Gives (.fence c) s (d.setWait c (.fence (immOf w))))) ∧
    (∀ mask, Live s → (d.core c).wait = .fence mask →
      ((d.core c).fenced mask = true → Gives (.fenceRelease c) s ((d.fenceEnd c mask).endWait c)) ∧
      ((d.core c).fenced mask = false → Gives (.fenceRelease c) s d)) ∧
    at_ 0 4 false (.rld32 c) ∧ at_ 1 4 true (.rst32 c) ∧ at_ 2 8 false (.rld64 c) ∧ at_ 3 8 true (.rst64 c) ∧
    (∀ write wide da val rd b d' m, Live s → (d.core c).wait = .reg write wide da val rd b →
      d.regAccess (.core c) da (if wide then 8 else 4) (if write then some val else none) (some b) = (m, d') →
      (∀ write' wide' da' val' rd' b', (d'.core c).wait = .reg write' wide' da' val' rd' b' →
        (m = none → Gives (.regAccessComplete c) s (d'.endWaitTrap c 8 da)) ∧
        (∀ v, m = some v → write = true → Gives (.regAccessComplete c) s ((d'.retire c).endWait c)) ∧
        (∀ v, m = some v → write = false →
          Gives (.regAccessComplete c) s (((d'.setS c rd (BitVec.ofNat 64 v)).retire c).endWait c))) ∧
      ((d'.core c).wait = .run → Gives (.regAccessComplete c) s d')) ∧
    (Live s → (d.core c).wait = .run → Gives (.regAccessComplete c) s d)

open Sys2Proof Sys2Proof.Machine Sys2Proof.Claims in
/-- R101, R102, R329, R330: MSEND queues a message with its header and payload and retires. MRECV and MPOLL take the
oldest message, write its payload and header, and on an empty queue MRECV sleeps while MPOLL answers all ones. The
receiver acknowledges, refuses or fails a message. An ACK frees the slot, a NACK FULL waits for BACKOFF, and a failure
is counted and latched. -/
def Obligations.Messages : Prop :=
  ∀ (s : State) (c i : Nat),
    let d := s.dev
    let w := d.instr c
    let a := (d.sreg c (raOf w)).toNat
    let b := (d.sreg c (rbOf w)).toNat
    let n := (W64.bits w 12 8 + 1) * 8
    let msg : Msg :=
      { dst := a, src := c, tenant := d.rd CORE_SEQ_TENANT.TENANT c, tag := W64.bits w 7 0, len := n,
        data := bytesOf (d.lrd c b n) n, phase := .queued, tries := 0, pcIdx := d.pc c }
    let queued := ((d.countLce c b n).updCore c (fun k => { k with sendq := k.sendq ++ [msg] })).retire c
    let send := Issues s c 0x10 0 ∧ Unused w false true true ∧ immOf w < 2 ^ 13 ∧ b % 8 = 0 ∧ b < 2 ^ 20 ∧ spanOk b n = true ∧
      a < 4096 ∧ d.lbad c b n = false
    let recv := fun (fn : Nat) => Issues s c 0x10 fn ∧ Unused w true true false ∧ immOf w = 0 ∧ a % 8 = 0
    let taken := fun (m : Msg) (rest : List Msg) =>
      (((d.lwr c a m.len (m.data.foldr (fun x y => x.toNat + 256 * y) 0)).updCore c
        (fun k => { k with recvq := rest })).setS c (rdOf w) (BitVec.ofNat 64 m.header)).retire c
    (send → (d.core c).sendq.length < 8 → (∃ p, queued.corePart c = some p ∧ queued.corePart a = some p) →
      Gives (.msend c) s queued) ∧
    (send → 8 ≤ (d.core c).sendq.length → Gives (.msend c) s d) ∧
    (∀ m rest, recv 1 → (d.core c).recvq = m :: rest → a < 2 ^ 20 → spanOk a m.len = true →
      Gives (.mrecv c) s (taken m rest)) ∧
    (recv 1 → (d.core c).recvq = [] → Gives (.mrecv c) s (d.wr CORE_SEQ_STAT.SLEEPING 1 c)) ∧
    (∀ m rest, recv 2 → (d.core c).recvq = m :: rest → a < 2 ^ 20 → spanOk a m.len = true →
      Gives (.mpoll c) s (taken m rest)) ∧
    (recv 2 → (d.core c).recvq = [] → Gives (.mpoll c) s (writeRd d c (BitVec.allOnes 64))) ∧
    (∀ m, Live s → (d.core c).sendq[i]? = some m →
      let dst := d.seenAt (coreHalf c) (coreCluster m.dst) * 16 + m.dst % 16
      let first := m.phase = .queued ∧ ((d.core c).sendq.take i).any (fun e => e.dst == m.dst) = false ∧
        d.meshLost (coreCluster c) (coreCluster m.dst) = false
      (first → d.coreEnabled dst = true → (d.core dst).recvq.length < 32 → d.coreCurtained dst = false →
        d.rd CORE_SEQ_TENANT.TENANT dst = m.tenant →
        Gives (.msgArrive c i false) s (((d.updCore dst (fun k => { k with recvq := k.recvq ++ [m] })).add
          CORE_MSG_RCVD.COUNT 1 dst).setMsg c i .acked m.tries)) ∧
      (first → d.coreEnabled dst = true → 32 ≤ (d.core dst).recvq.length →
        Gives (.msgArrive c i false) s (d.setMsg c i .nacked m.tries)) ∧
      (first → d.coreEnabled dst = false → Gives (.msgArrive c i false) s (d.setMsg c i (.failing 1) m.tries)) ∧
      (m.phase = .acked → Gives (.msgAck c i) s
        ((d.updCore c (fun k => { k with sendq := delNth k.sendq i })).add CORE_MSG_SENT.COUNT 1 c)) ∧
      (m.phase = .nacked → Gives (.msgNack c i) s
        ((d.setMsg c i .backoff (m.tries + 1)).add CORE_MSG_NACKS.COUNT 1 c)) ∧
      (m.phase = .backoff → m.tries < d.rd CORE_MSG_CTRL.RETRY_LIMIT c →
        Gives (.msgBackoffExpiry c i) s (d.setMsg c i .queued m.tries)) ∧
      (m.phase = .backoff → d.rd CORE_MSG_CTRL.RETRY_LIMIT c ≤ m.tries →
        Gives (.msgBackoffExpiry c i) s (d.msgFail c i 4)) ∧
      (∀ cause, m.phase = .failing cause → Gives (.msgFailReply c i) s (d.msgFail c i cause)))

open Sys2Proof Sys2Proof.Machine Sys2Proof.Claims in
/-- R103, R104, R319, R327, R328, R316, R318, R320, R322, R326: DMAQ queues its chain and answers 1, or 0 where it does
not fit. DMAC queues one COPY. DMAW answers the status of a quiet channel and sleeps on a busy one, DMAS answers it at
once. DMAR and the host commands restart a halted channel or discard its queue; inside a Curtain the host commands only
set ACCESS_LOST. A COPY or FILL descriptor that passes its checks begins, and MARK completes at once. A bad descriptor
halts its channel with cause 7 or 8. Each response moves a chunk, counts its bytes, and completes the descriptor with
its last byte or halts the channel at the address at fault; requests in flight behind it complete, as many as a free
value says. -/
def Obligations.DmaCommands : Prop :=
  (∀ (s : State) (c ch : Nat),
    let d := s.dev
    let w := d.instr c
    let a := (d.sreg c (raOf w)).toNat
    let b := (d.sreg c (rbOf w)).toNat
    let n := immOf w % 8
    let queue := Issues s c 0x14 0 ∧ Unused w true true true ∧ immOf w < 8 ∧ 1 ≤ b ∧ b ≤ 64 ∧ a % 32 = 0 ∧ a < 2 ^ 20 ∧
      spanOk a (32 * b) = true
    let m := W64.bits w 30 28
    let units := W64.bits w 12 0 + 1
    let copy := Issues s c 0x14 1 ∧ Unused w true true true ∧ W64.bits w 27 13 = 0 ∧ a % 32 = 0 ∧ b % 32 = 0 ∧ b < 2 ^ 20 ∧
      spanOk b (32 * units) = true
    let cue := if rdOf w = 0 ∨ 2 ^ 14 ≤ (d.sreg c (rdOf w)).toNat then none else some (d.sreg c (rdOf w)).toNat
    let again := fun (k : DmaCh) (keep : Bool) =>
      { k with q := if keep then k.q else [], begun := false, pos := 0, cause := 0, lost := false, poison := false,
               halted := false }
    (queue → (d.ch c n).halted = false → (d.ch c n).q.length + b ≤ 64 →
      Gives (.dmaq c) s ((((d.countLce c a (32 * b)).updCh c n (fun k => { k with q := k.q ++ d.chain c a b })).setS c (rdOf w) 1).retire c)) ∧
    (queue → ((d.ch c n).halted = true ∨ 64 < (d.ch c n).q.length + b) → Gives (.dmaq c) s (writeRd d c 0)) ∧
    (∀ da, copy → daOf a = some da → (d.ch c m).halted = false → (d.ch c m).q.length < 64 →
      Gives (.dmac c) s ((d.updCh c m (fun k => { k with q := k.q ++
        [{ raw := dmacRaw (W64.bits w 31 31) da b units cue, ue := none, badDa := none, kv := none }] })).retire c)) ∧
    (copy → (d.ch c m).halted = true →
      Gives (.dmac c) s ((d.updCh c m (fun k => { k with lost := true })).retire c)) ∧
    (Issues s c 0x14 2 → Unused w true false false → immOf w < 8 →
      (((d.ch c n).q = [] ∨ (d.ch c n).halted = true) →
        Gives (.dmaw c) s (writeRd d c (BitVec.ofNat 64 (d.ch c n).status))) ∧
      ((d.ch c n).q ≠ [] → (d.ch c n).halted = false → Gives (.dmaw c) s (d.wr CORE_SEQ_STAT.SLEEPING 1 c))) ∧
    (Issues s c 0x14 3 → Unused w true false false → immOf w < 8 →
      Gives (.dmas c) s (writeRd d c (BitVec.ofNat 64 (d.ch c n).status))) ∧
    (Issues s c 0x14 4 → Unused w false false false → immOf w < 16 →
      ((d.ch c n).halted = false → Gives (.dmar c) s (d.retire c)) ∧
      ((d.ch c n).halted = true →
        Gives (.dmar c) s ((d.updCh c n (fun k => again k (decide (immOf w < 8)))).retire c))) ∧
    (Live s → d.coreCurtained c = false → (d.ch c ch).halted = true →
      Gives (.dmaChanRestart c ch) s (d.updCh c ch (fun k => again k true)) ∧
      Gives (.dmaChanDiscard c ch) s (d.updCh c ch (fun k => again k false))) ∧
    (Live s → d.coreCurtained c = false → (d.ch c ch).halted = false →
      Gives (.dmaChanRestart c ch) s d ∧ Gives (.dmaChanDiscard c ch) s d) ∧
    (Live s → d.coreCurtained c = false → Gives (.dmaChanNop c ch) s d) ∧
    (Live s → d.coreCurtained c = true → ∀ i ∈ [Instr.dmaChanRestart c ch, .dmaChanDiscard c ch, .dmaChanNop c ch],
      Gives i s (d.wr SEQ_STAT.ACCESS_LOST 1))) ∧
  (∀ (s : State) (c ch : Nat) (ent : DmaEnt) (rest : List DmaEnt), Live s → (s.dev.ch c ch).q = ent :: rest →
    (s.dev.ch c ch).halted = false → ent.kv = none →
    let d := s.dev
    let k := d.ch c ch
    let e := DmaDesc.ofRaw ent.raw
    let started := d.updCh c ch (fun k => { k with begun := true, pos := 0, snap := [] })
    let fresh := k.begun = false ∧ ent.ue = none ∧ ent.badDa = none
    let r := d.dmaChunk c ch e k.pos
    let moved := (r.dev.add CORE_DMA_CHn_BYTES.BYTES r.done c ch).updCh c ch (fun k => { k with pos := k.pos + r.done })
    (fresh → e.bad = false → e.localOk = true → e.kind = 0 → Gives (.dmaCopy c ch) s started) ∧
    (fresh → e.bad = false → e.localOk = true → e.kind = 1 → Gives (.dmaFill c ch) s started) ∧
    (fresh → e.bad = false → e.kind = 2 → Gives (.dmaMark c ch) s (started.dmaComplete c ch e.cue)) ∧
    (fresh → e.bad = true → e.kind = 0 → Gives (.dmaCopy c ch) s (d.dmaHalt c ch 7 0)) ∧
    (fresh → e.bad = false → e.localOk = false → e.kind = 1 → Gives (.dmaFill c ch) s
      (d.dmaHalt c ch 8 e.localFault)) ∧
    (k.begun = true → r.halt = none → k.pos + r.done = e.total →
      Gives (.dmaResponse c ch) s (moved.dmaComplete c ch e.cue)) ∧
    (k.begun = true → r.halt = none → k.pos + r.done ≠ e.total → Gives (.dmaResponse c ch) s moved) ∧
    (∀ cause addr op unit, k.begun = true → r.halt = some (cause, addr, op, unit) →
      let b := (moved.dmaHalt c ch cause addr unit op).draw 3
      Gives (.dmaResponse c ch) s (Dev.dmaBehind c ch (b.1.toNat % 5) (moved.ch c ch).q (k.pos + e.chunkLen k.pos) b.2)))

open Sys2Proof Sys2Proof.Machine Sys2Proof.Claims in
/-- R326, R320: A halt sets HALTED, the cause and the address and keeps the queue. A completion drops the first
descriptor and counts it. The status word holds the count, the queue length, the cause and the bits LOST, POISON,
HALTED and BUSY in their places. -/
def Obligations.AHaltedChannel : Prop :=
  ∀ (d : Dev) (c n cause addr op : Nat) (u : Option Nat), n < 8 →
    let t := d.dmaHalt c n cause addr u op
    let x := d.dmaComplete c n none
    ((t.ch c n).halted = true ∧ (t.ch c n).cause = cause ∧ (t.ch c n).q = (d.ch c n).q ∧
      (addr < 2 ^ 48 → t.rd CORE_DMA_CHn_FAULT.ADDR c n = addr)) ∧
    (∀ m, m ≠ n → t.ch c m = d.ch c m ∧ x.ch c m = d.ch c m) ∧
    ((x.ch c n).q = (d.ch c n).q.drop 1 ∧ (x.ch c n).begun = false ∧
      (x.ch c n).doneCnt = ((d.ch c n).doneCnt + 1) % 2 ^ 16) ∧
    (∀ k : DmaCh, k.status < 2 ^ 32 ∧ k.status.testBit 0 = (!k.q.isEmpty && !k.halted) ∧ k.status.testBit 1 = k.halted ∧
      k.status.testBit 2 = k.poison ∧ k.status.testBit 3 = k.lost ∧ k.status / 16 % 16 = k.cause % 16 ∧
      k.status / 2 ^ 8 % 128 = k.q.length % 128 ∧ k.status / 2 ^ 16 = k.doneCnt % 2 ^ 16) ∧
    t.mem = d.mem ∧ t.lmem = d.lmem ∧ x.mem = d.mem ∧ x.lmem = d.lmem

open Sys2Proof Sys2Proof.Machine Sys2Proof.Claims in
/-- R148, R150, R151, R152, R161: An MMAC of each tile mode whose descriptors and shape pass R98 and R150 joins the
matrix queue with copies of its descriptors and retires, and waits while five are held. Completing takes the first
instruction and raises a fault by its lowest code. MCKS answers its word and clears it once the matrix unit is empty.
-/
def Obligations.MatrixInstructions : Prop :=
  ∀ (s : State) (c : Nat) (fx : List ArrayFx),
    let d := s.dev
    let w := d.instr c
    let acc := d.desc c (rdOf w)
    let dw := d.desc c (raOf w)
    let dx := d.desc c (rbOf w)
    let dws := d.desc c (mmDws w)
    let dxs := d.desc c (mmDxs w)
    let named := [acc, dw, dx] ++ (if mmWmx w then [dws] else []) ++ (if mmXmx w then [dxs] else [])
    let ready := fun (fn : Nat) =>
      Issues s c 0x20 fn ∧ mmFieldsOk w = true ∧ descTrap w named = none ∧ mmShapeOk w acc dw dx dws dxs = true
    let job : MxJob :=
      { word := w, pcIdx := d.pc c, dacc := d.descBits c (rdOf w), dw := d.descBits c (raOf w),
        dx := d.descBits c (rbOf w), dws := d.descBits c (mmDws w), dxs := d.descBits c (mmDxs w),
        ckEn := d.rd CORE_ARR_CTRL.CK_EN c, ckTrap := d.bit CORE_ARR_CTRL.CK_TRAP c,
        tol := d.rd CORE_ARR_CTRL.TOL c, entryFmt := d.rd CORE_MNG_CTRL.ENTRY_FMT c }
    let joined := (d.updCore c (fun k => { k with mxq := k.mxq ++ [job] })).retire c
    (∀ fn i, (fn, i) ∈ [(0, Instr.mmacIndependent c), (1, .mmacPacked c), (2, .mmacGanged c)] → ready fn →
      ((d.core c).mxq.length < 5 → Gives i s joined) ∧ (5 ≤ (d.core c).mxq.length → Gives i s d)) ∧
    (∀ j rest, Live s → (d.core c).mxq = j :: rest →
      let r := mxRun c j fx (d.updCore c (fun k => { k with mxq := rest }))
      (r.codes = [] → Gives (.mmacComplete c fx) s r.d) ∧
      (∀ k t, r.codes = k :: t → Gives (.mmacComplete c fx) s (r.d.unitFault c (t.foldl min k) j.pcIdx))) ∧
    (Issues s c 0x21 0 → Unused w true false false → immOf w = 0 →
      ((d.core c).mxq ≠ [] → Gives (.mcks c) s d) ∧
      ((d.core c).mxq = [] → Gives (.mcks c) s (((d.setS c (rdOf w) (d.core c).mcks.word).updCore c
        (fun k => { k with mcks := ⟨false, false, 0, 0⟩ })).retire c)))

open Sys2Proof Sys2Proof.Machine Sys2Proof.Claims in
/-- R141, R142, R146, R147, R149: Without an array effect, the terms of an output column are the exact products of the
weights and activations that feed it, over the chain of arrays. The entry becomes the single rounding of the sum of
its old value, or of zero with ZERO in the first step, and these terms. -/
def Obligations.MatrixProducts : Prop :=
  ∀ (c : Nat) (job : MxJob) (p : MxPlan) (t v a n : Nat) (r : MxRun), p.fx = [] →
    let e := Desc.ofBits job.dacc
    let x := (if p.fn = 2 then e.at n 0 v else e.at n a v).toNat
    let terms := (if p.fn = 2 then [0, 1, 2, 3] else [a]).flatMap (fun b =>
      ((List.range p.k).filter (fun i => p.feeds i n)).map (fun i => Sys2Proof.Machine.Num.mul (p.w t b n i) (p.x t v b i)))
    p.terms t v a n = terms ∧
    (mmZero job.word = true → t = 0 → mxAccumulate c job p t v a n r =
      { r with d := r.d.lwr c x 4 (encodeNum 0 true (Sys2Proof.Machine.Num.sum (Sys2Proof.Machine.Num.fin false 0 0 :: terms))) }) ∧
    ((mmZero job.word = false ∨ t ≠ 0) → r.d.lbad c x 4 = false → mxAccumulate c job p t v a n r =
      { r with d := (r.d.countLce c x 4).lwr c x 4 (encodeNum 0 true (Sys2Proof.Machine.Num.sum (decodeNum 0 (r.d.lrd c x 4) :: terms))) }) ∧
    (p.rsplit = 0 → p.csplit = 0 → ∀ i, p.feeds i n = true)

namespace Sys2Proof.Claims
open Sys2Proof Sys2Proof.Machine

/-- The vector instruction at the head of core `c` passes R84 and the checks of R98 and R178. -/
def VectorReady (s : State) (c : Nat) : Prop :=
  let d := s.dev
  let w := d.instr c
  Live s ∧ d.canIssue c = true ∧ d.interlocked c w = false ∧ vFieldsOk w = true ∧
  descTrap w ([d.desc c (rdOf w)] ++ (if vReadsDa w then [d.desc c (raOf w)] else []) ++
    (if vReadsDb w then [d.desc c (rbOf w)] else []) ++ (if vMxm w != 0 then [d.desc c (vDs w)] else [])) = none ∧
  vShapeOk w (d.desc c (rdOf w)) (d.desc c (raOf w)) (d.desc c (rbOf w)) (d.desc c (vDs w)) = true

/-- The attention instruction at the head of core `c` passes R84 and the checks of R98 and R178. -/
def AttentionReady (s : State) (c op fn : Nat) : Prop :=
  let d := s.dev
  let w := d.instr c
  Issues s c op fn ∧ aFieldsOk w = true ∧
  descTrap w ([d.desc c (rdOf w)] ++ (if aUsesDa w then [d.desc c (raOf w)] else []) ++
    (if aUsesDb w then [d.desc c (rbOf w)] else []) ++ (if aUsesDq w then [d.desc c (vDs w)] else [])) = none ∧
  aShapeOk w (d.desc c (rdOf w)) (d.desc c (raOf w)) (d.desc c (rbOf w)) (d.desc c (vDs w)) = true

/-- The device after the instruction at the head of core `c` has joined the vector queue, with copies of its descriptors,
the scalar operand and the modes sampled at issue, and retired. -/
def vectorJoined (d : Dev) (c scalar : Nat) : Dev :=
  let w := d.instr c
  let job : VJob :=
    { word := w, pcIdx := d.pc c, dd := d.descBits c (rdOf w), da := d.descBits c (raOf w), db := d.descBits c (rbOf w),
      ds := d.descBits c (vDs w), scalar := scalar, sat := d.bit CORE_SEQ_STAT.FP8_SAT c,
      overlap := d.bit CORE_VEC_CTRL.OVERLAP c }
  (d.updCore c (fun k => { k with vq := k.vq ++ [job] })).retire c

end Sys2Proof.Claims

open Sys2Proof Sys2Proof.Machine Sys2Proof.Claims in
/-- R166, R168, R169, R170, R178, R179: Every instruction of VOP, VSF, VRED and VMISC that passes its checks joins the
vector queue and retires, in each of its major opcodes, and waits while eight are held. -/
def Obligations.VectorInstructionsIssue : Prop :=
  ∀ (s : State) (c fn : Nat) (i : Instr),
    let d := s.dev
    let w := d.instr c
    let goes := VectorReady s c → fnOf w = fn →
      ((d.core c).vq.length < 8 → Gives i s (vectorJoined d c ((d.sreg c (rbOf w)).toNat % 2 ^ 32))) ∧
      (8 ≤ (d.core c).vq.length → Gives i s d)
    ((fn, i) ∈ [(0, Instr.vadd c), (1, .vsub c), (2, .vmul c), (3, .vfma c), (4, .vmin c), (5, .vmax c), (6, .vcmplt c),
        (7, .vcmple c), (8, .vcmpeq c), (16, .viadd c), (17, .visub c), (18, .vimul c), (19, .vimin c), (20, .vimax c),
        (21, .vand c), (22, .vor c), (23, .vxor c), (24, .vshl c), (25, .vsra c)] →
      (opOf w = 0x28 ∨ opOf w = 0x29 ∨ opOf w = 0x2A) → goes) ∧
    ((fn, i) ∈ [(0, Instr.exp2 c), (1, .exp c), (2, .log2 c), (3, .log c), (4, .rcp c), (5, .sqrt c), (6, .rsqrt c),
        (7, .tanh c), (8, .sigmoid c), (9, .silu c), (10, .gelu c), (11, .sinpi c), (12, .cospi c)] →
      (opOf w = 0x2B ∨ opOf w = 0x2C) → goes) ∧
    ((fn, i) ∈ [(0, Instr.rsum c), (1, .rsumsq c), (2, .rmax c), (3, .rmin c), (4, .rmaxabs c), (5, .rdot c)] →
      opOf w = 0x2D → goes) ∧
    ((fn, i) ∈ [(0, Instr.vmov c), (1, .vcvt c), (2, .vfill c), (3, .vabs c), (4, .vneg c), (5, .vrot c)] →
      opOf w = 0x2E → goes)

open Sys2Proof Sys2Proof.Machine Sys2Proof.Claims in
/-- R209, R210, R212, R213, R214, R215, R179: APOS, AROPE, AMASK, ASMX, ASFIN and ASREC that pass their checks join
the vector queue and retire. The first waiting instruction reads once nothing before it still writes what it touches.
The oldest writing one makes its writes, counts, and raises its lowest fault code. -/
def Obligations.AttentionInstructionsIssue : Prop :=
  ∀ (s : State) (c : Nat),
    let d := s.dev
    let w := d.instr c
    (∀ op fn i, (op, fn, i) ∈ [(0x32, 0, Instr.apos c), (0x32, 1, .arope c), (0x32, 2, .amask c), (0x33, 0, .asmx c),
        (0x33, 1, .asfin c), (0x33, 2, .asrec c)] → AttentionReady s c op fn →
      ((d.core c).vq.length < 8 → Gives i s (vectorJoined d c (d.sreg c (rbOf w)).toNat)) ∧
      (8 ≤ (d.core c).vq.length → Gives i s d)) ∧
    (∀ j rest, Live s → (d.core c).vq = j :: rest →
      let p := if opOf j.word = 0x32 ∨ opOf j.word = 0x33 then attnPlan d c j else vecPlan d c j
      let q : VPend :=
        { pcIdx := j.pcIdx, writes := p.puts, spans := p.writes, nvals := p.nvals, destRead := p.destRead, codes := [] }
      (vMayStart (d.core c) j p = true → p.bad = [] → p.badD = [] →
        Gives (.vectorReadStart c) s ((d.countGran c p.addrs).updCore c (fun k => { k with vq := rest, vwr := k.vwr ++ [q] }))) ∧
      (vMayStart (d.core c) j p = false → Gives (.vectorReadStart c) s d)) ∧
    (∀ p rest, Live s → (d.core c).vwr = p :: rest →
      let r := p.writes.foldl (fun r x => vPut c p.destRead x r)
        (d.updCore c (fun k => { k with vwr := rest }), false)
      let e := (r.1.add CORE_VEC_INSTR.INSTR 1 c).add CORE_VEC_VALUES.VALUES p.nvals c
      (r.2 = false → p.codes = [] → Gives (.vectorComplete c) s e) ∧
      (∀ code t, r.2 = false → p.codes = code :: t → Gives (.vectorComplete c) s (e.unitFault c code p.pcIdx)))

open Sys2Proof Sys2Proof.Machine Sys2Proof.Claims in
/-- R167, R168, R169, R170, R184: In the two-stream form every value written is the operation of R168 to R170 on the
values of the two sources at its place: an exact floating result rounded to FP32 and converted, or an integer result of
32 bits. In the immediate form IMM32 is the second operand. A value of an uncorrectable granule makes the result NaN,
converted. -/
def Obligations.VectorElementResults : Prop :=
  ∀ (d : Dev) (c i : Nat) (j : VJob),
    let w := j.word
    let dd := Desc.ofBits j.dd
    let da := Desc.ofBits j.da
    let db := Desc.ofBits j.db
    let ca := codes d c da
    let cb := codes d c db
    i < dd.vals → i < ca.length → (opOf w = 0x28 ∧ i < cb.length) ∨ opOf w = 0x29 →
    let a := valueOf da.format (ca.getD i (0, true))
    let b := if opOf w = 0x28 then valueOf db.format (cb.getD i (0, true)) else decodeNum 0 (immOf w)
    let n := intOf da.format (ca.getD i (0, true)).1
    let m := if opOf w = 0x28 then intOf db.format (cb.getD i (0, true)).1 else BitVec.ofNat 32 (immOf w)
    let good := (ca.getD i (0, true)).2 = false ∧ (opOf w = 0x28 → (cb.getD i (0, true)).2 = false)
    let floats := fun (fn : Nat) (x : Sys2Proof.Machine.Num) => good → fnOf w = fn → (vResult d c j)[i]? = some (encodeNum dd.format j.sat (roundF32 x))
    let ints := fun (fn : Nat) (x : W32) => good → fnOf w = fn → (vResult d c j)[i]? = some (intTo dd.format x)
    (¬ good → fnOf w < 9 ∨ 15 < fnOf w → (vResult d c j)[i]? = some (toDest dd.format j.sat .nan)) ∧
    floats 0 (Sys2Proof.Machine.Num.add a b) ∧ floats 1 (Sys2Proof.Machine.Num.add a b.neg) ∧ floats 2 (Sys2Proof.Machine.Num.mul a b) ∧ floats 4 (numMin a b) ∧
    floats 5 (numMax a b) ∧ floats 6 (ofBool (Sys2Proof.Machine.Num.lt a b)) ∧ floats 7 (ofBool (Sys2Proof.Machine.Num.lt a b || Sys2Proof.Machine.Num.eqv a b)) ∧
    floats 8 (ofBool (Sys2Proof.Machine.Num.eqv a b)) ∧
    ints 16 (n + m) ∧ ints 17 (n - m) ∧ ints 18 (n * m) ∧ ints 19 (if n.toInt < m.toInt then n else m) ∧
    ints 20 (if n.toInt < m.toInt then m else n) ∧ ints 21 (n &&& m) ∧ ints 22 (n ||| m) ∧ ints 23 (n ^^^ m) ∧
    ints 24 (n <<< (m.toNat % 32)) ∧ ints 25 (n.sshiftRight (m.toNat % 32))

open Sys2Proof Sys2Proof.Machine Sys2Proof.Claims in
/-- R189, R198, R200, R203: Each SEQ instruction goes to the context agent with its operands and stalls issue. The
agent answers 6, or all ones for SQGET and SQPAGE, for a number out of range, and otherwise does the operation on the
context. The status is written to rd, the instruction retires, and a fault code traps. -/
def Obligations.SequenceInstructions : Prop :=
  ∀ (s : State) (c : Nat),
    let d := s.dev
    let w := d.instr c
    (∀ fn i, (fn, i) ∈ [(0, Instr.sqopen c), (1, .sqadmit c), (2, .sqcommit c), (3, .sqtrim c), (4, .sqclose c),
        (5, .sqevict c), (6, .sqget c), (7, .sqset c), (8, .sqpage c)] → Issues s c 0x30 fn → seqFieldsOk fn w = true →
      let q : SeqReq := { fn := fn, ra := (d.sreg c (raOf w)).toNat, rb := (d.sreg c (rbOf w)).toNat, imm := immOf w }
      Gives i s (d.updCore c (fun k => { k with wait := .seq (rdOf w), seqReq := some q }))) ∧
    (∀ q, Live s → (d.core c).seqReq = some q → (d.core c).seqHeld = none →
      let answer := fun (v fault : Nat) (d : Dev) =>
        d.updCore c (fun k => { k with seqReq := none, seqAns := some (v, fault) })
      (2 ^ 15 ≤ q.ra → Gives (.seqAgentRequest c) s
        (answer (if q.fn = 6 ∨ q.fn = 8 then 2 ^ 64 - 1 else 6) 0 d)) ∧
      (q.ra < 2 ^ 15 → ((d.corePart c).bind (fun p => d.ctxDa p q.ra)).any
          (fun da => d.clusterCurtained (daCore da / 16)) = false →
        (∀ o e, d.ctxOpen c q.ra (seqLim q.fn) = (.inr o, e) → Gives (.seqAgentRequest c) s (answer o.val o.fault o.dev)) ∧
        (∀ p da rec e o f, d.ctxOpen c q.ra (seqLim q.fn) = (.inl (p, da, rec), e) →
          e.seqDo (daCore da / 16) p (e.rd CORE_SEQ_TENANT.TENANT c) c q.ra da rec q = (some o, f) →
          Gives (.seqAgentRequest c) s (answer o.val o.fault o.dev)) ∧
        (∀ p da rec e f, d.ctxOpen c q.ra (seqLim q.fn) = (.inl (p, da, rec), e) →
          e.seqDo (daCore da / 16) p (e.rd CORE_SEQ_TENANT.TENANT c) c q.ra da rec q = (none, f) →
          Gives (.seqAgentRequest c) s (if (f.core c).halting = none then f else f.seqWithdraw c)))) ∧
    (∀ q h, Live s → (d.core c).seqReq = some q → (d.core c).seqHeld = some h →
      Gives (.seqAgentRequest c) s (seqRetry c h d)) ∧
    (Live s → (d.core c).seqReq = none → Gives (.seqAgentRequest c) s d) ∧
    (∀ v fault rd, Live s → (d.core c).seqAns = some (v, fault) → (d.core c).wait = .seq rd →
      let e := ((((d.updCore c (fun k => { k with seqAns := none })).setS c rd (BitVec.ofNat 64 v)).retire c).endWait c)
      Gives (.seqStatusReturn c) s (if fault = 0 then e else e.unitFault c fault (d.pc c))) ∧
    (∀ h cue k kind rest, Live s → (d.core c).seqHeld = some h → (d.core c).cueAns = .wake cue k kind :: rest →
      Gives (.sqadmitWake c) s ((d.dropAns c).seqWake c h k kind)) ∧
    (Live s → (d.core c).seqHeld = none → Gives (.sqadmitWake c) s d)

open Sys2Proof Sys2Proof.Machine Sys2Proof.Claims in
/-- R192, R198, R199: A state that the operation does not allow answers 5. SQOPEN makes a free context READY with
length 0 and this tenant. SQCOMMIT advances the length within the pages, and SQTRIM moves it back and returns pages.
SQGET answers a word and SQSET writes one that software owns. A write of the record that is refused answers 7 with code
0x0402. SQADMIT answers 0 when the pages already suffice and 4
above the capacity of the list. -/
def Obligations.ContextOperations : Prop :=
  ∀ (d : Dev) (g p tenant c ctx da rec : Nat) (q : SeqReq) (t : Nat), ctxT rec (d.pageSize p) = some t →
    let st := ctxState rec
    let does := fun (v : Nat) (e : Dev) => d.seqDo g p tenant c ctx da rec q = (some { val := v, fault := 0, dev := e }, e)
    let wrote := fun (r : Nat) => (d.agentWrite g (some p) da 64 r).2
    let may := (d.agentRefused g (some p) da 64 true).1 = false
    let len := ctxLength rec
    let total := ceilDiv (len + q.rb) t
    (seqAllowed q.fn st (d.seqWaiter da).isSome = false → does 5 d) ∧
    (q.fn = 0 → (st = 0 ∨ st = 3 ∨ st = 4) → ctxListCap rec ≠ 0 → p < 256 → tenant < 2 ^ 12 → may → ∃ r, does 0 (wrote r) ∧ ctxState r = 1 ∧
      ctxLength r = 0 ∧ ctxNpages r = 0 ∧ ctxHeld r = 0 ∧ ctxTenant r = tenant) ∧
    (q.fn = 2 → st = 1 → q.imm % 2 = 0 → len + q.rb ≤ ctxNpages rec * t → may → does 0 (wrote (ctxSetLength rec (len + q.rb)))) ∧
    (q.fn = 2 → st = 1 → q.imm % 2 = 0 → len + q.rb ≤ ctxNpages rec * t → ¬may → ∃ e,
      d.seqDo g p tenant c ctx da rec q = (some { val := 7, fault := 0x402, dev := e }, e)) ∧
    (q.fn = 2 → st = 1 → ctxNpages rec * t < len + q.rb → does 6 d) ∧
    (q.fn = 3 → st = 1 → len < q.rb → does 6 d) ∧
    (q.fn = 3 → st = 1 → q.rb ≤ len → ctxNpages rec ≤ ceilDiv (len - q.rb) t → may →
      does 0 (wrote (ctxSetPages (ctxSetLength rec (len - q.rb)) (ctxNpages rec) (ctxHeld rec)))) ∧
    (q.fn = 6 → does (word32 rec (q.imm % 16)) d) ∧
    (q.fn = 7 → (q.imm % 16 = 1 ∨ q.imm % 16 = 2 ∨ q.imm % 16 = 11) → does 6 d) ∧
    (q.fn = 7 → 12 ≤ q.imm % 16 → may → does 0 (wrote (setWord32 rec (q.imm % 16) (q.rb % 2 ^ 32)))) ∧
    (q.fn = 1 → st = 1 → total = ctxNpages rec → does 0 d) ∧
    (q.fn = 1 → st = 1 → ctxNpages rec < total → ctxListCap rec < total → does 4 d)

namespace Sys2Proof.Claims
open Sys2Proof Sys2Proof.Machine

/-- The near-bank instruction at the head of core `c` passes the checks of R231: its fields, for PDOT the result descriptor,
alignment, and for PWR and PRD the local span. -/
def NearBankReady (s : State) (c op fn : Nat) : Prop :=
  let d := s.dev
  let w := d.instr c
  let ra := (d.sreg c (raOf w)).toNat
  let rb := (d.sreg c (rbOf w)).toNat
  let dd := d.desc c (rdOf w)
  Issues s c op fn ∧ pimFieldsOk w = true ∧ pimShapeOk w rb = true ∧ pimMisaligned w ra rb = none ∧
  (op = 0x35 → descTrap w [dd] = none ∧ dd.format ≤ 1 ∧ dd.size = shRows rb * shH rb) ∧
  (op = 0x34 → fn < 2 → rb < 2 ^ 20 ∧ spanOk rb (pimBytes w) = true)

end Sys2Proof.Claims

open Sys2Proof Sys2Proof.Machine Sys2Proof.Claims in
/-- R222, R221, R230, R231, R232, R233, R234, R236: Each near-bank instruction that passes R231 joins the port with
copies of its operands and retires, and waits while 16 are held. A command whose turn it is, when its check passes,
arrives at its slice controller, where an orphan slice holds 16, and starts there once nothing that arrived earlier
holds its banks and the cap leaves room; otherwise it is discarded with its fault code. PMARK and PFENCE stay behind
every earlier command. Completing does its work, signals its cue and raises its lowest fault code. -/
def Obligations.NearBankCommands : Prop :=
  ∀ (s : State) (c i : Nat) (perr : List (Nat × Nat)),
    let d := s.dev
    let w := d.instr c
    let new : PimJob :=
      { word := w, pcIdx := d.pc c, ra := (d.sreg c (raOf w)).toNat, rb := (d.sreg c (rbOf w)).toNat,
        dd := d.descBits c (rdOf w), phase := .queued, arr := 0, start := 0 }
    (∀ op fn x, (op, fn, x) ∈ [(0x34, 0, Instr.pwr c), (0x34, 1, .prd c), (0x34, 2, .pclr c), (0x35, 0, .pdot c),
        (0x36, 0, .pcol c), (0x37, 0, .pmark c), (0x37, 1, .pfence c)] → NearBankReady s c op fn →
      ((d.core c).pimq.length < 16 → Gives x s ((d.updCore c (fun k => { k with pimq := k.pimq ++ [new] })).retire c)) ∧
      (16 ≤ (d.core c).pimq.length → Gives x s d)) ∧
    (∀ j, Live s → (d.core c).pimq[i]? = some j →
      let finish := fun (codes : List Nat) (e : Dev) =>
        let e := e.updCore c (fun k => { k with pimq := delNth k.pimq i })
        let e := e.pimCounted c j
        let e := match j.cue with | some q => e.signalUnit c q 1 | none => e
        if codes = [] then e else e.unitFault c (leastCode codes) j.pcIdx
      let started := fun (e : Dev) (j : PimJob) =>
        let n := daCore j.da
        let e := j.units.foldl (fun e u => e.pimOwn n u (e.rd CORE_SEQ_TENANT.TENANT c)) e
        (e.updSlice n (fun k => { k with pimSeq := k.pimSeq + 1 })).setPim c i
          { j with phase := .running, start := (e.slice n).pimSeq }
      let blocked := fun (e : Dev) (j : PimJob) => e.pimBehind j = true ∨ e.pimRoom j = false
      (j.phase = .queued → d.pimOrder c i j = true → j.op = 0x37 →
        Gives (.pimDispatch c i) s (d.setPim c i { j with phase := .running })) ∧
      (j.phase = .queued → d.pimOrder c i j = false → Gives (.pimDispatch c i) s d) ∧
      (j.phase = .queued → pimDaOk j.ra = true → j.op ≠ 0x37 → d.orphan (daCore j.da) = true →
        16 ≤ d.pimHeld (daCore j.da) → Gives (.pimDispatch c i) s d) ∧
      (j.phase = .waiting → d.pimBehind j = false → d.pimRoom j = true → Gives (.pimDispatch c i) s (started d j)) ∧
      (j.phase = .waiting → blocked d j → Gives (.pimDispatch c i) s d) ∧
      (j.phase = .queued → d.pimOrder c i j = true → j.op ≠ 0x37 →
        (d.orphan (daCore j.da) = false ∨ d.pimHeld (daCore j.da) < 16) →
        (∀ e, d.pimCheck c j = (none, e) →
          let q := { j with phase := .waiting, arr := (e.slice (daCore j.da)).pimSeq }
          let f := (e.updSlice (daCore j.da) (fun k => { k with pimSeq := k.pimSeq + 1 })).setPim c i q
          (f.pimBehind q = false → f.pimRoom q = true → Gives (.pimDispatch c i) s (started f q)) ∧
          (blocked f q → Gives (.pimDispatch c i) s f)) ∧
        (∀ e code, d.pimCheck c j = (some code, e) → Gives (.pimDispatch c i) s
          (((e.err (if code = 0x505 then 4 else 3) code (unitCore c 7 0) (j.ra % 2 ^ 48)).wr CORE_SLC_PIM_STAT.ADDR_SEEN 1 c).setPim
            c i { j with phase := .discarded code }))) ∧
      (j.phase = .paused → d.pimRoom j = true → Gives (.pimResume c i) s (d.setPim c i { j with phase := .running })) ∧
      (j.phase = .paused → d.pimRoom j = false → Gives (.pimResume c i) s d) ∧
      (j.phase = .running → Gives (.pimComplete c i perr) s (finish (pimRun c j perr d).codes (pimRun c j perr d).dev)) ∧
      (∀ code, j.phase = .discarded code → Gives (.pimComplete c i perr) s (finish [code] d)))

open Sys2Proof Sys2Proof.Machine Sys2Proof.Claims in
/-- R218, R219, R224, R225, R226: A command of another tenant finds the registers of its unit cleared. PCLR clears the
V and A registers of the units of its mask and leaves other units, and its tenant is recorded. A dot product
accumulates each lane in FP32 over the words of a row and sums the lanes once. -/
def Obligations.BankRegisters : Prop :=
  ∀ (d : Dev) (c n u tenant : Nat) (j : PimJob),
    ((d.pimUnit n u).tenant ≠ some tenant →
      (d.pimOwn n u tenant).pimUnit n u = { tenant := some tenant, v := [], a := [] }) ∧
    ((d.pimUnit n u).tenant = some tenant → d.pimOwn n u tenant = d) ∧
    (∀ u', u' ≠ u → (d.pimOwn n u tenant).pimUnit n u' = d.pimUnit n u') ∧
    (u ∈ j.units → ∀ i, ((pclrRun c n j d).dev.pimUnit n u).vreg i = 0 ∧ ((pclrRun c n j d).dev.pimUnit n u).areg i = 0 ∧
      ((pclrRun c n j d).dev.pimUnit n u).tenant = some (d.rd CORE_SEQ_TENANT.TENANT c)) ∧
    (u ∉ j.units → (pclrRun c n j d).dev.pimUnit n u = d.pimUnit n u) ∧
    (pclrRun c n j d).codes = [] ∧ (pclrRun c n j d).dev.mem = d.mem ∧
    (∀ x perr v row l, l < 16 → (pdotAcc x perr v row)[l]? = some (row.zipIdx.foldl (fun acc y =>
      encodeNum 0 true (Sys2Proof.Machine.Num.add (decodeNum 0 acc)
        (Sys2Proof.Machine.Num.mul (y.1.lanes.getD l .nan) (decodeNum 1 (x.lane perr (v + y.2) l))))) 0))

open Sys2Proof Sys2Proof.Machine Sys2Proof.Claims in
/-- R337, R338, R340: SIGNAL posts its operation and retires, and waits while 16 are posted. The seven round-trip
instructions send theirs and stall issue. A cue number out of range is refused with kind 3: a SIGNAL still retires, a
WAIT with NOTRAP writes the kind, and any other takes trap CUE. -/
def Obligations.CueInstructions : Prop :=
  ∀ (s : State) (c : Nat),
    let d := s.dev
    let w := d.instr c
    let ra := (d.sreg c (raOf w)).toNat
    let rows := [(1, Instr.wait c), (2, .take c), (3, .trywait c), (4, .arm c), (5, .cread c), (6, .cinit c), (7, .cfree c)]
    let op := fun (fn : Nat) =>
      ({ req := .core c (d.pc c), fn := fn, cue := ra % 2 ^ 14, arg := cueArg fn w (d.sreg c (rbOf w)),
         co := immOf w == 1, tenant := d.rd CORE_SEQ_TENANT.TENANT c, part := d.corePart c } : CueOp)
    let reached := ra < 2 ^ 14 ∧ d.meshLost (coreCluster c) (cueCluster (ra % 2 ^ 14)) = false
    let posted := (d.cueOps.filter (fun o => o.fn == 0 && o.req.id == 4 * c)).length
    (Issues s c 0x38 0 → cueFieldsOk 0 w = true → reached → posted < 16 →
      Gives (.signal c) s ({ d with cueOps := d.cueOps ++ [op 0] }.retire c)) ∧
    (Issues s c 0x38 0 → cueFieldsOk 0 w = true → reached → 16 ≤ posted → Gives (.signal c) s d) ∧
    (Issues s c 0x38 0 → cueFieldsOk 0 w = true → 2 ^ 14 ≤ ra →
      Gives (.signal c) s ((d.updCore c (fun k => { k with sigRef := k.sigRef ++ [(3, d.pc c, ra % 2 ^ 14)] })).retire c)) ∧
    (∀ fn x, (fn, x) ∈ rows → Issues s c 0x38 fn → cueFieldsOk fn w = true →
      let notrap := fn == 1 && W64.bits w 31 31 == 1
      (reached → Gives x s ({ d with cueOps := d.cueOps ++ [op fn] }.updCore c
        (fun k => { k with wait := .cue fn (ra % 2 ^ 14) (rdOf w) notrap false }))) ∧
      (2 ^ 14 ≤ ra → notrap = true → Gives x s (((d.setS c (rdOf w) 3).retire c).endWait c)) ∧
      (2 ^ 14 ≤ ra → notrap = false → Gives x s (d.endWaitTrap c 10 (3 * 2 ^ 24 + ra % 2 ^ 14))))

open Sys2Proof Sys2Proof.Machine Sys2Proof.Claims in
/-- R336, R339: A signal adds to COUNT within the limit, and above it leaves COUNT, sets OVERFLOW and is refused with
kind 4. TAKE and TRYWAIT subtract, and where COUNT is too small TAKE sets UNDERFLOW while TRYWAIT answers all ones. A
WAIT takes at once from a cue without waiters, and joins the queue where it must wait. CINIT makes the cue READY with
its values. -/
def Obligations.CueOperations : Prop :=
  ∀ (d : Dev) (cue arg tenant who : Nat) (co agent : Bool), cue < 2 ^ 14 →
    let count := d.cueCount cue
    let limit := d.cueLimit cue
    let r := fun (fn : Nat) => d.cueOp fn cue arg co tenant who agent
    (d.cueWaiters cue = [] → count + arg ≤ limit → limit < 2 ^ 24 → (r 0).1 = .value 0 ∧ (r 0).2.cueCount cue = count + arg) ∧
    (limit < count + arg → (r 0).1 = .refused 4 ∧ (r 0).2.cueState cue = 2 ∧ (r 0).2.cueCount cue = count ∧
      (r 0).2.cueWaiters cue = []) ∧
    (d.cueWaiters cue = [] → arg ≤ limit → arg ≤ count → count < 2 ^ 24 →
      (r 1).1 = .value 0 ∧ (r 1).2.cueCount cue = count - arg) ∧
    (limit < arg → r 1 = (.refused 3, d)) ∧
    (arg ≤ limit → count < arg → (d.waiters.filter (fun w => cueCluster w.cue == cueCluster cue)).length < 256 →
      r 1 = (.queued, { d with waiters := d.waiters ++ [{ cue := cue, core := who, k := arg, agent := agent }] })) ∧
    (arg ≤ count → count < 2 ^ 24 → (r 2).1 = .value (count - arg) ∧ (r 2).2.cueCount cue = count - arg) ∧
    (count < arg → (r 2).1 = .refused 5 ∧ (r 2).2.cueState cue = 3 ∧ (r 2).2.cueCount cue = count) ∧
    (count < arg → r 3 = (.value (2 ^ 64 - 1), d)) ∧
    (d.cueWaiters cue = [] → arg % 2 ^ 24 ≤ arg / 2 ^ 24 % 2 ^ 24 → arg / 2 ^ 24 % 2 ^ 24 ≠ 0 → (r 6).1 = .value 0 ∧
      (r 6).2.cueState cue = 1 ∧ (r 6).2.cueCount cue = arg % 2 ^ 24 ∧ (r 6).2.cueLimit cue = arg / 2 ^ 24 % 2 ^ 24) ∧
    (d.cueWaiters cue = [] → (r 7).1 = .value 0 ∧ (r 7).2.cueState cue = 0 ∧ (r 7).2.cueCount cue = 0) ∧
    (d.cueWaiters cue ≠ [] → r 6 = (.refused 2, d) ∧ r 7 = (.refused 2, d))

open Sys2Proof Sys2Proof.Machine Sys2Proof.Claims in
/-- R339, R340, R341, R342, R343, R356, R357: The oldest operation of a requester is performed at its cue storage and
answered: a value, a refusal, a place in the queue or NACK. A reply writes rd and retires, a refusal traps or writes
its kind. A wake ends a WAIT. A cancel removes an entry that still waits, a NACK is sent again, and a refused SIGNAL
raises its trap. INIT, FREE, BREAK and SIGNAL count an operation and write RESULT 1, or 2 where the cue refuses. While
BUSY a command only sets CMD_LOST, and NOP does nothing else. A command of a cluster that is not ENABLED changes
nothing, and one inside a Curtain only sets ACCESS_LOST. -/
def Obligations.CueHomes : Prop :=
  (∀ (s : State) (c : Nat), Live s →
    let d := s.dev
    let k := d.core c
    (∀ op rest r e pc, d.cueOps = op :: rest → op.req = .core c pc → op.fn ≠ 0 →
      d.meshLost (coreCluster c) (cueCluster op.cue) = false →
      ({ d with cueOps := rest } : Dev).cuePerform op.fn (d.seenCue (coreHalf c) op.cue) op.arg op.co op.tenant op.part c false = (r, e) →
      Gives (.cueOpArrive 0) s (match r with
        | .value v => e.answer c (.value v)
        | .refused kind => e.answer c (.refused kind op.cue)
        | .queued => e.wr CORE_SEQ_STAT.SLEEPING 1 c
        | .nack => (e.answer c (.nack op)).wr CORE_SEQ_STAT.SLEEPING 1 c)) ∧
    (∀ v rest fn cue rd nt x, k.cueAns = .value v :: rest → k.wait = .cue fn cue rd nt x →
      Gives (.cueReply c) s ((((d.dropAns c).setS c rd (BitVec.ofNat 64 v)).retire c).endWait c)) ∧
    (∀ kind q rest fn cue rd x, k.cueAns = .refused kind q :: rest → k.wait = .cue fn cue rd false x →
      Gives (.cueReply c) s ((d.dropAns c).endWaitTrap c 10 (kind * 2 ^ 24 + q % 2 ^ 14))) ∧
    (∀ kind q rest cue rd x, k.cueAns = .refused kind q :: rest → k.wait = .cue 1 cue rd true x →
      Gives (.cueReply c) s ((((d.dropAns c).setS c rd (BitVec.ofNat 64 kind)).retire c).endWait c)) ∧
    (∀ q n rest fn cue rd nt x, k.cueAns = .wake q n 0 :: rest → k.wait = .cue fn cue rd nt x → d.coreCurtained c = false →
      Gives (.cueWake c) s ((((d.dropAns c).setS c rd 0).retire c).endWait c)) ∧
    (∀ q n rest, k.cueAns = .wake q n 0 :: rest → k.wait = .run →
      Gives (.cueWake c) s (((d.dropAns c).setCount q ((d.dropAns c).cueCount q + n)).serveCue q)) ∧
    (∀ fn cue rd nt, k.wait = .cue fn cue rd nt true →
      let sent := d.cueOps.any (fun o => o.req.id == 4 * c && o.fn == 1)
      let queued := d.waiters.any (fun w => w.core == c)
      (sent = true → Gives (.cueCancel c) s d) ∧
      (sent = false → queued = true → Gives (.cueCancel c) s (((d.removeWaiter c).sleep c false).setWait c .run)) ∧
      (∀ op rest, sent = false → queued = false → k.cueAns = .nack op :: rest →
        Gives (.cueCancel c) s (((d.dropAns c).sleep c false).setWait c .run))) ∧
    (k.wait = .run → Gives (.cueCancel c) s d) ∧
    (∀ op rest fn cue rd nt, k.cueAns = .nack op :: rest → k.wait = .cue fn cue rd nt false →
      Gives (.waitNackResend c) s { d.dropAns c with cueOps := (d.dropAns c).cueOps ++ [op] }) ∧
    (∀ kind pc cue rest, k.sigRef = (kind, pc, cue) :: rest → Gives (.signalRefused c) s
      ((d.updCore c (fun k => { k with sigRef := rest })).unitTrap c
        (cue * 2 ^ 32 + (if kind = 4 then 0x801 else 0x802) * 65536 + pc))) ∧
    (k.sigRef = [] → Gives (.signalRefused c) s d)) ∧
  (∀ (s : State) (g j : Nat) (co : Bool), Live s →
    let d := s.dev
    let e := d.add CL_CUE_OPS.OPS 1 g
    let cue := cueNum g j
    let open' := d.clusterEnabled g = true ∧ d.clusterCurtained g = false
    let idle := open' ∧ d.bit CL_CUE_STAT.BUSY g = false
    let rows := [Instr.cueCmdInit g j co, .cueCmdFree g j, .cueCmdBreak g j, .cueCmdSignal g j, .cueCmdNop g]
    let init := e.cueHost 6 cue (e.rd CL_CUE_ARG0.VALUE g + e.rd CL_CUE_ARG1.LIMIT g * 2 ^ 24) co
      (e.rd CL_CUE_ARG2.TENANT g) (e.rd CL_CUE_ARG2.OWNER_CORE g)
    let result := fun (r : CueRes × Dev) => r.2.wr CL_CUE_STAT.RESULT (match r.1 with | .refused _ => 2 | _ => 1) g
    (idle → Gives (.cueCmdInit g j co) s (result init)) ∧
    (idle → Gives (.cueCmdFree g j) s (result (e.cueHost 7 cue 0 false 0 0))) ∧
    (idle → e.cueState cue ≠ 0 → Gives (.cueCmdBreak g j) s ((e.breakCue cue).wr CL_CUE_STAT.RESULT 1 g)) ∧
    (idle → e.cueState cue = 0 → Gives (.cueCmdBreak g j) s (e.wr CL_CUE_STAT.RESULT 2 g)) ∧
    (idle → e.rd CL_CUE_ARG0.VALUE g ≠ 0 → Gives (.cueCmdSignal g j) s
      (result (e.cueHost 0 cue (e.rd CL_CUE_ARG0.VALUE g) false 0 0))) ∧
    (idle → e.rd CL_CUE_ARG0.VALUE g = 0 → Gives (.cueCmdSignal g j) s (e.wr CL_CUE_STAT.RESULT 2 g)) ∧
    (idle → Gives (.cueCmdNop g) s d) ∧
    (open' → d.bit CL_CUE_STAT.BUSY g = true → ∀ x ∈ rows, Gives x s (d.wr CL_CUE_STAT.CMD_LOST 1 g)) ∧
    (d.clusterEnabled g = false → ∀ x ∈ rows, Gives x s d) ∧
    (d.clusterEnabled g = true → d.clusterCurtained g = true → ∀ x ∈ rows, Gives x s (d.wr SEQ_STAT.ACCESS_LOST 1)))

open Sys2Proof Sys2Proof.Machine Sys2Proof.Claims in
/-- R350, R351, R352, R353, R355: BSYNC counts the arrival and sleeps, BARRIVE counts it and retires with GEN, BWAIT
sleeps on the generation it names and otherwise answers GEN, and BREAD answers the status word. A refused instruction
traps with CUE or writes its kind. A cluster whose members have all arrived is counted, and the last releases the
context. Writes of BARR_CTRL open and close it. -/
def Obligations.Barriers : Prop :=
  ∀ (s : State) (c h n v cl : Nat),
    let d := s.dev
    let w := d.instr c
    let m := (d.sreg c (raOf w)).toNat % 64
    let gen := d.barrGen (coreHalf c) m
    let sync := Issues s c 0x39 0 ∧ Unused w true true false ∧ immOf w % 2 ^ 31 = 0
    let wait := Issues s c 0x39 2 ∧ Unused w true true true ∧ immOf w % 2 ^ 31 = 0
    let asleep := fun (d : Dev) =>
      (d.updCore c (fun k => { k with wait := .barrier m (rdOf w) gen (W64.bits w 31 31 == 1) })).wr CORE_SEQ_STAT.SLEEPING 1 c
    let refused := fun (kind : Nat) =>
      if W64.bits w 31 31 = 1 then ((d.setS c (rdOf w) (BitVec.ofNat 64 kind)).retire c).endWait c
      else d.endWaitTrap c 10 (kind * 2 ^ 24 + 2 ^ 23 + m)
    (sync → d.barrRefusal c m true = none → Gives (.bsync c) s (asleep (d.barrArrive c m))) ∧
    (∀ kind, sync → d.barrRefusal c m true = some kind → Gives (.bsync c) s (refused kind)) ∧
    (Issues s c 0x39 1 → Unused w true true false → immOf w = 0 →
      (d.barrRefusal c m true = none →
        Gives (.barrive c) s (((d.setS c (rdOf w) (BitVec.ofNat 64 gen)).barrArrive c m).retire c)) ∧
      (∀ kind, d.barrRefusal c m true = some kind → Gives (.barrive c) s (d.trap c 10 (kind * 2 ^ 24 + 2 ^ 23 + m)))) ∧
    (wait → d.barrRefusal c m false = none → gen = (d.sreg c (rbOf w)).toNat % 2 ^ 16 → Gives (.bwait c) s (asleep d)) ∧
    (wait → d.barrRefusal c m false = none → gen ≠ (d.sreg c (rbOf w)).toNat % 2 ^ 16 →
      Gives (.bwait c) s (writeRd d c (BitVec.ofNat 64 gen))) ∧
    (∀ kind, wait → d.barrRefusal c m false = some kind → Gives (.bwait c) s (refused kind)) ∧
    (Issues s c 0x39 3 → Unused w true true false → immOf w = 0 → Gives (.bread c) s (writeRd d c (BitVec.ofNat 64
      (d.word [BARR_STATn.STATE, BARR_STATn.CAUSE, BARR_STATn.ARRIVED, BARR_STATn.GEN] (coreHalf c) m)))) ∧
    (Live s → d.barrState h n = 1 → d.barrCluster h n cl = true → cl ∉ d.arrivedCls h n →
      (d.barrCoresOf h n cl).all (fun k => (d.arrivedCores h n).contains k) = true →
      ∀ relA relB, Gives (.barrierArrival h n cl ⟨true, relA, relB⟩) s
        ((d.setArrivals h n (d.arrivedCores h n) (d.arrivedCls h n ++ [cl])).barrDecide h n relA relB) ∧
      Gives (.barrierArrival h n cl ⟨false, relA, relB⟩) s
        (((d.barrBreak h n 5).err 2 0 (unitHalf h 24 0) 0).addSat BARR_BUS_ERR.COUNT 1 h)) ∧
    (Live s → v < 2 ^ 31 → d.bit BARR_CTRLn.EN h n = false →
      let set := (((d.wr BARR_CTRLn.SPAN (v / 2 ^ 30) h n).wr BARR_CTRLn.RCUEV (v / 2 ^ 29) h n).wr
        BARR_CTRLn.RCUE (v / 2 ^ 12) h n).wr BARR_CTRLn.TENANT v h n
      Gives (.barrEnable h n v) s (set.barrOpen h n) ∧ Gives (.barrDisable h n v) s set) ∧
    (Live s → v < 2 ^ 31 → d.bit BARR_CTRLn.EN h n = true → d.rd BARR_CTRLn.SPAN h n = v / 2 ^ 30 % 2 →
      d.rd BARR_CTRLn.RCUEV h n = v / 2 ^ 29 % 2 → d.rd BARR_CTRLn.RCUE h n = v / 2 ^ 12 % 2 ^ 14 →
      d.rd BARR_CTRLn.TENANT h n = v % 2 ^ 12 → Gives (.barrDisable h n v) s (d.barrClose h n) ∧ Gives (.barrEnable h n v) s d)

open Sys2Proof Sys2Proof.Machine Sys2Proof.Claims in
/-- R352, R353, R355: A context not yet full stays as it is. A context without SPAN whose member clusters have all
arrived advances GEN and clears its arrivals, and signals its release cue where RCUEV is 1. A release with wrong parity
breaks the context with CAUSE BUS, a record and a count. Joined contexts wait for each other and release with one GEN,
which is the one after Half A's (the model's choice, log entry 79). A partner that is OPEN without SPAN breaks with it,
CAUSE SPAN. -/
def Obligations.BarrierReleases : Prop :=
  ∀ (d : Dev) (h n : Nat) (relA relB : Bool), h < 2 → n < 64 →
    (d.barrFull h n = false → d.barrDecide h n relA relB = d) ∧
    (d.bit BARR_CTRLn.SPAN h n = false → d.barrFull h n = true → (if h = 0 then relA else relB) = false →
      d.barrDecide h n relA relB = ((d.barrBreak h n 5).err 2 0 (unitHalf h 24 0) 0).addSat BARR_BUS_ERR.COUNT 1 h) ∧
    (d.bit BARR_CTRLn.SPAN h n = true → d.barrFull h n = true →
      (d.barrState (1 - h) n = 1 → d.bit BARR_CTRLn.SPAN (1 - h) n = true →
        (d.barrFull (1 - h) n = false → d.barrDecide h n relA relB = d) ∧
        (d.barrFull (1 - h) n = true → relA = true → relB = true → d.barrSleepers h n = [] →
          d.barrSleepers (1 - h) n = [] → let t := d.barrDecide h n relA relB
          t.barrGen 0 n = (d.barrGen 0 n + 1) % 2 ^ 16 ∧ t.barrGen 1 n = t.barrGen 0 n)) ∧
      (d.barrState (1 - h) n = 1 → d.bit BARR_CTRLn.SPAN (1 - h) n = false → d.barrSleepers h n = [] →
        d.barrSleepers (1 - h) n = [] → let t := d.barrDecide h n relA relB
        ∀ k ∈ [h, 1 - h], t.barrState k n = 2 ∧ t.rd BARR_STATn.CAUSE k n = 4)) ∧
    (d.bit BARR_CTRLn.SPAN h n = false → d.barrFull h n = true → (if h = 0 then relA else relB) = true →
      d.barrSleepers h n = [] → let t := d.barrDecide h n relA relB
      t.barrGen h n = (d.barrGen h n + 1) % 2 ^ 16 ∧ t.arrivedCores h n = [] ∧ t.arrivedCls h n = [] ∧
      t.rd BARR_STATn.ARRIVED h n = 0 ∧ t.mem = d.mem ∧ t.cores = d.cores ∧
      (d.bit BARR_CTRLn.RCUEV h n = false → t.cueOps = d.cueOps) ∧
      (d.bit BARR_CTRLn.RCUEV h n = true → t.cueOps = d.cueOps ++
        [{ req := .barrier, fn := 0, cue := d.rd BARR_CTRLn.RCUE h n, arg := 1, co := false,
           tenant := d.rd BARR_CTRLn.TENANT h n, part := none }]))

open Sys2Proof Sys2Proof.Machine Sys2Proof.Claims in
/-- R294, R295, R296, R297, R298, R300: Each atomic at an aligned address joins the atomic queue with its operands and
retires, and waits while 16 are held. A misaligned address takes trap MISALIGN. LRED reads its 128 B at issue, and CWB
holds its line count. An atomic whose line is present runs there and holds the old value for its core. One on a DA
that may not be accessed is finished with ATOM_ADDR and a record. CWB writes back its lines. The result leaves the
queue, FETCH writes rd, and a fault raises trap UNIT. -/
def Obligations.Atomics : Prop :=
  (∀ (s : State) (c : Nat),
    let d := s.dev
    let w := d.instr c
    let da := (d.sreg c (raOf w)).toNat
    let b := (d.sreg c (rbOf w)).toNat
    let wide := immOf w % 2 == 1
    let room := (d.core c).atomq.length < 16
    let joined := fun (a : AtomJob) => (d.updCore c (fun k =>
      { k with atomq := k.atomq ++ [{ a with aid := k.atomN }], atomN := k.atomN + 1 })).retire c
    let trim := fun (x : W64) => if wide then x.toNat else x.toNat % 2 ^ 32
    (∀ fn i, (fn, i) ∈ [(0, Instr.aadd c), (1, .amin c), (2, .amax c), (3, .aminu c), (4, .amaxu c), (5, .aand c), (6, .aor c),
        (7, .axor c), (8, .aswap c), (9, .acas c), (10, .afadd c), (11, .ahadd c)] → Issues s c 0x3C fn →
      Unused w true true true → immOf w < 4 → (10 ≤ fn → wide = false) →
      (da % (if wide then 8 else 4) = 0 → room → Gives i s (joined
        { fn := fn, wide := wide, fetch := immOf w / 2 == 1, typ := 0, rd := rdOf w, da := da, opnd := trim (d.sreg c (rbOf w)),
          cmp := trim (d.sreg c (rdOf w)), pcIdx := d.pc c, aid := 0, phase := .queued, poison := false,
          bank := d.epochBank (coreHalf c) })) ∧
      (da % (if wide then 8 else 4) = 0 → ¬room → Gives i s d) ∧
      (da % (if wide then 8 else 4) ≠ 0 → Gives i s (d.trap c 4 da))) ∧
    (Issues s c 0x3D 0 → Unused w false true true → immOf w < 3 → da % 128 = 0 → b % 32 = 0 → b < 2 ^ 20 →
      spanOk b 128 = true → d.lbad c b 128 = false → room →
      let e := d.countLce c b 128
      Gives (.lred c) s ((e.updCore c (fun k => { k with atomq := k.atomq ++ [
        { fn := 12, wide := false, fetch := false, typ := immOf w, rd := 0, da := da, opnd := d.lrd c b 128, cmp := 0,
          pcIdx := d.pc c, aid := k.atomN, phase := .queued, poison := false, bank := d.epochBank (coreHalf c) }], atomN := k.atomN + 1 })).retire c)) ∧
    (Issues s c 0x3D 1 → Unused w false true true → immOf w = 0 →
      (da % 128 = 0 → room → Gives (.cwb c) s (joined
        { fn := 13, wide := false, fetch := false, typ := 0, rd := 0, da := da, opnd := b, cmp := 0, pcIdx := d.pc c, aid := 0,
          phase := .queued, poison := false, bank := d.epochBank (coreHalf c) })) ∧
      (da % 128 ≠ 0 → Gives (.cwb c) s (d.trap c 4 da)))) ∧
  (∀ (s : State) (c i : Nat) (a : AtomJob), Live s → (s.dev.core c).atomq[i]? = some a →
    let d := s.dev
    let da := d.seenDa (coreHalf c) (a.da % 2 ^ 48)
    let g := da / 2 ^ 31 % 256
    let free := a.phase = .queued ∧ ((d.core c).atomq.take i).any (fun b => b.phase == .queued && b.da / 128 == a.da / 128) = false ∧
      d.clusterCurtained g = false
    let done := fun (e : Dev) (b : AtomJob) (old code : Nat) => e.setAtom c i { b with phase := .done old code }
    (∀ e cls, free → a.fn ≠ 13 → (d.cache g).waits da = false → d.atomRefused a.bank c a.da a.size = (some cls, e) → Gives (.atomExecute c i 0 0) s
      ((done e a 0 0x601).err cls 0x601 (e.atomUnit c a.da) a.da)) ∧
    (∀ e key l, free → a.fn ≠ 13 → d.atomRefused a.bank c a.da a.size = (none, e) → e.clusterEnabled g = true →
      let h := e.hintOf g (daCore da % 16) (lineIdx da) none
      h.2.findLine g (daCore da % 16) (lineIdx da) = some key → h.2.line g key = some l → g = daCore da / 16 →
      (d.cache g).waits da = false →
      let old := l.data.toNat / 256 ^ (da % 128) % 256 ^ a.size
      let new : Line := { l with data := BitVec.ofNat 1024 (patch l.data.toNat (da % 128) a.size (a.apply old)), dirty := true }
      Gives (.atomExecute c i 0 0) s (done ((((h.2.add CL_CACHE_HITS.HITS 1 g).setLine g key new).touch g key
        (if 2 ≤ h.1.1 then 0 else h.1.1, h.1.2)).add CL_CACHE_ATOMS.OPS 1 g)
        { a with poison := (h.2.add CL_CACHE_HITS.HITS 1 g).poisoned da } old 0)) ∧
    (∀ e, free → a.fn = 13 → a.opnd < 2 ^ 14 → daOff a.da + 128 * a.opnd ≤ 2 ^ 27 →
      d.cwbRefused a.bank c a.da a.opnd = (none, e) →
      Gives (.atomExecute c i 0 0) s (done (e.cwbRun da a.opnd) a 0 0)) ∧
    (a.phase ≠ .queued ∨ (a.fn ≠ 13 ∧ (d.cache g).waits da = true) → Gives (.atomExecute c i 0 0) s d) ∧
    (∀ old code, a.phase = .done old code →
      let e := d.updCore c (fun k => { k with atomq := delNth k.atomq i })
      let e := if a.fetch then e.setS c a.rd (if code = 0 then BitVec.ofNat 64 old else BitVec.allOnes 64) else e
      Gives (.atomResult c i) s (if code = 0 then e else e.unitFault c code a.pcIdx)) ∧
    (a.phase = .queued → Gives (.atomResult c i) s d))

open Sys2Proof Sys2Proof.Machine Sys2Proof.Claims in
/-- R295: On a word of 32 or 64 bits the new value is the wrapped sum, the signed or unsigned minimum or maximum, the
bitwise operation, the operand, or for ACAS the operand where the old value equals the compare value. It always fits
the width when old value and operand do. -/
def Obligations.AtomicValues : Prop :=
  ∀ (wide : Bool) (old x cmp : Nat),
    let n := if wide then 64 else 32
    let sg := fun (v : Nat) => if v < 2 ^ (n - 1) then (v : Int) else (v : Int) - 2 ^ n
    let f := fun (fn : Nat) => atomFn fn wide old x cmp
    old < 2 ^ n → x < 2 ^ n →
    f 0 = (old + x) % 2 ^ n ∧ f 1 = (if sg old < sg x then old else x) ∧ f 2 = (if sg old < sg x then x else old) ∧
    f 3 = min old x ∧ f 4 = max old x ∧ (∀ i, (f 5).testBit i = (old.testBit i && x.testBit i)) ∧
    (∀ i, (f 6).testBit i = (old.testBit i || x.testBit i)) ∧ (∀ i, (f 7).testBit i = (old.testBit i ^^ x.testBit i)) ∧
    f 8 = x ∧ (old = cmp → f 9 = x) ∧ (old ≠ cmp → f 9 = old) ∧ (∀ fn, fn < 10 → f fn < 2 ^ n)

open Sys2Proof Sys2Proof.Machine Sys2Proof.Claims in
/-- R98, R206, R207, R208, R284, R286, R287, R305: KVLD traps where R98 refuses its descriptor. On a readable context
it queues the segments of its walk and answers 1, or 0 where they do not fit. A walk that R207 refuses writes 0 and
raises its fault code. A segment reads its list entry, copies its rows and signals its cue, or halts the channel. A
cached access that is allowed is served when its line is present or the cache is off, and a read miss waits for its
fill. A refused one is recorded and answered with an error completion. A fill that is not behind another serves its
access. Each command sets BUSY and does its work, and while BUSY only sets CMD_LOST. A command of a cluster that is not
ENABLED changes nothing, and one inside a Curtain only sets ACCESS_LOST. -/
def Obligations.CacheWork : Prop :=
  (∀ (s : State) (c ch : Nat),
    let d := s.dev
    let w := d.instr c
    let ra := (d.sreg c (raOf w)).toNat
    let walk := (d.sreg c (rbOf w)).toNat
    let n := W64.bits w 30 28
    let dst := d.desc c (W64.bits w 27 24)
    let fields := Issues s c 0x31 0 ∧ W64.bits w 37 32 = 0 ∧ W64.bits w 23 0 = 0
    let ready := fields ∧ descTrap w [dst] = none
    let fault := fun (code : Nat) (d' : Dev) => ((d'.setS c (rdOf w) 0).retire c).unitFault c code (d.pc c)
    (∀ cause tval, fields → descTrap w [dst] = some (cause, tval) → Gives (.kvld c) s (d.trap c cause tval)) ∧
    (ready → 2 ^ 15 ≤ ra → Gives (.kvld c) s (fault 0x404 d)) ∧
    (∀ o e, ready → ra < 2 ^ 15 → walk / 2 ^ 62 % 2 = 0 → d.ctxOpen c ra = (.inr o, e) →
      Gives (.kvld c) s (fault o.fault e)) ∧
    (∀ p da rec e t, ready → ra < 2 ^ 15 → walk / 2 ^ 62 % 2 = 0 → d.ctxOpen c ra = (.inl (p, da, rec), e) →
      let t0 := walk % 2 ^ 32
      let k := walk / 2 ^ 32 % 2 ^ 16
      let row := 2 ^ ctxRowLog2 rec
      let segs := kvSegs (fun entry first rows r0 =>
        { entry := (ctxList rec + 4 * entry) % 2 ^ 48, first := first, rows := rows, rowLog2 := ctxRowLog2 rec,
          vRows := W64.bits w 31 31 == 1, pageSize := e.pageSize p, base := dst.base, ring := dst.ring, r0 := r0,
          cue := if walk / 2 ^ 63 = 1 then some (walk / 2 ^ 48 % 2 ^ 14) else none }) t k t0 k 0
      let fits := k ≠ 0 ∧ t0 + k ≤ ctxNpages rec * t ∧ row ≤ dst.ring ∧ dst.ring % row = 0
      (ctxState rec ≠ 1 → ctxState rec ≠ 2 → Gives (.kvld c) s (fault 0x403 e)) ∧
      ((ctxState rec = 1 ∨ ctxState rec = 2) → ctxT rec (e.pageSize p) = some t → ¬fits →
        Gives (.kvld c) s (fault 0x404 e)) ∧
      ((ctxState rec = 1 ∨ ctxState rec = 2) → ctxT rec (e.pageSize p) = some t → fits →
        ((e.ch c n).accepts segs.length = true → Gives (.kvld c) s (((e.pushDma c n
          (segs.map (fun x => { raw := 0, ue := none, badDa := none, kv := some x }))).setS c (rdOf w) 1).retire c)) ∧
        ((e.ch c n).accepts segs.length = false → Gives (.kvld c) s ((e.setS c (rdOf w) 0).retire c)))) ∧
    (∀ ent rest x e v f r, Live s → (d.ch c ch).q = ent :: rest → ent.kv = some x → (d.ch c ch).halted = false →
      x.base % 32 = 0 → inSeg x.base ((x.base / x.ring * x.ring : Nat) : Int) x.ring = true →
      d.dmaRefused c (x.entry : Int) false = (none, e) → e.cachedRead x.entry 4 none = (v, f) → v.ue = false →
      let bytes := x.rows * 2 ^ x.rowLog2
      Dev.kvCopy c x (pageDa v.val x.pageSize + (if x.vRows then x.pageSize / 2 else 0) + x.first * 2 ^ x.rowLog2)
        (bytes / 32 + 1) 0 bytes f = r →
      let e := r.dev.add CORE_DMA_CHn_BYTES.BYTES r.done c ch
      (r.halt = none → Gives (.kvldSegment c ch) s (e.dmaComplete c ch x.cue)) ∧
      (∀ cause a op u, r.halt = some (cause, a, op, u) → Gives (.kvldSegment c ch) s (e.dmaHalt c ch cause a u op))) ∧
    (Live s → (d.ch c ch).q = [] → Gives (.kvldSegment c ch) s d)) ∧
  (∀ (s : State) (who : Requester) (da n v g k : Nat) (hint : Option Nat), Live s → n ≤ 128 - da % 128 →
    let d := s.dev
    let h := daCore da / 16
    let present := fun (e : Dev) => (e.cacheOn h = false ∨ ((e.cache h).waits da = false ∧ (e.findLine h (daCore da % 16) (lineIdx da)).isSome = true))
    let misses := fun (e : Dev) => (e.cacheOn h = true ∧ (e.findLine h (daCore da % 16) (lineIdx da)).isNone = true)
    let waits := fun (e : Dev) (wr : Option Nat) => (e.hintAt da hint).2.updCache h (fun x =>
      { x with fills := x.fills ++ [{ who := who, da := da, bytes := n, wr := wr, cls := (e.hintAt da hint).1.1,
                                      win := (e.hintAt da hint).1.2 }] })
    let refused := fun (e : Dev) (cls op : Nat) => (e.err cls op (reqUnit who) da).emit (.errCompletion who da)
    let served := fun (r : MRes × Dev) (w : Requester) (a m : Nat) => r.2.emit (.memData w a m r.1.val r.1.ue r.1.poison)
    let open' := d.clusterEnabled g = true ∧ d.clusterCurtained g = false
    let idle := open' ∧ d.bit CL_CACHE_STAT.BUSY g = false
    let rows := [Instr.wbAll g, .wbSlice g k, .unpin g k, .preload g k, .cacheCmdNop g]
    let busy := d.wr CL_CACHE_STAT.BUSY 1 g
    (∀ e, d.protWho who da false = (true, e) → e.daRefused da = none → present e →
      Gives (.cacheRead who da n hint 0 0) s (served (e.cacheRead da n hint) who da n)) ∧
    (∀ e, d.protWho who da false = (true, e) → e.daRefused da = none → misses e →
      Gives (.cacheRead who da n hint 0 0) s (waits e none)) ∧
    (∀ e cls, d.protWho who da false = (true, e) → e.daRefused da = some cls →
      Gives (.cacheRead who da n hint 0 0) s (refused e cls 1)) ∧
    (∀ e, d.protWho who da true = (false, e) → Gives (.cacheWrite who da n v hint 0 0) s (refused e 3 2)) ∧
    (∀ e, d.protWho who da true = (true, e) → e.daRefused da = none → present e →
      Gives (.cacheWrite who da n v hint 0 0) s (e.cacheWrite da n v hint)) ∧
    (∀ e, d.protWho who da true = (true, e) → e.daRefused da = none → misses e → n ≠ 128 →
      Gives (.cacheWrite who da n v hint 0 0) s (waits e (some v))) ∧
    (∀ f, (d.cache g).fills[k]? = some f → ((d.cache g).fills.take k).any (fun e => e.da / 128 == f.da / 128) = false →
      d.adderHas (daCore f.da) (f.da / 128) = false →
      let e := d.updCache g (fun x => { x with fills := delNth x.fills k })
      (∀ x, f.wr = some x → Gives (.cacheFillDone g k) s (e.cacheWriteAs f.da f.bytes x (f.cls, f.win))) ∧
      (f.wr = none → Gives (.cacheFillDone g k) s (served (e.cacheReadAs f.da f.bytes (f.cls, f.win)) f.who f.da f.bytes))) ∧
    (∀ f, (d.cache g).fills[k]? = some f → (((d.cache g).fills.take k).any (fun e => e.da / 128 == f.da / 128) = true ∨
      d.adderHas (daCore f.da) (f.da / 128) = true) → Gives (.cacheFillDone g k) s d) ∧
    (idle → Gives (.wbAll g) s (busy.wbWhere g (fun _ => true))) ∧
    (idle → Gives (.wbSlice g k) s (busy.wbWhere g (fun l => l.core == k))) ∧
    (idle → Gives (.unpin g k) s (busy.releasePins g k)) ∧
    (idle → busy.bit CL_CACHE_HINTWIN_CTRL.VALID g k = false → Gives (.preload g k) s busy) ∧
    (idle → busy.bit CL_CACHE_HINTWIN_CTRL.VALID g k = true → Gives (.preload g k) s
      ((List.range 16).foldl (fun d x => if (d.rd CL_CACHE_HINTWIN_CTRL.SLICES g k).testBit x then
        (List.range (busy.rd CL_CACHE_HINTWIN_LIMIT.OFFSET g k + 1 - busy.rd CL_CACHE_HINTWIN_BASE.OFFSET g k)).foldl
          (fun d i => d.preloadLine g x (busy.rd CL_CACHE_HINTWIN_BASE.OFFSET g k + i) k) d else d) busy)) ∧
    (idle → Gives (.cacheCmdNop g) s d) ∧
    (open' → d.bit CL_CACHE_STAT.BUSY g = true → ∀ i ∈ rows, Gives i s (d.wr CL_CACHE_STAT.CMD_LOST 1 g)) ∧
    (d.clusterEnabled g = false → ∀ i ∈ rows, Gives i s d) ∧
    (d.clusterEnabled g = true → d.clusterCurtained g = true → ∀ i ∈ rows, Gives i s (d.wr SEQ_STAT.ACCESS_LOST 1)) ∧
    Gives (.cacheCmdDone g) s (d.wr CL_CACHE_STAT.BUSY 0 g))

open Sys2Proof Sys2Proof.Machine Sys2Proof.Claims in
/-- R248, R256, R259, R262, R264, R272, R249: A read or write that is allowed is served by its slice controller and counted.
A read that finds both copies of a command connection failed loses the slice.
Otherwise it is recorded and answered with an error completion. A whole block that brings a wrong check value is
stored as poison. A row copy ends and its remap entry takes effect, an interval ends, a refresh changes no data, a scrub read of a word or
of a check value corrects it, and the adder performs its oldest operation. -/
def Obligations.SliceControllers : Prop :=
  ∀ (s : State) (who : Requester) (da n v flips again slot key layer bank row : Nat), Live s →
    let d := s.dev
    let m := daCore da
    let refused := fun (cls op : Nat) => (d.err cls op (reqUnit who) da).emit (.errCompletion who da)
    let r := d.readWord da (BitVec.ofNat 288 flips) (BitVec.ofNat 288 again) slot
    let k := min n (32 - da % 32)
    (d.daRefused da = none →
      Gives (.sliceRead who da n flips again slot false) s ((r.2.countBytes CORE_SLC_RD_BYTES.BYTES m k).emit
        (.memData who da k (r.1.val / 256 ^ (da % 32) % 256 ^ k) r.1.ue r.1.poison))) ∧
    (d.daRefused da = none → Gives (.sliceRead who da n flips again slot true) s
      ((((d.loseSlice m).mapChange (unitCore m 7 0)).err 4 1 (reqUnit who) da).emit (.errCompletion who da))) ∧
    (∀ cls, d.daRefused da = some cls → (∀ b, Gives (.sliceRead who da n flips again slot b) s (refused cls 1)) ∧
      Gives (.sliceWrite who da n v none) s (refused cls 2)) ∧
    (d.daRefused da = none → n ≤ 2 ^ 27 - daOff da → Gives (.sliceWrite who da n v none) s (d.directWrite da n v)) ∧
    (d.daRefused da = none → da % 4096 = 0 → v < 256 ^ 4096 →
      Gives (.sliceWrite who da 4096 v (some 0xA5C33C5A)) s (d.blockWrite da v true false) ∧
      ((blockCheck da v).toNat ≠ 0xA5C33C5A →
        Gives (.sliceWrite who da 4096 v (some (blockCheck da v).toNat)) s (d.blockWrite da v false false)) ∧
      (∀ x, x ≠ 0xA5C33C5A → x ≠ (blockCheck da v).toNat → Gives (.sliceWrite who da 4096 v (some x)) s
        ((d.blockWrite da v true false).err 8 2 (unitCore m 7 0) da))) ∧
    Gives (.rowCopyDone n key) s (d.rowCopied n key) ∧
    Gives (.laneIntervalEnd n) s (d.updSlice n (fun x => { x with laneCnt := [] })) ∧
    Gives (.refresh n layer bank row) s d ∧
    (let x := d.readWord da (BitVec.ofNat 288 flips) (BitVec.ofNat 288 again) slot 4
     let read := x.2.add CORE_SLC_RD_BYTES.BYTES 32 m
     let bad := decodePattern (FMap.get d.badw 0 (da / 32) ^^^ BitVec.ofNat 288 flips) ≠ ⟨0, 0, 0⟩
     d.bit CORE_SLC_SCRUB.EN m = true → d.daRefused da = none →
      (x.1.ue = true ∨ ¬bad → Gives (.patrolScrub (.word da) flips again slot false) s read) ∧
      (x.1.ue = false → bad → Gives (.patrolScrub (.word da) flips again slot false) s
        { read.add CORE_SLC_WR_BYTES.BYTES 32 m with badw := FMap.del read.badw (da / 32) }) ∧
      (x.1.ue = true ∨ ¬bad → Gives (.patrolScrub (.word da) flips again slot true) s
        (read.add CORE_SLC_SCRUB_PASSES.PASSES 1 m)) ∧
      Gives (.patrolScrub (.check da) flips again slot false) s (d.scrubCheck da flips again slot)) ∧
    (d.bit CORE_SLC_SCRUB.EN m = false → Gives (.patrolScrub (.word da) flips again slot false) s d ∧
      Gives (.patrolScrub (.check da) flips again slot false) s d) ∧
    (∀ op rest, (d.slice n).addq = op :: rest →
      let y := (d.updSlice n (fun x => { x with addq := rest })).adderRun op
      Gives (.adderOp n) s (y.2.updCore op.core (fun x =>
        { x with atomq := x.atomq.map (fun a => if a.aid == op.aid then a.adderDone y.1 else a) }))) ∧
    ((d.slice n).addq = [] → Gives (.adderOp n) s d)

open Sys2Proof Sys2Proof.Machine Sys2Proof.Claims in
/-- R276, R277, R249: Each test command sets BUSY and holds the result it will report, DONE with its effect or REFUSED
without. While BUSY it only sets LOST. Completing writes RESULT and clears BUSY. A failing lane takes the spare of its
group, and loses the group where the spare is in use. -/
def Obligations.SliceTestCommands : Prop :=
  ∀ (s : State) (n layer bank rowsel word lane : Nat) (u : Bool), Live s →
    let d := s.dev
    let idle := d.bit CORE_SLC_TEST_STAT.BUSY n = false
    let start := fun (res : Nat) => (d.updSlice n (fun k => { k with test := some res })).wr CORE_SLC_TEST_STAT.BUSY 1 n
    let e := start 1
    let fill := fun (x : Nat) (f : Dev) => (f.setTestData n (x % 2 ^ 256)).wr CORE_SLC_TEST_CHK.CHK (x / 2 ^ 256) n
    let raw := e.rawUnmapped n layer bank rowsel word
    let at_ := d.rd CORE_SLC_TEST_ADDR.DA n
    let put := BitVec.ofNat 288 (e.testData n + e.rd CORE_SLC_TEST_CHK.CHK n * 2 ^ 256)
    (idle → Gives (.rawRd n true layer bank rowsel word) s (fill raw.1 raw.2)) ∧
    (idle → d.testDaOk n = true → Gives (.rawRd n false layer bank rowsel word) s
      (fill (e.rawOf (e.rd CORE_SLC_TEST_ADDR.DA n)) e)) ∧
    (idle → d.testDaOk n = false → Gives (.rawRd n false layer bank rowsel word) s (start 2)) ∧
    (idle → d.spareInUse n layer bank rowsel = false → Gives (.rawWr n true layer bank rowsel word) s
      (e.updSlice n (fun k => { k with raw := FMap.set k.raw (rawKey layer bank rowsel word) put }))) ∧
    (idle → (u = false ∨ d.spareInUse n layer bank rowsel = true) → Gives (.rawWr n u layer bank rowsel word) s (start 2)) ∧
    (idle → let syms := foldSyms (e.rd CORE_SLC_TEST_ADDR.DA n) ++ symsOf raw.1 36
      let dec := rsDecode syms
      let word' := if dec.kind = 1 then raw.1 ^^^ (dec.val * 256 ^ (dec.pos - 5)) else raw.1
      Gives (.decRd n true layer bank rowsel word) s ((((raw.2.setTestData n (word' % 2 ^ 256)).wr CORE_SLC_TEST_SYN.SYN
        ((List.range 4).foldl (fun v j => v + syndrome syms j * 256 ^ j) 0) n).wr CORE_SLC_TEST_STAT.DEC dec.kind n).wr
        CORE_SLC_TEST_STAT.POS (if dec.kind = 0 ∨ dec.kind = 2 then 0 else dec.pos) n)) ∧
    (idle → Gives (.decRd n false layer bank rowsel word) s (start 2)) ∧
    (idle → d.testDaOk n = true → Gives (.markRow n false) s (e.markRow n (rowKey (daOff (e.rd CORE_SLC_TEST_ADDR.DA n))))) ∧
    (idle → Gives (.markRow n true) s (start 2)) ∧
    (idle → at_ % 2048 < 1152 → d.spareLaneUsed n (at_ % 2048) = false → Gives (.fixLane n) s (e.repairLane n (at_ % 2048))) ∧
    (idle → (1152 ≤ at_ % 2048 ∨ d.spareLaneUsed n (at_ % 2048) = true) → Gives (.fixLane n) s (start 2)) ∧
    (idle → Gives (.testNop n) s d) ∧
    (¬idle → ∀ i ∈ [Instr.rawRd n u layer bank rowsel word, .rawWr n u layer bank rowsel word, .decRd n u layer bank rowsel word,
      .markRow n u, .fixLane n, .testNop n], Gives i s (d.wr CORE_SLC_TEST_STAT.LOST 1 n)) ∧
    (∀ r, (d.slice n).test = some r → Gives (.testCmdDone n) s (((d.updSlice n (fun k => { k with test := none })).wr
      CORE_SLC_TEST_STAT.RESULT r n).wr CORE_SLC_TEST_STAT.BUSY 0 n)) ∧
    ((d.slice n).test = none → Gives (.testCmdDone n) s d) ∧
    (n < 4096 → lane < 1152 → d.rd CORE_SLC_CTRL.LANE_LIMIT n ≤ FMap.get (d.slice n).laneCnt 0 lane →
      (d.spareLaneUsed n lane = false → Gives (.laneFailing n lane) s (d.repairLane n lane)) ∧
      (d.spareLaneUsed n lane = true → Gives (.laneFailing n lane) s
        ((d.updSlice n (fun k => { k with laneCnt := FMap.del k.laneCnt lane })).groupLost n lane)))

open Sys2Proof Sys2Proof.Machine Sys2Proof.Claims in
/-- R311, R312, R363, R364, R365, R366, R367, R368, R369, R379: A good flit is counted, a bad one is resent and its
excess recorded. A link or port that goes down reads DOWN at both ends, writes a LOST record, and fails messages that
need it. The 160 bytes of a frame read back as the frame. A packet of n flits takes max(n, 1) frames, FIRST in the
first and LAST in the last, of one channel and BANK. A DATA frame with the expected SEQ is accepted, and any other is
discarded with a NAK; a frame that does not read is discarded. After a discard an IDLE frame is not accepted. ACK, CRED
and NAK release, return credits and replay. A port goes down once 32 sends of one frame have failed. SEAM_LOOP sets the
mode of the ports out of service and of no other, and a TRAIN frame counts bit errors. -/
def Obligations.MeshAndSeamFrames : Prop :=
  ∀ (s : State) (g l h x lag cred lane errs v noise : Nat) (o : SeamOut) (fr : SeamFrame), Live s → h < 2 →
    let d := s.dev
    let bad := d.addSat CL_MESH_RETRY.COUNT 1 g l
    let note := bad.noteResend (8 * g + l) (bad.rd CL_MESH_CTRL.ERR_LIMIT g)
    let p := d.seamPeer h x
    let nak := fun (e : Dev) => e.updSeam h x (fun k => { k with nakOut := true, nakDue := true })
    let sent := d.sendData p x o lag cred
    let idle := d.idleFrame p x lag cred
    (linkExists g l = true → Gives (.meshFlitReceive g l true) s (d.add CL_MESH_FLITS.FLITS 1 g l)) ∧
    (linkExists g l = true → note.1 = false → Gives (.meshFlitReceive g l false) s note.2) ∧
    (linkExists g l = true → note.1 = true → Gives (.meshFlitReceive g l false) s
      ((note.2.err 1 9 (unitCluster g 14 l) 0).wr CL_MESH_STAT.ERR_SEEN 1 g)) ∧
    (linkExists g l = true → d.linkDown g l = false → Gives (.meshLinkDown g l) s
      (let e := (d.linkGoesDown g l).err 4 9 (unitCluster g 14 l) 0
       e.cores.foldl (fun d k => d.failLost k.1 8) e)) ∧
    ((linkExists g l = false ∨ d.linkDown g l = true) → Gives (.meshLinkDown g l) s d) ∧
    (fr.kind < 4 → fr.vc < 4 → fr.bank < 2 → fr.seq < 4096 → fr.ack < 4096 → fr.cred < 2 ^ 16 → fr.data < 2 ^ 1024 →
      fr.phdr < 2 ^ 128 → SeamFrame.read fr.word = some fr) ∧
    (let n := d.newFrame p x o
     ((d.seam p x).packet = none → n.1.first = true ∧ n.1.last = decide (o.flits ≤ 1) ∧
       n.2 = if o.flits ≤ 1 then none else some { vc := o.vc % 4, left := o.flits - 1, bank := d.packetBank p o.old }) ∧
     (∀ k, (d.seam p x).packet = some k → n.1.vc = k.vc ∧ n.1.bank = k.bank ∧ n.1.first = false ∧ n.1.phdr = 0 ∧
       n.1.last = decide (k.left ≤ 1))) ∧
    (d.seamRuns p x = true → (d.seam h x).nakOut = false → Gives (.seamIdleFrame h x lag cred) s (d.frameC1 h x idle)) ∧
    (d.seamRuns p x = true → (d.seam h x).nakOut = true → Gives (.seamIdleFrame h x lag cred) s d) ∧
    (∀ f e, sent = some (f, e) → f.kind = 1 → f.seq = (e.seam h x).rxExp → Gives (.seamDataFrame h x o lag cred) s
      (((e.updSeam h x (fun k =>
        { k with rxExp := (k.rxExp + 1) % 4096, nakOut := false, nakDue := false,
                 rxBuf := FMap.set k.rxBuf f.vc (k.buf f.vc ++ [f]) })).frameC1 h x f).noteSent p x f.seq true)) ∧
    (∀ f e, sent = some (f, e) → f.kind = 1 → f.seq ≠ (e.seam h x).rxExp → Gives (.seamDataFrame h x o lag cred) s
      ((e.updSeam h x (fun k => { k with nakOut := true, nakDue := k.nakDue || !k.nakOut })).noteSent p x f.seq false)) ∧
    (∀ f e, sent = some (f, e) → SeamFrame.read (f.word ^^^ noise) = none →
      Gives (.seamBadFrame h x (.data o lag cred) noise) s ((nak e).noteSent p x f.seq false)) ∧
    (sent = none → Gives (.seamDataFrame h x o lag cred) s d ∧ Gives (.seamBadFrame h x (.data o lag cred) noise) s d) ∧
    (d.seamRuns p x = true → SeamFrame.read (idle.word ^^^ noise) = none →
      Gives (.seamBadFrame h x (.idle lag cred) noise) s (nak d)) ∧
    (∀ i, d.seamRuns p x = true → (d.seam p x).nakDue = true →
      let q := (d.seam p x).rxExp
      let u := d.updSeam p x (fun k => { k with nakDue := false })
      let t := if (u.seam h x).nakOut then u else u.takeCredits h p x (d.credits p x cred)
      (t.seam h x).replay.findIdx? (fun f => f.frame.seq == q % 4096) = some i →
      let e := (t.updSeam h x (fun k => { k with replay := k.replay.drop i, pos := q % 4096 })).addSat SEAM_Pn_REPLAY.COUNT 1 h x
      let r := e.noteResend (4096 + 16 * h + x) (e.rd SEAM_CTRL.ERR_LIMIT h)
      (r.1 = false → Gives (.seamNakFrame h x cred) s r.2) ∧
      (r.1 = true → Gives (.seamNakFrame h x cred) s ((r.2.err 1 9 (unitHalf h 22 x) 0).wr SEAM_CTRL.ERR_SEEN 1 h))) ∧
    ((d.seam p x).nakDue = false → Gives (.seamNakFrame h x cred) s d) ∧
    (d.bit SEAM_PRBS.EN h = false → Gives (.seamTrainFrame h x lane errs) s d) ∧
    (x < 16 → lane < 80 → d.bit SEAM_PRBS.EN h = true → d.rd SEAM_PRBS.PORT h = x → (d.loopMode h x = 1 ∨ d.loopMode h x = 2) →
      let e := d.updSeam h x (fun k => { k with prbs := FMap.set k.prbs lane (FMap.get k.prbs 0 lane + errs) })
      let worst := e.rd SEAM_Pn_LANE.WORST h x
      Gives (.seamTrainFrame h x lane errs) s
        ((if FMap.get (e.seam h x).prbs 0 worst < FMap.get (e.seam h x).prbs 0 lane then e.wr SEAM_Pn_LANE.WORST lane h x
          else e).addSat SEAM_Pn_LANE.ERRS errs h x)) ∧
    (x < 16 → d.portDown x = false → d.sendsFailed x = true → Gives (.seamPortDown h x) s (d.seamDown h x)) ∧
    ((16 ≤ x ∨ d.portDown x = true ∨ d.sendsFailed x = false) → Gives (.seamPortDown h x) s d) ∧
    (let t := d.seamLoop h v
     Gives (.seamLoopWrite h v) s t ∧
     ∀ p, p < 16 → t.loopMode h p = if d.portUp p then d.loopMode h p else v / 4 ^ p % 4)

open Sys2Proof Sys2Proof.Machine Sys2Proof.Claims in
/-- R372, R373, R374, R375, R376, R535: SWITCH sends PREPARE, or waits while a switch runs. Each half that is a party
answers READY or ABORT with its cause, and one that is none is not asked. READY from every party sends FLIP, Half B
flips, then Half A flips and the epoch advances. A half's drain ends once no request of its cores under the old epoch
is left, and the end of the drains makes the switch DONE. ABORT or a timeout sends CANCEL, which ends it with its
result. Loss of the control channel ends a switch of both halves with SPLIT or TIMEOUT, and while it is lost their
PREPARE and DRAINED do not arrive. An access to a block of the other half is served there. -/
def Obligations.EpochSwitches : Prop :=
  ∀ (s : State) (h : Nat) (who : Requester) (a n : Nat) (wr : Option Nat), Live s → h < 2 →
    let d := s.dev
    let both := fun (f : Dev → Nat → Dev) (e : Dev) => f (f e 0) 1
    let w0 : Switch := { parties := d.switchParties, answers := [], flip := false, cancel := false, flipped := [], drained := [] }
    let begun := { both (fun e k => e.wr HALF_COMMIT.PHASE 1 k) (d.wr SEQ_EPOCH_STAT.WAITING 0) with switch := some w0 }
    let done := fun (e : Dev) (res cause : Nat) =>
      { both (fun e k => ((e.wr HALF_COMMIT.PHASE 0 k).wr HALF_COMMIT.RESULT res k).wr HALF_COMMIT.CAUSE cause k) e with
        switch := none }
    let say := fun (res cause : Nat) => both (fun e k => (e.wr HALF_COMMIT.RESULT res k).wr HALF_COMMIT.CAUSE cause k) d
    (d.switch = none → Gives .epochSwitch s begun ∧
      Gives .epochDiscard s ({ d with shadow := [] }.wr SEQ_EPOCH_STAT.DIRTY 0)) ∧
    (d.switch ≠ none → Gives .epochSwitch s (d.wr SEQ_EPOCH_STAT.WAITING 1) ∧
      Gives .epochDiscard s (d.wr SEQ_EPOCH_STAT.CMD_LOST 1)) ∧
    Gives .epochNop s d ∧ Gives (.ctrlHeartbeat h) s d ∧
    (∀ w, d.switch = some w →
      (h ∈ w.parties → FMap.find w.answers h = none → w.cancel = false → (h = 0 ∨ d.unheard w = false) →
        Gives (.prepare h) s { d with switch := some { w with answers := FMap.set w.answers h (d.abortCause h) } }) ∧
      (h ∉ w.parties → Gives (.prepare h) s d) ∧
      ((∀ k ∈ w.parties, FMap.find w.answers k = some none) → w.cancel = false →
        Gives .commitReady s { d with switch := some { w with flip := true } }) ∧
      (∀ c t, w.answers.filterMap Prod.snd = c :: t →
        Gives .commitAbort s { say 2 c with switch := some { w with cancel := true } }) ∧
      (w.flip = true → w.flipped = [] →
        Gives .flip s { (d.flipHalf 1).wr HALF_COMMIT.PHASE 2 1 with switch := some { w with flipped := [1] } }) ∧
      (w.flipped = [1] → Gives .flipped s
        { both (fun e k => e.wr HALF_COMMIT.PHASE 3 k) ((d.flipHalf 0).add SEQ_EPOCH.EPOCH 1) with
          switch := some { w with flipped := [1, 0] } }) ∧
      (d.oldRequests h = true → Gives (.epochDrainEnd h) s d) ∧
      (h ∈ w.flipped → h ∉ w.drained → d.oldRequests h = false →
        Gives (.epochDrainEnd h) s { d with switch := some { w with drained := w.drained ++ [h] } }) ∧
      (d.unheard w = true → Gives (.prepare 1) s d ∧ Gives .drained s d) ∧
      (w.flipped = [1, 0] → (∀ k ∈ w.parties, k ∈ w.drained) → d.unheard w = false → Gives .drained s
        (done ({ d with shadow := [] }.wr SEQ_EPOCH_STAT.DIRTY 0) 1 0).nextSwitch) ∧
      (w.cancel = true → Gives .commitCancel s
        (done d (d.rd HALF_COMMIT.RESULT 0) (d.rd HALF_COMMIT.CAUSE 0)).nextSwitch) ∧
      (w.flip = false → w.cancel = false → w.answers.length ≠ w.parties.length →
        Gives .commitTimeout s { say 3 0 with switch := some { w with cancel := true } }) ∧
      (w.flip = true → Gives .commitTimeout s d)) ∧
    (let lost := (({ both (fun e k => ((e.wr HALF_STAT.CTRL_LOST 1 k).wr HALF_STAT.CTRL_UP 0 k).err 4 9 (unitHalf k 22 0) 0) d with
       ctrlDown := true } : Dev).svc 5)
     d.ctrlDown = false → lost.switch = none → Gives .ctrlChannelLost s lost) ∧
    (d.ctrlDown = true → Gives .ctrlChannelLost s d) ∧
    (a % 2 ^ 28 < 0x100000 → halfOf (a % 2 ^ 28) ≠ d.entryHalf who →
      Gives (.forwardedAccess who a n wr) s (d.access who a (accessBytes n) wr)) ∧
    (halfOf (a % 2 ^ 28) = d.entryHalf who → Gives (.forwardedAccess who a n wr) s d)

open Sys2Proof Sys2Proof.Machine Sys2Proof.Claims in
/-- R505, R506, R520, R522, R525, R529, R537: CRST_N_ASSERT resets and holds the device and CRST_N_RELEASE boots it.
SEQ_RST_ARM arms with its key until its expiry or the next command. CORE and CLUSTER raise a Curtain on an enabled
unit and otherwise answer 2, WARM and COLD run only when armed and otherwise answer 3, and while BUSY a command sets
CMD_LOST. LOWER removes a Curtain and reports. Joins are retried and end at their deadline. A boot goes on when its
reference appears or the device has cooled. -/
def Obligations.ResetsAndCurtains : Prop :=
  ∀ (s : State) (v r : Nat) (b : BootIn) (fails : List Nat) (verify : List Bool) (scope : CScope),
    let d := s.dev
    let idle := d.bit SEQ_RST_RESULT.BUSY = false
    let go := fun (t : Nat) => (({ d with armed := false }.wr SEQ_RST_RESULT.CODE 0).wr SEQ_RST_RESULT.TARGET t).wr SEQ_RST_RESULT.BUSY 1
    let answer := fun (e : Dev) (code t : Nat) => (e.wr SEQ_RST_RESULT.CODE code).wr SEQ_RST_RESULT.TARGET t
    let late := fun (e : Dev) (ms : Nat) => { ((((e.wr SEQ_STAT.JOINED 1).wr SEQ_STAT.STAGE 9).wr SEQ_JOIN.MISS
      d.joins.left.length).wr SEQ_JOIN.MS ms) with joins := Joins.init }
    Gives .crstNAssert s { d.coldBase with crst := true } ∧
    (d.crst = true → Gives (.crstNRelease b) s (d.coldBoot b (if b.power then 0 else 1))) ∧
    (d.crst = false → Gives (.crstNRelease b) s d) ∧
    (Live s →
      Gives (.seqRstArmWrite v) s { d with armed := v % 2 ^ 16 == 0x5EA7 } ∧ Gives .armExpiry s { d with armed := false } ∧
      (idle → d.coreEnabled (v % 2 ^ 12) = true → Gives (.rstCore v) s ((go (v % 2 ^ 12)).coreCurtain (v % 2 ^ 12) (.rst (v % 2 ^ 12)))) ∧
      (idle → d.coreEnabled (v % 2 ^ 12) = false → Gives (.rstCore v) s (answer { d with armed := false } 2 (v % 2 ^ 12))) ∧
      (idle → d.clusterEnabled (v % 2 ^ 8) = true →
        Gives (.rstCluster v) s ((go (v % 2 ^ 12)).clusterCurtain (v % 2 ^ 8) (.rst (v % 2 ^ 12)))) ∧
      (idle → d.clusterEnabled (v % 2 ^ 8) = false → Gives (.rstCluster v) s (answer { d with armed := false } 2 (v % 2 ^ 12))) ∧
      (idle → Gives .rstNop s d) ∧
      (¬idle → ∀ i ∈ [Instr.rstCore v, .rstCluster v, .rstNop], Gives i s (d.wr SEQ_RST_RESULT.CMD_LOST 1)) ∧
      (∀ k, d.curtains.find? (fun x => x.scope == scope && x.into.isNone) = some k →
        let e : Dev := { d with curtains := d.curtains.filter (fun o => !(o == k) && o.into != some scope) }
        Gives (.curtainLower scope) s (((d.curtains.filter (fun o => o.into == some scope)).foldl
          (fun x o => x.curtainReport o true) (e.curtainReport k false)).dispatch)) ∧
      (d.curtains.find? (fun x => x.scope == scope && x.into.isNone) = none → Gives (.curtainLower scope) s d) ∧
      (d.joins.on = true → Gives .joinRetryTimer s
          ({ d with joins := { d.joins with todo := d.joins.todo ++ d.joins.retry, retry := [] } }.pumpJoins) ∧
        (d.rd SEQ_CAUSE.WARMS = 0 → Gives .joinDeadline s (late d 4500)) ∧
        (d.rd SEQ_CAUSE.WARMS ≠ 0 → ∀ n e, d.draw 21 = (n, e) → Gives .joinDeadline s (late e n.toNat))) ∧
      (d.joins.on = false → Gives .joinRetryTimer s d ∧ Gives .joinDeadline s d)) ∧
    (d.dark = false →
      (idle → d.armed = true → Gives (.rstWarm fails verify) s
        ((answer { d with armed := false } 0 0).warmGo 1 fails verify)) ∧
      (idle → d.armed = true → Gives (.rstCold verify b) s ({ d with armed := false }.coldGo 2 verify b)) ∧
      (idle → d.armed = false → Gives (.rstWarm fails verify) s (answer d 3 0) ∧ Gives (.rstCold verify b) s (answer d 3 0)) ∧
      (¬idle → Gives (.rstWarm fails verify) s (d.wr SEQ_RST_RESULT.CMD_LOST 1)) ∧
      (∀ src, d.warm = some (.cooling, src) →
        (d.cooled = true → Gives (.warmResetContinue fails) s (({ d with warm := none }.warmB fails).warmEnd src)) ∧
        (d.cooled = false → Gives (.warmResetContinue fails) s d)) ∧
      (∀ src, d.warm = some (.entry, src) → Gives (.warmResetContinue fails) s
        (((({ d with warm := none } : Dev).commitCut).warmA 3).warmMid src fails)) ∧
      (d.boot = some b → (b.ref0 = true ∨ b.ref1 = true) → d.trip = true → d.cooled = true →
        Gives .coldBootContinue s (({ d with trip := false }.emit (.pin "THERMTRIP_N" true)).bootOn b)) ∧
      (d.boot = none → Gives .coldBootContinue s d)) ∧
    (d.boot = some b → b.ref0 = false → b.ref1 = false → Gives (.referenceAppears r) s
      ((({ d with boot := none } : Dev).emit (.pin "SVC_REQ_N" true)).bootFrom { b with ref0 := r % 2 == 0, ref1 := r % 2 == 1 })) ∧
    (d.boot = none → Gives (.referenceAppears r) s d)

open Sys2Proof Sys2Proof.Machine Sys2Proof.Claims in
/-- R59, R61, R62, R65, R66, R490, R495, R499: Each Darn command on a valid, enabled unit queues its entry, changes
the map and raises its Curtain, and a refused one answers its code. While CMD_BUSY it sets CMD_LOST. A command ends
once its Curtain has lowered. COMMIT takes a snapshot of the queue and programs it. The logger merges or writes its
oldest record, and an hour ends. -/
def Obligations.DarnAndErrorLog : Prop :=
  ∀ (s : State) (u : Nat) (verify : List Bool), u < 2 ^ 24 →
    let d := s.dev
    let n := uidCore u
    let g := uidCluster u
    let free := Live s ∧ d.bit DARN_STAT.CMD_BUSY = false
    let refused := fun (code : Nat) => (d.wr DARN_CMD_RESULT.CODE code).wr DARN_CMD_RESULT.UNIT u
    let ix := d.rd DARN_CMD_ARG.INDEX
    (free → uidIsCore u 0 1 = true → d.coreEnabled n = true →
      Gives (.darnRetireCore u) s ((d.darnApply 1 u 6 (fun e => e.retireOne n 6)).coreCurtain n .darn)) ∧
    (free → uidIsCore u 0 1 = false → Gives (.darnRetireCore u) s (refused 2)) ∧
    (free → uidIsCore u 0 1 = true → d.coreEnabled n = false → Gives (.darnRetireCore u) s (refused 3)) ∧
    (free → uidIsCluster u 17 = true → uidInst u = 0 → d.clusterEnabled g = true → Gives (.darnRetireCluster u) s
      ((d.darnApply 2 u 6 (fun e => ((List.range 16).map (fun k => g * 16 + k)).foldl
        (fun e n => if e.coreEnabled n then e.retireOne n 5 else e) (e.wr DARN_CL_STATE.STATE 3 0 g))).clusterCurtain g .darn)) ∧
    (free → uidIsCluster u 17 = false → Gives (.darnRetireCluster u) s (refused 2)) ∧
    (∀ peer, free → uidIsCluster u 14 = true → linkPeer g (uidInst u) = some peer → d.linkGone g (uidInst u) = false →
      d.linkGone peer (linkBack (uidInst u)) = false → Gives (.darnRetireLink u) s
        (d.darnApply 3 u 0 (fun e => (e.setBit DARN_CL_STATE.LINK_PEND (uidInst u) true 0 g).setBit
          DARN_CL_STATE.LINK_PEND (linkBack (uidInst u)) true 0 peer))) ∧
    (free → uidIsCluster u 14 = false → Gives (.darnRetireLink u) s (refused 2)) ∧
    (free → uidIsCore u 1 4 = true → d.coreEnabled n = true →
      ((d.rd DARN_CORE_STATE.ROW_USED 0 n).testBit (uidInst u) = false → Gives (.darnRepairRow u) s
        ((d.darnApply 5 u ix (fun e => e.setBit DARN_CORE_STATE.ROW_USED (uidInst u) true 0 n)).coreCurtain n .darn)) ∧
      ((d.rd DARN_CORE_STATE.ROW_USED 0 n).testBit (uidInst u) = true → Gives (.darnRepairRow u) s (refused 4)) ∧
      ((d.rd DARN_CORE_STATE.COL_USED 0 n).testBit (uidInst u) = false → Gives (.darnRepairCol u) s
        ((d.darnApply 6 u ix (fun e => (e.setBit DARN_CORE_STATE.COL_USED (uidInst u) true 0 n).setBit
          DARN_CORE_STATE.CKCOL (uidInst u) false 0 n)).coreCurtain n .darn))) ∧
    (free → Gives .darnNop s d) ∧
    (Live s → d.bit DARN_STAT.CMD_BUSY = true → ∀ i ∈ [Instr.darnRetireCore u, .darnRetireCluster u, .darnRetireLink u,
      .darnRepairRow u, .darnRepairCol u, .darnNop, .darnCommit u], Gives i s (d.wr DARN_STAT.CMD_LOST 1)) ∧
    (∀ code w, Live s → d.darnCmd = some (code, w) →
      (d.curtains.any (fun k => k.src == .darn) = false → Gives .darnCmdDone s
        (((({ d with darnCmd := none } : Dev).wr DARN_CMD_RESULT.CODE code).wr DARN_CMD_RESULT.UNIT w).wr DARN_STAT.CMD_BUSY 0)) ∧
      (d.curtains.any (fun k => k.src == .darn) = true → Gives .darnCmdDone s d)) ∧
    (Live s → d.darnCmd = none → Gives .darnCmdDone s d) ∧
    (free → d.bit DARN_STAT.COMMIT_BUSY = false →
      Gives (.darnCommit u) s { d.wr DARN_STAT.COMMIT_BUSY 1 with commit := some (u, d.darnQ) }) ∧
    (∀ w es, Live s → d.commit = some (w, es) →
      Gives (.commitDone verify) s (d.commitEnd w (Dev.commitEntries es verify d) false)) ∧
    (Live s → d.commit = none → Gives (.commitDone verify) s d) ∧
    (∀ r rest, d.dark = false → d.recs = r :: rest →
      let e := { d with recs := rest }
      let e := match e.recFind r with | some i => e.recMerge i | none => e.recNew r
      Gives .errorRecord s (if r.cls = 2 then e.ueNote else e)) ∧
    (d.dark = false → d.recs = [] → Gives .errorRecord s d) ∧
    (d.dark = false → Gives .ueRateHour s (({ d with ueHours := (0 :: d.ueHours).take 168 } : Dev).ueCheck))

open Sys2Proof Sys2Proof.Machine Sys2Proof.Claims in
/-- R5, R7, R443, R444, R446, R447, R449, R452, R455, R457, R466, R467: Each physical function reports its identifiers,
the serial number and in its DVSEC the link and whether the other one is up, and virtual functions report Device ID
0x0353. A link trains and goes down with its event, and PERST, hot reset and FLR reset the tenants of their functions.
An invalidation is counted. A held-off vector is sent when an event was folded. BAR2 reads and writes of a line reach
memory through the window of a physical function. A doorbell sets its index or DB_LOST. PART_CMD resets a tenant or
partition or reloads an entry, and VALID raises a Curtain. -/
def Obligations.HostLinksAndPartitions : Prop :=
  ∀ (s : State) (h speed width f slot off n v i p : Nat) (flit : Bool), Live s → h < 2 → f < 2 →
    let d := s.dev
    let downed := (([PCIE_STAT.UP, PCIE_STAT.FLIT, PCIE_STAT.SPEED, PCIE_STAT.WIDTH].foldl (fun d f => d.wr f 0 h) d).wr
      PCIE_STAT.DOWN_SEEN 1 h).event 6 none
    let sp := min speed (d.rd PCIE_CTRL.MAX_SPEED h)
    let idle := d.bit PART_RESULT.BUSY = false
    let t := v % 2 ^ 12
    let result := fun (e : Dev) (code : Nat) => (e.wr PART_RESULT.CODE code).wr PART_RESULT.TARGET t
    let o := off % 4096
    let da := fun (fn : Nat) => d.window fn * 2 ^ 36 + off % 2 ^ 36
    let line := fun (a : Nat) => 1 ≤ n ∧ n ≤ 128 - a % 128
    let size := v / 2 ^ 26 % 4
    let perst := (downed.resetLink h).rstImg PCIE_CTRL.MAX_SPEED h
    (d.config f .vendorId = some 0x1E6B ∧ d.config f .serialNumber = some (d.rd SEQ_SERIAL.SERIAL) ∧
      d.config (2 + f) .deviceId = some 0x0353 ∧ d.config f .dvsecVendorId = some 0x1E6B ∧ d.config f .dvsecId = some 1 ∧
      (d.rd SEQ_ID.PART = 0x0352 → d.config f .deviceId = some 0x0352) ∧
      (d.rd SEQ_ID.REV = 0xA1 → d.config f .revisionId = some 0xA1) ∧
      (FMap.find d.opts 0x0101 = none →
        d.config f .subsystemVendorId = some 0x1E6B ∧ d.config f .subsystemId = some 0) ∧
      (∀ x y, x < 2 ^ 16 → y < 2 ^ 16 → FMap.find d.opts 0x0101 = some (y * 2 ^ 16 + x) →
        d.config f .subsystemVendorId = some x ∧ d.config f .subsystemId = some y) ∧
      d.config 0 .dvsecData = some (if d.bit PCIE_STAT.UP 1 then 2 else 0) ∧
      d.config 1 .dvsecData = some (if d.bit PCIE_STAT.UP 0 then 3 else 1)) ∧
    Gives (.pcieLinkUp h speed width flit) s (((((d.wr PCIE_STAT.SPEED sp h).wr PCIE_STAT.WIDTH (min width 4) h).wr
      PCIE_STAT.FLIT (if flit || sp == 5 then 1 else 0) h).wr PCIE_STAT.UP 1 h).event 6 none) ∧
    (d.bit PCIE_STAT.UP h = true → Gives (.pcieLinkDown h) s (downed.resetLink h)) ∧
    (d.bit PCIE_STAT.UP h = false → Gives (.pcieLinkDown h) s d) ∧
    Gives (.perstAssert h) s ((perst.linkFuncs h).foldl (fun e f => e.resetFunc f) perst) ∧
    Gives (.pcieHotReset h) s (d.resetLink h) ∧ Gives (.pfFlr h) s (d.resetLink h) ∧
    (slot < 64 → Gives (.vfFlr slot) s ((d.resetFuncs [2 + slot]).resetFunc (2 + slot))) ∧
    Gives (.atsInvalidate n) s (d.add PCIE_INVAL.COUNT 1 (d.funcHalf n)) ∧
    (FMap.find d.irqHold i = some true →
      Gives (.irqHoldoffExpiry i) s ({ d with irqHold := FMap.del d.irqHold i }.irqSend i)) ∧
    (FMap.find d.irqHold i = some false → Gives (.irqHoldoffExpiry i) s { d with irqHold := FMap.del d.irqHold i }) ∧
    (FMap.find d.irqHold i = none → Gives (.irqHoldoffExpiry i) s d) ∧
    (∀ fn e, fn < 66 → d.bit SEQ_STAT.READY = true → line (da fn) →
      let a := da fn
      let hf := d.funcHalf fn
      (d.lineRefused fn a false = (none, e) → Gives (.bar2Access fn off n none) s (let r := e.cachedRead (e.seenDa hf a) n none
        r.2.emit (.memData (.fn fn) a n r.1.val r.1.ue r.1.poison))) ∧
      (d.lineRefused fn a true = (none, e) →
        Gives (.bar2Access fn off n (some v)) s (e.cachedWrite (e.seenDa hf a) n (v % 256 ^ n) none)) ∧
      (∀ cls, d.lineRefused fn a false = (some cls, e) → Gives (.bar2Access fn off n none) s
        (((e.err cls 1 (unitHalf hf 18 0) a).addSat PCIE_UR_CNT.COUNT 1 hf).emit (.errCompletion (.fn fn) a))) ∧
      (∀ cls, d.lineRefused fn a true = (some cls, e) →
        Gives (.bar2Access fn off n (some v)) s ((e.err cls 2 (unitHalf hf 18 0) a).addSat PCIE_UR_CNT.COUNT 1 hf))) ∧
    (∀ fn, fn < 66 → d.bit SEQ_STAT.READY = false → Gives (.bar2Access fn off n (some v)) s d ∧
      Gives (.bar2Access fn off n none) s (d.emit (.errCompletion (.fn fn) (da fn)))) ∧
    (∀ fn,
      let hf := d.funcHalf fn
      let b := if (d.pageTenant fn (off / 4096)).2 then d.wr HQ_STAT.MULTI_HIT 1 hf else d
      let gives := fun (n : Nat) (x : Dev) => (o < 0x800 → Gives (.hqSqDoorbell fn off n v) s x) ∧
        (0x800 ≤ o → Gives (.hqCqDoorbell fn off n v) s x)
      (n ≠ 4 ∨ o % 8 ≠ 0 ∨ 64 ≤ o % 0x800 → gives n (b.wr HQ_STAT.DB_LOST 1 hf)) ∧
      (o % 8 = 0 → o % 0x800 < 64 →
        ((d.pageTenant fn (off / 4096)).1 = none → gives 4 (b.wr HQ_STAT.DB_LOST 1 hf)) ∧
        (∀ t x e, (d.pageTenant fn (off / 4096)).1 = some t → b.tenantEntry t = (x, e) →
          (x = none ∨ e.tenantResetting t = true ∨ e.doorbellHits t (o % 0x800 / 8) = [] → gives 4 (e.wr HQ_STAT.DB_LOST 1 hf)) ∧
          (∀ j more, x.isSome = true → e.tenantResetting t = false → e.doorbellHits t (o % 0x800 / 8) = j :: more →
            let g := if more.isEmpty then e else e.wr HQ_STAT.MULTI_HIT 1 hf
            (o < 0x800 → Gives (.hqSqDoorbell fn off 4 v) s
              (let r := g.ringIdx j (g.rd HQ_QPn_IDX.SQ_CI (j / 1024) (j % 1024)) v (g.rd HQ_QPn_SIZE.SQ_LOG2 (j / 1024) (j % 1024))
               r.2.updHq j (fun k => { k with sqPi := r.1 }))) ∧
            (0x800 ≤ o → Gives (.hqCqDoorbell fn off 4 v) s
              (let r := g.ringIdx j (g.hq j).cqCi v (g.rd HQ_QPn_SIZE.CQ_LOG2 (j / 1024) (j % 1024))
               r.2.updHq j (fun k => { k with cqCi := r.1 }))))))) ∧
    (∀ fn n, (0x800 ≤ o → Gives (.hqSqDoorbell fn off n v) s d) ∧ (o < 0x800 → Gives (.hqCqDoorbell fn off n v) s d)) ∧
    (idle → Gives (.partTenantReset v) s (((result d 0).wr PART_RESULT.BUSY 1).tenantCurtain t (.part t)) ∧
      Gives (.partReload v) s (result { d with tenants := FMap.del d.tenants t } 1) ∧ Gives .partNop s d) ∧
    (idle → d.bit PART_Pp_CTRL.VALID 0 (v % 64) = false → Gives (.partPartitionReset v) s (result d 2)) ∧
    (idle → d.bit PART_Pp_CTRL.VALID 0 (v % 64) = true → Gives (.partPartitionReset v) s
      (((result d 0).wr PART_RESULT.BUSY 1).raiseCurtain (.part (v % 64))
        ((List.range 256).filter (fun g => d.partOf g == some (v % 64))) (.part t))) ∧
    (¬idle → ∀ x ∈ [Instr.partTenantReset v, .partReload v, .partNop, .partPartitionReset v],
      Gives x s (d.wr PART_RESULT.CMD_LOST 1)) ∧
    (p < 64 → d.bit PART_Pp_CTRL.VALID 0 p = false →
      let e := (if size = 3 then d.noteClamp (PART_Pp_CTRL.addr 0 p 0) else d).wr PART_Pp_CTRL.PAGE_SIZE (min size 2) 0 p
      (v.testBit 31 = false → Gives (.partitionValidWrite p v) s e) ∧
      (v.testBit 31 = true → Gives (.partitionValidWrite p v) s
        (let e := e.wr PART_Pp_CTRL.VALID 1 0 p
         e.raiseCurtain (.part p) (e.maskOf p) (.valid p)))) ∧
    (p < 64 → d.bit PART_Pp_CTRL.VALID 0 p = true →
      let e := if size ≠ d.rd PART_Pp_CTRL.PAGE_SIZE 0 p then d.wr PART_STAT.WR_LOST 1 else d
      (v.testBit 31 = false → Gives (.partitionValidWrite p v) s (let e := e.wr PART_Pp_CTRL.VALID 0 0 p
        e.raiseCurtain (.part p) (e.maskOf p) (.valid p))) ∧
      (v.testBit 31 = true → Gives (.partitionValidWrite p v) s e))

namespace Sys2Proof.Claims
open Sys2Proof Sys2Proof.Machine

/-- Queue pair `q` may start its next entry `entry` as command `k` of a tenant whose table entry is `v`: the pair is valid,
the entry is there, the completion ring has room, nothing holds it back, and a SIGNAL named in it is of a cue in the
partition (R458, R460). `e` is the device once the entry has been taken and each field out of range has been clamped. -/
def QueueStarts (d : Dev) (q entry : Nat) (k : HqCmd) (v : Nat) (e : Dev) : Prop :=
  let x := d.hq q
  let t := d.qpTenant q
  let h := q / 1024
  let n := q % 1024
  let ci := d.rd HQ_QPn_IDX.SQ_CI h n
  let live := x.cmds.filter (fun k => !k.drop)
  let copies := d.hdmaCmds h
  let home := (d.ctxDa (tenPart v) k.ctx).map (fun da => daCore da / 16)
  k = { num := x.num, tenant := t, entry := entry, pos := 0, core := none, ended := none, drop := false } ∧
  q < 2048 ∧ d.qpValid q = true ∧ ci ≠ x.sqPi ∧ x.flush = none ∧
  (d.rd HQ_QPn_IDX.CQ_PI h n + 2 ^ 16 - x.cqCi) % 2 ^ 16 + live.length < 2 ^ d.rd HQ_QPn_SIZE.CQ_LOG2 h n ∧
  (d.tenantEntry t).1 = some v ∧ d.tenantCurtained t = false ∧ (k.fence = true → live = []) ∧
  (k.copies = true → copies.length < 64 ∧ (copies.filter (fun b => b.tenant == t)).length < tenHdmaMax v) ∧
  (k.namesCore = true → d.coreCurtained k.coreNo = false) ∧ (k.op = 7 → home.any d.clusterCurtained = false) ∧
  e = (List.range k.clamps).foldl (fun x _ => x.clampQueue h)
    ((((d.tenantEntry t).2).wr HQ_QPn_IDX.SQ_CI ((ci + 1) % 2 ^ 16) h n).updHq q
      (fun s => { s with num := s.num + 1, cmds := s.cmds ++ [k], flush := none })) ∧
  (k.cuev = true → e.partOf (cueCluster k.cue) = some (tenPart v))

/-- Command `k` names a core that the partition of entry `v` may command, enabled and not withdrawn; `g` is the device after
the check. -/
def CoreNamed (q : Nat) (k : HqCmd) (v : Nat) (e g : Dev) : Prop :=
  e.protReg (q / 1024) (tenPart v) (CORE_SEQ_CTRL.addr k.coreNo 0 0) true = (true, g) ∧ g.coreEnabled k.coreNo = true ∧
  g.bit CORE_SEQ_STAT.WITHDRAWN k.coreNo = false

end Sys2Proof.Claims

open Sys2Proof Sys2Proof.Machine Sys2Proof.Claims in
/-- R456, R458, R459, R460, R461, R463: A queue pair that may start its next entry takes it. NOP and SIGNAL end at
once, START writes the program and starts its core, HALT and RESUME act on theirs, SQEVICT evicts a context of the
tenant, REGW and REGR access a register, and COPY and FILL start a transfer whose requests then move bytes. An ended
command writes its completion entry and counts. VALID accepts the other fields only while it is 0. -/
def Obligations.HostQueueCommands : Prop :=
  ∀ (s : State) (q entry num v : Nat) (k : HqCmd) (e g : Dev), Live s →
    let d := s.dev
    let w := tenPart v
    let starts := QueueStarts d q entry k v e
    let done := fun (e : Dev) (status w2 : Nat) => e.hqEnd q k.num status w2 0
    let rda := (daOf k.rawDa).getD k.rawDa
    (starts → k.op = 0 → Gives (.hqNop q entry) s (e.hqOk q k w 0)) ∧
    (starts → 10 ≤ k.op → Gives (.hqNop q entry) s (e.hqOk q k w 0)) ∧
    (starts → k.op = 6 → Gives (.hqSignal q entry) s (e.hqOk q k w 0)) ∧
    (starts → k.op = 1 → Gives (.hqCopy q none entry true 0) s e) ∧
    (starts → k.op = 2 → Gives (.hqFill q none entry) s e) ∧
    (starts → CoreNamed q k v e g →
      (k.op = 3 → g.rd CORE_SEQ_STAT.STATE k.coreNo ≠ 1 → g.running k.coreNo = false → Gives (.hqStart q entry) s
        (((g.updCmd q k.num (fun x => { x with core := some k.coreNo })).writeProg k.coreNo k.prog).startCore k.coreNo)) ∧
      (k.op = 3 → g.running k.coreNo = true → Gives (.hqStart q entry) s (done g 10 0)) ∧
      (k.op = 4 → Gives (.hqHalt q entry) s ((g.haltReq k.coreNo).hqOk q k w 0)) ∧
      (k.op = 5 → Gives (.hqResume q entry) s ((g.resumeCore k.coreNo).hqOk q k w 0))) ∧
    (starts → k.op = 4 → e.protReg (q / 1024) w (CORE_SEQ_CTRL.addr k.coreNo 0 0) true = (false, g) → Gives (.hqHalt q entry) s
      (done (g.err 3 2 (unitHalf (q / 1024) 18 0) (2 ^ 47 + CORE_SEQ_CTRL.addr k.coreNo 0 0)) 4 0)) ∧
    (starts → k.op = 7 → e.ctxDa w k.ctx = none → Gives (.hqSqevict q entry) s (done e 4 0)) ∧
    (∀ da rec, starts → k.op = 7 → e.ctxDa w k.ctx = some da →
      e.agentRead (homeOf da (q / 1024 * 128)) (some w) da 64 = (some rec, g) → (ctxState rec = 1 ∨ ctxState rec = 2) → ctxTenant rec = k.tenant →
      let o := g.sqEvict (homeOf da (q / 1024 * 128)) w k.tenant 0 da rec
      Gives (.hqSqevict q entry) s (if o.val = 0 ∧ o.fault = 0 then o.dev.hqOk q k w 0 else o.dev.hqEnd q k.num 11 o.val 0)) ∧
    (starts → k.op = 8 → ∀ x, e.regAccess (.queue (q / 1024) (q % 1024)) rda 4 (some (word32 k.entry 8)) = (some x, g) →
      Gives (.hqRegw q entry) s (g.hqOk q k w x)) ∧
    (starts → k.op = 8 → e.regAccess (.queue (q / 1024) (q % 1024)) rda 4 (some (word32 k.entry 8)) = (none, g) →
      Gives (.hqRegw q entry) s (done g 4 0)) ∧
    (starts → k.op = 9 →
      (∀ x, e.regAccess (.queue (q / 1024) (q % 1024)) rda 4 none = (some x, g) → Gives (.hqRegr q entry) s (g.hqOk q k w x)) ∧
      (e.regAccess (.queue (q / 1024) (q % 1024)) rda 4 none = (none, g) → Gives (.hqRegr q entry) s (done g 4 0))) ∧
    ((d.hq q).cmds.find? (fun x => x.num == num && x.ended.isNone && x.op == 2) = some k →
      d.tenantEntry k.tenant = (some v, e) →
      (k.len = k.pos → Gives (.hqFill q (some num) 0) s (e.hqOk q k w 0)) ∧
      (k.pos < k.len → let n := min (k.len - k.pos) (toBlockEnd (k.da + k.pos : Nat))
        Gives (.hqFill q (some num) 0) s (e.hdmaOut q k w n (fillVal (word32 k.entry 8) (n / 4))))) ∧
    ((d.hq q).cmds.find? (fun x => x.num == num && x.ended.isNone && x.op == 1) = some k →
      d.tenantEntry k.tenant = (some v, e) → k.pos < k.len →
      let n := min (k.len - k.pos) (toBlockEnd (k.da + k.pos : Nat))
      let m := fun (x : Nat) => e.add PCIE_ATC_MISS.COUNT x (e.funcHalf (tenFunc v))
      (k.dir = 0 → Gives (.hqCopy q (some num) entry true 0) s
        (((m 0).add HDMA_BYTES_IN.BYTES n (q / 1024)).hdmaOut q k w n (entry % 256 ^ n))) ∧
      (k.dir = 0 → Gives (.hqCopy q (some num) entry false 1) s ((m 1).hdmaFail q k 5)) ∧
      (k.dir = 1 → Gives (.hqCopy q (some num) entry true 0) s ((m 0).hdmaIn q k w n)) ∧
      (k.dir = 2 → Gives (.hqCopy q (some num) entry true 0) s
        (e.hdmaMove q k w n))) ∧
    (d.hq q = HqSt.init → Gives (.hqFill q (some num) entry) s d ∧ Gives (.hqCommandComplete q num) s d) ∧
    (∀ st w2 bytes, (d.hq q).cmds.find? (fun x => x.num == num) = some k → k.ended = some (st, w2, bytes) →
      let c := (d.tenantEntry k.tenant).1
      let x := (d.tenantEntry k.tenant).2
      let e := if k.op = 3 ∧ st = 0 ∧ k.cuev then
        (x.cuePerform 0 k.cue k.cueN false k.tenant (c.map tenPart) 0 false).2 else x
      let f := (e.add HQ_CMDS.COUNT 1 (q / 1024)).updHq q (fun x => { x with cmds := x.cmds.filter (fun y => y.num != num) })
      let pi := f.rd HQ_QPn_IDX.CQ_PI (q / 1024) (q % 1024)
      let lg := f.rd HQ_QPn_SIZE.CQ_LOG2 (q / 1024) (q % 1024)
      let g := (f.emit (.hostWrite (tenFunc (c.getD 0)) (c.bind tenPasid)
        (f.rd HQ_QPn_CQ.ADDR (q / 1024) (q % 1024) + 16 * (pi % 2 ^ lg)) 16
        (st * 2 ^ 24 + word32 k.entry 0 % 2 ^ 16 + (f.rd HQ_QPn_IDX.SQ_CI (q / 1024) (q % 1024) * 2 ^ 16 +
          (if pi / 2 ^ lg % 2 = 0 then 1 else 0)) * 2 ^ 32 + w2 * 2 ^ 64 + (if st = 0 then 0 else bytes) * 2 ^ 96))).wr
        HQ_QPn_IDX.CQ_PI (pi + 1) (q / 1024) (q % 1024)
      let rings := (k.irq = true ∨ st ≠ 0) ∧ g.bit HQ_QPn_CTRL.IRQ_EN (q / 1024) (q % 1024) = true
      (k.drop = true → Gives (.hqCommandComplete q num) s f) ∧
      (k.drop = false → ¬rings → Gives (.hqCommandComplete q num) s g) ∧
      (k.drop = false → rings → Gives (.hqCommandComplete q num) s (g.sendMsix (tenFunc (c.getD 0))
        (vectorOf (tenFunc (c.getD 0)) (min 255 (g.rd HQ_QPn_CTRL.VECTOR (q / 1024) (q % 1024))))))) ∧
    (q < 2048 → d.qpValid q = false → Gives (.hqQpValidWrite q v) s
      (([HQ_QPn_CTRL.IRQ_EN, HQ_QPn_CTRL.SLOT, HQ_QPn_CTRL.VECTOR, HQ_QPn_CTRL.TENANT].foldl (fun d f =>
        d.wr f (v / 2 ^ f.lo) (q / 1024) (q % 1024)) d).wr HQ_QPn_CTRL.VALID (v / 2 ^ 31) (q / 1024) (q % 1024))) ∧
    (q < 2048 → d.qpValid q = true → v.testBit 31 = false →
      ([HQ_QPn_CTRL.IRQ_EN, HQ_QPn_CTRL.SLOT, HQ_QPn_CTRL.VECTOR, HQ_QPn_CTRL.TENANT].all (fun f =>
        v / 2 ^ f.lo % 2 ^ f.width == d.rd f (q / 1024) (q % 1024))) = true → Gives (.hqQpValidWrite q v) s (d.qpClear q))

open Sys2Proof Sys2Proof.Machine Sys2Proof.Claims in
/-- R393, R402, R404, R405, R407, R408, R409, R417: A packet that fails the steps of R393 changes only what those
steps record. A sequenced one in the window is placed, accepted and acknowledged, a duplicate is acknowledged, one
outside is dropped. Acknowledgements release packets. OPEN and OPEN_ACK open the connection, CLOSE and ABORT end it,
PROBE is answered and PROBE_RSP brings the round-trip time. -/
def Obligations.FabricPacketsReceived : Prop :=
  ∀ (s : State) (r : Rx) (f : Fft) (e g : Dev), Live s →
    let d := s.dev
    let c := f.dstConn
    let k := e.conn c
    let seq := fun (typ : Nat) => d.rxConn r f typ Conn.isOpen = (true, e)
    let fresh := k.psnRes f.psn = .accept
    let mark := some (⟨f.psn, fftFlag f 7, fftFlag f 6, f.rda / 4096⟩ : RxMark)
    let n := f.aux % 2 ^ 24 * 32
    let pumped := fun (x : Dev) => if (x.conn c).isOpen then x.pump c else x
    let settled := fun (x : Dev) => if (x.conn c).isOpen then x.settle c else x
    (d.rxConn r f 1 Conn.isOpen = (false, e) → Gives (.fftWrite r f) s e) ∧
    (∀ p, seq 1 → fresh → placeAt f false e = ((true, p), g) → Gives (.fftWrite r f) s (g.accepted r f p mark)) ∧
    (∀ p, seq 1 → fresh → placeAt f false e = ((false, p), g) → Gives (.fftWrite r f) s g) ∧
    (seq 1 → k.psnRes f.psn = .duplicate → Gives (.fftWrite r f) s (e.sendAck c (rxCe r))) ∧
    (seq 1 → k.psnRes f.psn = .outside → Gives (.fftWrite r f) s (e.dropFrame r.port 1)) ∧
    (seq 2 → fresh → e.allowed (connHalf c) k.part f.rda n false = (true, g) → Gives (.fftReadReq r f) s (pumped
      ((g.queuePkts c (dataPkts 3 none f.rda (f.payload % 2 ^ 48) n 0)).accepted r f false none))) ∧
    (seq 2 → fresh → e.allowed (connHalf c) k.part f.rda n false = (false, g) → Gives (.fftReadReq r f) s (pumped (g.abortConn c 5 f.rda))) ∧
    (∀ p, seq 3 → fresh → placeAt f true e = ((true, p), g) → Gives (.fftReadRsp r f) s (settled
      ((g.updConn c (fun x => x.readGot f.rda f.len p)).accepted r f p mark))) ∧
    (seq 4 → fresh → Gives (.fftSignal r f) s (e.accepted r f false none)) ∧
    (d.rxConn r f 4 Conn.isOpen = (false, e) → Gives (.fftSignal r f) s e) ∧
    (d.rxConn r f 5 Conn.isOpen = (true, e) → Gives (.fftAck r f) s ((e.ceBack r c).takeAck c f 0)) ∧
    (d.rxConn r f 5 Conn.isOpen = (false, e) → Gives (.fftAck r f) s e) ∧
    (d.rxConn r f 6 Conn.isOpen = (true, e) →
      let x := e.ceBack r c
      let named := ((x.conn c).txq.find? (fun p => p.psn == f.psn)).bind TxPkt.wr
      let status := if fftFlag f 4 then 6 else if fftFlag f 0 then 8 else 0
      let y := (named.bind (fun i => if status = 0 then none else some i)).elim x (fun i => x.updConn c (fun k => k.wrStatus i status))
      let bits := f.payload % 2 ^ 512
      let z := y.takeAck c f bits
      let above := fun (p : Nat) => (p + 2 ^ 24 - f.aux % 2 ^ 24 - 1) % 2 ^ 24
      Gives (.fftSack r f) s (((z.conn c).txq.filter (fun p => p.sent && !p.acked &&
        decide (z.rd FAB_RETX.REORDER ≤ ((List.range 512).filter (fun b => bits.testBit b && decide (above p.psn < b))).length) &&
        decide (above p.psn < 512))).foldl (fun x p => x.sendPsn c p.psn true) z)) ∧
    (d.rxConn r f 6 Conn.isOpen = (false, e) → Gives (.fftSack r f) s e) ∧
    (d.rxConn r f 8 (fun x => x.st == 1 || x.st == 2) false = (true, e) → e.peerOpens k = true →
      (k.st = 1 → Gives (.fftOpen r f) s ((e.goOpen c (max k.epoch f.aux)).sendOpenAck c)) ∧
      (k.st = 2 → k.epoch < f.aux → Gives (.fftOpen r f) s ((e.abortConn c 6).reopen c f.aux)) ∧
      (k.st = 2 → f.aux ≤ k.epoch → Gives (.fftOpen r f) s (e.sendOpenAck c))) ∧
    (d.rxConn r f 9 (fun x => x.st == 1 || x.st == 2) false = (true, e) →
      (e.peerOpens k = true → k.st = 1 → Gives (.fftOpenAck r f) s (e.goOpen c f.aux)) ∧
      (e.peerOpens k = true → k.st ≠ 1 → Gives (.fftOpenAck r f) s e) ∧
      (e.peerOpens k = false → Gives (.fftOpenAck r f) s (e.dropFrame r.port 2))) ∧
    (d.rxConn r f 10 Conn.isOpen = (true, e) →
      let x := ((e.wrFailAll c 1).updConn c (fun k =>
        { k.restart 4 k.epoch k.rate with next := k.sqPi, sqCi := k.sqPi })).teEnd c 1
      Gives (.fftClose r f) s ((x.colls.filter (fun y => y.uses c)).foldl (fun d y => d.collFail y 2 (y.rankOf c)) x)) ∧
    (d.rxConn r f 11 Conn.isOpen = (true, e) → let cause := if f.aux % 16 = 5 then 5 else 4
      Gives (.fftAbort r f) s ((e.poisonOpen c).abortMany [(c, cause, false, abortStatus cause, f.aux % 16)])) ∧
    (d.rxFft r f 12 = (true, e) → Gives (.fftProbe r f) s
      (e.sendPlain { e.newFft 13 f.srcDev with srcConn := f.dstConn, dstConn := f.srcConn })) ∧
    (d.rxFft r f 12 = (false, e) → Gives (.fftProbe r f) s e) ∧
    (∀ path t, d.rxFft r f 13 = (true, e) → FMap.find e.probes (c / 4096 % 2) = some (f.srcDev, path, t) →
      Gives (.fftProbeRsp r f) s (((({ e with probes := FMap.del e.probes (c / 4096 % 2) } : Dev).wr FPORT_TE_PROBE_RTT.NS
        (min (e.now - t) (2 ^ 32 - 1)) (4 * (c / 4096 % 2)))).teResult (c / 4096 % 2) 1 f.srcDev)) ∧
    (d.rxFft r f 13 = (false, e) → Gives (.fftProbeRsp r f) s e)

open Sys2Proof Sys2Proof.Machine Sys2Proof.Claims in
/-- R401, R402, R405, R408, R409, R410, R417: A doorbell of an open connection sets its producer index, and any other
is lost. A work request is read, checked and started with its packets, or completes BAD_WR or LOCAL_ACCESS. OPEN,
CLOSE, ABORT, FREE and PROBE act in the states they allow and otherwise answer BAD_STATE, and while BUSY a command is
lost. Timers resend, abort, acknowledge and raise the rate. -/
def Obligations.FabricWorkAndCommands : Prop :=
  ∀ (s : State) (h c v psn : Nat) (who : Requester) (e g : Dev), Live s → h < 2 →
    let d := s.dev
    let k := d.conn c
    let cv := v / 2 ^ 16 % 2 ^ 13
    let kv := d.conn cv
    let idle := d.bit FPORT_TE_RESULT.BUSY (4 * h) = false
    let busy := fun (x : Dev) => (x.updConn cv (fun k => { k with cmd := true })).wr FPORT_TE_RESULT.BUSY 1 (4 * h)
    (connHalf cv = h → kv.st = 2 → d.writerIs who kv.tenant = (true, e) → (ringAhead kv.sqCi v kv.sqLog2).2 = false →
      Gives (.teDoorbell h who v) s (e.updConn cv (fun x => { x with sqPi := (ringAhead kv.sqCi v kv.sqLog2).1 }))) ∧
    (kv.st ≠ 2 → Gives (.teDoorbell h who v) s (d.wr FAB_STAT.DB_LOST 1)) ∧
    (∀ m ci i, k.isOpen = true → k.next ≠ k.sqPi → k.wrs = [] →
      d.engRead (connHalf c) (k.sqBase + 64 * (k.next % 2 ^ k.sqLog2)) 64 = (m, e) → e.cqCi c = (ci, g) →
      (k.hasCq = false ∨ (k.cqPi + 2 ^ 16 - ci) % 2 ^ 16 < 2 ^ k.cqLog2) →
      let w := m.val
      let n := wrUnits w * 32
      let go := fun (x : Dev) (status left : Nat) (ps : List TxPkt) =>
        let run : WrRun :=
          { idx := k.next, op := wrOp w, cqe := (word32 w 0).testBit 25,
            lcue := if (word32 w 0).testBit 26 then some (word32 w 6 % 2 ^ 14) else none, tag := word32 w 7, lda := wrLda w,
            len := n, left := left, status := status }
        (((x.updConn c (fun y => { y with next := (y.next + 1) % 2 ^ 16, wrs := y.wrs ++ [run] })).queuePkts c ps).pump c).settle c
      (wrOp w = 0 → wrBad w = false → Gives (.wrNop c) s (go g 0 0 [])) ∧
      (∀ a, wrOp w = 1 → wrBad w = false → g.allowed (connHalf c) k.part (wrLda w) n false = (true, a) →
        Gives (.wrWrite c) s (go a 0 0 (dataPkts 1 (some k.next) (wrLda w) (wrRda w) n (wrCue w)))) ∧
      (∀ a, wrOp w = 1 → wrBad w = false → g.allowed (connHalf c) k.part (wrLda w) n false = (false, a) → Gives (.wrWrite c) s (go a 4 0 [])) ∧
      (∀ a, wrOp w = 2 → wrBad w = false → g.allowed (connHalf c) k.part (wrLda w) n true = (true, a) →
        Gives (.wrRead c) s (go a 0 n [{ TxPkt.blank 2 with
          wr := some k.next, src := [(wrLda w, 32)], aux := wrUnits w, rda := wrRda w, len := 32, cue := wrCue w }])) ∧
      (wrOp w = 3 → wrBad w = false → Gives (.wrSignal c) s
        (go g 0 0 [{ TxPkt.blank 4 with wr := some k.next, rda := wrRda w, cue := wrCue w }])) ∧
      (wrBad w = true → (wrOp w, i) ∈ [(0, Instr.wrNop c), (1, .wrWrite c), (2, .wrRead c), (3, .wrSignal c), (4, .wrNop c)] →
        Gives i s (go g 7 0 []))) ∧
    (k.isOpen = false → ∀ i ∈ [Instr.wrNop c, .wrWrite c, .wrRead c, .wrSignal c], Gives i s d) ∧
    (∀ m x, idle → connHalf cv = h → (kv.st = 0 ∨ kv.st = 4 ∨ kv.st = 5) → d.engRead h (d.ctxAddr cv) 128 = (m, e) →
      e.routeEntryOf h (Conn.ofCtx m.val).peerDev = (some x, g) →
      Gives (.teOpen h v) s ((busy (g.setConn cv { Conn.ofCtx m.val with st := 1 })).sendOpen cv)) ∧
    (idle → connHalf cv = h → (kv.st = 1 ∨ kv.st = 2 ∨ kv.st = 3) → Gives (.teOpen h v) s (d.teResult h 2 cv)) ∧
    (idle → connHalf cv = h → kv.st = 2 →
      Gives (.teClose h v) s ((busy (d.updConn cv (fun x => { x with st := 3 }))).settle cv) ∧
      Gives (.teAbort h v) s ((d.abortConn cv 1).teResult h 1 cv) ∧ Gives (.teFree h v) s (d.teResult h 2 cv)) ∧
    (idle → connHalf cv = h → kv.st = 4 → let x := d.updConn cv (fun x => { x with st := 0 })
      Gives (.teFree h v) s ({ x with conns := FMap.del x.conns cv }.teResult h 1 cv)) ∧
    (∀ x, idle → d.routeEntryOf h (cv % 2 ^ 10) = (some x, e) →
      let y : Dev := { e with probes := FMap.set e.probes h (cv % 2 ^ 10, v % 32, e.now) }
      Gives (.teProbe h v) s ((y.wr FPORT_TE_RESULT.BUSY 1 (4 * h)).sendPlain { y.newFft 12 (cv % 2 ^ 10) with srcConn := 4096 * h }
        (some (v % 32)))) ∧
    (idle → d.routeEntryOf h (cv % 2 ^ 10) = (none, e) → Gives (.teProbe h v) s (e.teResult h 3 cv)) ∧
    (idle → Gives (.teNop h v) s d) ∧
    (¬idle → ∀ i ∈ [Instr.teOpen h v, .teClose h v, .teAbort h v, .teFree h v, .teProbe h v, .teNop h v],
      Gives i s (d.wr FPORT_TE_RESULT.CMD_LOST 1 (4 * h))) ∧
    (k.st = 1 → Gives (.openResendTimer c) s (d.sendOpen c) ∧
      Gives (.openTimeout c) s ((d.teEnd c 4).abortMany [(c, 7, false, 1, 0)])) ∧
    (k.st ≠ 1 → Gives (.openResendTimer c) s d ∧ Gives (.openTimeout c) s d) ∧
    (∀ p, k.txq.find? (fun p => p.psn == psn && p.sent && !p.acked) = some p →
      (d.rd FAB_RETX.RETRY_LIMIT ≤ p.tries + 1 → Gives (.retxTimeout c psn) s (d.abortConn c 3)) ∧
      (p.tries + 1 < d.rd FAB_RETX.RETRY_LIMIT → Gives (.retxTimeout c psn) s ((d.updConn c (fun x =>
        { x with txq := x.txq.map (fun q => if q.psn = psn then { q with tries := q.tries + 1 } else q) })).sendPsn c psn true))) ∧
    (k.isOpen = true → 0 < k.sinceAck → Gives (.ackDelayExpiry c) s (d.sendAck c)) ∧
    (k.sinceAck = 0 → Gives (.ackDelayExpiry c) s d) ∧
    (k.isOpen = true → Gives (.rateIncreaseTimer c) s
      (d.updConn c (fun x => { x with rate := min 3200 (x.rate + d.rd FAB_CC.INC_STEP) }))) ∧
    (∀ dev path t, FMap.find d.probes h = some (dev, path, t) → Gives (.probeTimeout h) s
      (((({ d with probes := FMap.del d.probes h } : Dev).wr FPORT_TE_PROBE_RTT.NS (2 ^ 32 - 1) (4 * h))).teResult h 4 dev)) ∧
    (FMap.find d.probes h = none → Gives (.probeTimeout h) s d)

open Sys2Proof Sys2Proof.Machine Sys2Proof.Claims in
/-- R385, R386, R387, R396, R411, R412, R413, R414, R415, R416: A port that aligns is UP and one that loses alignment
is DOWN, with what it sent and was not accepted resent. ARP and Neighbour Solicitations are answered. PFC pauses and
releases the priority. LLDP is sent and received. PTP messages move the servo as R413 to R415 say. FPORT_SEC_CTRL and
VALID of an association are written by a physical function only, VALID takes the key and salt that stand in the
registers, and the association in use cannot be written. -/
def Obligations.PortsTimeAndMacsec : Prop :=
  ∀ (s : State) (p v i dom src t t4 : Nat) (r : Rx) (who : Requester) (e : Dev), Live s →
    let d := s.dev
    let counted := fun (n : Nat) => (d.advance FPORT_FEC_CORR.CW p).add FPORT_FEC_UNCORR.CW n p
    let dropped := fun (d : Dev) =>
      let down := (d.wr FPORT_STAT.LINK 1 p).wr FPORT_STAT.DOWN_SEEN 1 p
      let freed := ({ down with pfcHeld := FMap.del down.pfcHeld p, pfcSent := down.pfcSent.filter (· != p) } : Dev)
      (d.conns.map (fun x => (x.1, d.sentBy p x.1 x.2))).foldl (fun x c => c.2.foldl (fun y psn => y.sendPsn c.1 psn true) x)
        (((freed.err 4 9 (unitPort p) 0).notePtpPort).event 6 none)
    let state := e.rd FAB_TIME_STAT.STATE
    let master := { e with ptp := { e.ptp with master := some src } }
    let mine := e.ptp.master = some src
    let q := p % 8
    let j := i % 8
    (p < 8 → d.rd FPORT_STAT.MODE p ≠ 0 → d.fportUp p = false →
      Gives (.fportLinkUp p) s (((d.wr FPORT_STAT.LINK 2 p).notePtpPort).event 6 none).noteJoined) ∧
    (8 ≤ p ∨ d.rd FPORT_STAT.MODE p = 0 ∨ d.fportUp p = true → Gives (.fportLinkUp p) s d) ∧
    (d.fportUp p = true → Gives (.fportLinkDown (.alignment p)) s (dropped (counted 0)) ∧
      (d.rd FPORT_CTRL.FEC_LIMIT p ≤ v → Gives (.fportLinkDown (.codewords p v)) s (dropped (counted v))) ∧
      (v < d.rd FPORT_CTRL.FEC_LIMIT p → Gives (.fportLinkDown (.codewords p v)) s (counted v))) ∧
    (d.fportUp p = false → Gives (.fportLinkDown (.alignment p)) s d ∧ Gives (.fportLinkDown (.codewords p v)) s d) ∧
    (∀ spa tpa, d.rxFrame r (isEth r 0x0806 && tpa == d.portIp r.port % 2 ^ 32) = (true, e) →
      Gives (.arpRequest ⟨r, src, spa, tpa⟩) s (e.portSend r.port (encPrio r.enc) (.frame r.port none
        (.arpReply ⟨src, e.portMac r.port, r.enc.tag, .eth 0x0806⟩ (e.portMac r.port) tpa src spa)))) ∧
    (∀ spa tpa, d.rxFrame r (isEth r 0x0806 && tpa == d.portIp r.port % 2 ^ 32) = (false, e) →
      Gives (.arpRequest ⟨r, src, spa, tpa⟩) s e) ∧
    (d.rxFrame r (isEth r 0x8808) true = (false, e) → Gives (.pfcFrame r v) s e) ∧
    (∀ target lla valid dst hops bare, r.enc.carrier = .icmp6 src dst hops bare →
      d.rxFrame r (d.nsOk ⟨r, target, lla, valid⟩) = (true, e) →
      (src ≠ 0 → Gives (.neighborSolicitation ⟨r, target, lla, valid⟩) s (e.portSend r.port (encPrio r.enc) (.frame r.port none
        (.neighborAdvert ⟨lla.getD r.enc.srcMac, e.portMac r.port, r.enc.tag, .icmp6 target src 255 true⟩ target
          (e.portMac r.port) true true)))) ∧
      (src = 0 → Gives (.neighborSolicitation ⟨r, target, lla, valid⟩) s (e.portSend r.port (encPrio r.enc) (.frame r.port none
        (.neighborAdvert ⟨0x333300000001, e.portMac r.port, r.enc.tag, .icmp6 target (0xFF02 * 2 ^ 112 + 1) 255 true⟩ target
          (e.portMac r.port) false true))))) ∧
    (∀ n : SolRx, n.rx = r → d.rxFrame r (d.nsOk n) = (false, e) → Gives (.neighborSolicitation n) s e) ∧
    (d.rxFrame r (isEth r 0x8808) true = (true, e) →
      (FMap.find e.pfcOn r.port = none → Gives (.pfcFrame r v) s (e.dropFrame r.port 6)) ∧
      (FMap.find e.pfcOn r.port ≠ none → v = 0 → Gives (.pfcFrame r v) s (e.pfcRelease r.port)) ∧
      (FMap.find e.pfcOn r.port ≠ none → v ≠ 0 → let x := e.wr FPORT_STAT.PFC_RX 1 r.port
        Gives (.pfcFrame r v) s (if (FMap.find x.pfcHeld r.port).isSome then x
          else { x with pfcHeld := FMap.set x.pfcHeld r.port [] }))) ∧
    (∀ l, FMap.find d.pfcHeld p = some l → Gives (.pfcPauseExpiry p) s
      (l.foldl (fun x o => x.portEmit p o) { d with pfcHeld := FMap.del d.pfcHeld p })) ∧
    (FMap.find d.pfcHeld p = none → Gives (.pfcPauseExpiry p) s d) ∧
    (d.bit FPORT_LLDP.EN p = true → Gives (.lldpSendTimer p) s (d.portSend p 0 (.frame p none
      (.lldp (d.portMac 0) (d.portMac p) (4 * d.rd FPORT_LLDP.INTERVAL p) p d.ownDev)))) ∧
    (d.bit FPORT_LLDP.EN p = false → Gives (.lldpSendTimer p) s d) ∧
    (∀ chSub ch chLen pSub pid pLen, d.rxFrame r (isEth r 0x88CC) true = (true, e) →
      (Gives (.lldpduReceive r chSub ch chLen pSub pid pLen 0) s (e.dropNeighbor r.port)) ∧
      (∀ ttl, 0 < ttl →
        let x := ((((e.wr FPORT_NBR_STAT.VALID 1 r.port).wr FPORT_NBR_STAT.CH_SUB chSub r.port).wr FPORT_NBR_STAT.PORT_SUB pSub
          r.port).wr FPORT_NBR_STAT.CH_LEN (min 32 chLen) r.port).wr FPORT_NBR_STAT.PORT_LEN (min 32 pLen) r.port
        let y := (List.range 8).foldl (fun x n => (x.wr FPORT_NBR_CHASSIS.BYTES (ch % 256 ^ min 32 chLen / 2 ^ (32 * n)) r.port n).wr
          FPORT_NBR_PORT.BYTES (pid % 256 ^ min 32 pLen / 2 ^ (32 * n)) r.port n) x
        Gives (.lldpduReceive r chSub ch chLen pSub pid pLen ttl) s { y with nbrTtl := FMap.set y.nbrTtl r.port ttl })) ∧
    (d.rxFrame r (isEth r 0x88CC) true = (false, e) →
      ∀ chSub ch chLen pSub pid pLen ttl, Gives (.lldpduReceive r chSub ch chLen pSub pid pLen ttl) s e) ∧
    (FMap.find d.nbrTtl p ≠ none → Gives (.neighborTtlExpiry p) s (d.dropNeighbor p)) ∧
    (FMap.find d.nbrTtl p = none → Gives (.neighborTtlExpiry p) s d) ∧
    (d.rxPtp r dom 1 = (true, e) →
      (mine → Gives (.ptpSyncReceive r src dom false t) s (e.servo t (e.timeOf (r.port / 4))) ∧
        Gives (.ptpSyncReceive r src dom true t) s { e with ptp := { e.ptp with twoStep := some (e.timeOf (r.port / 4)) } }) ∧
      (∀ t2, mine → e.ptp.twoStep = some t2 → Gives (.ptpFollowUpReceive r src dom t) s
        ({ e with ptp := { e.ptp with twoStep := none } }.servo t t2)) ∧
      (e.ptp.twoStep = none → Gives (.ptpFollowUpReceive r src dom t) s e) ∧
      (e.ptp.t3 = none ∨ e.ptp.sync = none → Gives (.ptpDelayRespReceive r src dom t4) s e) ∧
      (¬mine → (∀ two, Gives (.ptpSyncReceive r src dom two t) s e) ∧ Gives (.ptpFollowUpReceive r src dom t) s e ∧
        Gives (.ptpDelayRespReceive r src dom t4) s e) ∧
      (e.ptp.master = none → Gives (.ptpAnnounceReceive r src dom) s
        (if state = 0 then master.wr FAB_TIME_STAT.STATE 1 else master)) ∧
      (e.ptp.master ≠ none → Gives (.ptpAnnounceReceive r src dom) s e) ∧
      (∀ t1 t2 t3, mine → e.ptp.t3 = some t3 → e.ptp.sync = some (t1, t2) →
        let delay : Int := (((t2 : Int) - t1) + ((t4 : Int) - t3)) / 2
        Gives (.ptpDelayRespReceive r src dom t4) s
          (({ e with ptp := { e.ptp with t3 := none } }).wr FAB_TIME_DELAY.NS delay.toNat))) ∧
    (d.rxPtp r dom 1 = (false, e) → (∀ two, Gives (.ptpSyncReceive r src dom two t) s e) ∧
      Gives (.ptpFollowUpReceive r src dom t) s e ∧ Gives (.ptpAnnounceReceive r src dom) s e ∧
      Gives (.ptpDelayRespReceive r src dom t4) s e) ∧
    (d.rxPtp r dom 2 = (true, e) → Gives (.ptpDelayReqReceive r dom) s (e.sendPtp (.delayResp (e.timeOf (r.port / 4))))) ∧
    (d.rxPtp r dom 2 = (false, e) → Gives (.ptpDelayReqReceive r dom) s e) ∧
    (d.ptpRole = 2 → Gives .ptpSyncSendTimer s (d.sendPtp (.sync d.ptpTime)) ∧ Gives .ptpAnnounceSendTimer s (d.sendPtp .announce) ∧
      Gives .ptpDelayReqSendTimer s d ∧ Gives .ptpHoldoverTimeout s d) ∧
    (d.ptpRole = 1 → Gives .ptpSyncSendTimer s d ∧ Gives .ptpAnnounceSendTimer s d ∧
      (∀ q, d.ptpPort = some q → let x : Dev := { d with ptp := { d.ptp with t3 := some (d.timeOf (q / 4)) } }
        Gives .ptpDelayReqSendTimer s (x.sendPtp .delayReq)) ∧
      (d.ptpPort = none → Gives .ptpDelayReqSendTimer s d) ∧
      (d.rd FAB_TIME_STAT.STATE = 1 ∨ d.rd FAB_TIME_STAT.STATE = 2 →
        Gives .ptpHoldoverTimeout s (d.wr FAB_TIME_STAT.STATE 3)) ∧
      (d.rd FAB_TIME_STAT.STATE ≠ 1 → d.rd FAB_TIME_STAT.STATE ≠ 2 → Gives .ptpHoldoverTimeout s d)) ∧
    (d.ptpRole ≠ 1 → d.ptpRole ≠ 2 →
      ∀ i ∈ [Instr.ptpSyncSendTimer, .ptpAnnounceSendTimer, .ptpDelayReqSendTimer, .ptpHoldoverTimeout], Gives i s d) ∧
    Gives .timeStep s
      { d with now := (((d.now : Int) + signed 64 (d.rd FAB_TIME_STEP.NS)) % 2 ^ 64).toNat,
               skew := if d.ctrlDown then d.skew - signed 64 (d.rd FAB_TIME_STEP.NS) else d.skew,
               ptp := { d.ptp with twoStep := none, t3 := none, sync := none } } ∧
    (isPf who = true →
      (let an := v / 2 ^ 28 % 4
       let x := if an = d.rd FPORT_SEC_CTRL.TX_AN (p % 8) then d else d.wr FPORT_SEC_STAT.PN_EXHAUST 0 (p % 8)
       Gives (.secTxAnWrite p who v) s (((x.wr FPORT_SEC_CTRL.EN (v / 2 ^ 31) (p % 8)).wr FPORT_SEC_CTRL.TX_AN an (p % 8)).wr
         FPORT_SEC_CTRL.REPLAY_WIN v (p % 8))) ∧
      (d.saLocked q j = false →
        let on := v.testBit 31
        let x := d.wr FPORT_SA_d_a_CTRL.VALID (if on then 1 else 0) q j
        let y := if j < 4 then x.setBit FPORT_SEC_STAT.TX_VALID j on q else x.setBit FPORT_SEC_STAT.RX_VALID (j - 4) on q
        let key := (List.range 8).foldl (fun k w => k + y.rd FPORT_SA_d_a_KEY.KEY q j w * 2 ^ (32 * w)) 0
        let salt := (List.range 3).foldl (fun k w => k + y.rd FPORT_SA_d_a_SALT.SALT q j w * 2 ^ (32 * w)) 0
        (on = false → Gives (.saValidWrite p who i v) s { y with sak := FMap.del y.sak (q * 8 + j) }) ∧
        let high := if j < 4 then y.secHigh else FMap.del y.secHigh (q * 4 + j - 4)
        (on = true → Gives (.saValidWrite p who i v) s { y with sak := FMap.set y.sak (q * 8 + j) (key, salt), secHigh := high })) ∧
      (d.saLocked (p % 8) (i % 8) = true → Gives (.saValidWrite p who i v) s d)) ∧
    (isPf who = false → Gives (.secTxAnWrite p who v) s d ∧ Gives (.saValidWrite p who i v) s d)

open Sys2Proof Sys2Proof.Machine Sys2Proof.Claims in
/-- R430, R431, R432, R436, R437, R438, R439: AGREE_JOIN and AGREE_REJOIN start an exchange, LEAVE departs, FORGET
clears the peer entry, and while BUSY a command is lost. A JOIN is answered with JOIN_ACK, a JOIN_ACK brings the
outcome of R432 and JOIN_DONE, and a JOIN_DONE applies it. JOIN is resent, and after 8 sends ends TIMEOUT. A DEPARTING
notice ends what depends on the peer, once. -/
def Obligations.AgreementExchanges : Prop :=
  ∀ (s : State) (v dev : Nat) (r : Rx) (f : Fft) (e g : Dev), Live s →
    let d := s.dev
    let other := v % 2 ^ 10
    let peer := f.srcDev
    let busy := d.bit FAB_AGREE_RESULT.BUSY = true
    let taken := (d.wr FAB_AGREE_RESULT.BUSY 1).wr FAB_AGREE_RESULT.TARGET other
    (¬busy → d.rd FAB_PEERd.STATE 0 other ≠ 4 → Gives (.agreeJoin v) s (taken.startJoin other true false false)) ∧
    (¬busy → d.rd FAB_PEERd.STATE 0 other = 4 → Gives (.agreeJoin v) s (d.agreeResult 3 other)) ∧
    (¬busy → Gives (.agreeRejoin v) s (taken.startJoin other true true false)) ∧
    (¬busy → Gives (.agreeLeave v) s ((d.departSelf 2).agreeResult 1 other)) ∧
    (¬busy → let x := ((d.wr FAB_PEERd.VMAJ 0 0 other).wr FAB_PEERd.VMIN 0 0 other).wr FAB_PEERd.STEPPED 0 0 other
      let y : Dev := { x with exchs := FMap.del x.exchs other }
      Gives (.agreeForget v) s ((y.setPeer other 0 0).agreeResult 1 other)) ∧
    (¬busy → Gives (.agreeNop v) s d) ∧
    (busy → ∀ i ∈ [Instr.agreeJoin v, .agreeRejoin v, .agreeLeave v, .agreeForget v, .agreeNop v],
      Gives i s (d.wr FAB_AGREE_RESULT.CMD_LOST 1)) ∧
    (∀ rec', d.rxFft r f 16 = (true, e) → e.joinPiece f = (some rec', g) → FMap.find g.exchs peer = none →
      let x : Dev := { g with joinRecs := FMap.set g.joinRecs peer (joinRecOf rec') }
      let y := if x.rd FAB_PEERd.STATE 0 peer = 0 then x.setPeer peer 1 0 else x
      Gives (.join r f) s (y.sendRecord 17 peer (y.joinBytes peer y.now y.now))) ∧
    (∀ rec' m, d.rxFft r f 16 = (true, e) → e.joinPiece f = (some rec', g) → FMap.find g.exchs peer = some m →
      m.ceded = false → g.ownDev < peer → Gives (.join r f) s g) ∧
    (d.rxFft r f 16 = (true, e) → e.joinPiece f = (none, g) → Gives (.join r f) s g) ∧
    (d.rxFft r f 16 = (false, e) → Gives (.join r f) s e) ∧
    (∀ m v, d.rxFft r f 17 = (true, e) → FMap.find e.exchs peer = some m → m.ceded = false → e.joinPiece f = (some v, g) →
      let theirs := joinRecOf v
      let theta : Int := (((theirs.t2 : Int) - m.t1) - ((g.now : Int) - theirs.t3)) / 2
      let out := outcomeOf (g.rd FAB_PROTO.MAJOR) g.ownDigest (g.bit FAB_AGREE_STAT.TIME_BAD) m.after theirs theta
      let x := g.wr FAB_AGREE_THETA.NS (theta % 2 ^ 64).toNat
      let x : Dev := { x with joinRecs := FMap.set x.joinRecs peer theirs }
      let x := x.sendPlain { x.newFft 18 peer with aux := out, len := 32, payload := (theta % 2 ^ 64).toNat }
      Gives (.joinAck r f) s ((x.applyOutcome peer out theta theirs true m.rejoin).endJoin peer 1)) ∧
    (d.rxFft r f 17 = (true, e) → FMap.find e.exchs peer = none → Gives (.joinAck r f) s e) ∧
    (d.rxFft r f 17 = (false, e) → Gives (.joinAck r f) s e) ∧
    (∀ theirs, d.rxFft r f 18 = (true, e) → FMap.find e.joinRecs peer = some theirs → Gives (.joinDone r f) s
      ((e.applyOutcome peer f.aux (signed 64 f.payload) theirs false true).endJoin peer 1)) ∧
    (d.rxFft r f 18 = (true, e) → FMap.find e.joinRecs peer = none → Gives (.joinDone r f) s e) ∧
    (∀ m, FMap.find d.exchs dev = some m →
      (8 ≤ m.sends → Gives (.joinResendTimer dev) s ((d.setPeer dev 0 0).endJoin dev 2)) ∧
      (m.sends < 8 → m.ceded = false → Gives (.joinResendTimer dev) s (d.sendJoin dev m))) ∧
    (FMap.find d.exchs dev = none → Gives (.joinResendTimer dev) s d) ∧
    (d.rechecks.contains dev = true → let x : Dev := { d with rechecks := d.rechecks.filter (· != dev) }
      Gives (.recheckTimer dev) s (x.startJoin dev false false true)) ∧
    (d.rechecks.contains dev = false → Gives (.recheckTimer dev) s d) ∧
    (d.rxFft r f 19 = (true, e) → e.rd FAB_PEERd.STATE 0 peer ≠ 5 →
      let x := e.setPeer peer 5 4
      let xs := x.colls.filter (fun y => y.others.any (fun q => y.devs.getD q 1024 == peer))
      let y := xs.foldl (fun d y => d.collEnd y 1 ((y.others.find? (fun q => y.devs.getD q 1024 == peer)).getD 0)) x
      Gives (.departing r f) s (y.abortMany ((y.connsTo peer).map (fun k => (k.1, 9, true, 1, 0)) ++
        xs.flatMap (fun y => y.conns.map (fun c => (c, 1, true, 1, 0)))))) ∧
    (d.rxFft r f 19 = (true, e) → e.rd FAB_PEERd.STATE 0 peer = 5 → Gives (.departing r f) s e) ∧
    (∀ cause left k, d.departs.find? (fun x => x.1 == dev) = some (dev, cause, left, k) →
      let rest := d.departs.filter (fun x => x.1 != dev)
      let y : Dev := { d with departs := if left ≤ 1 then rest else rest ++ [(dev, cause, left - 1, k + 1)] }
      Gives (.departingResend dev) s (y.sendDeparting dev cause k)) ∧
    (d.departs.find? (fun x => x.1 == dev) = none → Gives (.departingResend dev) s d)

namespace Sys2Proof.Claims
open Sys2Proof Sys2Proof.Machine

/-- Engine `h` may take the next descriptor of queue `p`: it is enabled, the queue holds one and a record has room, and the
descriptor at the consumer index is `desc`, read in `e`. -/
def CollTakes (d : Dev) (h p desc : Nat) (e : Dev) : Prop :=
  let ix := d.collIdx h p
  let mine := ((d.colls.filter (fun x => x.half == h)).filter (fun x => x.part == p)).length
  d.bit COLL_CTRL.EN h = true ∧ ix.1 ≠ ix.2 ∧
    (d.rd COLL_Qp_IDX.CQ_PI h p + mine + 2 ^ 16 - d.rd COLL_Qp_CQ_CI.CQ_CI h p) % 2 ^ 16 < 2 ^ d.rd COLL_Qp_HI.LOG2 h p ∧
    ∃ m, d.engRead h (d.collSlot h p ix.2) 64 = (m, e) ∧ m.val = desc

/-- The device as the engine leaves it when it has taken a descriptor: the consumer index advances, and the collective has
its number. -/
def collTaken (d e : Dev) (h p : Nat) : Dev :=
  let x := e.setCollIdx h p ((d.collIdx h p).1, ((d.collIdx h p).2 + 1) % 2 ^ 16)
  { x with collN := x.collN + 1 }

/-- A collective with its descriptor alone. -/
def collNew (d e : Dev) (h p desc : Nat) : Coll :=
  { id := e.collN, half := h, part := p, slot := (d.collIdx h p).2, desc := desc, group := 0, devs := [], alg := 0, seq := 0,
    ready := [], todo := [], got := [], early := [], poison := false }

end Sys2Proof.Claims

open Sys2Proof Sys2Proof.Machine Sys2Proof.Claims in
/-- R419, R420, R421, R422, R423, R424, R426, R427, R428: A doorbell by a writer of the group sets the producer index,
and any other is lost. A descriptor whose OP is the row of the command is taken: a NOP completes, a group outside the
partition completes ACCESS, a field that breaks its rule BAD_DESC, a rank that is not usable with its status, and any
other collective starts. Packets of collectives are placed as R427 says, and a collective with every byte completes.
-/
def Obligations.CollectiveCommands : Prop :=
  ∀ (s : State) (h p v id : Nat) (r : Rx) (f : Fft) (who : Requester) (e a b : Dev) (desc : Nat), Live s → h < 2 → p < 64 →
    let d := s.dev
    let op := desc % 2 ^ 32 / 2 ^ 28
    let rows : List (Nat × Instr) := [(0, .collNop h p), (1, .allreduce h p), (2, .reduceScatter h p), (3, .allgather h p),
      (4, .broadcast h p), (5, .reduce h p), (6, .alltoall h p), (7, .collBarrier h p)]
    let running := d.colls.filter (fun x => x.half == h)
    let few := running.length < 64 ∧ (running.filter (fun x => collGroup x.desc == collGroup desc)).length < 8
    let taken := collTaken d e h p
    let x := collNew d e h p desc
    (∀ m g, d.engRead h (d.collSlot h p (d.collIdx h p).1) 64 = (m, e) → e.engRead h (collGroup m.val) 4 = (g, a) →
      let t := g.val % 2 ^ 12
      let x := a.writerIs who t
      let y := x.2.writerIn who p t
      let ahead := ringAhead (y.2.rd COLL_Qp_IDX.CI h p) v (y.2.rd COLL_Qp_HI.LOG2 h p)
      (x.1 = true → y.1 = true → Gives (.collDoorbell h p who v) s
        ((if ahead.2 then y.2.noteClamp (COLL_Qp_DB.addr h p 0) else y.2).setCollIdx h p (ahead.1, (d.collIdx h p).2))) ∧
      (x.1 = false ∨ y.1 = false → Gives (.collDoorbell h p who v) s (y.2.wr COLL_STAT.DB_LOST 1 h))) ∧
    (d.bit COLL_CTRL.EN h = false → ∀ i ∈ rows.map Prod.snd, Gives i s d) ∧
    (CollTakes d h p desc e → op = 0 →
      let y := taken.add COLL_Qp_IDX.CI 1 h p
      Gives (.collNop h p) s (if x.cqe then y.collRecord x 0 0 else y)) ∧
    (∀ i, CollTakes d h p desc e → few → op ≠ 0 → (op, i) ∈ rows →
      (taken.allowed h p (collGroup desc) 256 true = (false, a) → Gives i s (a.collEnd x 5 0)) ∧
      (∀ m, taken.allowed h p (collGroup desc) 256 true = (true, a) → a.engRead h (collGroup desc) 256 = (m, b) →
        let seq := word32 m.val 33
        let y := { x with group := m.val, seq := seq }
        let w := b.engWrite h (collGroup desc + 132) 4 ((seq + 1) % 2 ^ 32)
        let alg := if y.bad then none else collAlg y.op y.algo y.n y.size (w.rd COLL_CTRL.TREE_MAX_LOG2 h)
        (w.bit FAB_AGREE_STAT.DEPARTED_SELF = true → Gives i s (w.collReject y 7 y.rank)) ∧
        (w.bit FAB_AGREE_STAT.DEPARTED_SELF = false → alg = none → Gives i s (w.collReject y 4 y.rank)) ∧
        (∀ k, w.bit FAB_AGREE_STAT.DEPARTED_SELF = false → alg = some k →
          let z := { y with alg := k, devs := (List.range y.n).map (fun r => (w.rankDev h p r).getD 1024) }
          let bads := z.others.filterMap (fun r => (w.rankFault z r).map (fun st => (st, r)))
          (bads = [] → Gives i s (w.collGo z)) ∧
          (∀ st r, bads.head? = some (st, r) → Gives i s (w.collReject z st r))))) ∧
    (CollTakes d h p desc e → few → 8 ≤ op → ∀ m, taken.allowed h p (collGroup desc) 256 true = (true, a) →
      a.engRead h (collGroup desc) 256 = (m, b) →
      let seq := word32 m.val 33
      let y := { x with group := m.val, seq := seq }
      let w := b.engWrite h (collGroup desc + 132) 4 ((seq + 1) % 2 ^ 32)
      Gives (.collNop h p) s (w.collReject y (if w.bit FAB_AGREE_STAT.DEPARTED_SELF then 7 else 4) y.rank)) ∧
    (∀ y, d.collFor f = some y →
      let z := d.rxSeq r f 20 (collAct r f) false
      (collStepOf f = 0xFFF → Gives (.collReady r f) s (z.collPump y.id)) ∧
      (collStepOf f ≠ 0xFFF → Gives (.collData r f) s (z.collPump y.id))) ∧
    (d.collFor f = none → (collStepOf f = 0xFFF → Gives (.collReady r f) s (d.rxSeq r f 20 (collAct r f) false)) ∧
      (collStepOf f ≠ 0xFFF → Gives (.collData r f) s (d.rxSeq r f 20 (collAct r f) false))) ∧
    (∀ y ok bad, d.collAt id = some y → d.collDone y = true → Dev.copyAll y y.plan.post d = (ok, bad, e) →
      Gives (.collComplete id) s (if ok then e.collEnd y (if y.poison || bad then 6 else 0) y.rank else e.collFail y 5 y.rank)) ∧
    (∀ y, d.collAt id = some y → d.collDone y = false → Gives (.collComplete id) s d) ∧
    (d.collAt id = none → Gives (.collComplete id) s d)

namespace Sys2Proof.Claims
open Sys2Proof Sys2Proof.Machine

/-- Step `x` has a core at `who`, HALTED, in stage `st`. -/
def RunHalted (d : Dev) (x : ChkStep) (st : StepAt) (c : Nat) : Prop :=
  d.stepAt x.id = some x ∧ x.stage = st ∧ d.halted c = true

/-- The service may take the descriptor at the consumer index of queue `p`: enabled, one waits, a record and a step have
room, and it is `desc`, read in `e`. -/
def ChkTakes (d : Dev) (p desc : Nat) (e : Dev) : Prop :=
  let ix := d.chkIdx p
  let mine := (d.steps.filter (fun x => x.part == p)).length
  d.bit CHK_CTRL.EN = true ∧ ix.1 ≠ ix.2 ∧ (FMap.get d.chkSkip [] p).contains ix.2 = false ∧ d.steps.length < 256 ∧
    (d.rd CHK_Qp_IDX.CQ_PI 0 p + mine + 2 ^ 16 - d.rd CHK_Qp_CQ_CI.CQ_CI 0 p) % 2 ^ 16 < 2 ^ d.rd CHK_Qp_HI.LOG2 0 p ∧
    ∃ m, d.chkRead 2 (d.chkSlot p ix.2) 128 = (m, e) ∧ m.val = desc

end Sys2Proof.Claims

open Sys2Proof Sys2Proof.Machine Sys2Proof.Claims in
/-- R478, R479, R480, R481, R482, R483, R484, R485: A doorbell by a writer of the tenant sets the producer index, and
any other is lost. A descriptor is taken in order: NOP completes, one that breaks the table ends BAD_DESC, and a step
goes through its stages. A halted primary ends the step or calls for a replay; a halted replay is compared; equal
regions commit, unequal ones end MISMATCH or call for a tiebreak, whose core decides. A run past its limit is halted.
-/
def Obligations.UnderstudySteps : Prop :=
  ∀ (s : State) (p v desc : Nat) (who : Requester) (x : ChkStep) (c : Nat) (e a b : Dev), Live s → p < 64 →
    let d := s.dev
    let id := x.id
    let ix := d.chkIdx p
    let taken : Dev := { e.setChkIdx p (ix.1, (ix.2 + 1) % 2 ^ 16) with stepN := d.stepN + 1 }
    let y : ChkStep :=
      { id := d.stepN, part := p, slot := ix.2, desc := desc, seq := 0, selected := false, stage := .held, under := none,
        tie := none, exit := 0, diff := 0, repDigest := 0, repExit := 0, repOk := false }
    let z := d.runEnd c false
    let exit := z.rd CORE_SEQ_EXIT.CODE c
    let x' := { x with exit := exit }
    let normal := z.rd CORE_SEQ_STAT.HALT_CAUSE c = 1
    let sel := (x.selected || (exit.testBit 14 && z.bit CHK_CTRL.FORCE_UNCHECKED)) = true
    (∀ m, d.chkRead 2 (d.chkSlot p ix.1) 4 = (m, e) →
      let t := m.val / 2 ^ 12 % 2 ^ 12
      let is := e.writerIs who t
      let in' := is.2.writerIn who p t
      let ahead := ringAhead (in'.2.rd CHK_Qp_IDX.CI 0 p) v (in'.2.rd CHK_Qp_HI.LOG2 0 p)
      (is.1 = true → in'.1 = true → Gives (.chkDoorbell p who v) s
        ((if ahead.2 then in'.2.noteClamp (CHK_Qp_DB.addr 0 p 0) else in'.2).setChkIdx p (ahead.1, ix.2))) ∧
      (is.1 = false ∨ in'.1 = false → Gives (.chkDoorbell p who v) s (in'.2.wr CHK_STAT.DB_LOST 1))) ∧
    (d.bit CHK_CTRL.EN = false → Gives (.chkStep p) s d ∧ Gives (.chkStepNop p) s d) ∧
    (ChkTakes d p desc e →
      let done := taken.add CHK_Qp_IDX.CI 1 0 p
      let entry := taken.tenantEntry y.tenant
      let held := entry.1.isSome = true ∧ taken.tenantCurtained y.tenant = true
      (y.op = 0 → ¬held → Gives (.chkStepNop p) s (if y.cqe then done.chkRecord y 0 false else done)) ∧
      (y.op ≠ 0 → ¬held → y.bad = true → Gives (.chkStep p) s (taken.stepDone y 6 false none)) ∧
      (y.op ≠ 0 → ¬held → y.bad = false → Gives (.chkStep p) s (taken.stepGo y)) ∧
      (y.op = 0 → held → Gives (.chkStepNop p) s (entry.2.setChkIdx p ix)) ∧
      (y.op ≠ 0 → held → Gives (.chkStep p) s (entry.2.setChkIdx p ix)) ∧
      (y.op ≠ 0 → Gives (.chkStepNop p) s d) ∧ (y.op = 0 → Gives (.chkStep p) s d)) ∧
    (RunHalted d x .primary x.primary → c = x.primary →
      (¬normal → Gives (.primaryHalt id) s ((z.stepDone { x with exit := 0 } 1 false (some (0x905, c))).dispatch)) ∧
      (normal → exit.testBit 15 = true → Gives (.primaryHalt id) s ((z.stepDone x' 2 false (some (0x904, c))).dispatch)) ∧
      (normal → exit.testBit 15 = false → ¬sel → Gives (.primaryHalt id) s ((z.stepDone x' 0 false none).dispatch)) ∧
      (normal → exit.testBit 15 = false → sel → Gives (.primaryHalt id) s (z.wantCore { x' with selected := true } .wantReplay))) ∧
    (d.stepAt id = some x → (x.stage = .wantReplay ∨ x.stage = .wantTie → Gives (.understudyCoreAvailable id) s (d.takeCore x)) ∧
      (x.stage = .primary → Gives (.understudyCoreAvailable id) s d ∧ Gives (.replayTimeout id) s d ∧ Gives (.compareDone id) s d)) ∧
    (RunHalted d x .replay c → x.under = some c → Gives (.replayHalt id) s (z.setStep
      { x with stage := .compare, repExit := exit, repOk := z.rd CORE_SEQ_STAT.HALT_CAUSE c == 1 })) ∧
    (d.stepAt id = some x → x.stage = .replay → x.under = some c → Gives (.replayTimeout id) s (d.haltReq c)) ∧
    (d.stepAt id = some x → x.stage = .tie → x.tie = some c → Gives (.replayTimeout id) s (d.haltReq c)) ∧
    (∀ outs stages, d.stepAt id = some x → x.stage = .compare → Dev.dataOnly x.outDa x.blocks d = (outs, a) →
      Dev.dataOnly x.stageDa x.blocks a = (stages, b) →
      let w := { x with diff := ((outs.zip stages).filter (fun q => q.1 != q.2)).length, repDigest := runDigest stages }
      let same := (x.repOk && x.repExit == x.exit && w.diff == 0) = true
      (same → Gives (.compareDone id) s ((b.stepDone w 0 false none).dispatch)) ∧
      (¬same → b.bit CHK_CTRL.TIEBREAK = true → Gives (.compareDone id) s (b.wantCore w .wantTie)) ∧
      (¬same → b.bit CHK_CTRL.TIEBREAK = false →
        Gives (.compareDone id) s ((b.stepDone w 3 false (some (0x903, x.primary))).dispatch))) ∧
    (∀ outs stages, RunHalted d x .tie c → x.tie = some c → Dev.dataOnly x.outDa x.blocks z = (outs, a) →
      Dev.dataOnly x.stageDa x.blocks a = (stages, b) →
      let ok := (z.rd CORE_SEQ_STAT.HALT_CAUSE c == 1) = true
      let first := ok ∧ exit = x.exit ∧ outs = stages
      let second := ok ∧ x.repOk = true ∧ exit = x.repExit ∧ runDigest stages = x.repDigest
      (first → Gives (.tiebreakHalt id) s ((b.stepDone x 0 false (some (0x902, x.under.getD 0))).dispatch)) ∧
      (¬first → second → Gives (.tiebreakHalt id) s
        (((Dev.commitStage x x.blocks b).stepDone x 0 true (some (0x901, x.primary))).dispatch)) ∧
      (¬first → ¬second → Gives (.tiebreakHalt id) s ((b.stepDone x 3 false (some (0x903, x.primary))).dispatch))) ∧
    (d.stepAt id = none → ∀ i ∈ [Instr.primaryHalt id, .understudyCoreAvailable id, .replayHalt id, .replayTimeout id,
      .compareDone id, .tiebreakHalt id], Gives i s d)

open Sys2Proof Sys2Proof.Machine Sys2Proof.Claims in
/-- R486, R487, R488, R489: RUN_CORE and RUN_CLUSTER start Rehearsal on the cores that may run it, or answer BAD when
there is none; STOP abandons every run and clears AUTO, and while BUSY a command is lost. AUTO takes the next eligible
core. A kernel that halts is judged: limit, cause, exit code, digest, in that order; the next kernel starts or the
core passes. LIMIT halts the core, and a dispatch that has waited abandons the run. -/
def Obligations.RehearsalCommands : Prop :=
  ∀ (s : State) (target mask c : Nat) (r : Reh) (e : Dev), Live s →
    let d := s.dev
    let busy := d.bit CHK_REH_RESULT.BUSY = true
    let named := d.wr CHK_REH_RESULT.TARGET target
    let started := fun (cs : List Nat) =>
      (cs.foldl (fun x c => x.rehStart c mask true) ((named.wr CHK_REH_RESULT.CODE 0).wr CHK_REH_RESULT.BUSY 1)).rehSettle
    let cluster := ((List.range 16).map (fun k => target / 16 % 256 * 16 + k)).filter named.rehEligible
    let w := word32 r.entry
    let blocks := max 1 (min 256 (w 3 % 2 ^ 9))
    let scratch := sliceDa c (d.rd CHK_REH_SCRATCH.OFFSET * 4096)
    let judged := fun (why : Nat) => Gives (.rehKernelHalt c) s ((d.rehEnd r 2 r.kernel why false).dispatch)
    (¬busy → named.rehEligible (target % 4096) = true → Gives (.rehRunCore target mask) s (started [target % 4096])) ∧
    (¬busy → named.rehEligible (target % 4096) = false → Gives (.rehRunCore target mask) s (named.wr CHK_REH_RESULT.CODE 2)) ∧
    (¬busy → cluster ≠ [] → Gives (.rehRunCluster target mask) s (started cluster)) ∧
    (¬busy → cluster = [] → Gives (.rehRunCluster target mask) s (named.wr CHK_REH_RESULT.CODE 2)) ∧
    (¬busy → Gives .rehStop s ((d.rehs.foldl (fun x r => x.rehAbandon r true) d).wr CHK_REH_CTRL.AUTO 0)) ∧
    (¬busy → Gives .rehNop s d) ∧
    (busy → ∀ i ∈ [Instr.rehRunCore target mask, .rehRunCluster target mask, .rehStop, .rehNop],
      Gives i s (d.wr CHK_REH_RESULT.CMD_LOST 1)) ∧
    (d.bit CHK_REH_CTRL.AUTO = true → d.rehs.any (fun r => !r.cmd) = false →
      ((List.range 4096).map (fun i => (d.rehLast + 1 + i) % 4096)).find? d.rehEligible = some c →
      let x := d.rehStart c 0xFFFF false
      Gives .rehAutoTimer s { x with rehLast := c }) ∧
    (d.bit CHK_REH_CTRL.AUTO = false ∨ d.rehs.any (fun r => !r.cmd) = true → Gives .rehAutoTimer s d) ∧
    (d.rehs.find? (fun r => r.core == c) = some r → d.halted c = true → r.gone = false →
      (r.limit = true → judged 2) ∧
      (r.limit = false → d.rd CORE_SEQ_STAT.HALT_CAUSE c ≠ 1 → judged 3) ∧
      (r.limit = false → d.rd CORE_SEQ_STAT.HALT_CAUSE c = 1 → d.rd CORE_SEQ_EXIT.CODE c ≠ w 5 % 2 ^ 16 → judged 0) ∧
      (∀ vs, r.limit = false → d.rd CORE_SEQ_STAT.HALT_CAUSE c = 1 → d.rd CORE_SEQ_EXIT.CODE c = w 5 % 2 ^ 16 →
        Dev.dataOnly scratch blocks d = (vs, e) →
        (runDigest vs ≠ w 4 → Gives (.rehKernelHalt c) s ((e.rehEnd r 2 r.kernel 1 false).dispatch)) ∧
        (runDigest vs = w 4 → Gives (.rehKernelHalt c) s ((Dev.rehNext r r.todo e).dispatch)))) ∧
    (d.rehs.find? (fun r => r.core == c) = some r → d.halted c = false →
      Gives (.rehKernelHalt c) s d ∧
      (r.gone = false → let x : Dev := { d with rehs := d.rehs.map (fun x : Reh => if x.core = c then { x with limit := true } else x) }
        Gives (.rehLimitTimeout c) s (x.haltReq c))) ∧
    (d.rehs.find? (fun r => r.core == c) = none → Gives (.rehKernelHalt c) s d ∧ Gives (.rehLimitTimeout c) s d) ∧
    (d.rehs.find? (fun r => r.core == c && !r.gone) = some r → d.steps.any (fun x => x.stage == .held && x.primary == c) = true →
      Gives (.rehHoldTimeout c) s (((d.addSat CL_QUEUE_ABANDON.COUNT 1 (coreCluster c)).rehAbandon r true).dispatch)) ∧
    (d.rehs.find? (fun r => r.core == c && !r.gone) = none → Gives (.rehHoldTimeout c) s d)

namespace Sys2Proof.Claims
open Sys2Proof Sys2Proof.Machine

/-- CTRL, MGMT and TIME run. -/
def Awake (s : State) : Prop := s.dev.dark = false

end Sys2Proof.Claims

open Sys2Proof Sys2Proof.Machine Sys2Proof.Claims in
/-- R254, R255, R256, R257, R551, R553, R554, R559, R560, R561, R562: A layer sample sets the refresh rate of the
layer, its temperature byte, the state of its sensor and SENSOR_BAD. Logic sensors, bandgaps, thermistors and the flow
meter are judged by their rules. A heat-balance window with a bad sample or less than 300 W leaves THM_HEAT, and a
good one writes Q and IMB. The cycle count moves as R562 says. -/
def Obligations.SensorSamples : Prop :=
  ∀ (s : State) (n l h mv0 mv1 pulses : Nat) (t : Option Int) (temps : List (Option Int × Option Int)) (rs : List (Nat × Nat)),
    Awake s → n < 4096 → l < 8 → h < 2 → mv0 < 2 ^ 16 → mv1 < 2 ^ 16 →
    let d := s.dev
    let rates := d.rd CORE_SLC_REFRATE.RATE n
    let a := d.wr CORE_SLC_REFRATE.RATE (putBits rates (2 * l) 2 (refreshRate (rates / 4 ^ l % 4) t)) n
    let byte := match t with | some t => codeS 8 (t / 8) | none => 0xFF
    let b := a.wr (tempField l) (putBits (a.rd (tempField l) n) (8 * (l % 4)) 8 byte) n
    let r := (FMap.get b.layerS Sensor.init (n * 8 + l)).judge t (validRaw b.layerS (layerNbrs n l)) b.now
    let c : Dev := { b with layerS := FMap.set b.layerS (n * 8 + l) r.1 }
    let bad := (List.range 8).any (fun j => match FMap.find c.layerS (n * 8 + j) with | some s => s.raw.isNone | none => false)
    let e := c.wr CORE_SLC_STAT.SENSOR_BAD (if bad then 1 else 0) n
    let f := if t = none then e.err 13 0x000A (unitCore n 7 0) l else e
    (r.2.2 = false → Gives (.layerTempSample n l t) s f) ∧
    (r.2.2 = true → Gives (.layerTempSample n l t) s (f.sensorLost (unitCore n 7 0) l)) ∧
    Gives (.logicSensorSample h temps) s
      ((List.range 32).foldl (fun x k => x.logicSample h k (x.bandgap h (temps.getD k (none, none)))) d) ∧
    (let m := (d.wr SFE_BG.BG0_MV mv0 h).wr SFE_BG.BG1_MV mv1 h
     let used := if m.bit SFE_STAT.BG_SEL h then mv1 else mv0
     let run := if used < 100 * (mv0 - mv1) ∨ used < 100 * (mv1 - mv0) then FMap.get d.bgRun 0 h + 1 else 0
     let x : Dev := { m with bgRun := FMap.set d.bgRun h run }
     (run < 16 → Gives (.bandgapMeasure h mv0 mv1) s x) ∧
     (16 ≤ run → x.bit SFE_STAT.BG_SUSPECT h = false →
       Gives (.bandgapMeasure h mv0 mv1) s (((x.wr SFE_STAT.BG_SUSPECT 1 h).err 13 0x0B31 (unitFront h 32) 0).svc 3))) ∧
    (let x := (List.range 4).foldl (fun x i =>
       let r := rs.getD i (0, 0)
       let k := fun (ohm : Nat) => thermistor (d.rd THM_NTC_CAL.B) (d.rd THM_NTC_CAL.R25 * 10) ohm
       x.thermistorIn i (x.bandgap 0 (k r.1, k r.2)) (x.bit (coolEn.getD i THM_COOL_CTRL.IN_EN))) d
     let y := x.coolFlag THM_STAT.INLET_RANGE x.inletOut 0x0B14
     Gives (.thermistorSample rs) s (y.coolFlag THM_STAT.AUX_WARN x.auxHot 0x0B16).heatTemps) ∧
    (d.bit THM_COOL_CTRL.FLOW_EN = false →
      let x : Dev :=
        { d with frontS := FMap.del d.frontS 44, flowIdle := 0, heat := { d.heat with bad := true } }
      Gives (.flowSample pulses) s ((x.wr THM_FLOW.ML_MIN 0).coolFlag THM_STAT.FLOW_LOW false 0x0B14)) ∧
    (d.bit THM_COOL_CTRL.FLOW_EN = true → ∃ x, Gives (.flowSample pulses) s x ∧
      x.flowIdle = (if pulses = 0 then d.flowIdle + 1 else 0) ∧ x.heat.pulses = d.heat.pulses + pulses ∧
      x.heat.nF = d.heat.nF + 1) ∧
    (let w := d.heat
     let x : Dev := { d with heat := Heat.init }
     (w.bad = true ∨ w.nT = 0 ∨ w.nF = 0 ∨ w.nP = 0 ∨ w.watts < 300 * w.nP → Gives .heatBalanceWindow s x) ∧
     (w.bad = false → w.nT ≠ 0 → w.nF ≠ 0 → w.nP ≠ 0 → 300 * w.nP ≤ w.watts → d.bit THM_COOL_CTRL.BAL_EN = true →
       let num : Int := (w.pulses * d.rd THM_FLOW_CAL.CP : Nat) * (w.tOut - w.tIn)
       let den : Int := (8 * w.nT * w.nF * max 1 (d.rd THM_FLOW_CAL.PULSES) : Nat)
       let diff := num * w.nP - w.watts * den
       let base := w.watts * den
       let y := (x.wr THM_HEAT.Q (clampI 0 65535 (roundDiv num den)).toNat).wr THM_HEAT.IMB
         (codeS 8 (clampI (-128) 127 (roundDiv (100 * diff) base)))
       Gives .heatBalanceWindow s
         (if 20 * base < 100 * diff.natAbs then y.coolFlag THM_STAT.HEAT_BAL true 0x0B15
          else if 100 * diff.natAbs ≤ 15 * base then y.coolFlag THM_STAT.HEAT_BAL false 0x0B15 else y))) ∧
    (d.dramHot = none → Gives .thermalCycleCount s d) ∧
    (∀ t k, d.dramHot = some (t, k) →
      let c := d.cyc.getD (t, t, false)
      let r := cycleStep c.1 c.2.1 c.2.2 t
      let x : Dev := { d with cyc := some r.1 }
      (r.2.1 = false → r.2.2 = false → t ≤ d.dramThrot → Gives .thermalCycleCount s x) ∧
      (r.2.1 = true → r.2.2 = false → t ≤ x.dramThrot → Gives .thermalCycleCount s (x.add THM_CYC.COUNT 1)))

open Sys2Proof Sys2Proof.Machine Sys2Proof.Claims in
/-- R540, R542, R543, R544, R545, R546, R555, R556, R574, R575, R576, R597: A step that the governor wants starts when
its rail may: a rise sets the voltage and then relocks, a fall relocks and then sets the voltage, and one that times
out is abandoned. A poll brings telemetry, three failures lose the link, and 100 ms without it degrade the rail. The
governor writes power, limit and floor. PLLs, references and the wear record move as their rules say. -/
def Obligations.PowerAndClocks : Prop :=
  ∀ (s : State) (h n : Nat) (x : Dvfs) (verify : List Bool) (hourly vaux : Bool), Awake s → h < 2 → n < 6 →
    let d := s.dev
    let src := d.rd (oppField h)
    let inStep := FMap.find d.dvfs h = some x
    let late := FMap.find d.dvfsLast h = none ∨ ∃ t, FMap.find d.dvfsLast h = some t ∧ t + 1000000 ≤ d.now
    let started : Dev := { d with gov := { d.gov with want := FMap.del d.gov.want h } }
    let set := d.wr PWR_REGn_STAT.SET_MV (d.oppVolt x.dst) 0 h
    let link := d.rd PWR_REGn_STAT.LINK 0 n
    let polled := d.updReg n (fun r => { r with fails := 0, last := d.now, up := true })
    let seen := if link = 1 then polled.linkReturn n else polled
    let telem := fun (mv amps : Nat) => (seen.wr PWR_REGn_TELEM.MV mv 0 n).wr PWR_REGn_TELEM.AMPS amps 0 n
    let lost := (((d.wr PWR_REGn_STAT.LINK 1 0 n).wr PWR_REGn_STAT.LOST_SEEN 1 0 n).wr PWR_STAT.LINK_SEEN 1).err 15 0x0B20 (unitReg n) 0
    (∀ up, FMap.find d.gov.want h = some up → late → FMap.find d.dvfs h = none → d.rd PWR_REGn_STAT.LINK 0 h = 0 →
      (up = true → src < d.gov.oppMax → Gives (.dvfsStep h) s
        { started with dvfs := FMap.set started.dvfs h { src := src, dst := src + 1, relock := false } }) ∧
      (up = true → d.gov.oppMax ≤ src → Gives (.dvfsStep h) s started) ∧
      (up = false → 0 < src → Gives (.dvfsStep h) s (started.relock h { src := src, dst := src - 1, relock := true })) ∧
      (up = false → src = 0 → Gives (.dvfsStep h) s started)) ∧
    (FMap.find d.gov.want h = none ∨ FMap.find d.dvfs h = some x ∨ d.rd PWR_REGn_STAT.LINK 0 h ≠ 0 → Gives (.dvfsStep h) s d) ∧
    (inStep → x.relock = false →
      (x.src < x.dst → Gives (.dvfsVoltageReached h) s (set.relock h x)) ∧
      (x.dst ≤ x.src → Gives (.dvfsVoltageReached h) s (set.dvfsEnd h x.dst)) ∧
      Gives (.dvfsTimeout h) s ((d.dvfsEnd h x.src).avsFail h) ∧ Gives (.pllRelockDone h) s d) ∧
    (inStep → x.relock = true →
      (x.src < x.dst → Gives (.pllRelockDone h) s (d.dvfsEnd h x.dst)) ∧
      (x.dst ≤ x.src → let y := d.wr CLK_DOMn.STATE 2 0 (2 + h)
        Gives (.pllRelockDone h) s { y with dvfs := FMap.set d.dvfs h { x with relock := false } }) ∧
      Gives (.dvfsTimeout h) s d ∧ Gives (.dvfsVoltageReached h) s d) ∧
    (FMap.find d.dvfs h = none → ∀ i ∈ [Instr.dvfsVoltageReached h, .dvfsTimeout h, .pllRelockDone h], Gives i s d) ∧
    Gives (.avsPoll n none) s ((d.avsFail n).updReg n (fun r => { r with up := false })) ∧
    (∀ mv amps, Gives (.avsPoll n (some (mv, amps, false))) s (telem mv amps) ∧
      Gives (.avsPoll n (some (mv, amps, true))) s (((telem mv amps).wr PWR_REGn_STAT.FAULT_SEEN 1 0 n).err 15 0x0B22 (unitReg n) 0)) ∧
    (link = 0 → (3 ≤ (d.reg n).fails ∨ (d.reg n).last + 1000000 ≤ d.now) →
      (FMap.find lost.dvfs n = none → Gives (.regLinkLost n) s lost) ∧
      (∀ y, FMap.find lost.dvfs n = some y →
        let ended := lost.dvfsEnd n (min y.src y.dst)
        Gives (.regLinkLost n) s (ended.updReg n (fun r => { r with hold := some (lost.oppVolt (max y.src y.dst)) })))) ∧
    (link ≠ 0 → Gives (.regLinkLost n) s d) ∧
    (link = 1 → Gives (.regDegradedTimeout n) s
      ((((d.wr PWR_REGn_STAT.LINK 2 0 n).wr PWR_STAT.DEGRADED 1).err 15 0x0B21 (unitReg n) 0).svc 4)) ∧
    (link ≠ 1 → Gives (.regDegradedTimeout n) s d) ∧
    (∀ ests, let p := d.packagePower ests
      ∃ y, Gives (.governorMsTick ests) s y ∧ y.rd PWR_POWER.WATTS = min 4095 (p / 1000) ∧
        y.rd PWR_STAT.LIMIT = powerLimit (d.rd PWR_ENV.WATTS) (d.rd THM_CUT.WATTS) % 2 ^ PWR_STAT.LIMIT.width ∧
        y.heat.watts = d.heat.watts + p / 1000 ∧ y.gov.oppMax = d.rd PWR_CTRL.OPP_MAX) ∧
    (∀ est ks rise fall, Gives (.governorEstimateTick est ks rise fall) s (governorEstimate est ks rise fall d)) ∧
    Gives .thermalTick s (thermalTick d) ∧
    (hourly = true → Gives (.wearWrite hourly verify) s ((d.wearAdd 2 1).writeWear verify)) ∧
    (hourly = false → d.wear.due = true → Gives (.wearWrite hourly verify) s (d.writeWear verify)) ∧
    (hourly = false → d.wear.due = false → Gives (.wearWrite hourly verify) s d) ∧
    ((vaux = true → d.trip = true → let y : Dev := { d with discharge := true }
      Gives (.activeDischarge vaux) s { y.emit (.pin "THERMTRIP_N" true) with trip := false }) ∧
     (vaux = false ∨ d.trip = false → Gives (.activeDischarge vaux) s { d with discharge := true })) ∧
    (∀ k, k ∈ pllDomains → d.bit CLK_STAT.HOLDOVER = false →
      (d.rd CLK_DOMn.STATE 0 k = 2 → Gives (.pllUnlock k) s
        (((d.wr CLK_DOMn.STATE 3 0 k).wr CLK_DOMn.UNLOCK_SEEN 1 0 k).err 16 0x0B43 (unitClk k) 0)) ∧
      (d.rd CLK_DOMn.STATE 0 k = 3 → Gives (.pllLockRegained k) s (d.wr CLK_DOMn.STATE 2 0 k) ∧ Gives (.pllUnlock k) s d)) ∧
    (∀ r, r < 2 →
      let y := d.wr (presentField r) 0
      let z := d.wr (presentField r) 1
      (d.bit (presentField r) = true → y.rd CLK_STAT.SEL ≠ r → Gives (.referenceLost r) s y) ∧
      (d.bit (presentField r) = true → y.rd CLK_STAT.SEL = r → Gives (.referenceLost r) s
        ((((((y.pllAll 2 3).pllAll 1 3).wr CLK_STAT.HOLDOVER 1).wr CLK_STAT.LOST_SEEN 1).err 16 0x0B42 (unitClk 1) 0).svc 3)) ∧
      (d.bit (presentField r) = false → Gives (.referenceLost r) s d) ∧
      (z.rd CLK_STAT.SEL = r → z.bit CLK_STAT.HOLDOVER = true →
        Gives (.referenceReturn r) s ((z.wr CLK_STAT.HOLDOVER 0).pllAll 3 2)) ∧
      (z.rd CLK_STAT.SEL ≠ r → Gives (.referenceReturn r) s z)) ∧
    (∀ devs other, let ms := d.measured devs
      let y := (List.range 10).foldl (fun x n =>
        x.wr CLK_SRCn.DEV (match ms.find? (fun q => q.1 == n) with | some q => devCode q.2 | none => 0x8000) 0 n) d
      let mask := fun (xs : List Nat) => (xs.map (2 ^ ·)).sum
      let z := (y.wr CLK_MON_SRC.USED (mask (ms.map Prod.fst))).wr CLK_MON_SRC.OUTLIER (mask (consensus ms).2)
      ((consensus ms).1 = none → Gives (.driftWindow devs other) s
        (((z.wr CLK_STAT.MON 0).wr CLK_DEV.SEL 0x8000).wr CLK_DEV.OTHER 0x8000)) ∧
      (∀ c, (consensus ms).1 = some c → Gives (.driftWindow devs other) s (z.driftJudge (-c) other)))

open Sys2Proof Sys2Proof.Machine Sys2Proof.Claims in
/-- R583, R584, R585, R586, R587, R588, R589, R590, R591, R593, R594, R595: Each MCTP, PLDM and SPDM request that the
chapter lists is answered as its rule says, and one that it does not list is unsupported; while an erase runs every
SPDM request is Busy. WRITE, CANCEL and the PLDM update drive the one update engine through its stages, and a copy
that was written is checked. -/
def Obligations.ManagementRequests : Prop :=
  ∀ (s : State) (dyn eid typ id v off len size : Nat) (fails : List Nat) (verify : List Bool) (b : BootIn) (data bs : List Byte),
    Awake s →
    let d := s.dev
    let m := d.mgmt
    let pldm := fun (i : Instr) (a : Answer) => Gives i s (d.respond 1 a)
    let mctp := fun (i : Instr) (a : Answer) => Gives i s (d.respond 0 a)
    let spdm := fun (i : Instr) (a : Answer) => (m.erasing = false → Gives i s (d.respond 5 a)) ∧
      (m.erasing = true → Gives i s (d.respond 5 .busy))
    let free := d.bit MGT_STAT.I3C = true ∧ m.i3c = none
    let addressed : Dev := { d with mgmt := { m with i3c := some (dyn % 128) } }
    let stage := m.upd.stage
    let at' := fun (x : UpdStage) => d.setStage x
    let ok := fun (x : Dev) => x.respond 1 (.ok [])
    let writing := d.bit MGT_UPD_RESULT.BUSY = true
    (free → Gives (.i3cEntdaa dyn) s (addressed.emit (.reply 16 (.ok [d.pid]))) ∧
      Gives (.i3cSetdasa d.busAddr dyn) s (addressed.emit (.reply 16 (.ok [d.pid])))) ∧
    (¬free → Gives (.i3cEntdaa dyn) s d ∧ ∀ a, Gives (.i3cSetdasa a dyn) s d) ∧
    (0 < eid → eid < 255 → Gives (.setEndpointId eid) s ((d.wr MGT_STAT.EID eid).respond 0 (.ok [eid])) ∧
      (let x : Dev := { d with mgmt := { m with tid := eid } }; Gives (.setTid eid) s (x.respond 1 (.ok [])))) ∧
    (eid = 0 ∨ 255 ≤ eid → mctp (.setEndpointId eid) .invalid ∧ pldm (.setTid eid) .invalid) ∧
    mctp .getEndpointId (.ok [d.rd MGT_STAT.EID]) ∧ mctp .getEndpointUuid (.ok d.uuid) ∧
    mctp (.getMctpVersionSupport 0) (.ok [1, 3]) ∧ mctp (.getMctpVersionSupport 255) (.ok [1, 3]) ∧
    (typ = 1 ∨ typ = 5 → ∃ n, Gives (.getMctpVersionSupport typ) s ((d.draw 32).2.respond 0 (.ok [n]))) ∧
    mctp .getMessageTypeSupport (.ok [0, 1, 5]) ∧
    mctp (.unsupportedRequest 0) .unsupported ∧ pldm (.unsupportedRequest 1) .unsupported ∧ spdm (.unsupportedRequest 5) .unsupported ∧
    pldm .getTid (.ok [m.tid]) ∧ pldm .getPldmTypes (.ok [0, 2, 5]) ∧
    (typ = 0 ∨ typ = 2 ∨ typ = 5 → (∃ n, Gives (.getPldmVersion typ) s ((d.draw 32).2.respond 1 (.ok [n]))) ∧
      (∀ l, pldmCommands typ = some l → pldm (.getPldmCommands typ) (.ok l))) ∧
    pldm (.getPldmCommands 1) .invalid ∧ pldm .getPdrRepositoryInfo (.ok [13]) ∧
    (∀ r, pdrs[id - 1]? = some r → pldm (.getPdr id) (.ok r)) ∧ (13 < id → pldm (.getPdr id) .invalid) ∧
    (∀ x, d.sensorRead id = some x → pldm (.getSensorReading id) (.reading x)) ∧
    (d.sensorRead id = none → pldm (.getSensorReading id) .invalid) ∧
    (∀ x, d.stateRead id = some x → pldm (.getStateSensorReadings id) (.reading x)) ∧
    (d.stateRead id = none → pldm (.getStateSensorReadings id) .invalid) ∧
    pldm (.setStateEffecterStates 40 1 fails verify b) (.ok []) ∧
    (id ≠ 40 → pldm (.setStateEffecterStates id v fails verify b) .invalid ∧ pldm (.getStateEffecterStates id) .invalid) ∧
    (d.bit SEQ_RST_RESULT.BUSY = false →
      Gives (.setStateEffecterStates 40 2 fails verify b) s ((ok d).warmGo 2 fails verify) ∧
      Gives (.setStateEffecterStates 40 3 fails verify b) s ((ok d).coldGo 3 verify b)) ∧
    pldm (.getStateEffecterStates 40) (.ok [if d.warm.isSome then 2 else 1]) ∧
    Gives (.setNumericEffecterValue 41 v) s (ok (d.putField PWR_ENV.WATTS 0 0 0 (min v 2047) (2 ^ 32 - 1))) ∧
    pldm (.getNumericEffecterValue 41) (.ok [d.rd PWR_ENV.WATTS]) ∧
    (id ≠ 41 → pldm (.setNumericEffecterValue id v) .invalid ∧ pldm (.getNumericEffecterValue id) .invalid) ∧
    (d.hostUpd = true → d.rd MGT_STAT.UPD_OWNER ≠ 1 → ¬writing →
      let r := (d.wr MGT_UPD_RESULT.CODE 0).stagedBytes (d.rd MGT_UPD_SRC.DA * 8) (d.rd MGT_UPD_LEN.BYTES)
      (∀ l, r.1 = some l → Gives .updWrite s (r.2.updStart 2 l)) ∧
      (r.1 = none → Gives .updWrite s (((r.2.updStart 2 []).updStop 0).wr MGT_UPD_RESULT.CODE 3))) ∧
    (d.hostUpd = false → ¬writing → Gives .updWrite s (d.wr MGT_UPD_RESULT.CODE 7)) ∧
    (writing → Gives .updWrite s (d.wr MGT_UPD_RESULT.CMD_LOST 1) ∧ Gives .updNop s (d.wr MGT_UPD_RESULT.CMD_LOST 1) ∧
      (d.rd MGT_STAT.UPD_OWNER = 2 → Gives .updCancel s ((d.updStop 0).wr MGT_UPD_RESULT.CODE 6)) ∧
      (d.rd MGT_STAT.UPD_OWNER ≠ 2 → Gives .updCancel s (d.wr MGT_UPD_RESULT.CMD_LOST 1))) ∧
    (¬writing → Gives .updCancel s d ∧ Gives .updNop s d) ∧
    pldm .queryDeviceIdentifiers (.ok [0x1E6B, 0x0352]) ∧
    pldm .getFirmwareParameters (.ok ([0x0352, d.rd SEQ_IMG.SERIAL] ++ m.upd.next.toList)) ∧
    (d.rd MGT_STAT.UPD_OWNER = 0 → stage = .idle → Gives .requestUpdate s (ok ((d.wr MGT_STAT.UPD_OWNER 1).setStage .learn))) ∧
    (d.rd MGT_STAT.UPD_OWNER ≠ 0 ∨ stage ≠ .idle → pldm .requestUpdate .alreadyInUpdate) ∧
    (stage = .learn ∨ stage = .ready → Gives .passComponentTable s (ok (at' .ready))) ∧
    (stage = .ready → size ≤ 2 ^ 20 → let x := (d.updStart 1 []).setStage .download
      Gives (.updateComponent 0x0352 size) s (ok (x.updUpd (fun u => { u with size := size }))).askData) ∧
    (size ≤ 2 ^ 20 → stage ≠ .ready → pldm (.updateComponent 0x0352 size) .badState ∧ pldm .activateFirmware .badState) ∧
    (stage = .download → m.upd.job = some bs →
      (let piece := (data.take 1024).take (m.upd.size - bs.length)
       Gives (.firmwareDataReceive data) s (d.updUpd (fun u => { u with job := some (bs ++ piece) })).askData) ∧
      (m.upd.size ≤ bs.length → Gives .transferComplete s ((at' .verify).respond 1 (.request 0x16 0))) ∧
      (bs.length < m.upd.size → Gives .transferComplete s d)) ∧
    (stage = .verify → ∀ code, (m.upd.check = some (code, true) → Gives .verifyComplete s ((at' .apply).respond 1 (.request 0x17 0))) ∧
      (m.upd.check = some (code, false) → pldm .verifyComplete (.request 0x17 code))) ∧
    (stage = .apply → Gives .applyComplete s ((at' .ready).respond 1 (.request 0x18 0))) ∧
    (stage ≠ .apply → Gives .applyComplete s d) ∧
    (stage = .ready → Gives .activateFirmware s (ok d.updLeave)) ∧
    pldm .getStatus (.ok [stageNum stage]) ∧
    (stage ∈ [UpdStage.download, .verify, .apply] → Gives .cancelUpdateComponent s (ok ((d.updStop 1).setStage .ready))) ∧
    (stage ∉ [UpdStage.download, .verify, .apply] → pldm .cancelUpdateComponent .badState) ∧
    (stage ≠ .idle → Gives .cancelUpdate s (ok d.updLeave)) ∧ (stage = .idle → pldm .cancelUpdate .badState) ∧
    (m.upd.job = none → Gives (.updateDone true verify) s d) ∧
    (m.upd.job = some bs → d.rd MGT_STAT.UPD_OWNER = 2 →
      let x : Dev := { d with flash := FMap.set d.flash d.targetCopy bs }
      let code := checkCopy bs true x.part.keys x.rbInForce
      let pass := (code == 1 && (x.bit SEQ_STAT.RECOVERY || decide (x.rd SEQ_IMG.SERIAL < imgSerial bs))) = true
      let y := (x.updStop 0).wr MGT_UPD_RESULT.CHECK code
      (¬pass → Gives (.updateDone true verify) s
        ((y.wr MGT_UPD_RESULT.CODE 4).updUpd (fun u => { u with check := some (code, false) }))) ∧
      (pass → let z := (y.wr MGT_UPD_RESULT.CODE 1).updUpd (fun u => { u with check := some (code, true), next := some (imgSerial bs) })
        Gives (.updateDone true verify) s ((z.wearAdd 7 1).writeWear verify))) ∧
    spdm .getVersion (.ok [0x12]) ∧ spdm .getCapabilities (.ok [0x16]) ∧
    spdm (.negotiateAlgorithms 0x80 0x02) (.ok [0x80, 0x02, 0x04]) ∧ spdm .getDigests (.ok [1, d.chainDigest]) ∧
    (off ≤ d.part.chain.length → let p := (d.part.chain.drop off).take len
      spdm (.getCertificate 0 off len) (.ok ([p.length, d.part.chain.length - off - p.length] ++ p.map BitVec.toNat))) ∧
    (id ≠ 0 → spdm (.getCertificate id off len) .invalid ∧ spdm (.spdmChallenge id) .invalid) ∧
    (m.erasing = false → m.keyErased = false → ∃ sig, Gives (.spdmChallenge 0) s ((d.draw 768).2.respond 5 (.ok [d.chainDigest, sig]))) ∧
    (m.keyErased = true → spdm (.spdmChallenge 0) .unexpected ∧ spdm (.getMeasurements 0 true) .unexpected) ∧
    spdm (.getMeasurements 0 false) (.ok [5]) ∧
    (5 < id → id ≠ 255 → spdm (.getMeasurements id false) .invalid) ∧
    spdm (.getMeasurements 5 false) (.ok [d.rd SEQ_ID.PART * 2 ^ 16 + d.rd SEQ_ID.REV * 2 ^ 8])

open Sys2Proof Sys2Proof.Machine Sys2Proof.Claims in
/-- R592, R598, R599, R600, R601, R602, R603, R604: MGT_RB_CMD burns a level only with its key and when both copies
carry it. CHALLENGE and the capture of DBG_UNLOCK draw a nonce, whose value the spec leaves open, an unlock spends it
and starts the erase when the token holds, and the erase opens the port. The test port takes its instructions, and
DBG_ACCESS makes one access while the port is open. -/
def Obligations.FusesDebugAndTestPort : Prop :=
  ∀ (s : State) (h v v2 bnd da : Nat) (readA readB : Bool) (fails : List Nat) (verify : List Bool) (token : Option Nat), h < 2 →
    let d := s.dev
    let busy := d.bit MGT_DBG_STAT.BUSY = true
    let ir := fun (code : Nat) => ({ d with tap := { d.tap with ir := FMap.set d.tap.ir h code } } : Dev)
    let load := fun (x : Dev) (w : Nat) => ({ x with tap := { x.tap with bnd := FMap.set x.tap.bnd h w } } : Dev)
    let both := fun (code : Nat) => (d.setIr 0 code).setIr 1 code
    let open' := (d.debugOpen && d.irOf 0 == 0x21 && !d.dark) = true
    let bypass := (ir 0xFF).emit (.tdo h 0)
    let nonced := fun (x : Dev) (n : Nat) => ({ x with mgmt := { x.mgmt with nonce := some n } } : Dev)
    let done := fun (x : Dev) (r : Nat × Nat) => ({ x with tap := { x.tap with res := r } } : Dev)
    (Awake s → v / 2 ^ 16 % 2 ^ 16 ≠ 0x7B1E → Gives (.rbCmd v readA readB) s (d.wr MGT_RB_RESULT.CODE 2)) ∧
    (Awake s → v / 2 ^ 16 % 2 ^ 16 = 0x7B1E → (d.bit MGT_UPD_RESULT.BUSY = true ∨ v % 64 ≤ d.rbLevel ∨ d.copiesCarry (v % 64) readA readB = false) →
      Gives (.rbCmd v readA readB) s (d.wr MGT_RB_RESULT.CODE 3)) ∧
    (Awake s → v / 2 ^ 16 % 2 ^ 16 = 0x7B1E → d.bit MGT_UPD_RESULT.BUSY = false → d.rbLevel < v % 64 → d.copiesCarry (v % 64) readA readB = true →
      let x := (d.wr MGT_RB_RESULT.CODE 1).wr MGT_RB_RESULT.LEVEL (v % 64)
      Gives (.rbCmd v readA readB) s { x with rbFuse := v % 64 }) ∧
    (Awake s → ¬busy → Gives .dbgNop s d ∧ ∀ n x, d.draw 256 = (n, x) → Gives .dbgChallenge s (nonced x n.toNat)) ∧
    (Awake s → ¬busy → ∀ t e, d.stagedBytes (d.rd MGT_DBG_TOKEN.DA) 256 = (t, e) →
      let spent : Dev := { e with mgmt := { e.mgmt with nonce := none } }
      let barred := e.rd MGT_DBG_STAT.STATE = 3 ∨ e.bit MGT_UPD_RESULT.BUSY = true
      (barred → Gives .dbgUnlock s (spent.wr MGT_DBG_STAT.RESULT 3)) ∧
      (¬barred → t.any e.tokenOk = true → Gives .dbgUnlock s spent.eraseStart) ∧
      (¬barred → t.any e.tokenOk = false → Gives .dbgUnlock s (spent.wr MGT_DBG_STAT.RESULT 2))) ∧
    (Awake s → busy → ∀ i ∈ [Instr.dbgChallenge, .dbgUnlock, .dbgNop], Gives i s (d.wr MGT_DBG_STAT.CMD_LOST 1)) ∧
    (Awake s → Gives .nonceExpiry s { d with mgmt := { d.mgmt with nonce := none } }) ∧
    (Awake s → d.mgmt.erasing = false → Gives (.debugEraseDone fails verify) s d) ∧
    (Awake s → d.bit THM_STAT.SHUTDOWN = true → d.cooled = false → Gives (.debugEraseDone fails verify) s d) ∧
    (Awake s → d.mgmt.erasing = true → d.bit THM_STAT.SHUTDOWN = false ∨ d.cooled = true →
      let x := (d.warmB fails).updMgmt (fun m => { m with erasing := false })
      Gives (.debugEraseDone fails verify) s
        ((((x.wr MGT_DBG_STAT.STATE 2).wr MGT_DBG_STAT.RESULT 1).wr MGT_DBG_STAT.BUSY 0).wearAdd 8 1 |>.writeWear verify)) ∧
    Gives .tapTestLogicReset s { d with tap := { d.tap with ir := [] } } ∧
    Gives (.tapIdcode h) s ((ir 1).emit (.tdo h 0x10352B9B)) ∧ Gives (.tapBypass h) s bypass ∧
    Gives (.tapHighz h) s ((ir 5).emit (.boundary h none)) ∧
    Gives (.tapSamplePreload h bnd v2) s ((load (ir 2) v2).emit (.tdo h bnd)) ∧
    (d.crst = true → Gives (.tapExtest h v2) s ((load (ir 0) v2).emit (.boundary h (some v2))) ∧
      Gives (.tapClamp h) s ((ir 4).emit (.boundary h (some (FMap.get d.tap.bnd 0 h))))) ∧
    (d.crst = false → Gives (.tapExtest h v2) s bypass ∧ Gives (.tapClamp h) s bypass) ∧
    Gives (.tapDietest h true) s { ir 0x10 with dieTest := d.dieTest.filter (· != h) ++ [h] } ∧
    Gives (.tapDietest h false) s { ir 0x10 with dieTest := d.dieTest.filter (· != h) } ∧
    (Awake s → ¬busy → Gives (.tapDbgUnlock false none) s (both 0x20) ∧
      (∀ t, Gives (.tapDbgUnlock false (some t)) s ((both 0x20).unlock (some (bytesOf t 256)))) ∧
      ∀ n x, (both 0x20).draw 256 = (n, x) → let y := (nonced x n.toNat).emit (.tdo 0 n.toNat)
        Gives (.tapDbgUnlock true none) s y ∧ ∀ t, Gives (.tapDbgUnlock true (some t)) s (y.unlock (some (bytesOf t 256)))) ∧
    (s.dev.dark = true ∨ busy → ∀ cap, Gives (.tapDbgUnlock cap token) s (both 0x20)) ∧
    Gives .tapDbgAccess s ((both 0x21).emit (.tdo 0 (if d.debugOpen then d.tap.res.1 * 2 ^ 80 + d.tap.res.2 else 0))) ∧
    (open' → (∀ r e, d.dbgAt da none = (r, e) → Gives (.dbgRead32 da) s (done e r)) ∧
      (∀ r e, d.dbgAt da (some v) = (r, e) → Gives (.dbgWrite32 da v) s (done e r)) ∧ Gives .dbgAccessNop s (done d (0, 0))) ∧
    (¬open' → ∀ i ∈ [Instr.dbgRead32 da, .dbgWrite32 da v, .dbgAccessNop], Gives i s d)

namespace Sys2Proof.Claims
open Sys2Proof Sys2Proof.Machine

/-- BAR0 offset `a` is open to `who`: a physical function of a device that is READY, outside its MSI-X table; the debug port
while it is open; a core; a queue. -/
def OpenTo (d : Dev) (who : Requester) (a : Nat) : Prop :=
  match who with
  | .fn f => f < 2 ∧ d.bit SEQ_STAT.READY = true ∧ msixWord f a = none
  | .core _ => True
  | .queue _ _ => True
  | .debug => d.debugOpen = true
  | .preset => False

/-- The half that serves offset `a` cannot be reached from where `who` enters: the control channel, or the mesh, is down. -/
def OutOfReach (e : Dev) (who : Requester) (a : Nat) : Prop :=
  (e.ctrlDown && decide (a < 0x100000) && halfOf a != e.entryHalf who) = true ∨ e.regRouteLost who a = true

/-- The access is let through: `e` is the device after the check of protection, and `b` the offset at which it is served. -/
def Admitted (d : Dev) (who : Requester) (a : Nat) (wr : Bool) (e : Dev) (b : Nat) : Prop :=
  OpenTo d who a ∧ d.regAllowed who (2 ^ 47 + a) wr = (true, e) ∧ ¬OutOfReach e who a ∧ b = e.seenOff (e.entryHalf who) a

/-- A write of `v` to the bits `m` of register `x` leaves `t`: discarded for a disabled unit, one inside a Curtain and for a
requester that may not manage the device; a command; else the new value of the register. -/
def Writes (e : Dev) (who : Requester) (x : Site) (v m : Nat) (t : Dev) : Prop :=
  let cmd := (e.devCmd who x v).or (e.unitCmd who x v)
  (e.unitOff x = true ∧ t = e) ∨
  (e.unitOff x = false ∧ e.siteCurtained x = true ∧ t = e.wr SEQ_STAT.ACCESS_LOST 1) ∨
  (e.unitOff x = false ∧ e.siteCurtained x = false ∧
    ((isMgt x.reg = true ∧ e.mayManage who = false ∧ t = e) ∨
     ((isMgt x.reg = false ∨ e.mayManage who = true) ∧ (cmd = some t ∨ (cmd = none ∧ t = e.plainWrite who x v m)))))

end Sys2Proof.Claims

open Sys2Proof Sys2Proof.Machine Sys2Proof.Claims in
/-- R11, R17, R18, R28, R29, R39, R312, R373, R446, R448, R507, R527: A register access is let through where its
function is READY or its port open, partition protection allows it and the command path and the mesh reach the half
that serves it. A write of a register then takes effect, or starts its command; it is discarded for a disabled unit,
inside a Curtain and where the requester may not manage the device. The low word of a 64-bit register waits for its
high word, both words go in one step in a write of 64 bits, and a narrow write is discarded. A read answers the value
and clears the RC fields it covers, but a narrow one; the low word holds the high word for the same requester. A
refused access and one that cannot reach its half change no register, are recorded and answer an error completion, but
for the write of a function. The MSI-X table, VF_WIN, a device that is not READY and a closed debug port answer for
themselves. -/
def Obligations.RegisterAccesses : Prop :=
  ∀ (s : State) (who : Requester) (a b v : Nat) (e : Dev), Live s → a < 2 ^ 28 →
    let d := s.dev
    let w4 := fun (t : Dev) => Gives (.registerWrite who a 4 v) s t
    let w8 := fun (t : Dev) => Gives (.registerWrite who a 8 v) s t
    let read := fun (n r : Nat) (t : Dev) => Gives (.rcFieldRead who a n) s (t.emit (.regData who a n r))
    let stop := fun (t : Dev) => t.emit (.errCompletion who a)
    (Admitted d who a true e b →
      (a % 4 = 0 → siteAt b = none → w4 e) ∧
      (∀ x g, a % 4 = 0 → siteAt b = some x → e.wordWrite who x (v % 2 ^ 32) = (none, g) →
        w4 g ∧ (wideWord a = some 0 → Gives (.lowWordWrite who a v) s g)) ∧
      (∀ x g w m t, a % 4 = 0 → siteAt b = some x → e.wordWrite who x (v % 2 ^ 32) = (some (w, m), g) → Writes g who x w m t →
        w4 t ∧ (wideWord a = some 1 → Gives (.highWordWrite who a v) s t)) ∧
      (∀ x t, a % 8 = 0 → siteAt b = some x → x.reg.wide = true → x.word = 0 →
        Writes { e with held := e.held.filter (fun k => k.1 != who) } who x (v % 2 ^ 64) (2 ^ 64 - 1) t → w8 t) ∧
      (∀ x, a % 8 = 0 → siteAt b = some x → (x.reg.wide = false ∨ x.word ≠ 0) →
        w8 ((e.writeWord32 who b v).writeWord32 who (b + 4) (v / 2 ^ 32))) ∧
      (a % 8 = 0 → siteAt b = none → w8 (e.writeWord32 who (b + 4) (v / 2 ^ 32))) ∧
      (a % 2 = 0 → Gives (.narrowRegisterWrite who a 2 v) s e) ∧ Gives (.narrowRegisterWrite who a 1 v) s e) ∧
    (Admitted d who a false e b →
      let rest := e.capt.filter (fun k => !(k.1 == who && k.2.1 == (siteAt b).elim 0 Site.addr))
      (a % 4 = 0 → siteAt b = none → read 4 0 e) ∧
      (∀ x g m, a % 4 = 0 → siteAt b = some x → x.reg.wide = false → x.word = 0 → e.siteRead x = (m, g) →
        read 4 (m % 2 ^ 32) (g.clearRc x 0)) ∧
      (∀ x g m, a % 4 = 0 → siteAt b = some x → x.reg.wide = true → x.word = 0 → e.siteRead x = (m, g) →
        let t : Dev := { g.clearRc x 0 with capt := rest ++ [(who, x.addr, m / 2 ^ 32)] }
        read 4 (m % 2 ^ 32) t ∧ (wideWord a = some 0 → Gives (.lowWordRead who a) s (t.emit (.regData who a 4 (m % 2 ^ 32))))) ∧
      (∀ x k, a % 4 = 0 → siteAt b = some x → x.word = 1 →
        e.capt.find? (fun k => k.1 == who && k.2.1 == x.addr) = some k → read 4 k.2.2 { e with capt := rest }) ∧
      (∀ x g m, a % 4 = 0 → siteAt b = some x → x.word = 1 → e.siteRead x = (m, g) →
        e.capt.find? (fun k => k.1 == who && k.2.1 == x.addr) = none → read 4 (m / 2 ^ 32) (g.clearRc x 1)) ∧
      (∀ x g m, a % 8 = 0 → siteAt b = some x → x.reg.wide = true → x.word = 0 → e.siteRead x = (m, g) → read 8 m (g.clearRc x 2)) ∧
      (∀ x lo g hi h, a % 8 = 0 → siteAt b = some x → (x.reg.wide = false ∨ x.word ≠ 0) → e.readWord32 who x = (lo, g) →
        g.barRead who (b + 4) 4 = (hi, h) → read 8 (lo + hi * 2 ^ 32) h) ∧
      (∀ hi h, a % 8 = 0 → siteAt b = none → e.barRead who (b + 4) 4 = (hi, h) → read 8 (hi * 2 ^ 32) h) ∧
      (∀ n ∈ [1, 2], a % n = 0 → (siteAt (b - b % 4) = none → read n 0 e) ∧ ∀ x g m, siteAt (b - b % 4) = some x →
        e.siteRead x = (m, g) → read n (m / 2 ^ (32 * x.word) / 2 ^ (8 * (b % 4)) % 2 ^ (8 * n)) g)) ∧
    (∀ n ∈ [4, 8], a % n = 0 → OpenTo d who a →
      (∀ cls, (d.regAllowed who (2 ^ 47 + a) true = (false, e) ∧ cls = 3) ∨
          (d.regAllowed who (2 ^ 47 + a) true = (true, e) ∧ OutOfReach e who a ∧ cls = 4) →
        let t := e.err cls 2 (reqUnit who) (2 ^ 47 + a)
        Gives (.registerWrite who a n v) s (if isPf who then t else stop t)) ∧
      (∀ cls, (d.regAllowed who (2 ^ 47 + a) false = (false, e) ∧ cls = 3) ∨
          (d.regAllowed who (2 ^ 47 + a) false = (true, e) ∧ OutOfReach e who a ∧ cls = 4) →
        Gives (.rcFieldRead who a n) s (stop (e.err cls 1 (reqUnit who) (2 ^ 47 + a))))) ∧
    (∀ f n, f < 66 → n ∈ [4, 8] → a % n = 0 → who = .fn f →
      (d.bit SEQ_STAT.READY = false → Gives (.registerWrite who a n v) s d ∧ Gives (.rcFieldRead who a n) s (stop d)) ∧
      (∀ w, d.bit SEQ_STAT.READY = true → a < (if f < 2 then 2 ^ 28 else 4096) → msixWord f a = some w →
        Gives (.registerWrite who a n v) s (d.msixAccess f w n (some v)).2 ∧ read n (d.msixAccess f w n none).1 d) ∧
      (d.bit SEQ_STAT.READY = true → 2 ≤ f → a < 4096 → msixWord f a = none →
        Gives (.registerWrite who a n v) s (if a = 0 then { d with vfWin := FMap.set d.vfWin (f - 2) (v % 8) } else d) ∧
        read n (if a = 0 then FMap.get d.vfWin 0 (f - 2) else 0) d)) ∧
    ((who = .debug ∧ d.debugOpen = false) ∨ who = .preset →
      ∀ n, Gives (.registerWrite who a n v) s d ∧ Gives (.rcFieldRead who a n) s d ∧ Gives (.narrowRegisterWrite who a n v) s d) ∧
    (wideWord a ≠ some 0 → Gives (.lowWordWrite who a v) s d ∧ Gives (.lowWordRead who a) s d) ∧
    (wideWord a ≠ some 1 → Gives (.highWordWrite who a v) s d)

open Sys2Proof Sys2Proof.Machine Sys2Proof.Claims in
/-- R578: With a command at the front of the queue a step is that command on the device with the rest of the queue. On
an empty queue (the choice of log entry 5) the count of nanoseconds advances by one unless CTRL, MGMT and TIME stand
still; while the control channel is lost the nanoseconds that Half B has counted alone go up as well, and at a million of
them its count drifts by one at most. Nothing else changes. -/
def Obligations.AStepRunsTheFrontCommand : Prop :=
  ∀ (s : State) (i : Instr) (rest : List Instr),
    step { s with pending := i :: rest } = exec i { s with pending := rest } ∧
    (s.dev.dark = false → s.dev.ctrlDown = false → step { s with pending := [] } =
      .next { s with pending := [], dev := { s.dev with now := (s.dev.now + 1) % 2 ^ 64 } }) ∧
    (s.dev.dark = false → s.dev.ctrlDown = true → s.dev.lone + 1 < 1000000 → step { s with pending := [] } =
      .next { s with pending := [], dev := { s.dev with now := (s.dev.now + 1) % 2 ^ 64, lone := s.dev.lone + 1 } }) ∧
    (s.dev.dark = false → s.dev.ctrlDown = true → 1000000 ≤ s.dev.lone + 1 → ∃ v, v ≤ 2 ∧ step { s with pending := [] } =
      .next { s with pending := [], dev := { s.dev with now := (s.dev.now + 1) % 2 ^ 64, skew := s.dev.skew + (v : Nat) - 1,
                                                        lone := 0, free := s.dev.free + 1 } }) ∧
    (s.dev.dark = true → step { s with pending := [] } = .next { s with pending := [] })

open Sys2Proof Sys2Proof.Machine Sys2Proof.Claims in
/-- R28, R39, R84: In every state every command answers a next state, in which the commands that wait are those that
waited: no command faults, is refused, or takes, adds or drops another one. Every step therefore drops just the front
of the queue. -/
def Obligations.EveryCommandAnswers : Prop :=
  (∀ (i : Instr) (s : State), ∃ d : Dev, exec i s = .next { s with dev := d }) ∧
    (∀ (s : State), ∃ t : State, step s = .next t ∧ t.pending = s.pending.tail)

open Sys2Proof Sys2Proof.Machine Sys2Proof.Claims in
/-- R12, R70, R261: After a cold reset every register field reads its Reset entry, or the value that log entries 1 to
3 name for one that fuses, the image or nothing gives. Every byte of device memory and of local memory reads zero (the
choice of a log entry), every scalar register reads zero, no command waits and both memories are in canonical form. -/
def Obligations.AfterReset : Prop :=
  State.reset.pending = [] ∧ State.reset.dev.memWf ∧
    (∀ (f : Fld) (u i j : Nat), State.reset.dev.rd f u i j = f.reset) ∧
    (∀ da n, State.reset.dev.mrd da n = 0) ∧ (∀ c a n, State.reset.dev.lrd c a n = 0) ∧
    (∀ c r, State.reset.dev.sreg c r = 0) ∧ State.reset.dev.curtains = [] ∧ State.reset.dev.conns = [] ∧
    State.reset.dev.recs = [] ∧ State.reset.dev.cueOps = [] ∧ State.reset.dev.waiters = [] ∧ State.reset.dev.switch = none

open Sys2Proof Sys2Proof.Machine Sys2Proof.Claims in
/-- R10, R73, R261: The bytes that a store of n bytes covers read back as the value, little-endian, and every other
byte reads as before, in device memory and in the local memory of each core. A store in the local memory of one core
changes no other core. Both memories stay in canonical form. -/
def Obligations.MemoryReadsWhatWasStored : Prop :=
  ∀ (d : Dev) (a n v b k : Nat),
    ((d.store a n v).mrd a n = v % 256 ^ n) ∧
    (b + k ≤ a ∨ a + n ≤ b → (d.store a n v).mrd b k = d.mrd b k) ∧
    (∀ p, ((d.storeBlock a v p).mrd a 4096 = v % 256 ^ 4096) ∧ (d.memWf → (d.storeBlock a v p).memWf)) ∧
    (∀ c, (d.lwr c a n v).lrd c a n = v % 256 ^ n ∧
      (b + k ≤ a ∨ a + n ≤ b → (d.lwr c a n v).lrd c b k = d.lrd c b k) ∧
      (∀ c', c' ≠ c → a + n ≤ 2 ^ 20 → b + k ≤ 2 ^ 20 → (d.lwr c a n v).lrd c' b k = d.lrd c' b k) ∧
      (d.lwr c a n v).mem = d.mem ∧ (d.memWf → (d.lwr c a n v).memWf)) ∧
    (d.store a n v).lmem = d.lmem ∧ (d.memWf → (d.store a n v).memWf)

namespace Sys2Proof.Claims
open Sys2Proof Sys2Proof.Machine

/-- The device as a cold reset leaves it, with CRST_N asserted: what a cold reset keeps is `x`'s, all else is at reset. -/
def asHeld (x : Dev) : Dev :=
  { Dev.reset with part := x.part, rbFuse := x.rbFuse, flash := x.flash, wear := x.wear, darnLog := x.darnLog, boots := x.boots,
                   ppr := x.ppr, trip := x.trip, dieTest := x.dieTest, tap := x.tap, out := x.out, free := x.free,
                   discharge := x.discharge, stopped := true, crst := true }

/-- The device is held in reset, and no release of CRST_N waits. -/
def HeldInReset (s : State) : Prop := s.dev = asHeld s.dev ∧ ∀ b, Instr.crstNRelease b ∉ s.pending

end Sys2Proof.Claims

open Sys2Proof Sys2Proof.Machine Sys2Proof.Claims in
/-- R505, R507, R598, R611: While CRST_N is asserted and no release of it waits, every step keeps the device at its
reset values: no command of any family changes a register, memory, core, queue, connection or service. Only fuses,
flash, the wear record, the Darn log, the latch of THERMTRIP_N, the discharge of the rails, the test access port and
what has left the device may differ. -/
def Obligations.HeldInResetStays : Prop :=
  ∀ (s t : State), HeldInReset s → step s = .next t → HeldInReset t

open Sys2Proof Sys2Proof.Machine Sys2Proof.Claims in
/-- R507, R611: A step that takes CRST_N_ASSERT, in any state of the device, comes to a device that is held in reset
while no release waits. The latch of THERMTRIP_N, the part, flash and the Darn log stay when no COMMIT runs. A release
begins a cold boot, and a release without an assertion changes nothing. -/
def Obligations.AssertingCrstHolds : Prop :=
  ∀ (d : Dev) (rest : List Instr) (b : BootIn),
    ((∀ x, Instr.crstNRelease x ∉ rest) →
      ∃ t, step { pending := .crstNAssert :: rest, dev := d } = .next t ∧ HeldInReset t ∧ t.pending = rest ∧
        (d.commit = none → t.dev.trip = d.trip ∧ t.dev.part = d.part ∧ t.dev.flash = d.flash ∧ t.dev.darnLog = d.darnLog)) ∧
    (d.crst = true → exec (.crstNRelease b) { pending := rest, dev := d } =
      .next { pending := rest, dev := d.coldBoot b (if b.power then 0 else 1) }) ∧
    (d.crst = false → exec (.crstNRelease b) { pending := rest, dev := d } = .next { pending := rest, dev := d })
end

