-- ==== Sys2Proof/Laws/FMap.lean ====
section
/-! SUPPORT. The laws of sparse maps: reading after writing, and the canonical form. -/
namespace Sys2Proof.Machine

variable {α : Type}

@[simp] theorem FMap.find_nil (k : Nat) : FMap.find ([] : FMap α) k = none := rfl
@[simp] theorem FMap.get_nil (d : α) (k : Nat) : FMap.get [] d k = d := rfl

@[simp] theorem FMap.find_set_same (m : FMap α) (k : Nat) (v : α) : FMap.find (FMap.set m k v) k = some v := by
  induction m with
  | nil => simp [FMap.set, FMap.find]
  | cons p t ih =>
    obtain ⟨k', v'⟩ := p
    simp only [FMap.set]
    split
    · simp [FMap.find]
    · split
      · simp [FMap.find]
      · rename_i h; simp [FMap.find, h, ih]

theorem FMap.find_set_ne (m : FMap α) {j k : Nat} (v : α) (h : j ≠ k) : FMap.find (FMap.set m k v) j = FMap.find m j := by
  induction m with
  | nil => simp [FMap.set, FMap.find, Ne.symm h]
  | cons p t ih =>
    obtain ⟨k', v'⟩ := p
    simp only [FMap.set]
    split
    · simp [FMap.find, Ne.symm h]
    · split
      · rename_i hk; subst hk; simp [FMap.find, Ne.symm h]
      · simp [FMap.find, ih]

@[simp] theorem FMap.get_set_same (m : FMap α) (d : α) (k : Nat) (v : α) : FMap.get (FMap.set m k v) d k = v := by
  simp [FMap.get]

theorem FMap.get_set_ne (m : FMap α) (d : α) {j k : Nat} (v : α) (h : j ≠ k) :
    FMap.get (FMap.set m k v) d j = FMap.get m d j := by
  simp [FMap.get, FMap.find_set_ne m v h]

theorem FMap.get_set (m : FMap α) (d : α) (j k : Nat) (v : α) :
    FMap.get (FMap.set m k v) d j = if j = k then v else FMap.get m d j := by
  split
  · rename_i h; subst h; simp
  · rename_i h; exact FMap.get_set_ne m d v h

@[simp] theorem FMap.find_del_same (m : FMap α) (k : Nat) : FMap.find (FMap.del m k) k = none := by
  induction m with
  | nil => rfl
  | cons p t ih =>
    obtain ⟨k', v'⟩ := p
    rw [FMap.del] at ih ⊢
    by_cases h : k' = k
    · simpa [List.filter_cons, h] using ih
    · simpa [List.filter_cons, h, FMap.find] using ih

theorem FMap.find_del_ne (m : FMap α) {j k : Nat} (h : j ≠ k) : FMap.find (FMap.del m k) j = FMap.find m j := by
  induction m with
  | nil => rfl
  | cons p t ih =>
    obtain ⟨k', v'⟩ := p
    rw [FMap.del] at ih ⊢
    by_cases h' : k' = k
    · subst h'; simpa [List.filter_cons, FMap.find, Ne.symm h] using ih
    · simp [h', FMap.find, ih]

@[simp] theorem FMap.get_put_same [DecidableEq α] (m : FMap α) (d : α) (k : Nat) (v : α) :
    FMap.get (FMap.put m d k v) d k = v := by
  unfold FMap.put
  split
  · rename_i h; simp [FMap.get, h]
  · simp

theorem FMap.get_put_ne [DecidableEq α] (m : FMap α) (d : α) {j k : Nat} (v : α) (h : j ≠ k) :
    FMap.get (FMap.put m d k v) d j = FMap.get m d j := by
  unfold FMap.put
  split
  · simp [FMap.get, FMap.find_del_ne m h]
  · exact FMap.get_set_ne m d v h

@[simp] theorem FMap.get_upd_same (m : FMap α) (d : α) (k : Nat) (f : α → α) :
    FMap.get (FMap.upd m d k f) d k = f (FMap.get m d k) := by
  simp [FMap.upd]

theorem FMap.get_upd_ne (m : FMap α) (d : α) {j k : Nat} (f : α → α) (h : j ≠ k) :
    FMap.get (FMap.upd m d k f) d j = FMap.get m d j := FMap.get_set_ne m d _ h

/-! ### The canonical form -/

theorem FMap.sorted_cons (a : Nat) (v : α) (t : FMap α) :
    FMap.sorted ((a, v) :: t) = true ↔ (∀ p ∈ t, a < p.1) ∧ FMap.sorted t = true := by
  induction t generalizing a v with
  | nil => simp [FMap.sorted]
  | cons p t ih =>
    obtain ⟨b, w⟩ := p
    simp only [FMap.sorted, Bool.and_eq_true, decide_eq_true_eq, List.mem_cons, forall_eq_or_imp]
    constructor
    · rintro ⟨h, hs⟩
      exact ⟨⟨h, fun p hp => Nat.lt_trans h (((ih b w).1 hs).1 p hp)⟩, hs⟩
    · rintro ⟨⟨h, -⟩, hs⟩
      exact ⟨h, hs⟩

theorem FMap.mem_set {m : FMap α} {k : Nat} {v : α} {p : Nat × α} (h : p ∈ FMap.set m k v) : p = (k, v) ∨ p ∈ m := by
  induction m with
  | nil => simpa [FMap.set] using h
  | cons q t ih =>
    obtain ⟨k', v'⟩ := q
    simp only [FMap.set] at h
    split at h
    · simpa using h
    · split at h
      · rcases List.mem_cons.1 h with h | h
        · exact .inl h
        · exact .inr (List.mem_cons_of_mem _ h)
      · rcases List.mem_cons.1 h with h | h
        · exact .inr (by simp [h])
        · rcases ih h with h | h
          · exact .inl h
          · exact .inr (List.mem_cons_of_mem _ h)

theorem FMap.sorted_set {m : FMap α} (k : Nat) (v : α) (h : FMap.sorted m = true) :
    FMap.sorted (FMap.set m k v) = true := by
  induction m with
  | nil => rfl
  | cons q t ih =>
    obtain ⟨k', v'⟩ := q
    have ht := (FMap.sorted_cons k' v' t).1 h
    simp only [FMap.set]
    split
    · rename_i hk
      refine (FMap.sorted_cons _ _ _).2 ⟨?_, h⟩
      intro p hp
      rcases List.mem_cons.1 hp with rfl | hp
      · exact hk
      · exact Nat.lt_trans hk (ht.1 p hp)
    · split
      · rename_i hk; subst hk
        exact (FMap.sorted_cons _ _ _).2 ht
      · refine (FMap.sorted_cons _ _ _).2 ⟨?_, ih ht.2⟩
        intro p hp
        rcases FMap.mem_set hp with rfl | hp
        · show k' < k; omega
        · exact ht.1 p hp

theorem FMap.sorted_filter {m : FMap α} (p : Nat × α → Bool) (h : FMap.sorted m = true) :
    FMap.sorted (m.filter p) = true := by
  induction m with
  | nil => rfl
  | cons q t ih =>
    obtain ⟨k', v'⟩ := q
    have ht := (FMap.sorted_cons k' v' t).1 h
    simp only [List.filter]
    split
    · exact (FMap.sorted_cons _ _ _).2 ⟨fun p hp => ht.1 p ((List.mem_filter.1 hp).1), ih ht.2⟩
    · exact ih ht.2

/-! ### Memories -/

theorem Memory.wf_nil : Memory.wf [] := ⟨rfl, by simp⟩

/-- Storing one byte keeps the canonical form. -/
theorem Memory.wf_put {m : Memory} (a : Nat) (v : BitVec 8) (h : Memory.wf m) : Memory.wf (FMap.put m 0 a v) := by
  unfold FMap.put
  split
  · exact ⟨FMap.sorted_filter _ h.1, fun c hc => h.2 c ((List.mem_filter.1 hc).1)⟩
  · rename_i hv
    refine ⟨FMap.sorted_set _ _ h.1, fun c hc => ?_⟩
    rcases FMap.mem_set hc with rfl | hc
    · exact hv
    · exact h.2 c hc

/-- Dropping bytes keeps the canonical form. -/
theorem Memory.wf_filter {m : Memory} (p : Host.Cell → Bool) (h : Memory.wf m) : Memory.wf (m.filter p) :=
  ⟨FMap.sorted_filter _ h.1, fun c hc => h.2 c ((List.mem_filter.1 hc).1)⟩

/-- Two memories in canonical form that read the same at every address are equal. -/
theorem Memory.ext_of_wf {m n : Memory} (hm : Memory.wf m) (hn : Memory.wf n)
    (h : ∀ a, FMap.get m (0 : BitVec 8) a = FMap.get n 0 a) : m = n := by
  have below : ∀ (l : Memory) (k : Nat), (∀ p ∈ l, k < p.1) → FMap.get l (0 : BitVec 8) k = 0 := by
    intro l k hl
    induction l with
    | nil => rfl
    | cons q t ih =>
      obtain ⟨b, w⟩ := q
      have hb : k < b := hl (b, w) (List.mem_cons_self ..)
      have := ih (fun p hp => hl p (List.mem_cons_of_mem _ hp))
      simpa [FMap.get, FMap.find, Nat.ne_of_gt hb] using this
  induction m generalizing n with
  | nil =>
    cases n with
    | nil => rfl
    | cons q t =>
      obtain ⟨b, w⟩ := q
      have := h b
      simp [FMap.get, FMap.find] at this
      exact absurd this.symm (hn.2 (b, w) (List.mem_cons_self ..))
  | cons p s ih =>
    obtain ⟨a, v⟩ := p
    have hs := (FMap.sorted_cons a v s).1 hm.1
    cases n with
    | nil =>
      have := h a
      simp [FMap.get, FMap.find] at this
      exact absurd this (hm.2 (a, v) (List.mem_cons_self ..))
    | cons q t =>
      obtain ⟨b, w⟩ := q
      have ht := (FMap.sorted_cons b w t).1 hn.1
      have hab : a = b := by
        rcases Nat.lt_trichotomy a b with hlt | heq | hgt
        · have h1 := h a
          rw [below ((b, w) :: t) a (by
            intro p hp
            rcases List.mem_cons.1 hp with rfl | hp
            · exact hlt
            · exact Nat.lt_trans hlt (ht.1 p hp))] at h1
          simp [FMap.get, FMap.find] at h1
          exact absurd h1 (hm.2 (a, v) (List.mem_cons_self ..))
        · exact heq
        · have h1 := h b
          rw [below ((a, v) :: s) b (by
            intro p hp
            rcases List.mem_cons.1 hp with rfl | hp
            · exact hgt
            · exact Nat.lt_trans hgt (hs.1 p hp))] at h1
          simp [FMap.get, FMap.find] at h1
          exact absurd h1.symm (hn.2 (b, w) (List.mem_cons_self ..))
      subst hab
      have hvw : v = w := by simpa [FMap.get, FMap.find] using h a
      subst hvw
      have : s = t := by
        refine ih ⟨hs.2, fun c hc => hm.2 c (List.mem_cons_of_mem _ hc)⟩
          ⟨ht.2, fun c hc => hn.2 c (List.mem_cons_of_mem _ hc)⟩ (fun j => ?_)
        by_cases hj : j = a
        · subst hj; rw [below s j hs.1, below t j ht.1]
        · have := h j
          simpa [FMap.get, FMap.find, Ne.symm hj] using this
      rw [this]

end Sys2Proof.Machine
end

