-- ==== Sys2Proof/Laws/State.lean ====
section
/-! SUPPORT. What the primitive updates leave alone: one lemma for each field of the device and each update. -/
namespace Sys2Proof.Machine
open Sys2Proof

variable (d : Dev)

/-! ### Dev.wr -/

@[simp] theorem Dev.wr_mem (f : Fld) (v u i j : Nat) : (d.wr f v u i j).mem = d.mem := rfl
@[simp] theorem Dev.wr_badw (f : Fld) (v u i j : Nat) : (d.wr f v u i j).badw = d.badw := rfl
@[simp] theorem Dev.wr_blk (f : Fld) (v u i j : Nat) : (d.wr f v u i j).blk = d.blk := rfl
@[simp] theorem Dev.wr_slices (f : Fld) (v u i j : Nat) : (d.wr f v u i j).slices = d.slices := rfl
@[simp] theorem Dev.wr_caches (f : Fld) (v u i j : Nat) : (d.wr f v u i j).caches = d.caches := rfl
@[simp] theorem Dev.wr_lmem (f : Fld) (v u i j : Nat) : (d.wr f v u i j).lmem = d.lmem := rfl
@[simp] theorem Dev.wr_lue (f : Fld) (v u i j : Nat) : (d.wr f v u i j).lue = d.lue := rfl
@[simp] theorem Dev.wr_lce (f : Fld) (v u i j : Nat) : (d.wr f v u i j).lce = d.lce := rfl
@[simp] theorem Dev.wr_ceRun (f : Fld) (v u i j : Nat) : (d.wr f v u i j).ceRun = d.ceRun := rfl
@[simp] theorem Dev.wr_imem (f : Fld) (v u i j : Nat) : (d.wr f v u i j).imem = d.imem := rfl
@[simp] theorem Dev.wr_cores (f : Fld) (v u i j : Nat) : (d.wr f v u i j).cores = d.cores := rfl
@[simp] theorem Dev.wr_curtains (f : Fld) (v u i j : Nat) : (d.wr f v u i j).curtains = d.curtains := rfl
@[simp] theorem Dev.wr_cueOps (f : Fld) (v u i j : Nat) : (d.wr f v u i j).cueOps = d.cueOps := rfl
@[simp] theorem Dev.wr_waiters (f : Fld) (v u i j : Nat) : (d.wr f v u i j).waiters = d.waiters := rfl
@[simp] theorem Dev.wr_barrCores (f : Fld) (v u i j : Nat) : (d.wr f v u i j).barrCores = d.barrCores := rfl
@[simp] theorem Dev.wr_barrCls (f : Fld) (v u i j : Nat) : (d.wr f v u i j).barrCls = d.barrCls := rfl
@[simp] theorem Dev.wr_linkRet (f : Fld) (v u i j : Nat) : (d.wr f v u i j).linkRet = d.linkRet := rfl
@[simp] theorem Dev.wr_resends (f : Fld) (v u i j : Nat) : (d.wr f v u i j).resends = d.resends := rfl
@[simp] theorem Dev.wr_seams (f : Fld) (v u i j : Nat) : (d.wr f v u i j).seams = d.seams := rfl
@[simp] theorem Dev.wr_switch (f : Fld) (v u i j : Nat) : (d.wr f v u i j).switch = d.switch := rfl
@[simp] theorem Dev.wr_shadow (f : Fld) (v u i j : Nat) : (d.wr f v u i j).shadow = d.shadow := rfl
@[simp] theorem Dev.wr_partIn (f : Fld) (v u i j : Nat) : (d.wr f v u i j).partIn = d.partIn := rfl
@[simp] theorem Dev.wr_darnQ (f : Fld) (v u i j : Nat) : (d.wr f v u i j).darnQ = d.darnQ := rfl
@[simp] theorem Dev.wr_darnCmd (f : Fld) (v u i j : Nat) : (d.wr f v u i j).darnCmd = d.darnCmd := rfl
@[simp] theorem Dev.wr_commit (f : Fld) (v u i j : Nat) : (d.wr f v u i j).commit = d.commit := rfl
@[simp] theorem Dev.wr_darnLog (f : Fld) (v u i j : Nat) : (d.wr f v u i j).darnLog = d.darnLog := rfl
@[simp] theorem Dev.wr_boots (f : Fld) (v u i j : Nat) : (d.wr f v u i j).boots = d.boots := rfl
@[simp] theorem Dev.wr_ppr (f : Fld) (v u i j : Nat) : (d.wr f v u i j).ppr = d.ppr := rfl
@[simp] theorem Dev.wr_irqHold (f : Fld) (v u i j : Nat) : (d.wr f v u i j).irqHold = d.irqHold := rfl
@[simp] theorem Dev.wr_conns (f : Fld) (v u i j : Nat) : (d.wr f v u i j).conns = d.conns := rfl
@[simp] theorem Dev.wr_tenants (f : Fld) (v u i j : Nat) : (d.wr f v u i j).tenants = d.tenants := rfl
@[simp] theorem Dev.wr_probes (f : Fld) (v u i j : Nat) : (d.wr f v u i j).probes = d.probes := rfl
@[simp] theorem Dev.wr_pfcOn (f : Fld) (v u i j : Nat) : (d.wr f v u i j).pfcOn = d.pfcOn := rfl
@[simp] theorem Dev.wr_pfcHeld (f : Fld) (v u i j : Nat) : (d.wr f v u i j).pfcHeld = d.pfcHeld := rfl
@[simp] theorem Dev.wr_pfcSent (f : Fld) (v u i j : Nat) : (d.wr f v u i j).pfcSent = d.pfcSent := rfl
@[simp] theorem Dev.wr_nbrTtl (f : Fld) (v u i j : Nat) : (d.wr f v u i j).nbrTtl = d.nbrTtl := rfl
@[simp] theorem Dev.wr_sak (f : Fld) (v u i j : Nat) : (d.wr f v u i j).sak = d.sak := rfl
@[simp] theorem Dev.wr_secHigh (f : Fld) (v u i j : Nat) : (d.wr f v u i j).secHigh = d.secHigh := rfl
@[simp] theorem Dev.wr_ptp (f : Fld) (v u i j : Nat) : (d.wr f v u i j).ptp = d.ptp := rfl
@[simp] theorem Dev.wr_colls (f : Fld) (v u i j : Nat) : (d.wr f v u i j).colls = d.colls := rfl
@[simp] theorem Dev.wr_collN (f : Fld) (v u i j : Nat) : (d.wr f v u i j).collN = d.collN := rfl
@[simp] theorem Dev.wr_collQ (f : Fld) (v u i j : Nat) : (d.wr f v u i j).collQ = d.collQ := rfl
@[simp] theorem Dev.wr_exchs (f : Fld) (v u i j : Nat) : (d.wr f v u i j).exchs = d.exchs := rfl
@[simp] theorem Dev.wr_joinRecs (f : Fld) (v u i j : Nat) : (d.wr f v u i j).joinRecs = d.joinRecs := rfl
@[simp] theorem Dev.wr_joinRx (f : Fld) (v u i j : Nat) : (d.wr f v u i j).joinRx = d.joinRx := rfl
@[simp] theorem Dev.wr_rechecks (f : Fld) (v u i j : Nat) : (d.wr f v u i j).rechecks = d.rechecks := rfl
@[simp] theorem Dev.wr_departs (f : Fld) (v u i j : Nat) : (d.wr f v u i j).departs = d.departs := rfl
@[simp] theorem Dev.wr_recs (f : Fld) (v u i j : Nat) : (d.wr f v u i j).recs = d.recs := rfl
@[simp] theorem Dev.wr_heldRecs (f : Fld) (v u i j : Nat) : (d.wr f v u i j).heldRecs = d.heldRecs := rfl
@[simp] theorem Dev.wr_dropped (f : Fld) (v u i j : Nat) : (d.wr f v u i j).dropped = d.dropped := rfl
@[simp] theorem Dev.wr_ctrlDown (f : Fld) (v u i j : Nat) : (d.wr f v u i j).ctrlDown = d.ctrlDown := rfl
@[simp] theorem Dev.wr_ringLost (f : Fld) (v u i j : Nat) : (d.wr f v u i j).ringLost = d.ringLost := rfl
@[simp] theorem Dev.wr_ueHours (f : Fld) (v u i j : Nat) : (d.wr f v u i j).ueHours = d.ueHours := rfl
@[simp] theorem Dev.wr_vfWin (f : Fld) (v u i j : Nat) : (d.wr f v u i j).vfWin = d.vfWin := rfl
@[simp] theorem Dev.wr_hqs (f : Fld) (v u i j : Nat) : (d.wr f v u i j).hqs = d.hqs := rfl
@[simp] theorem Dev.wr_steps (f : Fld) (v u i j : Nat) : (d.wr f v u i j).steps = d.steps := rfl
@[simp] theorem Dev.wr_stepN (f : Fld) (v u i j : Nat) : (d.wr f v u i j).stepN = d.stepN := rfl
@[simp] theorem Dev.wr_chkQ (f : Fld) (v u i j : Nat) : (d.wr f v u i j).chkQ = d.chkQ := rfl
@[simp] theorem Dev.wr_chkSeq (f : Fld) (v u i j : Nat) : (d.wr f v u i j).chkSeq = d.chkSeq := rfl
@[simp] theorem Dev.wr_chkSkip (f : Fld) (v u i j : Nat) : (d.wr f v u i j).chkSkip = d.chkSkip := rfl
@[simp] theorem Dev.wr_chkRuns (f : Fld) (v u i j : Nat) : (d.wr f v u i j).chkRuns = d.chkRuns := rfl
@[simp] theorem Dev.wr_rehs (f : Fld) (v u i j : Nat) : (d.wr f v u i j).rehs = d.rehs := rfl
@[simp] theorem Dev.wr_rehLast (f : Fld) (v u i j : Nat) : (d.wr f v u i j).rehLast = d.rehLast := rfl
@[simp] theorem Dev.wr_armed (f : Fld) (v u i j : Nat) : (d.wr f v u i j).armed = d.armed := rfl
@[simp] theorem Dev.wr_imgRegs (f : Fld) (v u i j : Nat) : (d.wr f v u i j).imgRegs = d.imgRegs := rfl
@[simp] theorem Dev.wr_msix (f : Fld) (v u i j : Nat) : (d.wr f v u i j).msix = d.msix := rfl
@[simp] theorem Dev.wr_layerS (f : Fld) (v u i j : Nat) : (d.wr f v u i j).layerS = d.layerS := rfl
@[simp] theorem Dev.wr_frontS (f : Fld) (v u i j : Nat) : (d.wr f v u i j).frontS = d.frontS := rfl
@[simp] theorem Dev.wr_bgRun (f : Fld) (v u i j : Nat) : (d.wr f v u i j).bgRun = d.bgRun := rfl
@[simp] theorem Dev.wr_flowIdle (f : Fld) (v u i j : Nat) : (d.wr f v u i j).flowIdle = d.flowIdle := rfl
@[simp] theorem Dev.wr_heat (f : Fld) (v u i j : Nat) : (d.wr f v u i j).heat = d.heat := rfl
@[simp] theorem Dev.wr_cyc (f : Fld) (v u i j : Nat) : (d.wr f v u i j).cyc = d.cyc := rfl
@[simp] theorem Dev.wr_gov (f : Fld) (v u i j : Nat) : (d.wr f v u i j).gov = d.gov := rfl
@[simp] theorem Dev.wr_regLinks (f : Fld) (v u i j : Nat) : (d.wr f v u i j).regLinks = d.regLinks := rfl
@[simp] theorem Dev.wr_dvfs (f : Fld) (v u i j : Nat) : (d.wr f v u i j).dvfs = d.dvfs := rfl
@[simp] theorem Dev.wr_dvfsLast (f : Fld) (v u i j : Nat) : (d.wr f v u i j).dvfsLast = d.dvfsLast := rfl
@[simp] theorem Dev.wr_discharge (f : Fld) (v u i j : Nat) : (d.wr f v u i j).discharge = d.discharge := rfl
@[simp] theorem Dev.wr_trip (f : Fld) (v u i j : Nat) : (d.wr f v u i j).trip = d.trip := rfl
@[simp] theorem Dev.wr_drift (f : Fld) (v u i j : Nat) : (d.wr f v u i j).drift = d.drift := rfl
@[simp] theorem Dev.wr_stopped (f : Fld) (v u i j : Nat) : (d.wr f v u i j).stopped = d.stopped := rfl
@[simp] theorem Dev.wr_crst (f : Fld) (v u i j : Nat) : (d.wr f v u i j).crst = d.crst := rfl
@[simp] theorem Dev.wr_ringed (f : Fld) (v u i j : Nat) : (d.wr f v u i j).ringed = d.ringed := rfl
@[simp] theorem Dev.wr_part (f : Fld) (v u i j : Nat) : (d.wr f v u i j).part = d.part := rfl
@[simp] theorem Dev.wr_rbFuse (f : Fld) (v u i j : Nat) : (d.wr f v u i j).rbFuse = d.rbFuse := rfl
@[simp] theorem Dev.wr_flash (f : Fld) (v u i j : Nat) : (d.wr f v u i j).flash = d.flash := rfl
@[simp] theorem Dev.wr_image (f : Fld) (v u i j : Nat) : (d.wr f v u i j).image = d.image := rfl
@[simp] theorem Dev.wr_boot (f : Fld) (v u i j : Nat) : (d.wr f v u i j).boot = d.boot := rfl
@[simp] theorem Dev.wr_warm (f : Fld) (v u i j : Nat) : (d.wr f v u i j).warm = d.warm := rfl
@[simp] theorem Dev.wr_joins (f : Fld) (v u i j : Nat) : (d.wr f v u i j).joins = d.joins := rfl
@[simp] theorem Dev.wr_wear (f : Fld) (v u i j : Nat) : (d.wr f v u i j).wear = d.wear := rfl
@[simp] theorem Dev.wr_dieTest (f : Fld) (v u i j : Nat) : (d.wr f v u i j).dieTest = d.dieTest := rfl
@[simp] theorem Dev.wr_ident (f : Fld) (v u i j : Nat) : (d.wr f v u i j).ident = d.ident := rfl
@[simp] theorem Dev.wr_opts (f : Fld) (v u i j : Nat) : (d.wr f v u i j).opts = d.opts := rfl
@[simp] theorem Dev.wr_held (f : Fld) (v u i j : Nat) : (d.wr f v u i j).held = d.held := rfl
@[simp] theorem Dev.wr_capt (f : Fld) (v u i j : Nat) : (d.wr f v u i j).capt = d.capt := rfl
@[simp] theorem Dev.wr_anOn (f : Fld) (v u i j : Nat) : (d.wr f v u i j).anOn = d.anOn := rfl
@[simp] theorem Dev.wr_portsOff (f : Fld) (v u i j : Nat) : (d.wr f v u i j).portsOff = d.portsOff := rfl
@[simp] theorem Dev.wr_mgmt (f : Fld) (v u i j : Nat) : (d.wr f v u i j).mgmt = d.mgmt := rfl
@[simp] theorem Dev.wr_tap (f : Fld) (v u i j : Nat) : (d.wr f v u i j).tap = d.tap := rfl
@[simp] theorem Dev.wr_out (f : Fld) (v u i j : Nat) : (d.wr f v u i j).out = d.out := rfl
@[simp] theorem Dev.wr_now (f : Fld) (v u i j : Nat) : (d.wr f v u i j).now = d.now := rfl
@[simp] theorem Dev.wr_skew (f : Fld) (v u i j : Nat) : (d.wr f v u i j).skew = d.skew := rfl
@[simp] theorem Dev.wr_lone (f : Fld) (v u i j : Nat) : (d.wr f v u i j).lone = d.lone := rfl
@[simp] theorem Dev.wr_free (f : Fld) (v u i j : Nat) : (d.wr f v u i j).free = d.free := rfl

/-! ### Dev.rst -/

@[simp] theorem Dev.rst_mem (f : Fld) (u i j : Nat) : (d.rst f u i j).mem = d.mem := rfl
@[simp] theorem Dev.rst_badw (f : Fld) (u i j : Nat) : (d.rst f u i j).badw = d.badw := rfl
@[simp] theorem Dev.rst_blk (f : Fld) (u i j : Nat) : (d.rst f u i j).blk = d.blk := rfl
@[simp] theorem Dev.rst_slices (f : Fld) (u i j : Nat) : (d.rst f u i j).slices = d.slices := rfl
@[simp] theorem Dev.rst_caches (f : Fld) (u i j : Nat) : (d.rst f u i j).caches = d.caches := rfl
@[simp] theorem Dev.rst_lmem (f : Fld) (u i j : Nat) : (d.rst f u i j).lmem = d.lmem := rfl
@[simp] theorem Dev.rst_lue (f : Fld) (u i j : Nat) : (d.rst f u i j).lue = d.lue := rfl
@[simp] theorem Dev.rst_lce (f : Fld) (u i j : Nat) : (d.rst f u i j).lce = d.lce := rfl
@[simp] theorem Dev.rst_ceRun (f : Fld) (u i j : Nat) : (d.rst f u i j).ceRun = d.ceRun := rfl
@[simp] theorem Dev.rst_imem (f : Fld) (u i j : Nat) : (d.rst f u i j).imem = d.imem := rfl
@[simp] theorem Dev.rst_cores (f : Fld) (u i j : Nat) : (d.rst f u i j).cores = d.cores := rfl
@[simp] theorem Dev.rst_curtains (f : Fld) (u i j : Nat) : (d.rst f u i j).curtains = d.curtains := rfl
@[simp] theorem Dev.rst_cueOps (f : Fld) (u i j : Nat) : (d.rst f u i j).cueOps = d.cueOps := rfl
@[simp] theorem Dev.rst_waiters (f : Fld) (u i j : Nat) : (d.rst f u i j).waiters = d.waiters := rfl
@[simp] theorem Dev.rst_barrCores (f : Fld) (u i j : Nat) : (d.rst f u i j).barrCores = d.barrCores := rfl
@[simp] theorem Dev.rst_barrCls (f : Fld) (u i j : Nat) : (d.rst f u i j).barrCls = d.barrCls := rfl
@[simp] theorem Dev.rst_linkRet (f : Fld) (u i j : Nat) : (d.rst f u i j).linkRet = d.linkRet := rfl
@[simp] theorem Dev.rst_resends (f : Fld) (u i j : Nat) : (d.rst f u i j).resends = d.resends := rfl
@[simp] theorem Dev.rst_seams (f : Fld) (u i j : Nat) : (d.rst f u i j).seams = d.seams := rfl
@[simp] theorem Dev.rst_switch (f : Fld) (u i j : Nat) : (d.rst f u i j).switch = d.switch := rfl
@[simp] theorem Dev.rst_shadow (f : Fld) (u i j : Nat) : (d.rst f u i j).shadow = d.shadow := rfl
@[simp] theorem Dev.rst_partIn (f : Fld) (u i j : Nat) : (d.rst f u i j).partIn = d.partIn := rfl
@[simp] theorem Dev.rst_darnQ (f : Fld) (u i j : Nat) : (d.rst f u i j).darnQ = d.darnQ := rfl
@[simp] theorem Dev.rst_darnCmd (f : Fld) (u i j : Nat) : (d.rst f u i j).darnCmd = d.darnCmd := rfl
@[simp] theorem Dev.rst_commit (f : Fld) (u i j : Nat) : (d.rst f u i j).commit = d.commit := rfl
@[simp] theorem Dev.rst_darnLog (f : Fld) (u i j : Nat) : (d.rst f u i j).darnLog = d.darnLog := rfl
@[simp] theorem Dev.rst_boots (f : Fld) (u i j : Nat) : (d.rst f u i j).boots = d.boots := rfl
@[simp] theorem Dev.rst_ppr (f : Fld) (u i j : Nat) : (d.rst f u i j).ppr = d.ppr := rfl
@[simp] theorem Dev.rst_irqHold (f : Fld) (u i j : Nat) : (d.rst f u i j).irqHold = d.irqHold := rfl
@[simp] theorem Dev.rst_conns (f : Fld) (u i j : Nat) : (d.rst f u i j).conns = d.conns := rfl
@[simp] theorem Dev.rst_tenants (f : Fld) (u i j : Nat) : (d.rst f u i j).tenants = d.tenants := rfl
@[simp] theorem Dev.rst_probes (f : Fld) (u i j : Nat) : (d.rst f u i j).probes = d.probes := rfl
@[simp] theorem Dev.rst_pfcOn (f : Fld) (u i j : Nat) : (d.rst f u i j).pfcOn = d.pfcOn := rfl
@[simp] theorem Dev.rst_pfcHeld (f : Fld) (u i j : Nat) : (d.rst f u i j).pfcHeld = d.pfcHeld := rfl
@[simp] theorem Dev.rst_pfcSent (f : Fld) (u i j : Nat) : (d.rst f u i j).pfcSent = d.pfcSent := rfl
@[simp] theorem Dev.rst_nbrTtl (f : Fld) (u i j : Nat) : (d.rst f u i j).nbrTtl = d.nbrTtl := rfl
@[simp] theorem Dev.rst_sak (f : Fld) (u i j : Nat) : (d.rst f u i j).sak = d.sak := rfl
@[simp] theorem Dev.rst_secHigh (f : Fld) (u i j : Nat) : (d.rst f u i j).secHigh = d.secHigh := rfl
@[simp] theorem Dev.rst_ptp (f : Fld) (u i j : Nat) : (d.rst f u i j).ptp = d.ptp := rfl
@[simp] theorem Dev.rst_colls (f : Fld) (u i j : Nat) : (d.rst f u i j).colls = d.colls := rfl
@[simp] theorem Dev.rst_collN (f : Fld) (u i j : Nat) : (d.rst f u i j).collN = d.collN := rfl
@[simp] theorem Dev.rst_collQ (f : Fld) (u i j : Nat) : (d.rst f u i j).collQ = d.collQ := rfl
@[simp] theorem Dev.rst_exchs (f : Fld) (u i j : Nat) : (d.rst f u i j).exchs = d.exchs := rfl
@[simp] theorem Dev.rst_joinRecs (f : Fld) (u i j : Nat) : (d.rst f u i j).joinRecs = d.joinRecs := rfl
@[simp] theorem Dev.rst_joinRx (f : Fld) (u i j : Nat) : (d.rst f u i j).joinRx = d.joinRx := rfl
@[simp] theorem Dev.rst_rechecks (f : Fld) (u i j : Nat) : (d.rst f u i j).rechecks = d.rechecks := rfl
@[simp] theorem Dev.rst_departs (f : Fld) (u i j : Nat) : (d.rst f u i j).departs = d.departs := rfl
@[simp] theorem Dev.rst_recs (f : Fld) (u i j : Nat) : (d.rst f u i j).recs = d.recs := rfl
@[simp] theorem Dev.rst_heldRecs (f : Fld) (u i j : Nat) : (d.rst f u i j).heldRecs = d.heldRecs := rfl
@[simp] theorem Dev.rst_dropped (f : Fld) (u i j : Nat) : (d.rst f u i j).dropped = d.dropped := rfl
@[simp] theorem Dev.rst_ctrlDown (f : Fld) (u i j : Nat) : (d.rst f u i j).ctrlDown = d.ctrlDown := rfl
@[simp] theorem Dev.rst_ringLost (f : Fld) (u i j : Nat) : (d.rst f u i j).ringLost = d.ringLost := rfl
@[simp] theorem Dev.rst_ueHours (f : Fld) (u i j : Nat) : (d.rst f u i j).ueHours = d.ueHours := rfl
@[simp] theorem Dev.rst_vfWin (f : Fld) (u i j : Nat) : (d.rst f u i j).vfWin = d.vfWin := rfl
@[simp] theorem Dev.rst_hqs (f : Fld) (u i j : Nat) : (d.rst f u i j).hqs = d.hqs := rfl
@[simp] theorem Dev.rst_steps (f : Fld) (u i j : Nat) : (d.rst f u i j).steps = d.steps := rfl
@[simp] theorem Dev.rst_stepN (f : Fld) (u i j : Nat) : (d.rst f u i j).stepN = d.stepN := rfl
@[simp] theorem Dev.rst_chkQ (f : Fld) (u i j : Nat) : (d.rst f u i j).chkQ = d.chkQ := rfl
@[simp] theorem Dev.rst_chkSeq (f : Fld) (u i j : Nat) : (d.rst f u i j).chkSeq = d.chkSeq := rfl
@[simp] theorem Dev.rst_chkSkip (f : Fld) (u i j : Nat) : (d.rst f u i j).chkSkip = d.chkSkip := rfl
@[simp] theorem Dev.rst_chkRuns (f : Fld) (u i j : Nat) : (d.rst f u i j).chkRuns = d.chkRuns := rfl
@[simp] theorem Dev.rst_rehs (f : Fld) (u i j : Nat) : (d.rst f u i j).rehs = d.rehs := rfl
@[simp] theorem Dev.rst_rehLast (f : Fld) (u i j : Nat) : (d.rst f u i j).rehLast = d.rehLast := rfl
@[simp] theorem Dev.rst_armed (f : Fld) (u i j : Nat) : (d.rst f u i j).armed = d.armed := rfl
@[simp] theorem Dev.rst_imgRegs (f : Fld) (u i j : Nat) : (d.rst f u i j).imgRegs = d.imgRegs := rfl
@[simp] theorem Dev.rst_msix (f : Fld) (u i j : Nat) : (d.rst f u i j).msix = d.msix := rfl
@[simp] theorem Dev.rst_layerS (f : Fld) (u i j : Nat) : (d.rst f u i j).layerS = d.layerS := rfl
@[simp] theorem Dev.rst_frontS (f : Fld) (u i j : Nat) : (d.rst f u i j).frontS = d.frontS := rfl
@[simp] theorem Dev.rst_bgRun (f : Fld) (u i j : Nat) : (d.rst f u i j).bgRun = d.bgRun := rfl
@[simp] theorem Dev.rst_flowIdle (f : Fld) (u i j : Nat) : (d.rst f u i j).flowIdle = d.flowIdle := rfl
@[simp] theorem Dev.rst_heat (f : Fld) (u i j : Nat) : (d.rst f u i j).heat = d.heat := rfl
@[simp] theorem Dev.rst_cyc (f : Fld) (u i j : Nat) : (d.rst f u i j).cyc = d.cyc := rfl
@[simp] theorem Dev.rst_gov (f : Fld) (u i j : Nat) : (d.rst f u i j).gov = d.gov := rfl
@[simp] theorem Dev.rst_regLinks (f : Fld) (u i j : Nat) : (d.rst f u i j).regLinks = d.regLinks := rfl
@[simp] theorem Dev.rst_dvfs (f : Fld) (u i j : Nat) : (d.rst f u i j).dvfs = d.dvfs := rfl
@[simp] theorem Dev.rst_dvfsLast (f : Fld) (u i j : Nat) : (d.rst f u i j).dvfsLast = d.dvfsLast := rfl
@[simp] theorem Dev.rst_discharge (f : Fld) (u i j : Nat) : (d.rst f u i j).discharge = d.discharge := rfl
@[simp] theorem Dev.rst_trip (f : Fld) (u i j : Nat) : (d.rst f u i j).trip = d.trip := rfl
@[simp] theorem Dev.rst_drift (f : Fld) (u i j : Nat) : (d.rst f u i j).drift = d.drift := rfl
@[simp] theorem Dev.rst_stopped (f : Fld) (u i j : Nat) : (d.rst f u i j).stopped = d.stopped := rfl
@[simp] theorem Dev.rst_crst (f : Fld) (u i j : Nat) : (d.rst f u i j).crst = d.crst := rfl
@[simp] theorem Dev.rst_ringed (f : Fld) (u i j : Nat) : (d.rst f u i j).ringed = d.ringed := rfl
@[simp] theorem Dev.rst_part (f : Fld) (u i j : Nat) : (d.rst f u i j).part = d.part := rfl
@[simp] theorem Dev.rst_rbFuse (f : Fld) (u i j : Nat) : (d.rst f u i j).rbFuse = d.rbFuse := rfl
@[simp] theorem Dev.rst_flash (f : Fld) (u i j : Nat) : (d.rst f u i j).flash = d.flash := rfl
@[simp] theorem Dev.rst_image (f : Fld) (u i j : Nat) : (d.rst f u i j).image = d.image := rfl
@[simp] theorem Dev.rst_boot (f : Fld) (u i j : Nat) : (d.rst f u i j).boot = d.boot := rfl
@[simp] theorem Dev.rst_warm (f : Fld) (u i j : Nat) : (d.rst f u i j).warm = d.warm := rfl
@[simp] theorem Dev.rst_joins (f : Fld) (u i j : Nat) : (d.rst f u i j).joins = d.joins := rfl
@[simp] theorem Dev.rst_wear (f : Fld) (u i j : Nat) : (d.rst f u i j).wear = d.wear := rfl
@[simp] theorem Dev.rst_dieTest (f : Fld) (u i j : Nat) : (d.rst f u i j).dieTest = d.dieTest := rfl
@[simp] theorem Dev.rst_ident (f : Fld) (u i j : Nat) : (d.rst f u i j).ident = d.ident := rfl
@[simp] theorem Dev.rst_opts (f : Fld) (u i j : Nat) : (d.rst f u i j).opts = d.opts := rfl
@[simp] theorem Dev.rst_held (f : Fld) (u i j : Nat) : (d.rst f u i j).held = d.held := rfl
@[simp] theorem Dev.rst_capt (f : Fld) (u i j : Nat) : (d.rst f u i j).capt = d.capt := rfl
@[simp] theorem Dev.rst_anOn (f : Fld) (u i j : Nat) : (d.rst f u i j).anOn = d.anOn := rfl
@[simp] theorem Dev.rst_portsOff (f : Fld) (u i j : Nat) : (d.rst f u i j).portsOff = d.portsOff := rfl
@[simp] theorem Dev.rst_mgmt (f : Fld) (u i j : Nat) : (d.rst f u i j).mgmt = d.mgmt := rfl
@[simp] theorem Dev.rst_tap (f : Fld) (u i j : Nat) : (d.rst f u i j).tap = d.tap := rfl
@[simp] theorem Dev.rst_out (f : Fld) (u i j : Nat) : (d.rst f u i j).out = d.out := rfl
@[simp] theorem Dev.rst_now (f : Fld) (u i j : Nat) : (d.rst f u i j).now = d.now := rfl
@[simp] theorem Dev.rst_skew (f : Fld) (u i j : Nat) : (d.rst f u i j).skew = d.skew := rfl
@[simp] theorem Dev.rst_lone (f : Fld) (u i j : Nat) : (d.rst f u i j).lone = d.lone := rfl
@[simp] theorem Dev.rst_free (f : Fld) (u i j : Nat) : (d.rst f u i j).free = d.free := rfl

/-! ### Dev.updCore -/

@[simp] theorem Dev.updCore_regs (c : Nat) (f : CoreSt → CoreSt) : (d.updCore c f).regs = d.regs := rfl
@[simp] theorem Dev.updCore_mem (c : Nat) (f : CoreSt → CoreSt) : (d.updCore c f).mem = d.mem := rfl
@[simp] theorem Dev.updCore_badw (c : Nat) (f : CoreSt → CoreSt) : (d.updCore c f).badw = d.badw := rfl
@[simp] theorem Dev.updCore_blk (c : Nat) (f : CoreSt → CoreSt) : (d.updCore c f).blk = d.blk := rfl
@[simp] theorem Dev.updCore_slices (c : Nat) (f : CoreSt → CoreSt) : (d.updCore c f).slices = d.slices := rfl
@[simp] theorem Dev.updCore_caches (c : Nat) (f : CoreSt → CoreSt) : (d.updCore c f).caches = d.caches := rfl
@[simp] theorem Dev.updCore_lmem (c : Nat) (f : CoreSt → CoreSt) : (d.updCore c f).lmem = d.lmem := rfl
@[simp] theorem Dev.updCore_lue (c : Nat) (f : CoreSt → CoreSt) : (d.updCore c f).lue = d.lue := rfl
@[simp] theorem Dev.updCore_lce (c : Nat) (f : CoreSt → CoreSt) : (d.updCore c f).lce = d.lce := rfl
@[simp] theorem Dev.updCore_ceRun (c : Nat) (f : CoreSt → CoreSt) : (d.updCore c f).ceRun = d.ceRun := rfl
@[simp] theorem Dev.updCore_imem (c : Nat) (f : CoreSt → CoreSt) : (d.updCore c f).imem = d.imem := rfl
@[simp] theorem Dev.updCore_curtains (c : Nat) (f : CoreSt → CoreSt) : (d.updCore c f).curtains = d.curtains := rfl
@[simp] theorem Dev.updCore_cueOps (c : Nat) (f : CoreSt → CoreSt) : (d.updCore c f).cueOps = d.cueOps := rfl
@[simp] theorem Dev.updCore_waiters (c : Nat) (f : CoreSt → CoreSt) : (d.updCore c f).waiters = d.waiters := rfl
@[simp] theorem Dev.updCore_barrCores (c : Nat) (f : CoreSt → CoreSt) : (d.updCore c f).barrCores = d.barrCores := rfl
@[simp] theorem Dev.updCore_barrCls (c : Nat) (f : CoreSt → CoreSt) : (d.updCore c f).barrCls = d.barrCls := rfl
@[simp] theorem Dev.updCore_linkRet (c : Nat) (f : CoreSt → CoreSt) : (d.updCore c f).linkRet = d.linkRet := rfl
@[simp] theorem Dev.updCore_resends (c : Nat) (f : CoreSt → CoreSt) : (d.updCore c f).resends = d.resends := rfl
@[simp] theorem Dev.updCore_seams (c : Nat) (f : CoreSt → CoreSt) : (d.updCore c f).seams = d.seams := rfl
@[simp] theorem Dev.updCore_switch (c : Nat) (f : CoreSt → CoreSt) : (d.updCore c f).switch = d.switch := rfl
@[simp] theorem Dev.updCore_shadow (c : Nat) (f : CoreSt → CoreSt) : (d.updCore c f).shadow = d.shadow := rfl
@[simp] theorem Dev.updCore_partIn (c : Nat) (f : CoreSt → CoreSt) : (d.updCore c f).partIn = d.partIn := rfl
@[simp] theorem Dev.updCore_darnQ (c : Nat) (f : CoreSt → CoreSt) : (d.updCore c f).darnQ = d.darnQ := rfl
@[simp] theorem Dev.updCore_darnCmd (c : Nat) (f : CoreSt → CoreSt) : (d.updCore c f).darnCmd = d.darnCmd := rfl
@[simp] theorem Dev.updCore_commit (c : Nat) (f : CoreSt → CoreSt) : (d.updCore c f).commit = d.commit := rfl
@[simp] theorem Dev.updCore_darnLog (c : Nat) (f : CoreSt → CoreSt) : (d.updCore c f).darnLog = d.darnLog := rfl
@[simp] theorem Dev.updCore_boots (c : Nat) (f : CoreSt → CoreSt) : (d.updCore c f).boots = d.boots := rfl
@[simp] theorem Dev.updCore_ppr (c : Nat) (f : CoreSt → CoreSt) : (d.updCore c f).ppr = d.ppr := rfl
@[simp] theorem Dev.updCore_irqHold (c : Nat) (f : CoreSt → CoreSt) : (d.updCore c f).irqHold = d.irqHold := rfl
@[simp] theorem Dev.updCore_conns (c : Nat) (f : CoreSt → CoreSt) : (d.updCore c f).conns = d.conns := rfl
@[simp] theorem Dev.updCore_tenants (c : Nat) (f : CoreSt → CoreSt) : (d.updCore c f).tenants = d.tenants := rfl
@[simp] theorem Dev.updCore_probes (c : Nat) (f : CoreSt → CoreSt) : (d.updCore c f).probes = d.probes := rfl
@[simp] theorem Dev.updCore_pfcOn (c : Nat) (f : CoreSt → CoreSt) : (d.updCore c f).pfcOn = d.pfcOn := rfl
@[simp] theorem Dev.updCore_pfcHeld (c : Nat) (f : CoreSt → CoreSt) : (d.updCore c f).pfcHeld = d.pfcHeld := rfl
@[simp] theorem Dev.updCore_pfcSent (c : Nat) (f : CoreSt → CoreSt) : (d.updCore c f).pfcSent = d.pfcSent := rfl
@[simp] theorem Dev.updCore_nbrTtl (c : Nat) (f : CoreSt → CoreSt) : (d.updCore c f).nbrTtl = d.nbrTtl := rfl
@[simp] theorem Dev.updCore_sak (c : Nat) (f : CoreSt → CoreSt) : (d.updCore c f).sak = d.sak := rfl
@[simp] theorem Dev.updCore_secHigh (c : Nat) (f : CoreSt → CoreSt) : (d.updCore c f).secHigh = d.secHigh := rfl
@[simp] theorem Dev.updCore_ptp (c : Nat) (f : CoreSt → CoreSt) : (d.updCore c f).ptp = d.ptp := rfl
@[simp] theorem Dev.updCore_colls (c : Nat) (f : CoreSt → CoreSt) : (d.updCore c f).colls = d.colls := rfl
@[simp] theorem Dev.updCore_collN (c : Nat) (f : CoreSt → CoreSt) : (d.updCore c f).collN = d.collN := rfl
@[simp] theorem Dev.updCore_collQ (c : Nat) (f : CoreSt → CoreSt) : (d.updCore c f).collQ = d.collQ := rfl
@[simp] theorem Dev.updCore_exchs (c : Nat) (f : CoreSt → CoreSt) : (d.updCore c f).exchs = d.exchs := rfl
@[simp] theorem Dev.updCore_joinRecs (c : Nat) (f : CoreSt → CoreSt) : (d.updCore c f).joinRecs = d.joinRecs := rfl
@[simp] theorem Dev.updCore_joinRx (c : Nat) (f : CoreSt → CoreSt) : (d.updCore c f).joinRx = d.joinRx := rfl
@[simp] theorem Dev.updCore_rechecks (c : Nat) (f : CoreSt → CoreSt) : (d.updCore c f).rechecks = d.rechecks := rfl
@[simp] theorem Dev.updCore_departs (c : Nat) (f : CoreSt → CoreSt) : (d.updCore c f).departs = d.departs := rfl
@[simp] theorem Dev.updCore_recs (c : Nat) (f : CoreSt → CoreSt) : (d.updCore c f).recs = d.recs := rfl
@[simp] theorem Dev.updCore_heldRecs (c : Nat) (f : CoreSt → CoreSt) : (d.updCore c f).heldRecs = d.heldRecs := rfl
@[simp] theorem Dev.updCore_dropped (c : Nat) (f : CoreSt → CoreSt) : (d.updCore c f).dropped = d.dropped := rfl
@[simp] theorem Dev.updCore_ctrlDown (c : Nat) (f : CoreSt → CoreSt) : (d.updCore c f).ctrlDown = d.ctrlDown := rfl
@[simp] theorem Dev.updCore_ringLost (c : Nat) (f : CoreSt → CoreSt) : (d.updCore c f).ringLost = d.ringLost := rfl
@[simp] theorem Dev.updCore_ueHours (c : Nat) (f : CoreSt → CoreSt) : (d.updCore c f).ueHours = d.ueHours := rfl
@[simp] theorem Dev.updCore_vfWin (c : Nat) (f : CoreSt → CoreSt) : (d.updCore c f).vfWin = d.vfWin := rfl
@[simp] theorem Dev.updCore_hqs (c : Nat) (f : CoreSt → CoreSt) : (d.updCore c f).hqs = d.hqs := rfl
@[simp] theorem Dev.updCore_steps (c : Nat) (f : CoreSt → CoreSt) : (d.updCore c f).steps = d.steps := rfl
@[simp] theorem Dev.updCore_stepN (c : Nat) (f : CoreSt → CoreSt) : (d.updCore c f).stepN = d.stepN := rfl
@[simp] theorem Dev.updCore_chkQ (c : Nat) (f : CoreSt → CoreSt) : (d.updCore c f).chkQ = d.chkQ := rfl
@[simp] theorem Dev.updCore_chkSeq (c : Nat) (f : CoreSt → CoreSt) : (d.updCore c f).chkSeq = d.chkSeq := rfl
@[simp] theorem Dev.updCore_chkSkip (c : Nat) (f : CoreSt → CoreSt) : (d.updCore c f).chkSkip = d.chkSkip := rfl
@[simp] theorem Dev.updCore_chkRuns (c : Nat) (f : CoreSt → CoreSt) : (d.updCore c f).chkRuns = d.chkRuns := rfl
@[simp] theorem Dev.updCore_rehs (c : Nat) (f : CoreSt → CoreSt) : (d.updCore c f).rehs = d.rehs := rfl
@[simp] theorem Dev.updCore_rehLast (c : Nat) (f : CoreSt → CoreSt) : (d.updCore c f).rehLast = d.rehLast := rfl
@[simp] theorem Dev.updCore_armed (c : Nat) (f : CoreSt → CoreSt) : (d.updCore c f).armed = d.armed := rfl
@[simp] theorem Dev.updCore_imgRegs (c : Nat) (f : CoreSt → CoreSt) : (d.updCore c f).imgRegs = d.imgRegs := rfl
@[simp] theorem Dev.updCore_msix (c : Nat) (f : CoreSt → CoreSt) : (d.updCore c f).msix = d.msix := rfl
@[simp] theorem Dev.updCore_layerS (c : Nat) (f : CoreSt → CoreSt) : (d.updCore c f).layerS = d.layerS := rfl
@[simp] theorem Dev.updCore_frontS (c : Nat) (f : CoreSt → CoreSt) : (d.updCore c f).frontS = d.frontS := rfl
@[simp] theorem Dev.updCore_bgRun (c : Nat) (f : CoreSt → CoreSt) : (d.updCore c f).bgRun = d.bgRun := rfl
@[simp] theorem Dev.updCore_flowIdle (c : Nat) (f : CoreSt → CoreSt) : (d.updCore c f).flowIdle = d.flowIdle := rfl
@[simp] theorem Dev.updCore_heat (c : Nat) (f : CoreSt → CoreSt) : (d.updCore c f).heat = d.heat := rfl
@[simp] theorem Dev.updCore_cyc (c : Nat) (f : CoreSt → CoreSt) : (d.updCore c f).cyc = d.cyc := rfl
@[simp] theorem Dev.updCore_gov (c : Nat) (f : CoreSt → CoreSt) : (d.updCore c f).gov = d.gov := rfl
@[simp] theorem Dev.updCore_regLinks (c : Nat) (f : CoreSt → CoreSt) : (d.updCore c f).regLinks = d.regLinks := rfl
@[simp] theorem Dev.updCore_dvfs (c : Nat) (f : CoreSt → CoreSt) : (d.updCore c f).dvfs = d.dvfs := rfl
@[simp] theorem Dev.updCore_dvfsLast (c : Nat) (f : CoreSt → CoreSt) : (d.updCore c f).dvfsLast = d.dvfsLast := rfl
@[simp] theorem Dev.updCore_discharge (c : Nat) (f : CoreSt → CoreSt) : (d.updCore c f).discharge = d.discharge := rfl
@[simp] theorem Dev.updCore_trip (c : Nat) (f : CoreSt → CoreSt) : (d.updCore c f).trip = d.trip := rfl
@[simp] theorem Dev.updCore_drift (c : Nat) (f : CoreSt → CoreSt) : (d.updCore c f).drift = d.drift := rfl
@[simp] theorem Dev.updCore_stopped (c : Nat) (f : CoreSt → CoreSt) : (d.updCore c f).stopped = d.stopped := rfl
@[simp] theorem Dev.updCore_crst (c : Nat) (f : CoreSt → CoreSt) : (d.updCore c f).crst = d.crst := rfl
@[simp] theorem Dev.updCore_ringed (c : Nat) (f : CoreSt → CoreSt) : (d.updCore c f).ringed = d.ringed := rfl
@[simp] theorem Dev.updCore_part (c : Nat) (f : CoreSt → CoreSt) : (d.updCore c f).part = d.part := rfl
@[simp] theorem Dev.updCore_rbFuse (c : Nat) (f : CoreSt → CoreSt) : (d.updCore c f).rbFuse = d.rbFuse := rfl
@[simp] theorem Dev.updCore_flash (c : Nat) (f : CoreSt → CoreSt) : (d.updCore c f).flash = d.flash := rfl
@[simp] theorem Dev.updCore_image (c : Nat) (f : CoreSt → CoreSt) : (d.updCore c f).image = d.image := rfl
@[simp] theorem Dev.updCore_boot (c : Nat) (f : CoreSt → CoreSt) : (d.updCore c f).boot = d.boot := rfl
@[simp] theorem Dev.updCore_warm (c : Nat) (f : CoreSt → CoreSt) : (d.updCore c f).warm = d.warm := rfl
@[simp] theorem Dev.updCore_joins (c : Nat) (f : CoreSt → CoreSt) : (d.updCore c f).joins = d.joins := rfl
@[simp] theorem Dev.updCore_wear (c : Nat) (f : CoreSt → CoreSt) : (d.updCore c f).wear = d.wear := rfl
@[simp] theorem Dev.updCore_dieTest (c : Nat) (f : CoreSt → CoreSt) : (d.updCore c f).dieTest = d.dieTest := rfl
@[simp] theorem Dev.updCore_ident (c : Nat) (f : CoreSt → CoreSt) : (d.updCore c f).ident = d.ident := rfl
@[simp] theorem Dev.updCore_opts (c : Nat) (f : CoreSt → CoreSt) : (d.updCore c f).opts = d.opts := rfl
@[simp] theorem Dev.updCore_held (c : Nat) (f : CoreSt → CoreSt) : (d.updCore c f).held = d.held := rfl
@[simp] theorem Dev.updCore_capt (c : Nat) (f : CoreSt → CoreSt) : (d.updCore c f).capt = d.capt := rfl
@[simp] theorem Dev.updCore_anOn (c : Nat) (f : CoreSt → CoreSt) : (d.updCore c f).anOn = d.anOn := rfl
@[simp] theorem Dev.updCore_portsOff (c : Nat) (f : CoreSt → CoreSt) : (d.updCore c f).portsOff = d.portsOff := rfl
@[simp] theorem Dev.updCore_mgmt (c : Nat) (f : CoreSt → CoreSt) : (d.updCore c f).mgmt = d.mgmt := rfl
@[simp] theorem Dev.updCore_tap (c : Nat) (f : CoreSt → CoreSt) : (d.updCore c f).tap = d.tap := rfl
@[simp] theorem Dev.updCore_out (c : Nat) (f : CoreSt → CoreSt) : (d.updCore c f).out = d.out := rfl
@[simp] theorem Dev.updCore_now (c : Nat) (f : CoreSt → CoreSt) : (d.updCore c f).now = d.now := rfl
@[simp] theorem Dev.updCore_skew (c : Nat) (f : CoreSt → CoreSt) : (d.updCore c f).skew = d.skew := rfl
@[simp] theorem Dev.updCore_lone (c : Nat) (f : CoreSt → CoreSt) : (d.updCore c f).lone = d.lone := rfl
@[simp] theorem Dev.updCore_free (c : Nat) (f : CoreSt → CoreSt) : (d.updCore c f).free = d.free := rfl

/-! ### Dev.emit -/

@[simp] theorem Dev.emit_regs (o : Output) : (d.emit o).regs = d.regs := rfl
@[simp] theorem Dev.emit_mem (o : Output) : (d.emit o).mem = d.mem := rfl
@[simp] theorem Dev.emit_badw (o : Output) : (d.emit o).badw = d.badw := rfl
@[simp] theorem Dev.emit_blk (o : Output) : (d.emit o).blk = d.blk := rfl
@[simp] theorem Dev.emit_slices (o : Output) : (d.emit o).slices = d.slices := rfl
@[simp] theorem Dev.emit_caches (o : Output) : (d.emit o).caches = d.caches := rfl
@[simp] theorem Dev.emit_lmem (o : Output) : (d.emit o).lmem = d.lmem := rfl
@[simp] theorem Dev.emit_lue (o : Output) : (d.emit o).lue = d.lue := rfl
@[simp] theorem Dev.emit_lce (o : Output) : (d.emit o).lce = d.lce := rfl
@[simp] theorem Dev.emit_ceRun (o : Output) : (d.emit o).ceRun = d.ceRun := rfl
@[simp] theorem Dev.emit_imem (o : Output) : (d.emit o).imem = d.imem := rfl
@[simp] theorem Dev.emit_cores (o : Output) : (d.emit o).cores = d.cores := rfl
@[simp] theorem Dev.emit_curtains (o : Output) : (d.emit o).curtains = d.curtains := rfl
@[simp] theorem Dev.emit_cueOps (o : Output) : (d.emit o).cueOps = d.cueOps := rfl
@[simp] theorem Dev.emit_waiters (o : Output) : (d.emit o).waiters = d.waiters := rfl
@[simp] theorem Dev.emit_barrCores (o : Output) : (d.emit o).barrCores = d.barrCores := rfl
@[simp] theorem Dev.emit_barrCls (o : Output) : (d.emit o).barrCls = d.barrCls := rfl
@[simp] theorem Dev.emit_linkRet (o : Output) : (d.emit o).linkRet = d.linkRet := rfl
@[simp] theorem Dev.emit_resends (o : Output) : (d.emit o).resends = d.resends := rfl
@[simp] theorem Dev.emit_seams (o : Output) : (d.emit o).seams = d.seams := rfl
@[simp] theorem Dev.emit_switch (o : Output) : (d.emit o).switch = d.switch := rfl
@[simp] theorem Dev.emit_shadow (o : Output) : (d.emit o).shadow = d.shadow := rfl
@[simp] theorem Dev.emit_partIn (o : Output) : (d.emit o).partIn = d.partIn := rfl
@[simp] theorem Dev.emit_darnQ (o : Output) : (d.emit o).darnQ = d.darnQ := rfl
@[simp] theorem Dev.emit_darnCmd (o : Output) : (d.emit o).darnCmd = d.darnCmd := rfl
@[simp] theorem Dev.emit_commit (o : Output) : (d.emit o).commit = d.commit := rfl
@[simp] theorem Dev.emit_darnLog (o : Output) : (d.emit o).darnLog = d.darnLog := rfl
@[simp] theorem Dev.emit_boots (o : Output) : (d.emit o).boots = d.boots := rfl
@[simp] theorem Dev.emit_ppr (o : Output) : (d.emit o).ppr = d.ppr := rfl
@[simp] theorem Dev.emit_irqHold (o : Output) : (d.emit o).irqHold = d.irqHold := rfl
@[simp] theorem Dev.emit_conns (o : Output) : (d.emit o).conns = d.conns := rfl
@[simp] theorem Dev.emit_tenants (o : Output) : (d.emit o).tenants = d.tenants := rfl
@[simp] theorem Dev.emit_probes (o : Output) : (d.emit o).probes = d.probes := rfl
@[simp] theorem Dev.emit_pfcOn (o : Output) : (d.emit o).pfcOn = d.pfcOn := rfl
@[simp] theorem Dev.emit_pfcHeld (o : Output) : (d.emit o).pfcHeld = d.pfcHeld := rfl
@[simp] theorem Dev.emit_pfcSent (o : Output) : (d.emit o).pfcSent = d.pfcSent := rfl
@[simp] theorem Dev.emit_nbrTtl (o : Output) : (d.emit o).nbrTtl = d.nbrTtl := rfl
@[simp] theorem Dev.emit_sak (o : Output) : (d.emit o).sak = d.sak := rfl
@[simp] theorem Dev.emit_secHigh (o : Output) : (d.emit o).secHigh = d.secHigh := rfl
@[simp] theorem Dev.emit_ptp (o : Output) : (d.emit o).ptp = d.ptp := rfl
@[simp] theorem Dev.emit_colls (o : Output) : (d.emit o).colls = d.colls := rfl
@[simp] theorem Dev.emit_collN (o : Output) : (d.emit o).collN = d.collN := rfl
@[simp] theorem Dev.emit_collQ (o : Output) : (d.emit o).collQ = d.collQ := rfl
@[simp] theorem Dev.emit_exchs (o : Output) : (d.emit o).exchs = d.exchs := rfl
@[simp] theorem Dev.emit_joinRecs (o : Output) : (d.emit o).joinRecs = d.joinRecs := rfl
@[simp] theorem Dev.emit_joinRx (o : Output) : (d.emit o).joinRx = d.joinRx := rfl
@[simp] theorem Dev.emit_rechecks (o : Output) : (d.emit o).rechecks = d.rechecks := rfl
@[simp] theorem Dev.emit_departs (o : Output) : (d.emit o).departs = d.departs := rfl
@[simp] theorem Dev.emit_recs (o : Output) : (d.emit o).recs = d.recs := rfl
@[simp] theorem Dev.emit_heldRecs (o : Output) : (d.emit o).heldRecs = d.heldRecs := rfl
@[simp] theorem Dev.emit_dropped (o : Output) : (d.emit o).dropped = d.dropped := rfl
@[simp] theorem Dev.emit_ctrlDown (o : Output) : (d.emit o).ctrlDown = d.ctrlDown := rfl
@[simp] theorem Dev.emit_ringLost (o : Output) : (d.emit o).ringLost = d.ringLost := rfl
@[simp] theorem Dev.emit_ueHours (o : Output) : (d.emit o).ueHours = d.ueHours := rfl
@[simp] theorem Dev.emit_vfWin (o : Output) : (d.emit o).vfWin = d.vfWin := rfl
@[simp] theorem Dev.emit_hqs (o : Output) : (d.emit o).hqs = d.hqs := rfl
@[simp] theorem Dev.emit_steps (o : Output) : (d.emit o).steps = d.steps := rfl
@[simp] theorem Dev.emit_stepN (o : Output) : (d.emit o).stepN = d.stepN := rfl
@[simp] theorem Dev.emit_chkQ (o : Output) : (d.emit o).chkQ = d.chkQ := rfl
@[simp] theorem Dev.emit_chkSeq (o : Output) : (d.emit o).chkSeq = d.chkSeq := rfl
@[simp] theorem Dev.emit_chkSkip (o : Output) : (d.emit o).chkSkip = d.chkSkip := rfl
@[simp] theorem Dev.emit_chkRuns (o : Output) : (d.emit o).chkRuns = d.chkRuns := rfl
@[simp] theorem Dev.emit_rehs (o : Output) : (d.emit o).rehs = d.rehs := rfl
@[simp] theorem Dev.emit_rehLast (o : Output) : (d.emit o).rehLast = d.rehLast := rfl
@[simp] theorem Dev.emit_armed (o : Output) : (d.emit o).armed = d.armed := rfl
@[simp] theorem Dev.emit_imgRegs (o : Output) : (d.emit o).imgRegs = d.imgRegs := rfl
@[simp] theorem Dev.emit_msix (o : Output) : (d.emit o).msix = d.msix := rfl
@[simp] theorem Dev.emit_layerS (o : Output) : (d.emit o).layerS = d.layerS := rfl
@[simp] theorem Dev.emit_frontS (o : Output) : (d.emit o).frontS = d.frontS := rfl
@[simp] theorem Dev.emit_bgRun (o : Output) : (d.emit o).bgRun = d.bgRun := rfl
@[simp] theorem Dev.emit_flowIdle (o : Output) : (d.emit o).flowIdle = d.flowIdle := rfl
@[simp] theorem Dev.emit_heat (o : Output) : (d.emit o).heat = d.heat := rfl
@[simp] theorem Dev.emit_cyc (o : Output) : (d.emit o).cyc = d.cyc := rfl
@[simp] theorem Dev.emit_gov (o : Output) : (d.emit o).gov = d.gov := rfl
@[simp] theorem Dev.emit_regLinks (o : Output) : (d.emit o).regLinks = d.regLinks := rfl
@[simp] theorem Dev.emit_dvfs (o : Output) : (d.emit o).dvfs = d.dvfs := rfl
@[simp] theorem Dev.emit_dvfsLast (o : Output) : (d.emit o).dvfsLast = d.dvfsLast := rfl
@[simp] theorem Dev.emit_discharge (o : Output) : (d.emit o).discharge = d.discharge := rfl
@[simp] theorem Dev.emit_trip (o : Output) : (d.emit o).trip = d.trip := rfl
@[simp] theorem Dev.emit_drift (o : Output) : (d.emit o).drift = d.drift := rfl
@[simp] theorem Dev.emit_stopped (o : Output) : (d.emit o).stopped = d.stopped := rfl
@[simp] theorem Dev.emit_crst (o : Output) : (d.emit o).crst = d.crst := rfl
@[simp] theorem Dev.emit_ringed (o : Output) : (d.emit o).ringed = d.ringed := rfl
@[simp] theorem Dev.emit_part (o : Output) : (d.emit o).part = d.part := rfl
@[simp] theorem Dev.emit_rbFuse (o : Output) : (d.emit o).rbFuse = d.rbFuse := rfl
@[simp] theorem Dev.emit_flash (o : Output) : (d.emit o).flash = d.flash := rfl
@[simp] theorem Dev.emit_image (o : Output) : (d.emit o).image = d.image := rfl
@[simp] theorem Dev.emit_boot (o : Output) : (d.emit o).boot = d.boot := rfl
@[simp] theorem Dev.emit_warm (o : Output) : (d.emit o).warm = d.warm := rfl
@[simp] theorem Dev.emit_joins (o : Output) : (d.emit o).joins = d.joins := rfl
@[simp] theorem Dev.emit_wear (o : Output) : (d.emit o).wear = d.wear := rfl
@[simp] theorem Dev.emit_dieTest (o : Output) : (d.emit o).dieTest = d.dieTest := rfl
@[simp] theorem Dev.emit_ident (o : Output) : (d.emit o).ident = d.ident := rfl
@[simp] theorem Dev.emit_opts (o : Output) : (d.emit o).opts = d.opts := rfl
@[simp] theorem Dev.emit_held (o : Output) : (d.emit o).held = d.held := rfl
@[simp] theorem Dev.emit_capt (o : Output) : (d.emit o).capt = d.capt := rfl
@[simp] theorem Dev.emit_anOn (o : Output) : (d.emit o).anOn = d.anOn := rfl
@[simp] theorem Dev.emit_portsOff (o : Output) : (d.emit o).portsOff = d.portsOff := rfl
@[simp] theorem Dev.emit_mgmt (o : Output) : (d.emit o).mgmt = d.mgmt := rfl
@[simp] theorem Dev.emit_tap (o : Output) : (d.emit o).tap = d.tap := rfl
@[simp] theorem Dev.emit_now (o : Output) : (d.emit o).now = d.now := rfl
@[simp] theorem Dev.emit_skew (o : Output) : (d.emit o).skew = d.skew := rfl
@[simp] theorem Dev.emit_lone (o : Output) : (d.emit o).lone = d.lone := rfl
@[simp] theorem Dev.emit_free (o : Output) : (d.emit o).free = d.free := rfl

/-! ### Dev.mput -/

@[simp] theorem Dev.mput_regs (a : Nat) (v : Byte) : (d.mput a v).regs = d.regs := rfl
@[simp] theorem Dev.mput_badw (a : Nat) (v : Byte) : (d.mput a v).badw = d.badw := rfl
@[simp] theorem Dev.mput_blk (a : Nat) (v : Byte) : (d.mput a v).blk = d.blk := rfl
@[simp] theorem Dev.mput_slices (a : Nat) (v : Byte) : (d.mput a v).slices = d.slices := rfl
@[simp] theorem Dev.mput_caches (a : Nat) (v : Byte) : (d.mput a v).caches = d.caches := rfl
@[simp] theorem Dev.mput_lmem (a : Nat) (v : Byte) : (d.mput a v).lmem = d.lmem := rfl
@[simp] theorem Dev.mput_lue (a : Nat) (v : Byte) : (d.mput a v).lue = d.lue := rfl
@[simp] theorem Dev.mput_lce (a : Nat) (v : Byte) : (d.mput a v).lce = d.lce := rfl
@[simp] theorem Dev.mput_ceRun (a : Nat) (v : Byte) : (d.mput a v).ceRun = d.ceRun := rfl
@[simp] theorem Dev.mput_imem (a : Nat) (v : Byte) : (d.mput a v).imem = d.imem := rfl
@[simp] theorem Dev.mput_cores (a : Nat) (v : Byte) : (d.mput a v).cores = d.cores := rfl
@[simp] theorem Dev.mput_curtains (a : Nat) (v : Byte) : (d.mput a v).curtains = d.curtains := rfl
@[simp] theorem Dev.mput_cueOps (a : Nat) (v : Byte) : (d.mput a v).cueOps = d.cueOps := rfl
@[simp] theorem Dev.mput_waiters (a : Nat) (v : Byte) : (d.mput a v).waiters = d.waiters := rfl
@[simp] theorem Dev.mput_barrCores (a : Nat) (v : Byte) : (d.mput a v).barrCores = d.barrCores := rfl
@[simp] theorem Dev.mput_barrCls (a : Nat) (v : Byte) : (d.mput a v).barrCls = d.barrCls := rfl
@[simp] theorem Dev.mput_linkRet (a : Nat) (v : Byte) : (d.mput a v).linkRet = d.linkRet := rfl
@[simp] theorem Dev.mput_resends (a : Nat) (v : Byte) : (d.mput a v).resends = d.resends := rfl
@[simp] theorem Dev.mput_seams (a : Nat) (v : Byte) : (d.mput a v).seams = d.seams := rfl
@[simp] theorem Dev.mput_switch (a : Nat) (v : Byte) : (d.mput a v).switch = d.switch := rfl
@[simp] theorem Dev.mput_shadow (a : Nat) (v : Byte) : (d.mput a v).shadow = d.shadow := rfl
@[simp] theorem Dev.mput_partIn (a : Nat) (v : Byte) : (d.mput a v).partIn = d.partIn := rfl
@[simp] theorem Dev.mput_darnQ (a : Nat) (v : Byte) : (d.mput a v).darnQ = d.darnQ := rfl
@[simp] theorem Dev.mput_darnCmd (a : Nat) (v : Byte) : (d.mput a v).darnCmd = d.darnCmd := rfl
@[simp] theorem Dev.mput_commit (a : Nat) (v : Byte) : (d.mput a v).commit = d.commit := rfl
@[simp] theorem Dev.mput_darnLog (a : Nat) (v : Byte) : (d.mput a v).darnLog = d.darnLog := rfl
@[simp] theorem Dev.mput_boots (a : Nat) (v : Byte) : (d.mput a v).boots = d.boots := rfl
@[simp] theorem Dev.mput_ppr (a : Nat) (v : Byte) : (d.mput a v).ppr = d.ppr := rfl
@[simp] theorem Dev.mput_irqHold (a : Nat) (v : Byte) : (d.mput a v).irqHold = d.irqHold := rfl
@[simp] theorem Dev.mput_conns (a : Nat) (v : Byte) : (d.mput a v).conns = d.conns := rfl
@[simp] theorem Dev.mput_tenants (a : Nat) (v : Byte) : (d.mput a v).tenants = d.tenants := rfl
@[simp] theorem Dev.mput_probes (a : Nat) (v : Byte) : (d.mput a v).probes = d.probes := rfl
@[simp] theorem Dev.mput_pfcOn (a : Nat) (v : Byte) : (d.mput a v).pfcOn = d.pfcOn := rfl
@[simp] theorem Dev.mput_pfcHeld (a : Nat) (v : Byte) : (d.mput a v).pfcHeld = d.pfcHeld := rfl
@[simp] theorem Dev.mput_pfcSent (a : Nat) (v : Byte) : (d.mput a v).pfcSent = d.pfcSent := rfl
@[simp] theorem Dev.mput_nbrTtl (a : Nat) (v : Byte) : (d.mput a v).nbrTtl = d.nbrTtl := rfl
@[simp] theorem Dev.mput_sak (a : Nat) (v : Byte) : (d.mput a v).sak = d.sak := rfl
@[simp] theorem Dev.mput_secHigh (a : Nat) (v : Byte) : (d.mput a v).secHigh = d.secHigh := rfl
@[simp] theorem Dev.mput_ptp (a : Nat) (v : Byte) : (d.mput a v).ptp = d.ptp := rfl
@[simp] theorem Dev.mput_colls (a : Nat) (v : Byte) : (d.mput a v).colls = d.colls := rfl
@[simp] theorem Dev.mput_collN (a : Nat) (v : Byte) : (d.mput a v).collN = d.collN := rfl
@[simp] theorem Dev.mput_collQ (a : Nat) (v : Byte) : (d.mput a v).collQ = d.collQ := rfl
@[simp] theorem Dev.mput_exchs (a : Nat) (v : Byte) : (d.mput a v).exchs = d.exchs := rfl
@[simp] theorem Dev.mput_joinRecs (a : Nat) (v : Byte) : (d.mput a v).joinRecs = d.joinRecs := rfl
@[simp] theorem Dev.mput_joinRx (a : Nat) (v : Byte) : (d.mput a v).joinRx = d.joinRx := rfl
@[simp] theorem Dev.mput_rechecks (a : Nat) (v : Byte) : (d.mput a v).rechecks = d.rechecks := rfl
@[simp] theorem Dev.mput_departs (a : Nat) (v : Byte) : (d.mput a v).departs = d.departs := rfl
@[simp] theorem Dev.mput_recs (a : Nat) (v : Byte) : (d.mput a v).recs = d.recs := rfl
@[simp] theorem Dev.mput_heldRecs (a : Nat) (v : Byte) : (d.mput a v).heldRecs = d.heldRecs := rfl
@[simp] theorem Dev.mput_dropped (a : Nat) (v : Byte) : (d.mput a v).dropped = d.dropped := rfl
@[simp] theorem Dev.mput_ctrlDown (a : Nat) (v : Byte) : (d.mput a v).ctrlDown = d.ctrlDown := rfl
@[simp] theorem Dev.mput_ringLost (a : Nat) (v : Byte) : (d.mput a v).ringLost = d.ringLost := rfl
@[simp] theorem Dev.mput_ueHours (a : Nat) (v : Byte) : (d.mput a v).ueHours = d.ueHours := rfl
@[simp] theorem Dev.mput_vfWin (a : Nat) (v : Byte) : (d.mput a v).vfWin = d.vfWin := rfl
@[simp] theorem Dev.mput_hqs (a : Nat) (v : Byte) : (d.mput a v).hqs = d.hqs := rfl
@[simp] theorem Dev.mput_steps (a : Nat) (v : Byte) : (d.mput a v).steps = d.steps := rfl
@[simp] theorem Dev.mput_stepN (a : Nat) (v : Byte) : (d.mput a v).stepN = d.stepN := rfl
@[simp] theorem Dev.mput_chkQ (a : Nat) (v : Byte) : (d.mput a v).chkQ = d.chkQ := rfl
@[simp] theorem Dev.mput_chkSeq (a : Nat) (v : Byte) : (d.mput a v).chkSeq = d.chkSeq := rfl
@[simp] theorem Dev.mput_chkSkip (a : Nat) (v : Byte) : (d.mput a v).chkSkip = d.chkSkip := rfl
@[simp] theorem Dev.mput_chkRuns (a : Nat) (v : Byte) : (d.mput a v).chkRuns = d.chkRuns := rfl
@[simp] theorem Dev.mput_rehs (a : Nat) (v : Byte) : (d.mput a v).rehs = d.rehs := rfl
@[simp] theorem Dev.mput_rehLast (a : Nat) (v : Byte) : (d.mput a v).rehLast = d.rehLast := rfl
@[simp] theorem Dev.mput_armed (a : Nat) (v : Byte) : (d.mput a v).armed = d.armed := rfl
@[simp] theorem Dev.mput_imgRegs (a : Nat) (v : Byte) : (d.mput a v).imgRegs = d.imgRegs := rfl
@[simp] theorem Dev.mput_msix (a : Nat) (v : Byte) : (d.mput a v).msix = d.msix := rfl
@[simp] theorem Dev.mput_layerS (a : Nat) (v : Byte) : (d.mput a v).layerS = d.layerS := rfl
@[simp] theorem Dev.mput_frontS (a : Nat) (v : Byte) : (d.mput a v).frontS = d.frontS := rfl
@[simp] theorem Dev.mput_bgRun (a : Nat) (v : Byte) : (d.mput a v).bgRun = d.bgRun := rfl
@[simp] theorem Dev.mput_flowIdle (a : Nat) (v : Byte) : (d.mput a v).flowIdle = d.flowIdle := rfl
@[simp] theorem Dev.mput_heat (a : Nat) (v : Byte) : (d.mput a v).heat = d.heat := rfl
@[simp] theorem Dev.mput_cyc (a : Nat) (v : Byte) : (d.mput a v).cyc = d.cyc := rfl
@[simp] theorem Dev.mput_gov (a : Nat) (v : Byte) : (d.mput a v).gov = d.gov := rfl
@[simp] theorem Dev.mput_regLinks (a : Nat) (v : Byte) : (d.mput a v).regLinks = d.regLinks := rfl
@[simp] theorem Dev.mput_dvfs (a : Nat) (v : Byte) : (d.mput a v).dvfs = d.dvfs := rfl
@[simp] theorem Dev.mput_dvfsLast (a : Nat) (v : Byte) : (d.mput a v).dvfsLast = d.dvfsLast := rfl
@[simp] theorem Dev.mput_discharge (a : Nat) (v : Byte) : (d.mput a v).discharge = d.discharge := rfl
@[simp] theorem Dev.mput_trip (a : Nat) (v : Byte) : (d.mput a v).trip = d.trip := rfl
@[simp] theorem Dev.mput_drift (a : Nat) (v : Byte) : (d.mput a v).drift = d.drift := rfl
@[simp] theorem Dev.mput_stopped (a : Nat) (v : Byte) : (d.mput a v).stopped = d.stopped := rfl
@[simp] theorem Dev.mput_crst (a : Nat) (v : Byte) : (d.mput a v).crst = d.crst := rfl
@[simp] theorem Dev.mput_ringed (a : Nat) (v : Byte) : (d.mput a v).ringed = d.ringed := rfl
@[simp] theorem Dev.mput_part (a : Nat) (v : Byte) : (d.mput a v).part = d.part := rfl
@[simp] theorem Dev.mput_rbFuse (a : Nat) (v : Byte) : (d.mput a v).rbFuse = d.rbFuse := rfl
@[simp] theorem Dev.mput_flash (a : Nat) (v : Byte) : (d.mput a v).flash = d.flash := rfl
@[simp] theorem Dev.mput_image (a : Nat) (v : Byte) : (d.mput a v).image = d.image := rfl
@[simp] theorem Dev.mput_boot (a : Nat) (v : Byte) : (d.mput a v).boot = d.boot := rfl
@[simp] theorem Dev.mput_warm (a : Nat) (v : Byte) : (d.mput a v).warm = d.warm := rfl
@[simp] theorem Dev.mput_joins (a : Nat) (v : Byte) : (d.mput a v).joins = d.joins := rfl
@[simp] theorem Dev.mput_wear (a : Nat) (v : Byte) : (d.mput a v).wear = d.wear := rfl
@[simp] theorem Dev.mput_dieTest (a : Nat) (v : Byte) : (d.mput a v).dieTest = d.dieTest := rfl
@[simp] theorem Dev.mput_ident (a : Nat) (v : Byte) : (d.mput a v).ident = d.ident := rfl
@[simp] theorem Dev.mput_opts (a : Nat) (v : Byte) : (d.mput a v).opts = d.opts := rfl
@[simp] theorem Dev.mput_held (a : Nat) (v : Byte) : (d.mput a v).held = d.held := rfl
@[simp] theorem Dev.mput_capt (a : Nat) (v : Byte) : (d.mput a v).capt = d.capt := rfl
@[simp] theorem Dev.mput_anOn (a : Nat) (v : Byte) : (d.mput a v).anOn = d.anOn := rfl
@[simp] theorem Dev.mput_portsOff (a : Nat) (v : Byte) : (d.mput a v).portsOff = d.portsOff := rfl
@[simp] theorem Dev.mput_mgmt (a : Nat) (v : Byte) : (d.mput a v).mgmt = d.mgmt := rfl
@[simp] theorem Dev.mput_tap (a : Nat) (v : Byte) : (d.mput a v).tap = d.tap := rfl
@[simp] theorem Dev.mput_out (a : Nat) (v : Byte) : (d.mput a v).out = d.out := rfl
@[simp] theorem Dev.mput_now (a : Nat) (v : Byte) : (d.mput a v).now = d.now := rfl
@[simp] theorem Dev.mput_skew (a : Nat) (v : Byte) : (d.mput a v).skew = d.skew := rfl
@[simp] theorem Dev.mput_lone (a : Nat) (v : Byte) : (d.mput a v).lone = d.lone := rfl
@[simp] theorem Dev.mput_free (a : Nat) (v : Byte) : (d.mput a v).free = d.free := rfl

/-! ### Dev.lput -/

@[simp] theorem Dev.lput_regs (c a : Nat) (v : Byte) : (d.lput c a v).regs = d.regs := rfl
@[simp] theorem Dev.lput_mem (c a : Nat) (v : Byte) : (d.lput c a v).mem = d.mem := rfl
@[simp] theorem Dev.lput_badw (c a : Nat) (v : Byte) : (d.lput c a v).badw = d.badw := rfl
@[simp] theorem Dev.lput_blk (c a : Nat) (v : Byte) : (d.lput c a v).blk = d.blk := rfl
@[simp] theorem Dev.lput_slices (c a : Nat) (v : Byte) : (d.lput c a v).slices = d.slices := rfl
@[simp] theorem Dev.lput_caches (c a : Nat) (v : Byte) : (d.lput c a v).caches = d.caches := rfl
@[simp] theorem Dev.lput_lue (c a : Nat) (v : Byte) : (d.lput c a v).lue = d.lue := rfl
@[simp] theorem Dev.lput_lce (c a : Nat) (v : Byte) : (d.lput c a v).lce = d.lce := rfl
@[simp] theorem Dev.lput_ceRun (c a : Nat) (v : Byte) : (d.lput c a v).ceRun = d.ceRun := rfl
@[simp] theorem Dev.lput_imem (c a : Nat) (v : Byte) : (d.lput c a v).imem = d.imem := rfl
@[simp] theorem Dev.lput_cores (c a : Nat) (v : Byte) : (d.lput c a v).cores = d.cores := rfl
@[simp] theorem Dev.lput_curtains (c a : Nat) (v : Byte) : (d.lput c a v).curtains = d.curtains := rfl
@[simp] theorem Dev.lput_cueOps (c a : Nat) (v : Byte) : (d.lput c a v).cueOps = d.cueOps := rfl
@[simp] theorem Dev.lput_waiters (c a : Nat) (v : Byte) : (d.lput c a v).waiters = d.waiters := rfl
@[simp] theorem Dev.lput_barrCores (c a : Nat) (v : Byte) : (d.lput c a v).barrCores = d.barrCores := rfl
@[simp] theorem Dev.lput_barrCls (c a : Nat) (v : Byte) : (d.lput c a v).barrCls = d.barrCls := rfl
@[simp] theorem Dev.lput_linkRet (c a : Nat) (v : Byte) : (d.lput c a v).linkRet = d.linkRet := rfl
@[simp] theorem Dev.lput_resends (c a : Nat) (v : Byte) : (d.lput c a v).resends = d.resends := rfl
@[simp] theorem Dev.lput_seams (c a : Nat) (v : Byte) : (d.lput c a v).seams = d.seams := rfl
@[simp] theorem Dev.lput_switch (c a : Nat) (v : Byte) : (d.lput c a v).switch = d.switch := rfl
@[simp] theorem Dev.lput_shadow (c a : Nat) (v : Byte) : (d.lput c a v).shadow = d.shadow := rfl
@[simp] theorem Dev.lput_partIn (c a : Nat) (v : Byte) : (d.lput c a v).partIn = d.partIn := rfl
@[simp] theorem Dev.lput_darnQ (c a : Nat) (v : Byte) : (d.lput c a v).darnQ = d.darnQ := rfl
@[simp] theorem Dev.lput_darnCmd (c a : Nat) (v : Byte) : (d.lput c a v).darnCmd = d.darnCmd := rfl
@[simp] theorem Dev.lput_commit (c a : Nat) (v : Byte) : (d.lput c a v).commit = d.commit := rfl
@[simp] theorem Dev.lput_darnLog (c a : Nat) (v : Byte) : (d.lput c a v).darnLog = d.darnLog := rfl
@[simp] theorem Dev.lput_boots (c a : Nat) (v : Byte) : (d.lput c a v).boots = d.boots := rfl
@[simp] theorem Dev.lput_ppr (c a : Nat) (v : Byte) : (d.lput c a v).ppr = d.ppr := rfl
@[simp] theorem Dev.lput_irqHold (c a : Nat) (v : Byte) : (d.lput c a v).irqHold = d.irqHold := rfl
@[simp] theorem Dev.lput_conns (c a : Nat) (v : Byte) : (d.lput c a v).conns = d.conns := rfl
@[simp] theorem Dev.lput_tenants (c a : Nat) (v : Byte) : (d.lput c a v).tenants = d.tenants := rfl
@[simp] theorem Dev.lput_probes (c a : Nat) (v : Byte) : (d.lput c a v).probes = d.probes := rfl
@[simp] theorem Dev.lput_pfcOn (c a : Nat) (v : Byte) : (d.lput c a v).pfcOn = d.pfcOn := rfl
@[simp] theorem Dev.lput_pfcHeld (c a : Nat) (v : Byte) : (d.lput c a v).pfcHeld = d.pfcHeld := rfl
@[simp] theorem Dev.lput_pfcSent (c a : Nat) (v : Byte) : (d.lput c a v).pfcSent = d.pfcSent := rfl
@[simp] theorem Dev.lput_nbrTtl (c a : Nat) (v : Byte) : (d.lput c a v).nbrTtl = d.nbrTtl := rfl
@[simp] theorem Dev.lput_sak (c a : Nat) (v : Byte) : (d.lput c a v).sak = d.sak := rfl
@[simp] theorem Dev.lput_secHigh (c a : Nat) (v : Byte) : (d.lput c a v).secHigh = d.secHigh := rfl
@[simp] theorem Dev.lput_ptp (c a : Nat) (v : Byte) : (d.lput c a v).ptp = d.ptp := rfl
@[simp] theorem Dev.lput_colls (c a : Nat) (v : Byte) : (d.lput c a v).colls = d.colls := rfl
@[simp] theorem Dev.lput_collN (c a : Nat) (v : Byte) : (d.lput c a v).collN = d.collN := rfl
@[simp] theorem Dev.lput_collQ (c a : Nat) (v : Byte) : (d.lput c a v).collQ = d.collQ := rfl
@[simp] theorem Dev.lput_exchs (c a : Nat) (v : Byte) : (d.lput c a v).exchs = d.exchs := rfl
@[simp] theorem Dev.lput_joinRecs (c a : Nat) (v : Byte) : (d.lput c a v).joinRecs = d.joinRecs := rfl
@[simp] theorem Dev.lput_joinRx (c a : Nat) (v : Byte) : (d.lput c a v).joinRx = d.joinRx := rfl
@[simp] theorem Dev.lput_rechecks (c a : Nat) (v : Byte) : (d.lput c a v).rechecks = d.rechecks := rfl
@[simp] theorem Dev.lput_departs (c a : Nat) (v : Byte) : (d.lput c a v).departs = d.departs := rfl
@[simp] theorem Dev.lput_recs (c a : Nat) (v : Byte) : (d.lput c a v).recs = d.recs := rfl
@[simp] theorem Dev.lput_heldRecs (c a : Nat) (v : Byte) : (d.lput c a v).heldRecs = d.heldRecs := rfl
@[simp] theorem Dev.lput_dropped (c a : Nat) (v : Byte) : (d.lput c a v).dropped = d.dropped := rfl
@[simp] theorem Dev.lput_ctrlDown (c a : Nat) (v : Byte) : (d.lput c a v).ctrlDown = d.ctrlDown := rfl
@[simp] theorem Dev.lput_ringLost (c a : Nat) (v : Byte) : (d.lput c a v).ringLost = d.ringLost := rfl
@[simp] theorem Dev.lput_ueHours (c a : Nat) (v : Byte) : (d.lput c a v).ueHours = d.ueHours := rfl
@[simp] theorem Dev.lput_vfWin (c a : Nat) (v : Byte) : (d.lput c a v).vfWin = d.vfWin := rfl
@[simp] theorem Dev.lput_hqs (c a : Nat) (v : Byte) : (d.lput c a v).hqs = d.hqs := rfl
@[simp] theorem Dev.lput_steps (c a : Nat) (v : Byte) : (d.lput c a v).steps = d.steps := rfl
@[simp] theorem Dev.lput_stepN (c a : Nat) (v : Byte) : (d.lput c a v).stepN = d.stepN := rfl
@[simp] theorem Dev.lput_chkQ (c a : Nat) (v : Byte) : (d.lput c a v).chkQ = d.chkQ := rfl
@[simp] theorem Dev.lput_chkSeq (c a : Nat) (v : Byte) : (d.lput c a v).chkSeq = d.chkSeq := rfl
@[simp] theorem Dev.lput_chkSkip (c a : Nat) (v : Byte) : (d.lput c a v).chkSkip = d.chkSkip := rfl
@[simp] theorem Dev.lput_chkRuns (c a : Nat) (v : Byte) : (d.lput c a v).chkRuns = d.chkRuns := rfl
@[simp] theorem Dev.lput_rehs (c a : Nat) (v : Byte) : (d.lput c a v).rehs = d.rehs := rfl
@[simp] theorem Dev.lput_rehLast (c a : Nat) (v : Byte) : (d.lput c a v).rehLast = d.rehLast := rfl
@[simp] theorem Dev.lput_armed (c a : Nat) (v : Byte) : (d.lput c a v).armed = d.armed := rfl
@[simp] theorem Dev.lput_imgRegs (c a : Nat) (v : Byte) : (d.lput c a v).imgRegs = d.imgRegs := rfl
@[simp] theorem Dev.lput_msix (c a : Nat) (v : Byte) : (d.lput c a v).msix = d.msix := rfl
@[simp] theorem Dev.lput_layerS (c a : Nat) (v : Byte) : (d.lput c a v).layerS = d.layerS := rfl
@[simp] theorem Dev.lput_frontS (c a : Nat) (v : Byte) : (d.lput c a v).frontS = d.frontS := rfl
@[simp] theorem Dev.lput_bgRun (c a : Nat) (v : Byte) : (d.lput c a v).bgRun = d.bgRun := rfl
@[simp] theorem Dev.lput_flowIdle (c a : Nat) (v : Byte) : (d.lput c a v).flowIdle = d.flowIdle := rfl
@[simp] theorem Dev.lput_heat (c a : Nat) (v : Byte) : (d.lput c a v).heat = d.heat := rfl
@[simp] theorem Dev.lput_cyc (c a : Nat) (v : Byte) : (d.lput c a v).cyc = d.cyc := rfl
@[simp] theorem Dev.lput_gov (c a : Nat) (v : Byte) : (d.lput c a v).gov = d.gov := rfl
@[simp] theorem Dev.lput_regLinks (c a : Nat) (v : Byte) : (d.lput c a v).regLinks = d.regLinks := rfl
@[simp] theorem Dev.lput_dvfs (c a : Nat) (v : Byte) : (d.lput c a v).dvfs = d.dvfs := rfl
@[simp] theorem Dev.lput_dvfsLast (c a : Nat) (v : Byte) : (d.lput c a v).dvfsLast = d.dvfsLast := rfl
@[simp] theorem Dev.lput_discharge (c a : Nat) (v : Byte) : (d.lput c a v).discharge = d.discharge := rfl
@[simp] theorem Dev.lput_trip (c a : Nat) (v : Byte) : (d.lput c a v).trip = d.trip := rfl
@[simp] theorem Dev.lput_drift (c a : Nat) (v : Byte) : (d.lput c a v).drift = d.drift := rfl
@[simp] theorem Dev.lput_stopped (c a : Nat) (v : Byte) : (d.lput c a v).stopped = d.stopped := rfl
@[simp] theorem Dev.lput_crst (c a : Nat) (v : Byte) : (d.lput c a v).crst = d.crst := rfl
@[simp] theorem Dev.lput_ringed (c a : Nat) (v : Byte) : (d.lput c a v).ringed = d.ringed := rfl
@[simp] theorem Dev.lput_part (c a : Nat) (v : Byte) : (d.lput c a v).part = d.part := rfl
@[simp] theorem Dev.lput_rbFuse (c a : Nat) (v : Byte) : (d.lput c a v).rbFuse = d.rbFuse := rfl
@[simp] theorem Dev.lput_flash (c a : Nat) (v : Byte) : (d.lput c a v).flash = d.flash := rfl
@[simp] theorem Dev.lput_image (c a : Nat) (v : Byte) : (d.lput c a v).image = d.image := rfl
@[simp] theorem Dev.lput_boot (c a : Nat) (v : Byte) : (d.lput c a v).boot = d.boot := rfl
@[simp] theorem Dev.lput_warm (c a : Nat) (v : Byte) : (d.lput c a v).warm = d.warm := rfl
@[simp] theorem Dev.lput_joins (c a : Nat) (v : Byte) : (d.lput c a v).joins = d.joins := rfl
@[simp] theorem Dev.lput_wear (c a : Nat) (v : Byte) : (d.lput c a v).wear = d.wear := rfl
@[simp] theorem Dev.lput_dieTest (c a : Nat) (v : Byte) : (d.lput c a v).dieTest = d.dieTest := rfl
@[simp] theorem Dev.lput_ident (c a : Nat) (v : Byte) : (d.lput c a v).ident = d.ident := rfl
@[simp] theorem Dev.lput_opts (c a : Nat) (v : Byte) : (d.lput c a v).opts = d.opts := rfl
@[simp] theorem Dev.lput_held (c a : Nat) (v : Byte) : (d.lput c a v).held = d.held := rfl
@[simp] theorem Dev.lput_capt (c a : Nat) (v : Byte) : (d.lput c a v).capt = d.capt := rfl
@[simp] theorem Dev.lput_anOn (c a : Nat) (v : Byte) : (d.lput c a v).anOn = d.anOn := rfl
@[simp] theorem Dev.lput_portsOff (c a : Nat) (v : Byte) : (d.lput c a v).portsOff = d.portsOff := rfl
@[simp] theorem Dev.lput_mgmt (c a : Nat) (v : Byte) : (d.lput c a v).mgmt = d.mgmt := rfl
@[simp] theorem Dev.lput_tap (c a : Nat) (v : Byte) : (d.lput c a v).tap = d.tap := rfl
@[simp] theorem Dev.lput_out (c a : Nat) (v : Byte) : (d.lput c a v).out = d.out := rfl
@[simp] theorem Dev.lput_now (c a : Nat) (v : Byte) : (d.lput c a v).now = d.now := rfl
@[simp] theorem Dev.lput_skew (c a : Nat) (v : Byte) : (d.lput c a v).skew = d.skew := rfl
@[simp] theorem Dev.lput_lone (c a : Nat) (v : Byte) : (d.lput c a v).lone = d.lone := rfl
@[simp] theorem Dev.lput_free (c a : Nat) (v : Byte) : (d.lput c a v).free = d.free := rfl

/-! ### Dev.draw -/

@[simp] theorem Dev.draw_regs (w : Nat) : ((d.draw w).2).regs = d.regs := rfl
@[simp] theorem Dev.draw_mem (w : Nat) : ((d.draw w).2).mem = d.mem := rfl
@[simp] theorem Dev.draw_badw (w : Nat) : ((d.draw w).2).badw = d.badw := rfl
@[simp] theorem Dev.draw_blk (w : Nat) : ((d.draw w).2).blk = d.blk := rfl
@[simp] theorem Dev.draw_slices (w : Nat) : ((d.draw w).2).slices = d.slices := rfl
@[simp] theorem Dev.draw_caches (w : Nat) : ((d.draw w).2).caches = d.caches := rfl
@[simp] theorem Dev.draw_lmem (w : Nat) : ((d.draw w).2).lmem = d.lmem := rfl
@[simp] theorem Dev.draw_lue (w : Nat) : ((d.draw w).2).lue = d.lue := rfl
@[simp] theorem Dev.draw_lce (w : Nat) : ((d.draw w).2).lce = d.lce := rfl
@[simp] theorem Dev.draw_ceRun (w : Nat) : ((d.draw w).2).ceRun = d.ceRun := rfl
@[simp] theorem Dev.draw_imem (w : Nat) : ((d.draw w).2).imem = d.imem := rfl
@[simp] theorem Dev.draw_cores (w : Nat) : ((d.draw w).2).cores = d.cores := rfl
@[simp] theorem Dev.draw_curtains (w : Nat) : ((d.draw w).2).curtains = d.curtains := rfl
@[simp] theorem Dev.draw_cueOps (w : Nat) : ((d.draw w).2).cueOps = d.cueOps := rfl
@[simp] theorem Dev.draw_waiters (w : Nat) : ((d.draw w).2).waiters = d.waiters := rfl
@[simp] theorem Dev.draw_barrCores (w : Nat) : ((d.draw w).2).barrCores = d.barrCores := rfl
@[simp] theorem Dev.draw_barrCls (w : Nat) : ((d.draw w).2).barrCls = d.barrCls := rfl
@[simp] theorem Dev.draw_linkRet (w : Nat) : ((d.draw w).2).linkRet = d.linkRet := rfl
@[simp] theorem Dev.draw_resends (w : Nat) : ((d.draw w).2).resends = d.resends := rfl
@[simp] theorem Dev.draw_seams (w : Nat) : ((d.draw w).2).seams = d.seams := rfl
@[simp] theorem Dev.draw_switch (w : Nat) : ((d.draw w).2).switch = d.switch := rfl
@[simp] theorem Dev.draw_shadow (w : Nat) : ((d.draw w).2).shadow = d.shadow := rfl
@[simp] theorem Dev.draw_partIn (w : Nat) : ((d.draw w).2).partIn = d.partIn := rfl
@[simp] theorem Dev.draw_darnQ (w : Nat) : ((d.draw w).2).darnQ = d.darnQ := rfl
@[simp] theorem Dev.draw_darnCmd (w : Nat) : ((d.draw w).2).darnCmd = d.darnCmd := rfl
@[simp] theorem Dev.draw_commit (w : Nat) : ((d.draw w).2).commit = d.commit := rfl
@[simp] theorem Dev.draw_darnLog (w : Nat) : ((d.draw w).2).darnLog = d.darnLog := rfl
@[simp] theorem Dev.draw_boots (w : Nat) : ((d.draw w).2).boots = d.boots := rfl
@[simp] theorem Dev.draw_ppr (w : Nat) : ((d.draw w).2).ppr = d.ppr := rfl
@[simp] theorem Dev.draw_irqHold (w : Nat) : ((d.draw w).2).irqHold = d.irqHold := rfl
@[simp] theorem Dev.draw_conns (w : Nat) : ((d.draw w).2).conns = d.conns := rfl
@[simp] theorem Dev.draw_tenants (w : Nat) : ((d.draw w).2).tenants = d.tenants := rfl
@[simp] theorem Dev.draw_probes (w : Nat) : ((d.draw w).2).probes = d.probes := rfl
@[simp] theorem Dev.draw_pfcOn (w : Nat) : ((d.draw w).2).pfcOn = d.pfcOn := rfl
@[simp] theorem Dev.draw_pfcHeld (w : Nat) : ((d.draw w).2).pfcHeld = d.pfcHeld := rfl
@[simp] theorem Dev.draw_pfcSent (w : Nat) : ((d.draw w).2).pfcSent = d.pfcSent := rfl
@[simp] theorem Dev.draw_nbrTtl (w : Nat) : ((d.draw w).2).nbrTtl = d.nbrTtl := rfl
@[simp] theorem Dev.draw_sak (w : Nat) : ((d.draw w).2).sak = d.sak := rfl
@[simp] theorem Dev.draw_secHigh (w : Nat) : ((d.draw w).2).secHigh = d.secHigh := rfl
@[simp] theorem Dev.draw_ptp (w : Nat) : ((d.draw w).2).ptp = d.ptp := rfl
@[simp] theorem Dev.draw_colls (w : Nat) : ((d.draw w).2).colls = d.colls := rfl
@[simp] theorem Dev.draw_collN (w : Nat) : ((d.draw w).2).collN = d.collN := rfl
@[simp] theorem Dev.draw_collQ (w : Nat) : ((d.draw w).2).collQ = d.collQ := rfl
@[simp] theorem Dev.draw_exchs (w : Nat) : ((d.draw w).2).exchs = d.exchs := rfl
@[simp] theorem Dev.draw_joinRecs (w : Nat) : ((d.draw w).2).joinRecs = d.joinRecs := rfl
@[simp] theorem Dev.draw_joinRx (w : Nat) : ((d.draw w).2).joinRx = d.joinRx := rfl
@[simp] theorem Dev.draw_rechecks (w : Nat) : ((d.draw w).2).rechecks = d.rechecks := rfl
@[simp] theorem Dev.draw_departs (w : Nat) : ((d.draw w).2).departs = d.departs := rfl
@[simp] theorem Dev.draw_recs (w : Nat) : ((d.draw w).2).recs = d.recs := rfl
@[simp] theorem Dev.draw_heldRecs (w : Nat) : ((d.draw w).2).heldRecs = d.heldRecs := rfl
@[simp] theorem Dev.draw_dropped (w : Nat) : ((d.draw w).2).dropped = d.dropped := rfl
@[simp] theorem Dev.draw_ctrlDown (w : Nat) : ((d.draw w).2).ctrlDown = d.ctrlDown := rfl
@[simp] theorem Dev.draw_ringLost (w : Nat) : ((d.draw w).2).ringLost = d.ringLost := rfl
@[simp] theorem Dev.draw_ueHours (w : Nat) : ((d.draw w).2).ueHours = d.ueHours := rfl
@[simp] theorem Dev.draw_vfWin (w : Nat) : ((d.draw w).2).vfWin = d.vfWin := rfl
@[simp] theorem Dev.draw_hqs (w : Nat) : ((d.draw w).2).hqs = d.hqs := rfl
@[simp] theorem Dev.draw_steps (w : Nat) : ((d.draw w).2).steps = d.steps := rfl
@[simp] theorem Dev.draw_stepN (w : Nat) : ((d.draw w).2).stepN = d.stepN := rfl
@[simp] theorem Dev.draw_chkQ (w : Nat) : ((d.draw w).2).chkQ = d.chkQ := rfl
@[simp] theorem Dev.draw_chkSeq (w : Nat) : ((d.draw w).2).chkSeq = d.chkSeq := rfl
@[simp] theorem Dev.draw_chkSkip (w : Nat) : ((d.draw w).2).chkSkip = d.chkSkip := rfl
@[simp] theorem Dev.draw_chkRuns (w : Nat) : ((d.draw w).2).chkRuns = d.chkRuns := rfl
@[simp] theorem Dev.draw_rehs (w : Nat) : ((d.draw w).2).rehs = d.rehs := rfl
@[simp] theorem Dev.draw_rehLast (w : Nat) : ((d.draw w).2).rehLast = d.rehLast := rfl
@[simp] theorem Dev.draw_armed (w : Nat) : ((d.draw w).2).armed = d.armed := rfl
@[simp] theorem Dev.draw_imgRegs (w : Nat) : ((d.draw w).2).imgRegs = d.imgRegs := rfl
@[simp] theorem Dev.draw_msix (w : Nat) : ((d.draw w).2).msix = d.msix := rfl
@[simp] theorem Dev.draw_layerS (w : Nat) : ((d.draw w).2).layerS = d.layerS := rfl
@[simp] theorem Dev.draw_frontS (w : Nat) : ((d.draw w).2).frontS = d.frontS := rfl
@[simp] theorem Dev.draw_bgRun (w : Nat) : ((d.draw w).2).bgRun = d.bgRun := rfl
@[simp] theorem Dev.draw_flowIdle (w : Nat) : ((d.draw w).2).flowIdle = d.flowIdle := rfl
@[simp] theorem Dev.draw_heat (w : Nat) : ((d.draw w).2).heat = d.heat := rfl
@[simp] theorem Dev.draw_cyc (w : Nat) : ((d.draw w).2).cyc = d.cyc := rfl
@[simp] theorem Dev.draw_gov (w : Nat) : ((d.draw w).2).gov = d.gov := rfl
@[simp] theorem Dev.draw_regLinks (w : Nat) : ((d.draw w).2).regLinks = d.regLinks := rfl
@[simp] theorem Dev.draw_dvfs (w : Nat) : ((d.draw w).2).dvfs = d.dvfs := rfl
@[simp] theorem Dev.draw_dvfsLast (w : Nat) : ((d.draw w).2).dvfsLast = d.dvfsLast := rfl
@[simp] theorem Dev.draw_discharge (w : Nat) : ((d.draw w).2).discharge = d.discharge := rfl
@[simp] theorem Dev.draw_trip (w : Nat) : ((d.draw w).2).trip = d.trip := rfl
@[simp] theorem Dev.draw_drift (w : Nat) : ((d.draw w).2).drift = d.drift := rfl
@[simp] theorem Dev.draw_stopped (w : Nat) : ((d.draw w).2).stopped = d.stopped := rfl
@[simp] theorem Dev.draw_crst (w : Nat) : ((d.draw w).2).crst = d.crst := rfl
@[simp] theorem Dev.draw_ringed (w : Nat) : ((d.draw w).2).ringed = d.ringed := rfl
@[simp] theorem Dev.draw_part (w : Nat) : ((d.draw w).2).part = d.part := rfl
@[simp] theorem Dev.draw_rbFuse (w : Nat) : ((d.draw w).2).rbFuse = d.rbFuse := rfl
@[simp] theorem Dev.draw_flash (w : Nat) : ((d.draw w).2).flash = d.flash := rfl
@[simp] theorem Dev.draw_image (w : Nat) : ((d.draw w).2).image = d.image := rfl
@[simp] theorem Dev.draw_boot (w : Nat) : ((d.draw w).2).boot = d.boot := rfl
@[simp] theorem Dev.draw_warm (w : Nat) : ((d.draw w).2).warm = d.warm := rfl
@[simp] theorem Dev.draw_joins (w : Nat) : ((d.draw w).2).joins = d.joins := rfl
@[simp] theorem Dev.draw_wear (w : Nat) : ((d.draw w).2).wear = d.wear := rfl
@[simp] theorem Dev.draw_dieTest (w : Nat) : ((d.draw w).2).dieTest = d.dieTest := rfl
@[simp] theorem Dev.draw_ident (w : Nat) : ((d.draw w).2).ident = d.ident := rfl
@[simp] theorem Dev.draw_opts (w : Nat) : ((d.draw w).2).opts = d.opts := rfl
@[simp] theorem Dev.draw_held (w : Nat) : ((d.draw w).2).held = d.held := rfl
@[simp] theorem Dev.draw_capt (w : Nat) : ((d.draw w).2).capt = d.capt := rfl
@[simp] theorem Dev.draw_anOn (w : Nat) : ((d.draw w).2).anOn = d.anOn := rfl
@[simp] theorem Dev.draw_portsOff (w : Nat) : ((d.draw w).2).portsOff = d.portsOff := rfl
@[simp] theorem Dev.draw_mgmt (w : Nat) : ((d.draw w).2).mgmt = d.mgmt := rfl
@[simp] theorem Dev.draw_tap (w : Nat) : ((d.draw w).2).tap = d.tap := rfl
@[simp] theorem Dev.draw_out (w : Nat) : ((d.draw w).2).out = d.out := rfl
@[simp] theorem Dev.draw_now (w : Nat) : ((d.draw w).2).now = d.now := rfl
@[simp] theorem Dev.draw_skew (w : Nat) : ((d.draw w).2).skew = d.skew := rfl
@[simp] theorem Dev.draw_lone (w : Nat) : ((d.draw w).2).lone = d.lone := rfl

@[simp] theorem Dev.emit_out (o : Output) : (d.emit o).out = d.out ++ [o] := rfl
@[simp] theorem Dev.draw_free (w : Nat) : (d.draw w).2.free = d.free + 1 := rfl
@[simp] theorem Dev.draw_value (w : Nat) : (d.draw w).1 = Config.freeValue w d.free := rfl

end Sys2Proof.Machine
end

