-- ==== Sys2Proof/Laws/Ops.lean ====
section
/-! SUPPORT. The shared operations: register fields, cores, scalar registers, memories, and the guards of a command. -/
namespace Sys2Proof.Machine
open Sys2Proof

variable (d : Dev)

/-! ### Register fields -/

@[simp] theorem Dev.rd_wr_same (f : Fld) (v u i j : Nat) : (d.wr f v u i j).rd f u i j = v % 2 ^ f.width := by
  simp [Dev.rd, Dev.wr]

/-- A write of one field leaves a field with another key alone. -/
theorem Dev.rd_wr_ne (f g : Fld) (v u i j u' i' j' : Nat) (h : g.key u' i' j' ≠ f.key u i j) :
    (d.wr f v u i j).rd g u' i' j' = d.rd g u' i' j' := by
  simp [Dev.rd, Dev.wr, FMap.get_set_ne _ _ _ h]

@[simp] theorem Dev.rd_rst_same (f : Fld) (u i j : Nat) : (d.rst f u i j).rd f u i j = f.reset := by
  simp [Dev.rd, Dev.rst, FMap.get]

@[simp] theorem Dev.rd_updCore (f : Fld) (u i j c : Nat) (g : CoreSt → CoreSt) : (d.updCore c g).rd f u i j = d.rd f u i j := rfl
@[simp] theorem Dev.rd_emit (f : Fld) (u i j : Nat) (o : Output) : (d.emit o).rd f u i j = d.rd f u i j := rfl
@[simp] theorem Dev.rd_draw (f : Fld) (u i j w : Nat) : (d.draw w).2.rd f u i j = d.rd f u i j := rfl

/-! ### Cores -/

@[simp] theorem Dev.core_wr (f : Fld) (v u i j c : Nat) : (d.wr f v u i j).core c = d.core c := rfl
@[simp] theorem Dev.core_updCore_same (c : Nat) (f : CoreSt → CoreSt) : (d.updCore c f).core c = f (d.core c) := by
  simp [Dev.core, Dev.updCore]
theorem Dev.core_updCore_ne {c c' : Nat} (f : CoreSt → CoreSt) (h : c' ≠ c) : (d.updCore c f).core c' = d.core c' := by
  simp [Dev.core, Dev.updCore, FMap.get_upd_ne _ _ _ h]

@[simp] theorem Dev.sreg_zero (c : Nat) : d.sreg c 0 = 0 := rfl
@[simp] theorem Dev.setS_zero (c : Nat) (v : W64) : d.setS c 0 v = d := rfl

theorem Dev.sreg_setS_same (c r : Nat) (v : W64) (h : r ≠ 0) : (d.setS c r v).sreg c r = v := by
  simp [Dev.setS, Dev.sreg, h]

theorem Dev.sreg_setS_ne (c r r' : Nat) (v : W64) (h : r' ≠ r) : (d.setS c r v).sreg c r' = d.sreg c r' := by
  unfold Dev.setS Dev.sreg
  split
  · rfl
  · split
    · rfl
    · simp [FMap.get_set_ne _ _ _ h]

theorem Dev.setS_eq_updCore (c r : Nat) (v : W64) (h : r ≠ 0) :
    d.setS c r v = d.updCore c (fun k => { k with s := FMap.set k.s r v }) := by simp [Dev.setS, h]

@[simp] theorem Dev.rd_setS (f : Fld) (u i j c r : Nat) (v : W64) : (d.setS c r v).rd f u i j = d.rd f u i j := by
  unfold Dev.setS; split <;> rfl

/-! ### Memories -/

theorem Dev.memWf_reset : Dev.reset.memWf := ⟨Memory.wf_nil, Memory.wf_nil⟩

theorem Dev.memWf_mput {d : Dev} (h : d.memWf) (a : Nat) (v : Byte) : (d.mput a v).memWf :=
  ⟨Memory.wf_put a v h.1, h.2⟩

theorem Dev.memWf_lput {d : Dev} (h : d.memWf) (c a : Nat) (v : Byte) : (d.lput c a v).memWf :=
  ⟨h.1, Memory.wf_put (lkey c a) v h.2⟩

theorem Dev.memWf_mwrN {d : Dev} (h : d.memWf) (a v n : Nat) : (d.mwrN a v n).memWf := by
  induction n generalizing d a v with
  | zero => exact h
  | succ n ih => exact ih (Dev.memWf_mput h a _) (a + 1) (v / 256)

theorem Dev.memWf_lwrN {d : Dev} (h : d.memWf) (c a v n : Nat) : (d.lwrN c a v n).memWf := by
  induction n generalizing d a v with
  | zero => exact h
  | succ n ih => exact ih (Dev.memWf_lput h c a _) (a + 1) (v / 256)

theorem Dev.memWf_lwr {d : Dev} (h : d.memWf) (c a n v : Nat) : (d.lwr c a n v).memWf := Dev.memWf_lwrN h c a v n

/-- A byte that is stored reads back. -/
theorem Dev.mput_same (a : Nat) (v : Byte) : FMap.get (d.mput a v).mem 0 a = v := by simp [Dev.mput]

/-- A byte elsewhere keeps its value. -/
theorem Dev.mput_ne {a b : Nat} (v : Byte) (h : b ≠ a) : FMap.get (d.mput a v).mem 0 b = FMap.get d.mem 0 b := by
  simp [Dev.mput, FMap.get_put_ne _ _ _ h]

/-- A store of `n` bytes changes no byte outside them. -/
theorem Dev.mwrN_outside (a v n b : Nat) (h : b < a ∨ a + n ≤ b) :
    FMap.get (d.mwrN a v n).mem 0 b = FMap.get d.mem 0 b := by
  induction n generalizing d a v with
  | zero => rfl
  | succ n ih =>
    rw [Dev.mwrN, ih _ _ _ (by omega)]
    exact Dev.mput_ne d _ (by omega)

/-! ### The guards of a command -/

theorem act_stopped {s : State} (f : Dev → Dev) (h : s.dev.stopped = true) : act s f = .next s := by simp [act, h]
theorem act_running {s : State} (f : Dev → Dev) (h : s.dev.stopped = false) : act s f = .next { s with dev := f s.dev } := by
  simp [act, h]
theorem ctl_dark {s : State} (f : Dev → Dev) (h : s.dev.dark = true) : ctl s f = .next s := by simp [ctl, h]
theorem ctl_lit {s : State} (f : Dev → Dev) (h : s.dev.dark = false) : ctl s f = .next { s with dev := f s.dev } := by
  simp [ctl, h]

/-- All that a command under `act` can do: nothing, or the change of the device. -/
theorem act_cases {s t : State} {f : Dev → Dev} (h : act s f = .next t) :
    (s.dev.stopped = true ∧ t = s) ∨ (s.dev.stopped = false ∧ t = { s with dev := f s.dev }) := by
  unfold act at h
  cases hs : s.dev.stopped <;> simp [hs] at h <;> simp [h]

theorem act_pending {s t : State} {f : Dev → Dev} (h : act s f = .next t) : t.pending = s.pending := by
  rcases act_cases h with ⟨-, rfl⟩ | ⟨-, rfl⟩ <;> rfl

theorem ctl_pending {s t : State} {f : Dev → Dev} (h : ctl s f = .next t) : t.pending = s.pending := by
  unfold ctl at h
  split at h <;> (injection h with h; subst h; rfl)

/-- An instruction that may issue is executed; otherwise nothing changes. -/
theorem Dev.issue_eq (c : Nat) (p : W64 → Bool) (f : Dev → W64 → Dev)
    (h : d.canIssue c = true) (hp : p (d.instr c) = true) (hi : d.interlocked c (d.instr c) = false) :
    d.issue c p f = f d (d.instr c) := by simp [Dev.issue, h, hp, hi]

theorem Dev.issue_idle (c : Nat) (p : W64 → Bool) (f : Dev → W64 → Dev)
    (h : d.canIssue c = false ∨ p (d.instr c) = false) : d.issue c p f = d := by
  rcases h with h | h <;> simp [Dev.issue, h]

end Sys2Proof.Machine
end

