-- ==== Sys2Proof/Tests/Slice0.lean ====
section
/-! SUPPORT. Tests: ill-formed commands that WellFormed refuses, states that meet the hypotheses of each statement, and single
steps whose results the spec gives. -/

namespace Sys2Proof.Tests
open Sys2Proof Sys2Proof.Machine Sys2Proof.Claims

-- one theorem at a time: many at once ask for more threads than the memory limit of a check allows
set_option Elab.async false

/-! ### Small states -/

/-- An instruction word from its fields (R83). -/
def word (op rd ra rb fn imm : Nat) : W64 :=
  BitVec.ofNat 64 (op * 2 ^ 58 + rd * 2 ^ 53 + ra * 2 ^ 48 + rb * 2 ^ 43 + fn * 2 ^ 38 + imm)

/-- The state with its device changed. -/
def on (s : State) (f : Dev → Dev) : State := { s with dev := f s.dev }

/-- Core 17 runs a program of tenant 5, and its next word is `w`. -/
def runs (w : W64) (k : CoreSt := CoreSt.init) : State :=
  on State.reset (fun d => { (d.wr CORE_SEQ_STAT.STATE 2 17).wr CORE_SEQ_TENANT.TENANT 5 17 with
    imem := [(17 * 2048, w)], cores := [(17, k)] })

/-- The same with scalar registers. -/
def at17 (w : W64) (r : FMap W64) : State := runs w { CoreSt.init with s := r }

/-- A field of core 17 takes a value. -/
def with17 (s : State) (f : Fld) (v : Nat) (i : Nat := 0) : State := on s (fun d => d.wr f v 17 i)

/-- A field of the device takes a value. -/
def withDev (s : State) (f : Fld) (v : Nat) (i : Nat := 0) (j : Nat := 0) : State := on s (fun d => d.wr f v 0 i j)

/-- Clusters 0 to 31 form partition 3. -/
def part3 (s : State) : State :=
  on (withDev s PART_Pp_CLUSTERSw.MASK (2 ^ 32 - 1) 3 0) (fun d => { d with partIn := [3] })

/-! ### States that meet the hypotheses of the statements -/

theorem witness_ComputingInstructions :
    (∀ fn < 21, Arith (at17 (word 1 3 1 2 fn 0) [(1, 7), (2, 9)]) 17 fn 7 9) ∧
    (∀ fn < 21, Arith (at17 (word 2 3 1 0 fn (2 ^ 32 - 1)) [(1, 7)]) 17 fn 7 (-1)) ∧
    (∀ fn < 21, Arith (at17 (word 1 3 1 0 fn 0) [(1, 7)]) 17 fn 7 0) ∧
    (∀ fn < 21, Arith (at17 (word 1 3 1 2 fn 0) [(1, BitVec.intMin 64), (2, -1)]) 17 fn (BitVec.intMin 64) (-1)) := by
  refine ⟨?_, ?_, ?_, ?_⟩ <;> simp only [Arith, Live, SecondOperand] <;> decide

theorem witness_CountsOfBits :
    (∀ fn ∈ [21, 22], Arith (at17 (word 1 3 1 0 fn 0) [(1, 0x8000000000000000)]) 17 fn 0x8000000000000000 0) ∧
    (∀ fn ∈ [21, 22], Arith (at17 (word 2 3 0 0 fn 0) []) 17 fn 0 0) ∧
    (let s := at17 (word 3 31 0 31 31 (2 ^ 38 - 1)) []
     Live s ∧ s.dev.canIssue 17 = true ∧ opOf (s.dev.instr 17) = 3 ∧ raOf (s.dev.instr 17) = 0 ∧
       s.dev.interlocked 17 (s.dev.instr 17) = false) := by
  refine ⟨?_, ?_, ?_⟩ <;> simp only [Arith, Live, SecondOperand] <;> decide

/-- The last bytes of the scratchpad, reached with a negative IMM32. -/
theorem witness_LoadsAndStores :
    (∀ p ∈ [(0, 1), (1, 1), (2, 2), (3, 2), (4, 4), (5, 4), (6, 8)],
      let s := at17 (word 5 3 1 0 p.1 (2 ^ 32 - p.2)) [(1, 0x30000)]
      Issues s 17 5 p.1 ∧ Unused (s.dev.instr 17) true true false ∧ LocalAccess s 17 p.2 (BitVec.ofNat 64 (0x30000 - p.2)) ∧
        s.dev.lbad 17 (0x30000 - p.2) p.2 = false) ∧
    (∀ p ∈ [(0, 1), (2, 2), (4, 4), (6, 8)],
      let s := at17 (word 6 0 1 2 p.1 (2 ^ 32 - p.2)) [(1, 0x30000), (2, 77)]
      Issues s 17 6 p.1 ∧ Unused (s.dev.instr 17) false true true ∧ LocalAccess s 17 p.2 (BitVec.ofNat 64 (0x30000 - p.2)) ∧
        s.dev.lbad 17 (0x30000 - p.2) p.2 = false) := by
  refine ⟨?_, ?_⟩ <;> simp only [Issues, Unused, Live, LocalAccess] <;> decide

/-- Four loops whose bodies hold the first words. -/
def fullStack : List Loop := [⟨1, 9, 2⟩, ⟨1, 9, 2⟩, ⟨1, 9, 2⟩, ⟨1, 9, 2⟩]

theorem witness_BranchesAndJumps :
    (∀ fn < 6, let s := at17 (word 8 0 1 2 fn 2047) [(1, 4), (2, 4)]
      Issues s 17 8 fn ∧ Unused (s.dev.instr 17) false true true ∧ W64.bits (s.dev.instr 17) 37 11 = 0) ∧
    (let s := at17 (word 9 3 0 0 0 2047) []
     Issues s 17 9 0 ∧ Unused (s.dev.instr 17) true false false ∧ W64.bits (s.dev.instr 17) 37 11 = 0) ∧
    (∀ a ∈ [2047, 2048], let s := at17 (word 10 0 1 0 0 0) [(1, BitVec.ofNat 64 a)]
      Issues s 17 10 0 ∧ Unused (s.dev.instr 17) false true false ∧ W64.bits (s.dev.instr 17) 37 0 = 0 ∧
        (s.dev.sreg 17 1).toNat = a) ∧
    (∀ e ∈ [([], 0), ([], 1), (fullStack.drop 1, 1), (fullStack, 0), (fullStack, 1)],
      let s := runs (word 11 0 1 0 0 9) { CoreSt.init with s := [(1, e.2)], loops := e.1 }
      Issues s 17 11 0 ∧ Unused (s.dev.instr 17) false true false ∧ W64.bits (s.dev.instr 17) 37 11 = 0 ∧
        s.dev.pc 17 < 9 ∧ (∀ l ∈ (s.dev.core 17).loops.head?, 9 ≤ l.fin) ∧ s.dev.sreg 17 1 = e.2) := by
  refine ⟨?_, ?_, ?_, ?_⟩ <;> simp only [Issues, Unused, Live] <;> decide

theorem witness_DescriptorInstructions :
    (let s := at17 (word 12 0 1 15 0 0) [(1, 0x53FE0)]
     Issues s 17 12 0 ∧ Unused (s.dev.instr 17) false true true ∧ LocalAccess s 17 32 0x53FE0 ∧ s.dev.lbad 17 0x53FE0 32 = false) ∧
    (let s := at17 (word 12 0 1 15 1 0) [(1, 0x53FE0)]
     Issues s 17 12 1 ∧ Unused (s.dev.instr 17) false true true ∧ LocalAccess s 17 32 0x53FE0) ∧
    (∀ fn ∈ [2, 3, 4], let s := at17 (word 12 0 1 15 fn 7) [(1, 5)]
     Issues s 17 12 fn ∧ Unused (s.dev.instr 17) false true true ∧ (s.dev.desc 17 15).ring = 0) ∧
    (let s := runs (word 12 0 1 15 3 7) { CoreSt.init with desc := [(15, BitVec.ofNat 256 (64 * 2 ^ 192))] }
     Issues s 17 12 3 ∧ Unused (s.dev.instr 17) false true true ∧ (s.dev.desc 17 15).ring = 64) ∧
    (let s := at17 (word 12 3 0 15 5 7) []
     Issues s 17 12 5 ∧ Unused (s.dev.instr 17) true false true ∧ immOf (s.dev.instr 17) < 8) := by
  refine ⟨?_, ?_, ?_, ?_, ?_⟩ <;> simp only [Issues, Unused, Live, LocalAccess] <;> decide

theorem witness_SystemInstructions :
    (∀ p ∈ [(0, 0), (1, 0x2ABCD), (2, 2 ^ 32 - 1), (3, 0), (3, 1)], let s := at17 (word 0x1C 0 0 0 p.1 p.2) []
      Issues s 17 0x1C p.1 ∧ Unused (s.dev.instr 17) false false false ∧ s.dev.rd CORE_SEQ_STAT.IN_TRAP 17 = 0) ∧
    (let s := with17 (runs (word 0x1C 0 0 0 3 1)) CORE_SEQ_STAT.IN_TRAP 1
     Issues s 17 0x1C 3 ∧ Unused (s.dev.instr 17) false false false ∧ s.dev.rd CORE_SEQ_STAT.IN_TRAP 17 ≠ 0) ∧
    (∀ n < 6, let s := part3 (runs (word 0x1C 3 0 0 4 n))
      Issues s 17 0x1C 4 ∧ Unused (s.dev.instr 17) true false false ∧ immOf (s.dev.instr 17) % 16 = n ∧
        s.dev.corePart 17 = some 3 ∧ (runs (word 0x1C 3 0 0 4 n)).dev.corePart 17 = none) ∧
    (let s := at17 (word 0x1C 0 1 0 5 0) [(1, 1)]
     Issues s 17 0x1C 5 ∧ Unused (s.dev.instr 17) false true false ∧ immOf (s.dev.instr 17) = 0) ∧
    (∀ p ∈ [(0, 0), (4, 31), (13, 0), (0x18, 1), (0x1C, 6), (0x1C, 31)],
      Issues (runs (word p.1 0 0 0 p.2 0)) 17 p.1 p.2 ∧
        (p.1 = 0 ∨ p.1 = 4 ∨ p.1 = 13 ∨ (p.1 = 0x18 ∧ p.2 ≠ 0) ∨ (p.1 = 0x1C ∧ 6 ≤ p.2))) ∧
    Live (runs 0) ∧ (runs 0).dev.canIssue 17 = true := by
  refine ⟨?_, ?_, ?_, ?_, ?_, ?_, ?_⟩ <;> (try simp only [Issues, Unused, Live]) <;> decide

theorem witness_TakingATrap :
    (with17 (runs 0) CORE_SEQ_STAT.IN_TRAP 1).dev.rd CORE_SEQ_STAT.IN_TRAP 17 ≠ 0 ∧
    ((runs 0).dev.rd CORE_SEQ_STAT.IN_TRAP 17 = 0 ∧ (runs 0).dev.rd CORE_SEQ_TVEC.VALID 17 = 0) ∧
    (let d := (with17 (with17 (runs 0) CORE_SEQ_TVEC.VALID 1) CORE_SEQ_TVEC.INDEX 2047).dev
     d.rd CORE_SEQ_STAT.IN_TRAP 17 = 0 ∧ d.rd CORE_SEQ_TVEC.VALID 17 ≠ 0 ∧ d.pc 17 < 2048 ∧
       d.rd CORE_SEQ_TVEC.INDEX 17 < 2048 ∧ 31 < 32 ∧ 2 ^ 64 - 1 < 2 ^ 64) := by decide

theorem witness_Retirement :
    (∀ l ∈ ((runs 0).dev.core 17).loops.head?, l.fin ≠ (runs 0).dev.pc 17) ∧
    (let d := (with17 (runs 0 { CoreSt.init with loops := fullStack }) CORE_SEQ_PC.PC 9).dev
     (d.core 17).loops = ⟨1, 9, 2⟩ :: fullStack.tail ∧ 9 = d.pc 17 ∧ 1 < 2 ∧ 1 < 2048) ∧
    (let d := (with17 (runs 0 { CoreSt.init with loops := [⟨1, 2047, 1⟩] }) CORE_SEQ_PC.PC 2047).dev
     (d.core 17).loops = [⟨1, 2047, 1⟩] ∧ 2047 = d.pc 17 ∧ 1 ≤ 1) ∧ 2047 < 2048 := by decide

theorem witness_WritingRdTouchesNothingElse :
    rdOf ((at17 (word 1 3 1 2 0 0) []).dev.instr 17) ≠ 0 ∧ 31 ≠ rdOf ((at17 (word 1 3 1 2 0 0) []).dev.instr 17) ∧
    16 ≠ 17 ∧ CORE_SEQ_TENANT.TENANT.key 17 0 0 ∉
      [CORE_SEQ_PC.PC.key 17 0 0, CORE_SEQ_RETIRED.RETIRED.key 17 0 0, CORE_SEQ_STAT.SLEEPING.key 17 0 0] := by decide

/-- A core of which STATE and HALT_CAUSE have these values. -/
def stands (st cause : Nat) (k : CoreSt := CoreSt.init) : State :=
  with17 (with17 (runs 0 k) CORE_SEQ_STAT.STATE st) CORE_SEQ_STAT.HALT_CAUSE cause

/-- Core 17 loads `n` words from `da` with low part `lo` · 8 and high part `hi`. -/
def loads (n lo hi : Nat) (k : CoreSt := CoreSt.init) : State :=
  with17 (with17 (with17 (stands 1 0 k) CORE_SEQ_LOAD_LEN.COUNT n) CORE_SEQ_LOAD_LO.DA_LO lo) CORE_SEQ_LOAD_HI.DA_HI hi

/-- What the image read of core 17 comes to. -/
def loaded (s : State) (n : Nat) : (Nat ⊕ LoadEnd) × Dev := Dev.loadImage 17 (n + 2) (s.dev.imageDa 17) (8 * n) s.dev

set_option exponentiation.threshold 300 in
theorem witness_ProgramControl :
    (∀ p ∈ [(0, false), (3, false), (1, true), (2, true)], let s := stands p.1 0
      s.dev.stopped = false ∧ s.dev.rd CORE_SEQ_STAT.STATE 17 = p.1 ∧ (s.dev.core 17).halting = none ∧
        (s.dev.core 17).wait = .run ∧ s.dev.rd CORE_SEQ_STAT.HALT_CAUSE 17 ≠ 2 ∧
        (s.dev.wr CORE_SEQ_CTRL.FP8_SAT (2 ^ 29 - 1) 17).startRefused 17 = p.2) ∧
    ((stands 3 2).dev.rd CORE_SEQ_STAT.HALT_CAUSE 17 = 2 ∧ (stands 3 2).dev.coreCurtained 17 = false) ∧
    (let s := stands 2 0 { CoreSt.init with halting := some 1 }
     (s.dev.core 17).halting = some 1 ∧ (s.dev.core 17).wait = .run ∧ (s.dev.core 17).drained = true) ∧
    (let m : Msg := ⟨18, 17, 5, 1, 8, [], .queued, 0, 0⟩
     ((runs 0 { CoreSt.init with sendq := [m] }).dev.core 17).drained = false) ∧
    (let s := loads 1 0x11000000 0
     (loaded s 1).1 = .inl 0 ∧ ((loaded s 1).2.core 17).halting = none) ∧
    (let s := loads 1 0x11000000 0 { CoreSt.init with halting := some 2 }
     (loaded s 1).1 = .inl 0 ∧ ((loaded s 1).2.core 17).halting = some 2) ∧
    (let s := on (loads 1 0x11000000 0) (fun d => { d with blk := [(0x88000000 / 4096, .off 1)] })
     (loaded s 1).1 = .inr .check) ∧
    (loaded (loads 1 0 0x80) 1).1 = .inr (.error 3) := by
  refine ⟨?_, ?_, ?_, ?_, ?_, ?_, ?_, ?_⟩ <;> decide

theorem witness_AProgramBegins :
    (with17 (runs 0) CORE_SEQ_ENTRY.INDEX 2047).dev.rd CORE_SEQ_ENTRY.INDEX 17 < 2048 ∧ 3 < 4 ∧ 5 ≤ 5 ∧ 16 ≠ 17 := by decide

theorem witness_ANewTenantFindsNothing :
    ((runs 0).dev.core 17).prevTenant ≠ some ((runs 0).dev.rd CORE_SEQ_TENANT.TENANT 17) ∧
    (let s := runs 0 { CoreSt.init with prevTenant := some 5 }
     (s.dev.core 17).prevTenant = some (s.dev.rd CORE_SEQ_TENANT.TENANT 17)) ∧ 0x53FFF + 1 ≤ 2 ^ 20 ∧ 16 ≠ 17 := by decide

/-- A message of core 17 to core 18. -/
def msg18 (p : MsgPhase) (tries : Nat) : Msg := ⟨18, 17, 5, 1, 8, [1, 2, 3, 4, 5, 6, 7, 8], p, tries, 0⟩

/-- A chain entry whose first word is `w0`, with `units` granules and one row. -/
def dmaEnt (w0 units src dst : Nat) : DmaEnt :=
  { raw := w0 + units * 2 ^ 32 + src * 2 ^ 64 + dst * 2 ^ 128 + 2 ^ 16 * 2 ^ 192, ue := none, badDa := none, kv := none }

/-- Core 17 has these channels. -/
def withDma (w : W64) (r : FMap W64) (ch : FMap DmaCh) : State := runs w { CoreSt.init with s := r, dma := ch }

theorem witness_FenceAndRegisterSpace :
    (let s := runs (word 0x18 0 0 0 0 127)
     Issues s 17 0x18 0 ∧ Unused (s.dev.instr 17) false false false ∧ immOf (s.dev.instr 17) < 128 ∧
       (s.dev.core 17).fenced 127 = true) ∧
    (let s := runs (word 0x18 0 0 0 0 8) { CoreSt.init with sendq := [msg18 .queued 0] }
     Issues s 17 0x18 0 ∧ Unused (s.dev.instr 17) false false false ∧ (s.dev.core 17).fenced 8 = false) ∧
    (∀ q ∈ [[], [msg18 .queued 0]], let s := runs 0 { CoreSt.init with sendq := q, wait := .fence 8 }
     Live s ∧ (s.dev.core 17).wait = .fence 8 ∧ (s.dev.core 17).fenced 8 = q.isEmpty) ∧
    (∀ p ∈ [(0, 4, 0), (1, 4, 2), (2, 8, 0), (3, 8, 2)],
      let s := at17 (word 7 (if p.2.2 = 0 then 3 else 0) 1 p.2.2 p.1 (2 ^ 32 - p.2.1)) [(1, BitVec.ofNat 64 (2 ^ 47 + p.2.1)), (2, 6)]
      Issues s 17 7 p.1 ∧ Unused (s.dev.instr 17) (p.2.2 == 0) true (p.2.2 != 0)) ∧
    daOf (2 ^ 47) = some (2 ^ 47) ∧ daOf (2 ^ 48) = none ∧ (∀ da ∈ daOf 0, da < 2 ^ 47) ∧
    (∀ p ∈ [(false, true, 0), (true, true, 0), (false, false, 1)],
      let s := runs 0 { CoreSt.init with wait := .reg p.1 p.2.1 (2 ^ 47 + 0x80000000 * p.2.2) 9 3 0 }
      let r := (on s (fun d => (part3 { s with dev := d }).dev)).dev.regAccess (.core 17)
        (2 ^ 47 + 0x80000000 * p.2.2) (if p.2.1 then 8 else 4) (if p.1 then some 9 else none) (some 0)
      Live s ∧ (s.dev.core 17).wait = .reg p.1 p.2.1 (2 ^ 47 + 0x80000000 * p.2.2) 9 3 0 ∧
        (r.2.core 17).wait = .reg p.1 p.2.1 (2 ^ 47 + 0x80000000 * p.2.2) 9 3 0) := by
  refine ⟨?_, ?_, ?_, ?_, ?_, ?_, ?_, ?_⟩ <;> (try simp only [Issues, Unused, Live]) <;> decide

theorem witness_Messages :
    (∀ q ∈ [0, 7, 8], let s := part3 (runs (word 0x10 0 1 2 0 0x1FFF)
        { CoreSt.init with s := [(1, 18), (2, 0x2FF00)], sendq := List.replicate q (msg18 .queued 0) })
      Issues s 17 0x10 0 ∧ Unused (s.dev.instr 17) false true true ∧ immOf (s.dev.instr 17) < 2 ^ 13 ∧ 0x2FF00 % 8 = 0 ∧
        spanOk 0x2FF00 256 = true ∧ s.dev.lbad 17 0x2FF00 256 = false ∧ (s.dev.core 17).sendq.length = q ∧
        s.dev.corePart 17 = some 3 ∧ s.dev.corePart 18 = some 3) ∧
    (∀ fn ∈ [1, 2], ∀ q ∈ [[], [msg18 .acked 0]],
      let s := runs (word 0x10 3 1 0 fn 0) { CoreSt.init with s := [(1, 0x53FF8)], recvq := q }
      Issues s 17 0x10 fn ∧ Unused (s.dev.instr 17) true true false ∧ immOf (s.dev.instr 17) = 0 ∧ 0x53FF8 % 8 = 0 ∧
        (s.dev.core 17).recvq = q ∧ spanOk 0x53FF8 8 = true) ∧
    (∀ p ∈ [MsgPhase.queued, .acked, .nacked, .backoff, .failing 3],
      let s := runs 0 { CoreSt.init with sendq := [msg18 p 0] }
      Live s ∧ (s.dev.core 17).sendq[0]? = some (msg18 p 0) ∧ s.dev.meshLost 1 1 = false ∧ s.dev.coreEnabled 18 = true ∧
        (s.dev.core 18).recvq.length < 32 ∧ s.dev.coreCurtained 18 = false ∧
        (on s (fun d => d.wr CORE_SEQ_TENANT.TENANT 5 18)).dev.rd CORE_SEQ_TENANT.TENANT 18 = 5 ∧
        (on s (fun d => d.wr DARN_CORE_STATE.STATE 2 0 18)).dev.coreEnabled 18 = false ∧
        0 < s.dev.rd CORE_MSG_CTRL.RETRY_LIMIT 17) ∧
    (let s := on (runs 0) (fun d => d.updCore 18 (fun k => { k with recvq := List.replicate 32 (msg18 .acked 0) }))
     32 ≤ (s.dev.core 18).recvq.length) := by
  refine ⟨?_, ?_, ?_, ?_⟩ <;> (try simp only [Issues, Unused, Live]) <;> decide

/-- A halted channel, and a channel with a descriptor that has begun. -/
def halted : DmaCh := { DmaCh.init with halted := true, cause := 2, q := [dmaEnt 0 1 0x88000000 0] }

theorem witness_DmaCommands :
    (∀ m ∈ [1, 64], let s := at17 (word 0x14 3 1 2 0 7) [(1, 0x2F800), (2, BitVec.ofNat 64 m)]
      Issues s 17 0x14 0 ∧ Unused (s.dev.instr 17) true true true ∧ immOf (s.dev.instr 17) < 8 ∧ 0x2F800 % 32 = 0 ∧
        spanOk 0x2F800 (32 * m) = true ∧ (s.dev.ch 17 7).halted = false ∧ (s.dev.ch 17 7).q.length + m ≤ 64) ∧
    (let s := withDma (word 0x14 3 1 2 0 7) [(1, 0x2F800), (2, 1)] [(7, halted)]
     Issues s 17 0x14 0 ∧ (s.dev.ch 17 7).halted = true) ∧
    (∀ ch ∈ [[], [(7, halted)]], let s := withDma (word 0x14 3 1 2 1 (7 * 2 ^ 28 + 8191)) [(1, 0x88000000), (2, 0), (3, 5)] ch
      Issues s 17 0x14 1 ∧ W64.bits (s.dev.instr 17) 27 13 = 0 ∧ daOf 0x88000000 = some 0x88000000 ∧
        (s.dev.ch 17 7).halted = !ch.isEmpty) ∧ spanOk 0 (32 * 1024) = true ∧
    (∀ fn ∈ [2, 3], ∀ ch ∈ [[], [(7, halted)], [(7, { halted with halted := false })]],
      let s := withDma (word 0x14 3 0 0 fn 7) [] ch
      Issues s 17 0x14 fn ∧ Unused (s.dev.instr 17) true false false ∧ immOf (s.dev.instr 17) < 8) ∧
    (∀ n ∈ [7, 15], let s := withDma (word 0x14 0 0 0 4 n) [] [(7, halted)]
      Issues s 17 0x14 4 ∧ Unused (s.dev.instr 17) false false false ∧ immOf (s.dev.instr 17) < 16 ∧
        (s.dev.ch 17 (immOf (s.dev.instr 17) % 8)).halted = true ∧ (s.dev.ch 17 6).halted = false) ∧
    (∀ p ∈ [(dmaEnt 0 1 0x88000000 0, true, true, 0), (dmaEnt (2 ^ 28) 1 7 0x2FFE0, true, true, 1),
        (dmaEnt (2 ^ 29) 0 0 0, true, true, 2), (dmaEnt 0 0 0 0, false, true, 0), (dmaEnt (2 ^ 28) 2 7 0x2FFE0, true, false, 1)],
      let s := withDma 0 [] [(2, { DmaCh.init with q := [p.1] })]
      let e := DmaDesc.ofRaw p.1.raw
      Live s ∧ (s.dev.ch 17 2).q = [p.1] ∧ (s.dev.ch 17 2).begun = false ∧ (s.dev.ch 17 2).halted = false ∧ p.1.kv = none ∧
        p.1.ue = none ∧ p.1.badDa = none ∧ e.bad = !p.2.1 ∧ (e.bad = false → e.localOk = p.2.2.1) ∧ e.kind = p.2.2.2) ∧
    (∀ p ∈ [(1, 0x100, true), (2, 0x100, true)],
      let ent := dmaEnt (2 ^ 28) p.1 7 p.2.1
      let s := withDma 0 [] [(2, { DmaCh.init with q := [ent], begun := true, pos := 0 })]
      let r := s.dev.dmaChunk 17 2 (DmaDesc.ofRaw ent.raw) 0
      r.halt = none ∧ r.done = (DmaDesc.ofRaw ent.raw).total) ∧
    (let ent := dmaEnt 0 1 0x7F8000000000 0
     let s := withDma 0 [] [(2, { DmaCh.init with q := [ent], begun := true })]
     (s.dev.dmaChunk 17 2 (DmaDesc.ofRaw ent.raw) 0).halt = some (1, 0x7F8000000000, 1, none)) := by
  refine ⟨?_, ?_, ?_, ?_, ?_, ?_, ?_, ?_, ?_⟩ <;> (try simp only [Issues, Unused, Live]) <;> decide

theorem witness_AHaltedChannel : 7 < 8 ∧ 2 ^ 48 - 1 < 2 ^ 48 ∧ 6 ≠ 7 := by decide

/-- A descriptor from its fields. -/
def dsc (fmt base c0 c1 c2 s0 s1 : Nat) : BitVec 256 :=
  BitVec.ofNat 256 (fmt * 2 ^ 28 + base + (c1 * 2 ^ 16 + c0) * 2 ^ 32 + c2 * 2 ^ 64 + s0 * 2 ^ 96 + s1 * 2 ^ 128)

/-- One step, one vector, BF16 weights and activations: 16 columns of four arrays, or of the chain. -/
def mxRegs (ganged : Bool) : FMap (BitVec 256) :=
  [(0, dsc 0 0x40000 16 (if ganged then 1 else 4) 1 4 0x4000), (1, dsc 1 0 512 1 1 2 0),
   (2, dsc 1 0x1000 (if ganged then 32 else 8) 1 1 2 0)]

theorem witness_MatrixInstructions :
    (∀ fn < 3, let s := runs (word 0x20 0 1 2 fn 1) { CoreSt.init with desc := mxRegs (fn == 2) }
      let w := s.dev.instr 17
      Issues s 17 0x20 fn ∧ mmFieldsOk w = true ∧
        descTrap w [s.dev.desc 17 (rdOf w), s.dev.desc 17 (raOf w), s.dev.desc 17 (rbOf w)] = none ∧
        mmWmx w = false ∧ mmXmx w = false ∧
        mmShapeOk w (s.dev.desc 17 0) (s.dev.desc 17 1) (s.dev.desc 17 2) (s.dev.desc 17 0) (s.dev.desc 17 0) = true) ∧
    (∀ fx ∈ [[], [ArrayFx.tile 0 0 0 0 0]],
      let j : MxJob := ⟨word 0x20 0 1 2 0 1, 0, 0, 2 ^ 28, 2 ^ 28, 0, 0, 0, false, 0, 0⟩
      let s := runs 0 { CoreSt.init with mxq := [j] }
      Live s ∧ (s.dev.core 17).mxq = [j] ∧
        (mxRun 17 j fx (s.dev.updCore 17 (fun k => { k with mxq := [] }))).codes = fx.map (fun _ => 0x204)) ∧
    (∀ q ∈ [[], [(⟨0, 0, 0, 0, 0, 0, 0, 0, false, 0, 0⟩ : MxJob)]],
      let s := runs (word 0x21 3 0 0 0 0) { CoreSt.init with mxq := q }
      Issues s 17 0x21 0 ∧ Unused (s.dev.instr 17) true false false ∧ immOf (s.dev.instr 17) = 0 ∧ (s.dev.core 17).mxq = q) ∧
    5 ≤ (List.replicate 5 (⟨0, 0, 0, 0, 0, 0, 0, 0, false, 0, 0⟩ : MxJob)).length := by
  refine ⟨?_, ?_, ?_, ?_⟩ <;> (try simp only [Issues, Unused, Live]) <;> decide

theorem witness_MatrixProducts :
    (⟨8, 0, 0, 0, 1, [], [], false, []⟩ : MxPlan).fx = [] ∧ mmZero (word 0x20 0 1 2 0 (2 ^ 27 + 1)) = true ∧
    mmZero (word 0x20 0 1 2 0 1) = false ∧ (runs 0).dev.lbad 17 0x40000 4 = false := by decide

/-- Sixteen FP32 values, and sixteen of INT32. -/
def f32s (base : Nat) : BitVec 256 := dsc 0 base 16 1 1 4 0
def i32s (base : Nat) : BitVec 256 := dsc 9 base 16 1 1 4 0

/-- Core 17 with descriptors 0 to 2, at a vector instruction. -/
def vec (op fn rb imm : Nat) (dd da db : BitVec 256) : State :=
  runs (word op 0 (if op = 0x2E ∧ fn = 2 then 0 else 1) rb fn imm) { CoreSt.init with desc := [(0, dd), (1, da), (2, db)] }

theorem witness_VectorInstructionsIssue :
    (∀ fn < 9, VectorReady (vec 0x28 fn 2 0 (f32s 0) (f32s 64) (f32s 128)) 17 ∧
      VectorReady (vec 0x29 fn 0 0x3F800000 (f32s 0) (f32s 64) 0) 17 ∧ VectorReady (vec 0x2A fn 31 0 (f32s 0) (f32s 64) 0) 17) ∧
    (∀ fn ∈ [16, 17, 18, 19, 20, 21, 22, 23, 24, 25], VectorReady (vec 0x28 fn 2 0 (i32s 0) (i32s 64) (i32s 128)) 17 ∧
      VectorReady (vec 0x29 fn 0 5 (i32s 0) (i32s 64) 0) 17 ∧ VectorReady (vec 0x2A fn 31 0 (i32s 0) (i32s 64) 0) 17) ∧
    (∀ fn < 13, VectorReady (vec 0x2B fn 0 0x3F800000 (f32s 0) (f32s 64) 0) 17 ∧
      VectorReady (vec 0x2C fn 2 0x3F800000 (f32s 0) (f32s 64) (f32s 128)) 17) ∧
    (∀ fn < 6, VectorReady (vec 0x2D fn (if fn = 5 then 2 else 0) 2 (dsc 0 0 1 1 1 0 0) (f32s 64) (f32s 128)) 17) ∧
    (∀ fn < 6, VectorReady (vec 0x2E fn (if fn = 5 then 2 else 0) 0 (f32s 0) (f32s 64) (f32s 128)) 17) := by
  refine ⟨?_, ?_, ?_, ?_, ?_⟩ <;> simp only [VectorReady, Live] <;> decide

theorem witness_AttentionInstructionsIssue :
    AttentionReady (runs (word 0x32 0 0 3 0 0) { CoreSt.init with desc := [(0, i32s 0)] }) 17 0x32 0 ∧
    AttentionReady (runs (word 0x32 0 1 0 1 (4 * 2 ^ 34)) { CoreSt.init with
      desc := [(0, dsc 0 0 4 1 1 4 0), (1, dsc 0 64 2 1 1 4 0), (4, dsc 9 128 1 1 1 4 0)] }) 17 0x32 1 ∧
    AttentionReady (runs (word 0x32 0 0 3 2 0) { CoreSt.init with desc := [(0, f32s 0)] }) 17 0x32 2 ∧
    AttentionReady (runs (word 0x33 0 1 2 0 (4 * 2 ^ 34)) { CoreSt.init with
      desc := [(0, f32s 0), (1, f32s 64), (2, dsc 0 128 2 1 1 4 0), (4, dsc 0 192 1 1 1 4 0)] }) 17 0x33 0 ∧
    AttentionReady (runs (word 0x33 0 1 0 1 (4 * 2 ^ 34)) { CoreSt.init with
      desc := [(0, dsc 0 0 8 1 1 4 0), (1, f32s 64), (4, dsc 0 192 8 1 1 4 0)] }) 17 0x33 1 ∧
    AttentionReady (runs (word 0x33 0 1 2 2 0) { CoreSt.init with
      desc := [(0, f32s 0), (1, f32s 64), (2, dsc 0 128 1 1 1 4 0)] }) 17 0x33 2 ∧
    (∀ q ∈ [([] : List VPend), [⟨0, [], [(0, 4)], 1, false, []⟩]],
      let j : VJob := ⟨word 0x28 0 1 2 0 0, 0, (f32s 0).toNat, (f32s 64).toNat, (f32s 128).toNat, 0, 0, false, true⟩
      let s := runs 0 { CoreSt.init with vq := [j], vwr := q }
      Live s ∧ (s.dev.core 17).vq = [j] ∧ vMayStart (s.dev.core 17) j (vecPlan s.dev 17 j) = q.isEmpty ∧
        (vecPlan s.dev 17 j).bad = [] ∧ (vecPlan s.dev 17 j).badD = []) ∧
    (∀ cs ∈ [[], [0x301]], let p : VPend := ⟨0, [(0x40, 4, 7)], [], 1, false, cs⟩
      let s := runs 0 { CoreSt.init with vwr := [p] }
      Live s ∧ (s.dev.core 17).vwr = [p] ∧
        (p.writes.foldl (fun r x => vPut 17 p.destRead x r)
          (s.dev.updCore 17 (fun k => { k with vwr := [] }), false)).2 = false ∧ p.codes = cs) := by
  refine ⟨?_, ?_, ?_, ?_, ?_, ?_, ?_, ?_⟩ <;> (try simp only [AttentionReady, Issues, Live]) <;> decide

theorem witness_VectorElementResults :
    ∀ fn ∈ [0, 1, 2, 4, 5, 6, 7, 8, 16, 17, 18, 19, 20, 21, 22, 23, 24, 25],
      let dd := Desc.ofBits (f32s 0).toNat
      fnOf (word 0x28 0 1 2 fn 0) = fn ∧ fnOf (word 0x29 0 1 0 fn 7) = fn ∧ 15 < dd.vals ∧
        15 < (codes (runs 0).dev 17 dd).length ∧ ((codes (runs 0).dev 17 dd).getD 15 (0, true)).2 = false := by decide
/-- A context record of tenant 5 in partition 3: STATE, LENGTH, NPAGES, LIST_CAP; list at 0x88002000, pool at 0x88001000,
rows of 32 B, so 256 tokens to a page of 16 KiB. -/
def ctxRec (st len n cap : Nat) : Nat :=
  st * 2 ^ 29 + 3 * 2 ^ 18 + 5 + len * 2 ^ 32 + n * 2 ^ 80 + 0x88002000 * 2 ^ 96 + cap * 2 ^ 144 + 0x88001000 * 2 ^ 160 + 5 * 2 ^ 320

/-- Context 1 of partition 3 holds a record, its pool's cue is 73, READY with a count of 0. -/
def seqOn (rec : Nat) (s : State) : State :=
  let s := withDev (withDev (part3 s) PART_Pp_SEQ_RANGE.COUNT 4 3) PART_Pp_SEQ_BASE.DA 0x88000000 3
  on s (fun d =>
    let d := (d.mwrN 0x88000040 rec 64).mwrN 0x88001000 (73 + 0x88003000 * 2 ^ 32 + 10 * 2 ^ 96) 20
    ((d.wr CL_CUE_Sj.STATE 1 1 9).wr CL_CUE_Oj.TENANT 5 1 9).wr CL_CUE_Lj.LIMIT 0xFFFFFF 1 9)

def seqSt (rec : Nat) (k : CoreSt) : State := seqOn rec (runs 0 k)

/-- Whether the agent answers at once: 0 it does, 1 the admission waits, 2 the context could not be opened. -/
def seqEnds (s : State) (q : SeqReq) : Nat :=
  match s.dev.ctxOpen 17 q.ra (seqLim q.fn) with
  | (.inr _, _) => 2
  | (.inl (p, da, rec), e) =>
    if (e.seqDo (daCore da / 16) p (e.rd CORE_SEQ_TENANT.TENANT 17) 17 q.ra da rec q).1.isSome then 0 else 1

theorem witness_SequenceInstructions :
    (∀ fn < 9, let s := at17 (word 0x30 3 1 0 fn 0) [(1, 1)]
      Issues s 17 0x30 fn ∧ seqFieldsOk fn (s.dev.instr 17) = true) ∧
    (let s := runs 0 { CoreSt.init with seqReq := some ⟨6, 2 ^ 15, 0, 0⟩ }
     Live s ∧ (s.dev.core 17).seqReq = some ⟨6, 2 ^ 15, 0, 0⟩ ∧ (s.dev.core 17).seqHeld = none) ∧
    (let s := runs 0 { CoreSt.init with seqReq := some ⟨1, 1, 1, 1⟩, seqHeld := some ⟨1, 0x88000040, 1, 73, 1⟩ }
     Live s ∧ (s.dev.core 17).seqReq = some ⟨1, 1, 1, 1⟩ ∧ (s.dev.core 17).seqHeld = some ⟨1, 0x88000040, 1, 73, 1⟩) ∧
    (seqEnds (runs 0) ⟨6, 2 ^ 15 - 1, 0, 0⟩ = 2 ∧ seqEnds (seqSt (ctxRec 1 0 0 9) CoreSt.init) ⟨6, 1, 0, 0⟩ = 0 ∧
      seqEnds (seqSt (ctxRec 1 0 0 9) CoreSt.init) ⟨1, 1, 1, 1⟩ = 1) ∧
    (∀ f ∈ [0, 0x401], let s := runs 0 { CoreSt.init with seqAns := some (6, f), wait := .seq 3 }
      Live s ∧ (s.dev.core 17).seqAns = some (6, f) ∧ (s.dev.core 17).wait = .seq 3) ∧
    (let s := runs 0 { CoreSt.init with seqHeld := some ⟨1, 0x88000040, 1, 73, 1⟩, cueAns := [.wake 73 1 0] }
     Live s ∧ (s.dev.core 17).seqHeld = some ⟨1, 0x88000040, 1, 73, 1⟩ ∧ (s.dev.core 17).cueAns = [.wake 73 1 0]) ∧
    (runs 0).dev.clusterCurtained 1 = false := by
  refine ⟨?_, ?_, ?_, ?_, ?_, ?_, ?_⟩ <;> (try simp only [Issues, Live]) <;> decide +kernel

set_option exponentiation.threshold 400 in
theorem witness_ContextOperations :
    (∀ r ∈ [ctxRec 0 0 0 9, ctxRec 1 0 0 9, ctxRec 3 0 0 9, ctxRec 4 0 0 9, ctxRec 1 256 1 1],
      ctxT r ((runs 0).dev.pageSize 3) = some 256 ∧ ctxListCap r ≠ 0) ∧
    seqAllowed 0 1 false = false ∧ ctxState (ctxRec 4 0 0 9) = 4 ∧ 3 < 256 ∧ 5 < 2 ^ 12 ∧
    (ctxState (ctxRec 1 0 1 1) = 1 ∧ ctxLength (ctxRec 1 0 1 1) + 256 ≤ ctxNpages (ctxRec 1 0 1 1) * 256) ∧
    ctxNpages (ctxRec 1 0 1 1) * 256 < ctxLength (ctxRec 1 0 1 1) + 257 ∧ ctxLength (ctxRec 1 256 1 1) < 257 ∧
    ctxNpages (ctxRec 1 256 1 1) ≤ ceilDiv (ctxLength (ctxRec 1 256 1 1) - 255) 256 ∧
    ceilDiv (ctxLength (ctxRec 1 256 1 1) + 0) 256 = ctxNpages (ctxRec 1 256 1 1) ∧
    ctxListCap (ctxRec 1 256 1 1) < ceilDiv (ctxLength (ctxRec 1 256 1 1) + 1) 256 ∧ 12 ≤ 15 % 16 ∧
    ((part3 (runs 0)).dev.agentRefused 1 (some 3) 0x88000040 64 true).1 = false ∧
    ((part3 (runs 0)).dev.agentRefused 1 (some 3) (2 ^ 39) 64 true).1 = true := by
  refine ⟨?_, ?_, ?_, ?_, ?_, ?_, ?_, ?_, ?_, ?_, ?_, ?_, ?_, ?_⟩ <;> decide +kernel

/-- Core 17 at a near-bank instruction: RA an address in L6 of its slice, RB as given, and one FP32 result. -/
def pim (op fn imm rb : Nat) : State :=
  runs (word op 0 (if op = 0x37 ∧ fn = 1 then 0 else 1) (if op = 0x37 ∨ (op = 0x34 ∧ fn = 2) then 0 else 2) fn imm)
    { CoreSt.init with s := [(1, 0x8C800000), (2, BitVec.ofNat 64 rb)], desc := [(0, dsc 0 0x100 1 1 1 4 0)] }

/-- One row of one word. -/
def shape1 : Nat := 1 + 2 ^ 32

/-- A PDOT in the port of core 17. -/
def pdotJob (ra : Nat) (p : PimPhase) : PimJob := ⟨word 0x35 0 1 2 0 0, 0, ra, shape1, (dsc 0 0x100 1 1 1 4 0).toNat, p, 0, 0⟩

/-- The port of core 17 holds one command. -/
def port1 (j : PimJob) : State := part3 (runs 0 { CoreSt.init with pimq := [j] })

theorem witness_NearBankCommands :
    NearBankReady (pim 0x34 0 (7 * 2 ^ 19 + 1) 0x2FF00) 17 0x34 0 ∧ NearBankReady (pim 0x34 1 (2 ^ 22 + 2 ^ 19) 0x2FF80) 17 0x34 1 ∧
    NearBankReady (pim 0x34 2 0xFFFF 0) 17 0x34 2 ∧ NearBankReady (pim 0x35 0 7 shape1) 17 0x35 0 ∧
    NearBankReady (pim 0x36 0 0 (16384 * 2 ^ 32)) 17 0x36 0 ∧ NearBankReady (pim 0x37 0 0 0) 17 0x37 0 ∧
    NearBankReady (pim 0x37 1 0 0) 17 0x37 1 ∧
    (let s := port1 (pdotJob 0x8C800000 .queued)
     s.dev.pimOrder 17 0 (pdotJob 0x8C800000 .queued) = true ∧ (s.dev.pimCheck 17 (pdotJob 0x8C800000 .queued)).1 = none ∧
       (s.dev.pimCheck 17 (pdotJob 0x8C800000 .queued)).2.pimRoom (pdotJob 0x8C800000 .queued) = true ∧
       (with17 s CORE_SLC_PIM_CTRL.WIN_BANKS 0).dev.pimRoom (pdotJob 0x8C800000 .queued) = false ∧
       (s.dev.pimCheck 17 (pdotJob 0 .queued)).1 = some 0x501) ∧
    (let a := { pdotJob 0x8C800000 .running with arr := 0 }
     let b := { pdotJob 0x8C800000 .waiting with arr := 1 }
     let s := part3 (runs 0 { CoreSt.init with pimq := [a, b] })
     Live s ∧ (s.dev.core 17).pimq[1]? = some b ∧ s.dev.pimBehind b = true ∧ s.dev.pimBehind a = false) ∧
    (let f := { pdotJob 0 .queued with word := word 0x37 0 0 0 1 0 }
     let s := part3 (runs 0 { CoreSt.init with pimq := [f, pdotJob 0x8C800000 .queued] })
     s.dev.pimOrder 17 0 f = true ∧ f.op = 0x37 ∧ s.dev.pimOrder 17 1 (pdotJob 0x8C800000 .queued) = false) ∧
    (let s := withDev (part3 (runs 0 { CoreSt.init with pimq := List.replicate 16 (pdotJob 0x8C800000 .waiting) }))
       DARN_CL_ORPHAN.ORPHAN 2 1
     pimDaOk 0x8C800000 = true ∧ s.dev.orphan 17 = true ∧ 16 ≤ s.dev.pimHeld 17) ∧
    (∀ p ∈ [PimPhase.paused, .waiting, .running, .discarded 0x501], let s := port1 (pdotJob 0x8C800000 p)
      Live s ∧ (s.dev.core 17).pimq[0]? = some (pdotJob 0x8C800000 p)) := by
  refine ⟨?_, ?_, ?_, ?_, ?_, ?_, ?_, ?_, ?_, ?_, ?_, ?_⟩ <;> (try simp only [NearBankReady, Issues, Live]) <;> decide

theorem witness_BankRegisters :
    ((runs 0).dev.pimUnit 17 31).tenant ≠ some 5 ∧
    (let d := (runs 0).dev.setPimUnit 17 31 { PimUnit.init with tenant := some 5 }; (d.pimUnit 17 31).tenant = some 5) ∧
    (let j : PimJob := ⟨word 0x34 0 1 0 2 0x8001, 0, 0x8D000000, 0, 0, .queued, 0, 0⟩; 31 ∈ j.units ∧ 30 ∉ j.units) ∧ 15 < 16 ∧ 30 ≠ 31 := by
  refine ⟨?_, ?_, ?_, ?_, ?_⟩ <;> decide

theorem witness_CueInstructions :
    (∀ q ∈ [0, 15, 16], let s := on (at17 (word 0x38 0 1 0 0 255) [(1, 0x3FFF)]) (fun d =>
        { d with cueOps := List.replicate q ⟨.core 17 0, 0, 0x3FFF, 1, false, 5, some 3⟩ })
      Issues s 17 0x38 0 ∧ cueFieldsOk 0 (s.dev.instr 17) = true ∧ s.dev.meshLost 1 255 = false ∧
        (s.dev.cueOps.filter (fun o => o.fn == 0 && o.req.id == 4 * 17)).length = q) ∧
    (∀ p ∈ [(0, 0x4000, 0), (1, 0x3FFF, 0), (1, 0x4000, 2 ^ 31), (2, 0x4000, 0), (3, 0x3FFF, 0), (4, 0x3FFF, 0),
        (5, 0x3FFF, 0), (6, 0x3FFF, 0), (7, 0x3FFF, 0)],
      let s := at17 (word 0x38 (if p.1 = 0 then 0 else 3) 1 0 p.1 (p.2.2 + (if p.1 < 4 then 1 else 0))) [(1, BitVec.ofNat 64 p.2.1)]
      Issues s 17 0x38 p.1 ∧ cueFieldsOk p.1 (s.dev.instr 17) = true ∧ (s.dev.sreg 17 1).toNat = p.2.1 ∧
        (p.1 == 1 && W64.bits (s.dev.instr 17) 31 31 == 1) = decide (p.2.2 ≠ 0)) := by
  refine ⟨?_, ?_⟩ <;> (try simp only [Issues, Live]) <;> decide

/-- Cue 0x3FFF with a count and a limit, READY. -/
def cueSt (count limit : Nat) : Dev :=
  ((Dev.reset.wr CL_CUE_Sj.STATE 1 255 63).wr CL_CUE_Sj.COUNT count 255 63).wr CL_CUE_Lj.LIMIT limit 255 63

theorem witness_CueOperations :
    (∀ p ∈ [(3, 5), (0, 0xFFFFFF)], let d := cueSt p.1 p.2
      0x3FFF < 2 ^ 14 ∧ d.cueWaiters 0x3FFF = [] ∧ d.cueCount 0x3FFF = p.1 ∧ d.cueLimit 0x3FFF = p.2 ∧
        (d.waiters.filter (fun w => cueCluster w.cue == cueCluster 0x3FFF)).length < 256) ∧
    (3 + 2 ≤ 5 ∧ 5 < 2 ^ 24 ∧ 5 < 3 + 3 ∧ 3 ≤ 3 ∧ 5 < 6 ∧ 3 < 4 ∧ 4 ≤ 5) ∧
    ((2 ^ 24 * 7 + 7) % 2 ^ 24 ≤ (2 ^ 24 * 7 + 7) / 2 ^ 24 % 2 ^ 24 ∧ (2 ^ 24 * 7 + 7) / 2 ^ 24 % 2 ^ 24 ≠ 0) ∧
    ({ cueSt 0 5 with waiters := [⟨0x3FFF, 17, 1, false⟩] } : Dev).cueWaiters 0x3FFF ≠ [] := by
  refine ⟨?_, ?_, ?_, ?_⟩ <;> decide

/-- A WAIT of core 17 for one of cue 73, on its way. -/
def wait73 : CueOp := ⟨.core 17 0, 1, 73, 1, false, 5, some 3⟩

/-- Core 17 waits on cue 73 with a first answer. -/
def answered (a : List CueAns) (notrap cancelled : Bool) : State :=
  runs 0 { CoreSt.init with wait := .cue 1 73 3 notrap cancelled, cueAns := a }

/-- Cases of the register rows of ProgramControl, DmaCommands, CueHomes and CacheWork: outside a Curtain, inside one, and a
cluster that is not ENABLED. -/
theorem witness_register_rows :
    (let d := (runs 0).dev
     let k := { d with curtains := [⟨.cluster 1, [1], [], .rst 1, none⟩] }
     d.coreCurtained 17 = false ∧ k.coreCurtained 17 = true ∧ d.clusterEnabled 1 = true ∧ d.clusterCurtained 1 = false ∧
       k.clusterEnabled 1 = true ∧ k.clusterCurtained 1 = true ∧
       (d.wr DARN_CL_STATE.STATE 1 0 1).clusterEnabled 1 = false) := by
  decide +kernel

theorem witness_CueHomes :
    (∀ fn ∈ [1, 2, 3, 6], let s := on (seqSt 0 CoreSt.init) (fun d => { d with cueOps := [{ wait73 with fn := fn }] })
      Live s ∧ s.dev.cueOps = [{ wait73 with fn := fn }] ∧ s.dev.meshLost 1 1 = false ∧ fn ≠ 0) ∧
    (∀ a ∈ [CueAns.value 1, .refused 5 73, .wake 73 1 0], ∀ nt, let s := answered [a] nt false
      (s.dev.core 17).cueAns = [a] ∧ (s.dev.core 17).wait = .cue 1 73 3 nt false ∧ s.dev.coreCurtained 17 = false) ∧
    (let s := runs 0 { CoreSt.init with cueAns := [.wake 73 1 0] }; (s.dev.core 17).wait = .run) ∧
    (let s := on (answered [] false true) (fun d => { d with waiters := [⟨73, 17, 1, false⟩] })
     (s.dev.core 17).wait = .cue 1 73 3 false true ∧ s.dev.cueOps = [] ∧ s.dev.waiters.any (fun w => w.core == 17) = true) ∧
    (((answered [.nack wait73] false false).dev.core 17).cueAns = [.nack wait73]) ∧
    (∀ kind ∈ [3, 4], ((runs 0 { CoreSt.init with sigRef := [(kind, 9, 73)] }).dev.core 17).sigRef = [(kind, 9, 73)]) ∧
    (let d := (seqSt 0 CoreSt.init).dev
     d.bit CL_CUE_STAT.BUSY 1 = false ∧ d.cueState (cueNum 1 9) ≠ 0 ∧ d.cueState (cueNum 1 8) = 0 ∧ d.rd CL_CUE_ARG0.VALUE 1 = 0 ∧
       (d.wr CL_CUE_ARG0.VALUE 1 1).rd CL_CUE_ARG0.VALUE 1 ≠ 0 ∧ (d.wr CL_CUE_STAT.BUSY 1 1).bit CL_CUE_STAT.BUSY 1 = true) := by
  refine ⟨?_, ?_, ?_, ?_, ?_, ?_, ?_⟩ <;> (try simp only [Live]) <;> decide

/-- Context 63 of half 0 is OPEN with core 17 as its one member. -/
def barr (w : W64) (tenant : Nat := 5) : State :=
  on (runs w) (fun d => (((d.wr BARR_CLMASKn_w.CLUSTERS 2 0 63 0).wr BARR_CMASKn_i.CORES_HI 2 0 63 0).wr
    BARR_STATn.STATE 1 0 63).wr BARR_CTRLn.TENANT tenant 0 63)

/-- Core 17 names context 63 in register 1 and GEN `g` in register 2. -/
def barr17 (w : W64) (g : Nat) (tenant : Nat := 5) : State :=
  on (barr w tenant) (fun d => d.updCore 17 (fun k => { k with s := [(1, 63), (2, BitVec.ofNat 64 g)] }))

theorem witness_Barriers :
    (∀ t ∈ [5, 6], let s := barr17 (word 0x39 3 1 0 0 (2 ^ 31)) 0 t
      Issues s 17 0x39 0 ∧ Unused (s.dev.instr 17) true true false ∧ immOf (s.dev.instr 17) % 2 ^ 31 = 0 ∧
        s.dev.barrRefusal 17 63 true = (if t = 5 then none else some 1)) ∧
    (∀ t ∈ [5, 6], let s := barr17 (word 0x39 3 1 0 1 0) 0 t
      Issues s 17 0x39 1 ∧ Unused (s.dev.instr 17) true true false ∧ immOf (s.dev.instr 17) = 0) ∧
    (∀ g ∈ [0, 0xFFFF], ∀ t ∈ [5, 6], let s := barr17 (word 0x39 3 1 2 2 0) g t
      Issues s 17 0x39 2 ∧ Unused (s.dev.instr 17) true true true ∧ immOf (s.dev.instr 17) % 2 ^ 31 = 0 ∧
        s.dev.barrGen 0 63 = 0 ∧ (s.dev.sreg 17 2).toNat % 2 ^ 16 = g ∧
        s.dev.barrRefusal 17 63 false = (if t = 5 then none else some 1)) ∧
    (let s := barr17 (word 0x39 3 1 0 3 0) 0
     Issues s 17 0x39 3 ∧ Unused (s.dev.instr 17) true true false ∧ immOf (s.dev.instr 17) = 0) ∧
    (let s := on (barr 0) (fun d => d.setArrivals 0 63 [17] [])
     Live s ∧ s.dev.barrState 0 63 = 1 ∧ s.dev.barrCluster 0 63 1 = true ∧ 1 ∉ s.dev.arrivedCls 0 63 ∧
       (s.dev.barrCoresOf 0 63 1).all (fun k => (s.dev.arrivedCores 0 63).contains k) = true) ∧
    (let d := (runs 0).dev.wr BARR_CTRLn.EN 1 1 63
     (runs 0).dev.bit BARR_CTRLn.EN 1 63 = false ∧ d.bit BARR_CTRLn.EN 1 63 = true ∧ d.rd BARR_CTRLn.SPAN 1 63 = 0 ∧
       d.rd BARR_CTRLn.RCUEV 1 63 = 0 ∧ d.rd BARR_CTRLn.RCUE 1 63 = 0 ∧ d.rd BARR_CTRLn.TENANT 1 63 = 0) := by
  refine ⟨?_, ?_, ?_, ?_, ?_, ?_⟩ <;> (try simp only [Issues, Unused, Live]) <;> decide

theorem witness_BarrierReleases :
    (∀ e < 2, let d := (barr 0).dev.wr BARR_CTRLn.RCUEV e 0 63
      d.bit BARR_CTRLn.SPAN 0 63 = false ∧ d.barrFull 0 63 = false ∧ (d.setArrivals 0 63 [17] [1]).barrFull 0 63 = true ∧
        (d.setArrivals 0 63 [17] [1]).barrSleepers 0 63 = [] ∧ d.bit BARR_CTRLn.RCUEV 0 63 = decide (e = 1)) ∧
    (∀ sp < 2, ∀ here ∈ [0, 1], let o := 1 - here
      let d := (((barr 0).dev.wr BARR_CTRLn.SPAN 1 here 63).wr BARR_CTRLn.SPAN sp o 63).wr BARR_CLMASKn_w.CLUSTERS 2 1 63 0
      let d := ((d.wr BARR_STATn.STATE 1 1 63).wr BARR_CMASKn_i.CORES_HI 2 1 63 0).setArrivals here 63 [17] [1]
      d.bit BARR_CTRLn.SPAN here 63 = true ∧ d.bit BARR_CTRLn.SPAN o 63 = decide (sp = 1) ∧ d.barrState o 63 = 1 ∧
        d.barrFull here 63 = true ∧ d.barrFull o 63 = false ∧ (d.setArrivals o 63 [17] [1]).barrFull o 63 = true ∧
        d.barrSleepers here 63 = [] ∧ d.barrSleepers o 63 = []) := by
  refine ⟨?_, ?_⟩ <;> decide

/-- An atomic of core 17 on a word of its slice. -/
def atomic (fn : Nat) (p : AtomPhase) : AtomJob := ⟨fn, false, true, 0, 3, 0x88000004, 1, 0, 0, 0, p, false, 0⟩

/-- Its line is in the home cache. -/
def cached (a : AtomJob) : State :=
  on (part3 (runs 0 { CoreSt.init with atomq := [a] })) (fun d =>
    { d with caches := [(1, { CacheSt.init with lines := [(cacheSet 1 0 * 16, ⟨1, 0, 0, false, 0, [], 0⟩)] })] })

theorem witness_Atomics :
    (∀ fn < 12, ∀ da ∈ [4, 6], let s := at17 (word 0x3C 3 1 2 fn 2) [(1, BitVec.ofNat 64 da)]
      Issues s 17 0x3C fn ∧ Unused (s.dev.instr 17) true true true ∧ immOf (s.dev.instr 17) < 4 ∧
        (immOf (s.dev.instr 17) % 2 == 1) = false ∧ (s.dev.core 17).atomq.length < 16) ∧
    (let s := at17 (word 0x3D 0 1 2 0 2) [(2, 0x2FF80)]
     Issues s 17 0x3D 0 ∧ Unused (s.dev.instr 17) false true true ∧ immOf (s.dev.instr 17) < 3 ∧ spanOk 0x2FF80 128 = true ∧
       s.dev.lbad 17 0x2FF80 128 = false) ∧
    (∀ a ∈ [128, 127], let s := at17 (word 0x3D 0 1 2 1 0) [(1, BitVec.ofNat 64 a)]
     Issues s 17 0x3D 1 ∧ Unused (s.dev.instr 17) false true true ∧ immOf (s.dev.instr 17) = 0) ∧
    (∀ p ∈ [AtomPhase.queued, .done 7 0, .done 0 0x601], let a := atomic 0 p
     let s := cached a
     let e := s.dev.atomRefused 0 17 a.da a.size
     Live s ∧ (s.dev.core 17).atomq[0]? = some a ∧ s.dev.clusterCurtained 1 = false ∧ (s.dev.cache 1).waits a.da = false ∧ e.1 = none ∧
       e.2.clusterEnabled (a.da / 2 ^ 31 % 256) = true ∧
       ((e.2.hintOf 1 1 0 none).2.findLine 1 (daCore a.da % 16) (lineIdx a.da)).isSome = true ∧ 1 = daCore a.da / 16 ∧
       (s.dev.atomRefused 0 17 0x1400000000 4).1 = some 3 ∧ s.dev.seenDa 0 a.da = a.da) ∧
    (daOff (0x90000000 - 128 * 16383) + 128 * 16383 ≤ 2 ^ 27) ∧
    16 ≤ (List.replicate 16 (atomic 0 .queued)).length := by
  refine ⟨?_, ?_, ?_, ?_, ?_, ?_⟩ <;> (try simp only [Issues, Unused, Live]) <;> decide

theorem witness_AtomicValues : 2 ^ 32 - 1 < 2 ^ (if false then 64 else 32) ∧ 2 ^ 64 - 1 < 2 ^ (if true then 64 else 32) ∧ 9 < 10 := by
  decide
/-- Core 17 at a KVLD of context 1 to channel 7 and descriptor 2, a ring of 64 B. -/
def kvldAt (ra walk rec : Nat) (ch : FMap DmaCh) : State :=
  seqOn rec (runs (word 0x31 3 1 2 0 (7 * 2 ^ 28 + 2 * 2 ^ 24))
    { CoreSt.init with s := [(1, BitVec.ofNat 64 ra), (2, BitVec.ofNat 64 walk)], desc := [(2, BitVec.ofNat 256 (64 * 2 ^ 192))],
                       dma := ch })

/-- The result of opening the context that RA names, as far as a walk needs it: its record. -/
def kvldRec (s : State) : Option Nat := match (s.dev.ctxOpen 17 1).1 with | .inl x => some x.2.2 | .inr _ => none

/-- A segment of one row of 32 B from the first page of the list. -/
def seg1 : KvSeg := ⟨0x88002000, 0, 1, 5, false, 16384, 0, 64, 0, none⟩

/-- A miss of core 17 that waits on its slice. -/
def fill17 (wr : Option Nat) : Fill := ⟨.core 17, 0x88000040, 8, wr, 0, none⟩

theorem witness_CacheWork :
    (∀ p ∈ [(2 ^ 15, ctxRec 1 256 1 1), (1, ctxRec 1 256 1 1), (1, ctxRec 3 0 0 1)],
      let s := kvldAt p.1 (2 ^ 32) p.2 []
      Issues s 17 0x31 0 ∧ W64.bits (s.dev.instr 17) 37 32 = 0 ∧ W64.bits (s.dev.instr 17) 23 0 = 0 ∧
        descTrap (s.dev.instr 17) [s.dev.desc 17 2] = none ∧ (s.dev.sreg 17 1).toNat = p.1 ∧ (s.dev.sreg 17 2).toNat / 2 ^ 62 % 2 = 0 ∧ kvldRec s = some p.2) ∧
    kvldRec (runs (word 0x31 3 1 2 0 0)) = none ∧
    (descTrap 0 [Desc.ofBits (15 * 2 ^ 28)]).isSome = true ∧
    (0 + 1 ≤ ctxNpages (ctxRec 1 256 1 1) * 256 ∧ ¬ (256 + 1 ≤ ctxNpages (ctxRec 1 256 1 1) * 256) ∧
      2 ^ ctxRowLog2 (ctxRec 1 256 1 1) ≤ ((kvldAt 1 0 0 []).dev.desc 17 2).ring ∧
      ((kvldAt 1 0 0 []).dev.ch 17 7).accepts 1 = true ∧ ((kvldAt 1 0 0 [(7, halted)]).dev.ch 17 7).accepts 1 = false) ∧
    (∀ e ∈ [0x88002000, 0x88000000 + 0x5800000], let x := { seg1 with entry := e }
      let s := seqSt (ctxRec 1 256 1 1) { CoreSt.init with dma := [(2, { DmaCh.init with q := [⟨0, none, none, some x⟩] })] }
      x.base % 32 = 0 ∧ inSeg x.base ((x.base / x.ring * x.ring : Nat) : Int) x.ring = true ∧ (s.dev.ch 17 2).halted = false ∧
        (s.dev.dmaRefused 17 (x.entry : Int) false).1 = (if e = 0x88002000 then none else some 1) ∧
        (e = 0x88002000 → (s.dev.cachedRead x.entry 4 none).1.ue = false ∧
          (Dev.kvCopy 17 x 0 2 0 32 (s.dev.cachedRead x.entry 4 none).2).halt = none ∧
          (Dev.kvCopy 17 x 0x5800000 2 0 32 (s.dev.cachedRead x.entry 4 none).2).halt.isSome = true)) ∧
    (let d := (cached (atomic 0 .queued)).dev
     ∀ w, (d.protWho (.core 17) 0x88000040 w).1 = true ∧ d.daRefused 0x88000040 = none ∧ 8 ≤ 128 - 0x88000040 % 128 ∧
       d.cacheOn 1 = true ∧ (d.cache 1).waits 0x88000040 = false ∧ (d.findLine 1 1 0).isSome = true ∧
       (d.findLine 1 1 1).isNone = true ∧ d.daRefused (0x88000000 + 0x5800000) = some 3 ∧
       (d.protWho (.core 17) 0x1400000000 w).1 = false) ∧
    (∀ wr ∈ [none, some 7], let d := { (runs 0).dev with caches := [(1, { CacheSt.init with fills := [fill17 wr] })] }
      (d.cache 1).fills[0]? = some (fill17 wr) ∧ d.adderHas 17 (0x88000040 / 128) = false ∧
        (let e := d.updSlice 17 (fun k => { k with addq := [⟨0x88000040, 1, 1, false, true, 17, 0⟩] })
         e.adderHas 17 (0x88000040 / 128) = true)) ∧
    (let d := (runs 0).dev
     d.bit CL_CACHE_STAT.BUSY 255 = false ∧ (d.wr CL_CACHE_STAT.BUSY 1 255).bit CL_CACHE_STAT.BUSY 255 = true ∧
       d.bit CL_CACHE_HINTWIN_CTRL.VALID 255 15 = false ∧
       (d.wr CL_CACHE_HINTWIN_CTRL.VALID 1 255 15).bit CL_CACHE_HINTWIN_CTRL.VALID 255 15 = true) := by
  refine ⟨?_, ?_, ?_, ?_, ?_, ?_, ?_⟩ <;> (try simp only [Issues, Live]) <;> decide +kernel

/-- The last backed byte of the slice of core 4095. -/
def lastByte : Nat := 4095 * 2 ^ 27 + 0x57FFFFF

theorem witness_SliceControllers :
    (let d := Dev.reset
     d.daRefused lastByte = none ∧ (d.loseSlice 4095).daRefused lastByte = some 4 ∧ d.daRefused (lastByte + 1) = some 3 ∧
       (d.slice 4095).copying.any (fun e => e.1 == rowKey (daOff lastByte)) = false ∧ 1 ≤ 2 ^ 27 - daOff lastByte ∧
       (lastByte - 4095) % 4096 = 0 ∧ d.daRefused (lastByte - 4095) = none ∧ 0xA5C33C5B ≠ 0xA5C33C5A) ∧
    (let d := Dev.reset.wr CORE_SLC_SCRUB.EN 1 4095
     d.bit CORE_SLC_SCRUB.EN 4095 = true ∧ (d.readWord lastByte 0 0 0 4).1.ue = false ∧
       (d.readWord lastByte (0x0101 : BitVec 288) (0x0101 : BitVec 288) 0 4).1.ue = true ∧
       (d.wr CORE_SLC_SCRUB.EN 0 4095).bit CORE_SLC_SCRUB.EN 4095 = false) ∧
    (let d := Dev.reset.updSlice 4095 (fun k => { k with addq := [⟨4095 * 2 ^ 27, 1, 1, false, true, 17, 0⟩] })
     (d.slice 4095).addq = [⟨4095 * 2 ^ 27, 1, 1, false, true, 17, 0⟩] ∧ (d.slice 4094).addq = []) := by
  refine ⟨?_, ?_, ?_⟩ <;> decide +kernel

/-- R300: an adder operation of a line reduction, which names 8 lanes, ends in error where another word of its line is
uncorrectable. That of another atomic does not. -/
theorem test_line_reduction_of_a_bad_line :
    (let bad := { Dev.reset with badw := [(4095 * 2 ^ 22 + 3, 0x0101)] }
     let op := fun (mask : Nat) => (⟨4095 * 2 ^ 27, 1, mask, false, false, 17, 0⟩ : AddOp)
     bad.lineBad (op 255) = true ∧ bad.lineBad (op 1) = false ∧ Dev.reset.lineBad (op 255) = false ∧
       (bad.adderRun (op 255)).1.ue = true ∧ (bad.adderRun (op 255)).2.mem = []) := by
  decide +kernel

theorem witness_SliceTestCommands :
    (let d := Dev.reset.wr CORE_SLC_TEST_ADDR.DA (4095 * 2 ^ 27 + 1151) 4095
     d.bit CORE_SLC_TEST_STAT.BUSY 4095 = false ∧ d.testDaOk 4095 = true ∧ Dev.reset.testDaOk 4095 = false ∧
       d.spareInUse 4095 7 15 15 = false ∧ d.rd CORE_SLC_TEST_ADDR.DA 4095 % 2048 < 1152 ∧ d.spareLaneUsed 4095 1151 = false ∧
       (d.wr CORE_SLC_TEST_STAT.BUSY 1 4095).bit CORE_SLC_TEST_STAT.BUSY 4095 = true ∧ (d.slice 4095).test = none) ∧
    (let d := Dev.reset.updSlice 4095 (fun k =>
       { k with spareUsed := [(127, List.range 16)], spareLane := [(35, 1120)], test := some 2, laneCnt := [(1151, 2 ^ 16)] })
     d.spareInUse 4095 7 15 15 = true ∧ d.spareLaneUsed 4095 1151 = true ∧ (d.slice 4095).test = some 2 ∧
       d.rd CORE_SLC_CTRL.LANE_LIMIT 4095 ≤ FMap.get (d.slice 4095).laneCnt 0 1151) ∧
    (rsDecode (foldSyms 0 ++ symsOf 0 36)).kind = 0 := by
  refine ⟨?_, ?_, ?_⟩ <;> decide +kernel

/-- Every Seam port is in service, and half 1 has one credit on port 15, channel 3. -/
def seamUp : Dev := (Dev.reset.wr SEAM_STAT.UP 0xFFFF 0).wr SEAM_Pn_CREDIT.ESC 1 1 15

/-- Half 1 is given a packet of `n` flits on channel 3. -/
def flits (n : Nat) : SeamOut := ⟨3, n, false, 5, 6⟩

/-- The DATA frame with a SEQ, as a packet of one flit. -/
def frame1 (q : Nat) : SeamFrame := ⟨1, 3, true, true, 0, q, 0, 4095, 5, 6⟩

theorem witness_MeshAndSeamFrames :
    (let d := Dev.reset
     linkExists 255 5 = true ∧ linkExists 255 0 = false ∧ d.linkDown 255 5 = false ∧
       (d.noteResend (8 * 255 + 5) 2).1 = false ∧ (d.noteResend (8 * 255 + 5) 1).1 = true ∧
       (d.wr CL_MESH_STAT.DOWN 32 255).linkDown 255 5 = true ∧ d.rd CL_MESH_CTRL.ERR_LIMIT 255 ≠ 0) ∧
    (seamUp.seamPeer 0 15 = 1 ∧ seamUp.seamRuns 1 15 = true ∧ (seamUp.seam 0 15).nakOut = false ∧
      ((seamUp.updSeam 0 15 (fun k => { k with nakOut := true })).seam 0 15).nakOut = true ∧
      (seamUp.sendData 1 15 (flits 1) 0 0).map Prod.fst = some (frame1 0) ∧
      (seamUp.sendData 1 15 (flits 2) 0 0).map (fun r => (r.1.last, (r.2.seam 1 15).packet)) = some (false, some ⟨3, 1, 0⟩) ∧
      (seamUp.seam 0 15).rxExp = 0 ∧ ((seamUp.updSeam 0 15 (fun k => { k with rxExp := 1 })).seam 0 15).rxExp ≠ 0 ∧
      ((Dev.reset.wr SEAM_STAT.UP 0 0).sendData 1 15 (flits 1) 0 0).isNone = true) ∧
    -- C0 and C1 of a frame, bit by bit; noise can make any frame arrive with KIND 4
    ((frame1 4095).body / 2 ^ 1152 = 0x1F000FFF + 4095 * 2 ^ 32 ∧ ∀ f : SeamFrame, ∃ noise, SeamFrame.read (f.word ^^^ noise) = none) ∧
    (let d := (seamUp.updSeam 0 15 (fun k => { k with replay := [⟨frame1 4095, 32⟩] })).updSeam 1 15
       (fun k => { k with rxExp := 4095, nakDue := true })
     (d.seam 1 15).nakDue = true ∧ (seamUp.seam 1 15).nakDue = false ∧ d.sendsFailed 15 = true ∧ seamUp.sendsFailed 15 = false ∧
       (((d.updSeam 1 15 (fun k => { k with nakDue := false })).takeCredits 0 1 15 (d.credits 1 15 0x7777)).seam 0 15).replay.findIdx?
        (fun f => f.frame.seq == 4095 % 4096) = some 0 ∧
       (d.noteResend (4096 + 15) (d.rd SEAM_CTRL.ERR_LIMIT 0)).1 = false ∧
       ((d.wr SEAM_CTRL.ERR_LIMIT 1 0).noteResend (4096 + 15) 1).1 = true) ∧
    (let d := ((Dev.reset.wr SEAM_PRBS.EN 1 1).wr SEAM_PRBS.PORT 15 1).wr SEAM_LOOP.MODE (2 * 4 ^ 15) 1
     d.bit SEAM_PRBS.EN 1 = true ∧ d.rd SEAM_PRBS.PORT 1 = 15 ∧ d.loopMode 1 15 = 2 ∧ 79 < 80 ∧
       Dev.reset.bit SEAM_PRBS.EN 1 = false) ∧
    (seamUp.portDown 15 = false ∧ (seamUp.wr SEAM_STAT.DOWN 0x8000 0).portDown 15 = true) := by
  refine ⟨?_, ?_, ⟨?_, fun f => ⟨f.word ^^^ 2 ^ 1182, ?_⟩⟩, ?_, ?_, ?_⟩
  case refine_4 => rw [← Nat.xor_assoc, Nat.xor_self, Nat.zero_xor]; simp only [SeamFrame.read]
                   rw [if_pos (Or.inl (by decide +kernel))]
  all_goals decide +kernel

/-- An epoch switch of both halves at each point of its course, and one of Half B alone. -/
def switches : List Switch :=
  [⟨[0, 1], [], false, false, [], []⟩, ⟨[0, 1], [(0, none), (1, none)], false, false, [], []⟩,
   ⟨[0, 1], [(0, some 1)], false, false, [], []⟩, ⟨[0, 1], [(0, none), (1, none)], true, false, [], []⟩,
   ⟨[0, 1], [(0, none), (1, none)], true, false, [1], []⟩, ⟨[0, 1], [(0, none), (1, none)], true, false, [1, 0], [1]⟩,
   ⟨[0, 1], [(0, none), (1, none)], true, false, [1, 0], [1, 0]⟩, ⟨[0, 1], [(0, some 1)], false, true, [], []⟩,
   ⟨[1], [(1, none)], true, false, [1, 0], [1]⟩]

theorem witness_EpochSwitches :
    (Dev.reset.switch = none ∧ ∀ w ∈ switches, ({ Dev.reset with switch := some w } : Dev).switch = some w) ∧
    (switches.map (fun w => (FMap.find w.answers 1).isNone && !w.cancel) =
      [true, false, true, false, false, false, false, false, false] ∧
     switches.map (fun w => w.parties.all (fun k => FMap.find w.answers k == some none)) =
      [false, true, false, true, true, true, true, false, true] ∧
     switches.map (fun w => w.answers.filterMap Prod.snd) = [[], [], [1], [], [], [], [], [1], []] ∧
     switches.map (fun w => decide (w.flip = true ∧ w.flipped = [])) =
      [false, false, false, true, false, false, false, false, false] ∧
     switches.map (fun w => decide (w.flipped = [1])) = [false, false, false, false, true, false, false, false, false] ∧
     switches.map (fun w => decide (0 ∈ w.flipped ∧ 0 ∉ w.drained)) =
      [false, false, false, false, false, true, false, false, true] ∧
     switches.map (fun w => decide (w.flipped = [1, 0] ∧ ∀ k ∈ w.parties, k ∈ w.drained)) =
      [false, false, false, false, false, false, true, false, true] ∧
     switches.map (fun w => decide (w.answers.length ≠ w.parties.length)) =
      [true, false, true, false, false, false, false, true, false] ∧
     switches.map (fun w => ({ Dev.reset with ctrlDown := true } : Dev).unheard w) =
      [true, true, true, true, true, true, true, true, false] ∧
     switches.map (fun w => w.cancel) = [false, false, false, false, false, false, false, true, false]) ∧
    (Dev.reset.ctrlDown = false ∧ ({ Dev.reset with ctrlDown := true, switch := switches[6]? } : Dev).switch.isSome = true ∧
      Dev.reset.oldRequests 0 = false ∧
      (Dev.reset.updCore 17 (fun k => { k with wait := .reg false false (2 ^ 47) 0 3 1 })).oldRequests 0 = true ∧
      (({ [0, 1].foldl (fun e k => ((e.wr HALF_STAT.CTRL_LOST 1 k).wr HALF_STAT.CTRL_UP 0 k).err 4 9 (unitHalf k 22 0) 0) Dev.reset with
        ctrlDown := true } : Dev).svc 5).switch = none) ∧
    (0x50000 < 0x100000 ∧ halfOf 0x50000 ≠ Dev.reset.entryHalf (.core 2047) ∧ halfOf 0x50000 = Dev.reset.entryHalf (.core 2048)) := by
  refine ⟨?_, ?_, ?_, ?_⟩ <;> decide +kernel

/-- Sensors of a device at 40 °C. -/
def cool : Dev :=
  let x : Sensor := { Sensor.init with raw := some 320 }
  { Dev.reset with layerS := [(0, x)], frontS := [(0, x)] }

/-- What a boot finds with one reference or none. -/
def found (ref0 : Bool) : BootIn := ⟨ref0, false, true, none, none, true, true, [], [(1, some 0)], [], []⟩

theorem witness_ResetsAndCurtains :
    (let d := Dev.reset
     d.bit SEQ_RST_RESULT.BUSY = false ∧ d.crst = false ∧ d.dark = false ∧ d.coreEnabled (0xFFF % 2 ^ 12) = true ∧
       (d.wr DARN_CORE_STATE.STATE 2 0 4095).coreEnabled 4095 = false ∧ d.clusterEnabled (0xFFF % 2 ^ 8) = true ∧
       (d.wr DARN_CL_STATE.STATE 3 0 255).clusterEnabled 255 = false ∧ d.joins.on = false ∧ d.armed = false ∧ d.curtains = [] ∧
       d.boot = none ∧ d.stopped = false ∧ (d.wr SEQ_RST_RESULT.BUSY 1).bit SEQ_RST_RESULT.BUSY = true ∧
       d.rd SEQ_CAUSE.WARMS = 0 ∧ (d.wr SEQ_CAUSE.WARMS 1).rd SEQ_CAUSE.WARMS ≠ 0) ∧
    ({ Dev.reset.coldBase with crst := true } : Dev).crst = true ∧
    (let k : Curtain := ⟨.core 4095, [], [4095], .rst 4095, none⟩; k.scope = .core 4095 ∧ k.into = none) ∧
    ({ Dev.reset with joins := { Joins.init with on := true } } : Dev).joins.on = true ∧
    (cool.cooled = true ∧ Dev.reset.cooled = false ∧ ({ cool with warm := some (.cooling, 1) } : Dev).warm = some (.cooling, 1) ∧
      ({ cool with armed := true } : Dev).dark = false) ∧
    (∀ r, let d := { cool with boot := some (found r), trip := true, stopped := true }
      d.dark = !r ∧ d.boot = some (found r) ∧ (found r).ref0 = r ∧ (found r).ref1 = false ∧ d.cooled = true) := by
  refine ⟨?_, ?_, ?_, ?_, ?_, ?_⟩ <;> decide +kernel

/-- A record of an error. -/
def errRec : ErrRec := ⟨2, 1, 0xFFFFFF, 2 ^ 47, 9⟩

theorem witness_DarnAndErrorLog :
    (Dev.reset.bit DARN_STAT.CMD_BUSY = false ∧ Dev.reset.stopped = false ∧ Dev.reset.dark = false ∧ Dev.reset.curtains = [] ∧
      Dev.reset.commit = none ∧ Dev.reset.recs = [] ∧ Dev.reset.bit DARN_STAT.COMMIT_BUSY = false) ∧
    (let u := 255 * 2 ^ 16 + 15 * 2 ^ 11
     u < 2 ^ 24 ∧ uidIsCore u 0 1 = true ∧ uidIsCore (u + 1) 0 1 = false ∧ uidCore u = 4095 ∧
       Dev.reset.coreEnabled 4095 = true ∧ (Dev.reset.wr DARN_CORE_STATE.STATE 3 0 4095).coreEnabled (uidCore u) = false) ∧
    (let u := 255 * 2 ^ 16 + 16 * 2 ^ 11 + 17 * 2 ^ 6
     u < 2 ^ 24 ∧ uidIsCluster u 17 = true ∧ uidInst u = 0 ∧ Dev.reset.clusterEnabled (uidCluster u) = true ∧
       uidIsCluster u 14 = false ∧ uidIsCluster (2 ^ 24 - 1) 17 = false) ∧
    (let u := 255 * 2 ^ 16 + 16 * 2 ^ 11 + 14 * 2 ^ 6 + 5
     uidIsCluster u 14 = true ∧ (linkPeer (uidCluster u) (uidInst u)).isSome = true ∧
       (linkPeer (uidCluster u) (uidInst u)).all (fun p => !Dev.reset.linkGone p (linkBack (uidInst u))) = true ∧
       Dev.reset.linkGone (uidCluster u) (uidInst u) = false) ∧
    (let u := 255 * 2 ^ 16 + 15 * 2 ^ 11 + 2 ^ 6 + 3
     uidIsCore u 1 4 = true ∧ (Dev.reset.rd DARN_CORE_STATE.ROW_USED 0 (uidCore u)).testBit (uidInst u) = false ∧
       ((Dev.reset.wr DARN_CORE_STATE.ROW_USED 8 0 4095).rd DARN_CORE_STATE.ROW_USED 0 (uidCore u)).testBit (uidInst u) = true ∧
       (Dev.reset.rd DARN_CORE_STATE.COL_USED 0 (uidCore u)).testBit (uidInst u) = false) ∧
    ((Dev.reset.wr DARN_STAT.CMD_BUSY 1).bit DARN_STAT.CMD_BUSY = true ∧
      ({ Dev.reset with darnCmd := some (1, 7) } : Dev).darnCmd = some (1, 7) ∧
      ({ Dev.reset with commit := some (7, []) } : Dev).commit = some (7, [])) ∧
    ({ Dev.reset with recs := [errRec] } : Dev).recs = [errRec] := by
  refine ⟨?_, ?_, ?_, ?_, ?_, ?_, ?_⟩ <;> decide

/-- Tenant 5 of function 65 in partition 3, with one transfer at a time. -/
def ten5 : Nat := 2 ^ 31 + 65 * 2 ^ 24 + 3 * 2 ^ 18 + 2 ^ 7

/-- Queue pair 2047 of tenant 5 is valid and holds one entry. -/
def paired (d : Dev) : Dev :=
  { ((d.wr HQ_QPn_CTRL.VALID 1 1 1023).wr HQ_QPn_CTRL.TENANT 5 1 1023).wr HQ_QPn_CTRL.SLOT 7 1 1023 with
    tenants := [(5, some ten5)], hqs := [(2047, { HqSt.init with sqPi := 1 })] }

def pairDev : Dev := paired Dev.reset

theorem witness_HostLinksAndPartitions :
    (Live State.reset ∧ Dev.reset.bit PCIE_STAT.UP 1 = false ∧ (Dev.reset.wr PCIE_STAT.UP 1 1).bit PCIE_STAT.UP 1 = true ∧ 63 < 64 ∧
      Dev.reset.rd SEQ_ID.PART = 0x0352 ∧ Dev.reset.rd SEQ_ID.REV = 0xA1 ∧ FMap.find Dev.reset.opts 0x0101 = none ∧
      FMap.find { Dev.reset with opts := [(0x0101, 0xFFFF0001)] }.opts 0x0101 = some (0xFFFF * 2 ^ 16 + 1)) ∧
    (∀ b, let d : Dev := { Dev.reset with irqHold := [(9, b)] }
      FMap.find d.irqHold 9 = some b ∧ FMap.find d.irqHold 8 = none) ∧
    (let d := Dev.reset.wr SEQ_STAT.READY 1
     let da := d.window 1 * 2 ^ 36 + (2 ^ 36 + 64) % 2 ^ 36
     d.bit SEQ_STAT.READY = true ∧ d.daRefused da = none ∧ 1 ≤ 64 ∧ 64 ≤ 128 - da % 128 ∧
       ((d.wr DARN_CL_ORPHAN.LOST 1 0 0).daRefused da).isSome = true ∧ Dev.reset.bit SEQ_STAT.READY = false) ∧
    (∀ o ∈ [56, 0x838], o % 8 = 0 ∧ o % 0x800 < 64 ∧ o % 0x800 / 8 = 7 ∧ pairDev.tenantEntry 5 = (some ten5, pairDev) ∧
      pairDev.tenantResetting 5 = false) ∧
    pairDev.doorbellHits 5 7 = [2047] ∧
    (let d := Dev.reset
     d.bit PART_RESULT.BUSY = false ∧ (d.wr PART_RESULT.BUSY 1).bit PART_RESULT.BUSY = true ∧
       d.bit PART_Pp_CTRL.VALID 0 63 = false ∧ (d.wr PART_Pp_CTRL.VALID 1 0 63).bit PART_Pp_CTRL.VALID 0 63 = true ∧
       (2 ^ 31 + 2 * 2 ^ 26) / 2 ^ 26 % 4 < 3 ∧ (2 ^ 31 + 2 * 2 ^ 26).testBit 31 = true ∧ (2 ^ 27).testBit 31 = false ∧
       0 / 2 ^ 26 % 4 = (d.wr PART_Pp_CTRL.VALID 1 0 63).rd PART_Pp_CTRL.PAGE_SIZE 0 63) := by
  refine ⟨?_, ?_, ?_, ?_, ?_, ?_⟩ <;> (try simp only [Live]) <;> decide +kernel

/-- An entry with an operation and a second word. -/
def entry (op w1 : Nat) : Nat := op * 2 ^ 28 + w1 * 2 ^ 32

/-- The command that an entry of queue pair 2047 starts as. -/
def entryCmd (e : Nat) : HqCmd := ⟨0, 5, e, 0, none, none, false⟩

/-- The device once queue pair 2047 has taken the entry. -/
def takenDev (d : Dev) (e : Nat) : Dev :=
  (d.wr HQ_QPn_IDX.SQ_CI 1 1 1023).updHq 2047 (fun s => { s with num := s.num + 1, cmds := s.cmds ++ [entryCmd e], flush := none })

/-- Cluster 255 belongs to partition 3, which has contexts. -/
def partDev : Dev :=
  { ((pairDev.wr PART_Pp_CLUSTERSw.MASK (2 ^ 31) 0 3 7).wr PART_Pp_SEQ_RANGE.COUNT 4 0 3).wr PART_Pp_SEQ_BASE.DA (0x88000000 + 4096 * 4095) 0 3 with
    partIn := [3] }

/-- Transfer 3 of queue pair 2047, under way. -/
def moving (op dir len pos : Nat) : HqCmd := ⟨3, 5, entry op len + dir * 2 ^ 24, pos, none, none, false⟩

def movingDev (k : HqCmd) : Dev := { pairDev with hqs := [(2047, { HqSt.init with sqPi := 1, num := 4, cmds := [k] })] }

theorem witness_HostQueueCommands :
    (∀ op < 16, let e := entry op (if op = 3 then 2 ^ 16 + 4095 else 0)
      QueueStarts pairDev 2047 e (entryCmd e) ten5 (takenDev pairDev e) ∧ (entryCmd e).op = op) ∧
    (let da := 2 ^ 47 + CORE_SEQ_CTRL.addr 4095 0 0
     ((takenDev pairDev (entry 8 0 + da * 2 ^ 128)).regAccess (.queue 1 1023) da 4 (some 0)).1 = none) ∧
    (let k := entryCmd (entry 3 (2 ^ 16 + 4095))
     let e := takenDev partDev (entry 3 (2 ^ 16 + 4095))
     QueueStarts partDev 2047 k.entry k ten5 e ∧ CoreNamed 2047 k ten5 e e ∧ e.rd CORE_SEQ_STAT.STATE k.coreNo ≠ 1 ∧ e.running k.coreNo = false) ∧
    (let k := entryCmd (entry 3 (2 ^ 16 + 4095))
     let d := partDev.wr CORE_SEQ_STAT.STATE 2 4095
     QueueStarts d 2047 k.entry k ten5 (takenDev d k.entry) ∧ CoreNamed 2047 k ten5 (takenDev d k.entry) (takenDev d k.entry) ∧
       (takenDev d k.entry).running k.coreNo = true) ∧
    (let e := takenDev pairDev (entry 4 4095)
     e.protReg 1 (tenPart ten5) (CORE_SEQ_CTRL.addr 4095 0 0) true = (false, e)) ∧
    (let e := takenDev pairDev (entry 7 0); e.ctxDa (tenPart ten5) 0 = none) ∧
    (∀ st ∈ [1, 2], let d := paired (seqOn (ctxRec st 0 0 9) State.reset).dev
      let e := takenDev d (entry 7 1)
      let r := e.agentRead (daCore 0x88000040 / 16) (some 3) 0x88000040 64
      QueueStarts d 2047 (entry 7 1) (entryCmd (entry 7 1)) ten5 e ∧ e.ctxDa 3 1 = some 0x88000040 ∧ r.1.isSome = true ∧
        ctxState (r.1.getD 0) = st ∧ ctxTenant (r.1.getD 0) = 5) ∧
    (let da := 2 ^ 47 + CORE_SEQ_CTRL.addr 4095 0 0
     ((takenDev partDev (entry 8 0 + da * 2 ^ 128)).regAccess (.queue 1 1023) da 4 (some 0)).1.isSome = true ∧
       ((takenDev partDev (entry 9 0 + da * 2 ^ 128)).regAccess (.queue 1 1023) da 4 none).1.isSome = true ∧
       ((takenDev pairDev (entry 9 0 + da * 2 ^ 128)).regAccess (.queue 1 1023) da 4 none).1 = none ∧
       (entryCmd (entry 9 0 + da * 2 ^ 128)).rawDa = da ∧ (entryCmd (entry 9 0 + da * 2 ^ 128)).clamps = 0) ∧
    (∀ op ∈ [1, 2], ∀ dir < 3, ∀ pos ∈ [0, 32], let k := moving op dir 32 pos
      ((movingDev k).hq 2047).cmds.find? (fun x => x.num == 3 && x.ended.isNone && x.op == op) = some k ∧
        (movingDev k).tenantEntry k.tenant = (some ten5, movingDev k) ∧ k.dir = dir ∧ k.len = 32) ∧
    (Dev.reset.hq 0 = HqSt.init) ∧
    (∀ b, let k : HqCmd := { moving 0 0 0 0 with ended := some (0, 7, 0), drop := b }
      ((movingDev k).hq 2047).cmds.find? (fun x => x.num == 3) = some k ∧ k.ended = some (0, 7, 0) ∧ k.cuev = false ∧ k.irq = false) ∧
    (Dev.reset.qpValid 2047 = false ∧ pairDev.qpValid 2047 = true ∧ 
      (let v := [HQ_QPn_CTRL.IRQ_EN, HQ_QPn_CTRL.SLOT, HQ_QPn_CTRL.VECTOR, HQ_QPn_CTRL.TENANT].foldl
         (fun v f => v + pairDev.rd f 1 1023 * 2 ^ f.lo) 0
       v.testBit 31 = false ∧ ([HQ_QPn_CTRL.IRQ_EN, HQ_QPn_CTRL.SLOT, HQ_QPn_CTRL.VECTOR, HQ_QPn_CTRL.TENANT].all (fun f =>
        v / 2 ^ f.lo % 2 ^ f.width == pairDev.rd f 1 1023)) = true)) := by
  refine ⟨?_, ?_, ?_, ?_, ?_, ?_, ?_, ?_, ?_, ?_, ?_, ?_⟩ <;> (try simp only [QueueStarts, CoreNamed]) <;> decide +kernel

/-- An entry whose length is clamped starts as well. -/
theorem witness_QueueStarts :
    (entryCmd (entry 1 33)).clamps = 1 ∧ ∃ e, QueueStarts pairDev 2047 (entry 1 33) (entryCmd (entry 1 33)) ten5 e := by
  refine ⟨by decide, _, ?_, ?_, ?_, ?_, ?_, ?_, ?_, ?_, ?_, ?_, ?_, ?_, rfl,
    fun h => absurd h (show ¬(entryCmd (entry 1 33)).cuev = true by decide)⟩
  all_goals decide +kernel

/-- Connection 8191 of tenant 5 in partition 3 with connection 17 of device 9; its ring holds 16 requests at 0x88000000. -/
def conn9 (st : Nat) : Conn :=
  { Conn.ofCtx (3 * 2 ^ 16 + 5 + (9 * 2 ^ 16 + 17) * 2 ^ 32 + 0x88000000 * 2 ^ 128) with st := st, rxE := 5, rxSet := [7] }

/-- Device 1 has the connection, port 7 is UP and leads to device 9, whose state is `peer`. -/
def fabricOf (k : Conn) (peer : Nat := 2) : State :=
  on (part3 State.reset) (fun d => { (((((((d.wr FAB_ID.DEV 1).wr FPORT_STAT.LINK 2 7).wr FPORT_STAT.MODE 1 7).wr FAB_PEERd.STATE peer 0 9).wr
    FAB_RTn_CTRL.VALID 1 0 1023).wr FAB_RTn_CTRL.MASK 1023 0 1023).wr FAB_RTn_CTRL.DEV 9 0 1023).wr FAB_RTn_PORTS.PORTS 128 0 1023 with
    conns := [(8191, k)] })

/-- A packet of 32 bytes or of none from device 9, with its ECRC. -/
def pkt (typ psn : Nat) (aux : Nat := 1) (len : Nat := 0) (payload : Nat := 0) (major : Nat := 1) : Fft :=
  let f : Fft := ⟨typ, major, 0, 0, 0, 1, 9, 8191, 17, 0, psn, aux, 0x88001FE0, len, 0, 0, 0, payload⟩
  { f with ecrc := fftCrc f }

/-- A good frame on port 7. -/
def rx7 : Rx := ⟨7, true, none, ⟨0, 0, none, .eth 0x88B5⟩, 0, 0⟩

/-- The same frame with another EtherType. -/
def rx7e (t : Nat) : Rx := { rx7 with enc := { rx7.enc with carrier := .eth t } }

/-- Whether the packet passes the steps of R393 for the connection. -/
def passes (s : State) (f : Fft) (typ : Nat) (ok : Conn → Bool := Conn.isOpen) (ck : Bool := true) : Bool :=
  (s.dev.rxConn rx7 f typ ok ck).1

theorem witness_FabricPacketsReceived :
    (∀ typ ∈ [1, 2, 3, 4, 5, 6, 10], passes (fabricOf (conn9 2)) (pkt typ 5) typ = true) ∧
    (∀ typ ∈ [1, 4, 5], ((fabricOf (conn9 2)).dev.rxConn { rx7 with fcs := false } (pkt typ 5) typ Conn.isOpen).1 = false) ∧
    ([5, 516, 517, 7, 4].map (conn9 2).psnRes = [.accept, .accept, .outside, .duplicate, .duplicate]) ∧
    (∀ lost, (placeAt (pkt 1 5 0 32 9) lost (fabricOf (conn9 2)).dev).1.1 = true) ∧
    ((placeAt (pkt 1 5 0 32 9) false (fabricOf { conn9 2 with ctx := 0 }).dev).1.1 = false) ∧
    (((fabricOf (conn9 2)).dev.allowed 1 3 0x88001FE0 32 false).1 = true ∧ ((fabricOf (conn9 2)).dev.allowed 1 0 0x88001FE0 32 false).1 = false ∧
      (conn9 2).part = 3) ∧
    (((fabricOf (conn9 2)).dev.takeAck 8191 (pkt 6 5) 0).conn 8191 |>.txq) = [] ∧
    (∀ st ∈ [1, 2], let s := fabricOf (conn9 st)
      passes s (pkt 8 0) 8 (fun x => x.st == 1 || x.st == 2) false = true ∧ s.dev.peerOpens (conn9 st) = true ∧
        (conn9 st).epoch < (pkt 8 0).aux ∧ (pkt 8 0 0).aux ≤ (conn9 st).epoch) ∧
    (∀ st ∈ [1, 2], passes (fabricOf (conn9 st)) (pkt 9 0) 9 (fun x => x.st == 1 || x.st == 2) false = true) ∧
    (∀ peer ∈ [2, 1], let s := fabricOf (conn9 1) peer
      s.dev.peerOpens (conn9 1) = decide (peer = 2)) ∧
    passes (fabricOf (conn9 2)) (pkt 11 0) 11 Conn.isOpen = true ∧
    (let s := on (fabricOf (conn9 2)) (fun d => { d with probes := [(1, 9, 3, 0)] })
     (s.dev.rxFft rx7 (pkt 12 0) 12).1 = true ∧ (s.dev.rxFft rx7 (pkt 13 0) 13).1 = true ∧
       (s.dev.rxFft { rx7 with fcs := false } (pkt 12 0) 12).1 = false ∧
       FMap.find (s.dev.rxFft rx7 (pkt 13 0) 13).2.probes (8191 / 4096 % 2) = some (9, 3, 0)) ∧
    (fftFlag (pkt 6 5) 4 = false ∧ fftFlag (pkt 6 5) 0 = false ∧ Live (fabricOf (conn9 2))) := by
  refine ⟨?_, ?_, ?_, ?_, ?_, ?_, ?_, ?_, ?_, ?_, ?_, ?_, ?_⟩ <;> (try simp only [Live]) <;> decide +kernel

/-- The connection's ring holds a work request. -/
def asks (w : Nat) (part : Bool := true) : State :=
  on (fabricOf { conn9 2 with sqPi := 1, ctx := (if part then 3 * 2 ^ 16 else 0) + 5 + (9 * 2 ^ 16 + 17) * 2 ^ 32 + 0x88000000 * 2 ^ 128 })
    (fun d => d.mwrN 0x88000000 w 64)

/-- The device, the routing entry and the templates of the example after R410. -/
def exampleFabric : Dev :=
  let d := ((State.reset.dev.wr FAB_ID.DEV 0xC1).wr FAB_IP_TMPL.IP 0xFD4B7A00 0 3).wr FAB_IP_TMPL.IP 1 0 2
  let d := ((((d.wr FAB_RTn_CTRL.VALID 1 0 0).wr FAB_RTn_CTRL.ENCAP 2 0 0).wr FAB_RTn_CTRL.SPREAD 1 0 0).wr FAB_RTn_CTRL.MASK
    0x3C0 0 0).wr FAB_RTn_CTRL.DEV 0xC0 0 0
  let d := ((d.wr FAB_RTn_PORTS.PORTS 15 0 0).wr FAB_RTn_IP.IP 0xFD4B7A00 0 0 3).wr FAB_RTn_IP.IP 1 0 0 2
  [0, 1, 2, 3].foldl (fun d p => d.wr FPORT_STAT.LINK 2 p) d

/-- The example's last packet leaves on path 3 with UDP source port 0xC0A3, from ...::60b to ...::613 (R390, R394, R396). -/
theorem test_encapsulation_of_the_example :
    (exampleFabric.routeEntryOf 0 0xC2).1 = some 0 ∧ exampleFabric.rtPort 0 0 3 = 3 ∧
    (let f := { exampleFabric.newFft 1 0xC2 with srcConn := 5, dstConn := 5 }
     (exampleFabric.encap 0 0 3 f).carrier =
      .udp ⟨true, 0xFD4B7A00000000010000000000000000 + 0x60B, 0xFD4B7A00000000010000000000000000 + 0x613, 0x1A, 2, 0x40, 0xC0A3,
        58352, some (udpSum ⟨true, 0xFD4B7A00000000010000000000000000 + 0x60B, 0xFD4B7A00000000010000000000000000 + 0x613, 0x1A, 2,
          0x40, 0xC0A3, 58352, none, true, true⟩ f), false, true⟩) := by
  decide +kernel

/-- The words of the checksum of IPv6, an address 1 to an address 2, ports 3 and 4, and an empty packet of zeros: what is
left of the two lengths 48, the protocol 17, the addresses and the ports. -/
theorem test_udp_checksum :
    udpSum ⟨true, 1, 2, 0, 0, 0, 3, 4, none, true, true⟩ ⟨0, 0, 0, 0, 0, 0, 0, 0, 0, 0, 0, 0, 0, 0, 0, 0, 0, 0⟩ =
      65535 - (1 + 2 + 48 + 17 + 3 + 4 + 48) := by
  decide +kernel

/-- Between FLIP and FLIPPED each half sends by its own bank (R374, R395): the new entry leads nowhere in Half A yet. -/
theorem test_banks_of_an_epoch_switch :
    (let d := exampleFabric.shadowWr FAB_RTn_CTRL.VALID 0 0 0 0
     let e := d.flipHalf 1
     let g := e.flipHalf 0
     [d, e, g].map (fun x => ((x.routeEntryOf 0 0xC2).1, (x.routeEntryOf 1 0xC2).1))
       = [(some 0, some 0), (some 0, none), (none, none)]) := by
  decide +kernel

theorem witness_FabricWorkAndCommands :
    (let s := fabricOf (conn9 2)
     connHalf 8191 = 1 ∧ (s.dev.writerIs (.fn 1) 5).1 = true ∧ (ringAhead 0 16 4).2 = false ∧ (ringAhead 0 17 4).2 = true ∧
       (s.dev.conn 8191).tenant = 5 ∧ (s.dev.conn 8190).st ≠ 2 ∧ Live s) ∧
    (∀ p ∈ [(0, 0), (1, 2 ^ 24 - 1), (2, 1), (3, 0), (4, 0)],
      let w := p.1 * 2 ^ 28 + (if p.2 = 0 then 0 else 1) + 0x88002000 * 2 ^ 32
      let s := asks w
      let r := s.dev.engRead 1 ((conn9 2).sqBase + 64 * (0 % 2 ^ (conn9 2).sqLog2)) 64
      (s.dev.conn 8191).isOpen = true ∧ (s.dev.conn 8191).next ≠ (s.dev.conn 8191).sqPi ∧ (s.dev.conn 8191).wrs = [] ∧ r.1.val = w ∧
        wrOp w = p.1 ∧ wrBad w = decide (p.1 = 4) ∧ (s.dev.conn 8191).hasCq = false ∧
        (((r.2.cqCi 8191).2).allowed 1 3 (wrLda w) 32 (p.1 == 2)).1 = true ∧
        (((r.2.cqCi 8191).2).allowed 1 0 (wrLda w) 32 (p.1 == 2)).1 = false ∧ ((asks w false).dev.conn 8191).part = 0) ∧
    (∀ st < 6, (((fabricOf (conn9 st)).dev.conn 8191).st = st ∧ ((fabricOf (conn9 st)).dev.conn 8191).isOpen = decide (st = 2 ∨ st = 3) ∧
      (fabricOf (conn9 st)).dev.bit FPORT_TE_RESULT.BUSY 4 = false)) ∧
    (let d := (fabricOf (conn9 0)).dev
     let m := d.engRead 1 (d.ctxAddr 8191) 128
     (m.2.routeEntryOf 1 9).1 = some 1023 ∧ (m.2.routeEntryOf 1 (Conn.ofCtx m.1.val).peerDev).1 = none ∧
       (let e := d.mwrN (d.ctxAddr 8191) ((9 * 2 ^ 16 + 17) * 2 ^ 32) 128
        let n := e.engRead 1 (e.ctxAddr 8191) 128
        (n.2.routeEntryOf 1 (Conn.ofCtx n.1.val).peerDev).1 = some 1023) ∧
       ((d.wr FPORT_TE_RESULT.BUSY 1 4).bit FPORT_TE_RESULT.BUSY 4 = true) ∧
       FMap.find ({ d with probes := [(1, 9, 3, 0)] } : Dev).probes 1 = some (9, 3, 0) ∧ FMap.find d.probes 1 = none) ∧
    (let p : TxPkt := { TxPkt.blank 4 with psn := 7, sent := true, tries := 1 }
     let d := (fabricOf { conn9 2 with txq := [p], sinceAck := 1 }).dev
     (d.conn 8191).txq.find? (fun p => p.psn == 7 && p.sent && !p.acked) = some p ∧ 0 < (d.conn 8191).sinceAck ∧
       (conn9 2).sinceAck = 0 ∧ (d.wr FAB_RETX.RETRY_LIMIT 2).rd FAB_RETX.RETRY_LIMIT ≤ p.tries + 1 ∧
       p.tries + 1 < (d.wr FAB_RETX.RETRY_LIMIT 3).rd FAB_RETX.RETRY_LIMIT) := by
  refine ⟨?_, ?_, ?_, ?_, ?_⟩ <;> (try simp only [Live]) <;> decide +kernel

/-- A PTP message on port 7. -/
def ptp7 : Rx := rx7e 0x88F7

/-- The device takes PTP messages on port 7 in a role, from master 9. -/
def ptpDev (role : Nat) (p : Ptp := { Ptp.init with master := some 9 }) : Dev :=
  { ((fabricOf (conn9 2)).dev.wr FAB_TIME_CTRL.ROLE role).wr FAB_TIME_CTRL.PORTS 128 with ptp := p }

theorem witness_PortsTimeAndMacsec :
    (let d := (fabricOf (conn9 2)).dev
     d.rd FPORT_STAT.MODE 7 ≠ 0 ∧ d.fportUp 7 = true ∧ (d.wr FPORT_STAT.LINK 1 7).fportUp 7 = false ∧
       ((d.wr FPORT_STAT.LINK 1 7).wr FPORT_STAT.MODE 0 7).rd FPORT_STAT.MODE 7 = 0 ∧ (d.rxFrame (rx7e 0x0806) (isEth (rx7e 0x0806) 0x0806 && 15 == d.portIp 7 % 2 ^ 32)).1 = true ∧
       (d.rxFrame (rx7e 0x0806) (isEth (rx7e 0x0806) 0x0806 && 14 == d.portIp 7 % 2 ^ 32)).1 = false ∧
       (d.rxFrame (rx7e 0x8808) (isEth (rx7e 0x8808) 0x8808) true).1 = true ∧
       (d.rxFrame (rx7e 0x88CC) (isEth (rx7e 0x88CC) 0x88CC) true).1 = true ∧
       (∀ src ∈ [0, 1], let r : Rx := { rx7 with enc := ⟨0, 9, none, .icmp6 src 0 255 true⟩ }
         (d.rxFrame r (d.nsOk ⟨r, 15, none, true⟩)).1 = true ∧ (d.rxFrame r (d.nsOk ⟨r, 15, none, false⟩)).1 = false) ∧
       (d.rxFrame (rx7e 0x0806) (isEth (rx7e 0x0806) 0x8808) true).1 = false ∧ (d.rxFrame (rx7e 0x0806) (isEth (rx7e 0x0806) 0x88CC) true).1 = false ∧
       d.rd FPORT_CTRL.FEC_LIMIT 7 = 64 ∧ d.stopped = false) ∧
    (let d : Dev := { (fabricOf (conn9 2)).dev with pfcOn := [(7, 3)], pfcHeld := [(7, [])], nbrTtl := [(7, 1)] }
     FMap.find d.pfcOn 7 = some 3 ∧ FMap.find d.pfcOn 6 = none ∧ FMap.find d.pfcHeld 7 = some [] ∧ FMap.find d.pfcHeld 6 = none ∧
       FMap.find d.nbrTtl 7 ≠ none ∧ FMap.find d.nbrTtl 6 = none) ∧
    ((Dev.reset.wr FPORT_LLDP.EN 1 7).bit FPORT_LLDP.EN 7 = true ∧ (Dev.reset.wr FPORT_LLDP.EN 0 7).bit FPORT_LLDP.EN 7 = false) ∧
    (((ptpDev 1).rxPtp ptp7 ((ptpDev 1).rd FAB_TIME_CTRL.DOMAIN) 1).1 = true ∧
      ((ptpDev 2).rxPtp ptp7 ((ptpDev 2).rd FAB_TIME_CTRL.DOMAIN) 2).1 = true ∧ ((ptpDev 1).rxPtp ptp7 0 2).1 = false ∧
      ((ptpDev 1).rxPtp ptp7 ((ptpDev 1).rd FAB_TIME_CTRL.DOMAIN) 1).2.ptp.master = some 9 ∧
      ((ptpDev 1 Ptp.init).rxPtp ptp7 ((ptpDev 1).rd FAB_TIME_CTRL.DOMAIN) 1).2.ptp.master = none) ∧
    (let d := ptpDev 1 { Ptp.init with master := some 9, twoStep := some 3, t3 := some 5, sync := some (1, 2) }
     let e := (d.rxPtp ptp7 (d.rd FAB_TIME_CTRL.DOMAIN) 1).2
     e.ptp.twoStep = some 3 ∧ e.ptp.t3 = some 5 ∧ e.ptp.sync = some (1, 2)) ∧
    ((ptpDev 2).ptpRole = 2 ∧ (ptpDev 1).ptpRole = 1 ∧ (ptpDev 1).ptpPort = some 7 ∧
      ((ptpDev 1).wr FAB_TIME_STAT.STATE 2).rd FAB_TIME_STAT.STATE = 2 ∧ Dev.reset.ptpRole = 0 ∧ Dev.reset.rd FAB_TIME_STAT.STATE = 0 ∧
      (Dev.reset.wr FAB_TIME_CTRL.ROLE 1).ptpRole = 1 ∧ (Dev.reset.wr FAB_TIME_CTRL.ROLE 1).ptpPort = none) ∧
    (isPf (.fn 1) = true ∧ isPf (.fn 2) = false ∧ Dev.reset.saLocked (15 % 8) (7 % 8) = false ∧
      ((Dev.reset.wr FPORT_SEC_CTRL.EN 1 7).wr FPORT_SEC_CTRL.TX_AN 3 7).saLocked (7 % 8) (3 % 8) = true ∧
      (2 ^ 31 - 1).testBit 31 = false ∧ (2 ^ 31).testBit 31 = true) := by
  refine ⟨?_, ?_, ?_, ?_, ?_, ?_, ?_⟩ <;> decide +kernel

/-- An exchange with device 9 runs. -/
def joining (x : Exch) : Dev := { (fabricOf (conn9 2)).dev with exchs := [(9, x)] }

/-- A packet that is the first, and perhaps also the last, of a record. -/
def rec9 (typ : Nat) (flags : Nat := 192) : Fft :=
  let f := { pkt typ 0 6 0 0 2 with flags := flags }
  { f with ecrc := fftCrc f }

theorem witness_AgreementExchanges :
    (let d := Dev.reset
     d.bit FAB_AGREE_RESULT.BUSY = false ∧ (d.wr FAB_AGREE_RESULT.BUSY 1).bit FAB_AGREE_RESULT.BUSY = true ∧
       d.rd FAB_PEERd.STATE 0 (0xFFFF % 2 ^ 10) ≠ 4 ∧ (d.wr FAB_PEERd.STATE 4 0 1023).rd FAB_PEERd.STATE 0 (0xFFFF % 2 ^ 10) = 4) ∧
    (∀ p ∈ [(16, true), (16, false), (17, true)], let f := rec9 p.1 (if p.2 then 192 else 128)
      (match (joining ⟨false, false, false, false, 1, 0⟩).rxFft rx7 f p.1 with
        | (ok, e) => match e.joinPiece f with
          | (a, g) => ok && a.isSome == p.2 && FMap.find g.exchs 9 == some ⟨false, false, false, false, 1, 0⟩ && decide (g.ownDev < 9)) = true) ∧
    (∀ typ ∈ [16, 17], (match (fabricOf (conn9 2)).dev.rxFft rx7 (rec9 typ) typ with
      | (ok, e) => match e.joinPiece (rec9 typ) with | (a, g) => ok && a.isSome && FMap.find g.exchs 9 == none) = true) ∧
    (∀ b : Bool, (match ({ (fabricOf (conn9 2)).dev with joinRecs := if b then [(9, joinRecOf 0)] else [] } : Dev).rxFft rx7 (rec9 18) 18 with
      | (ok, e) => ok && (FMap.find e.joinRecs 9).isSome == b) = true) ∧
    (((fabricOf (conn9 2)).dev.rxFft { rx7 with fcs := false } (rec9 16) 16).1 = false) ∧
    (FMap.find (joining ⟨true, false, false, false, 8, 0⟩).exchs 9 = some ⟨true, false, false, false, 8, 0⟩ ∧
      FMap.find (joining ⟨true, false, false, false, 7, 0⟩).exchs 9 = some ⟨true, false, false, false, 7, 0⟩) ∧
    (({ Dev.reset with rechecks := [9] } : Dev).rechecks.contains 9 = true ∧ Dev.reset.rechecks.contains 9 = false) ∧
    (∀ st ∈ [2, 5], (match (fabricOf (conn9 2) st).dev.rxFft rx7 (pkt 19 0) 19 with
      | (ok, e) => ok && e.rd FAB_PEERd.STATE 0 9 == st) = true) ∧
    (({ Dev.reset with departs := [(9, 4, 2, 1)] } : Dev).departs.find? (fun x => x.1 == 9) = some (9, 4, 2, 1) ∧
      Dev.reset.departs.find? (fun x => x.1 == 9) = none) := by
  refine ⟨?_, ?_, ?_, ?_, ?_, ?_, ?_, ?_, ?_⟩ <;> decide +kernel

/-- A descriptor of an operation, with its group record at 0x88000400. -/
def descOf (op : Nat) : Nat :=
  op * 2 ^ 28 + (if op = 7 then 0 else 1) * 2 ^ 32 + 0x88002000 * 2 ^ 64 + 0x88003000 * 2 ^ 128 + 0x88000400 * 2 ^ 256

/-- Rank 0 of two ranks of partition `part`, tenant 5; connection 8191 leads to rank 1. -/
def groupOf (part : Nat := 3) : Nat := part * 2 ^ 20 + 2 * 2 ^ 13 + 5 + 8191 * 2 ^ 48

/-- Half 1's queue of partition 3 holds the descriptor; device 9 is rank 1. -/
def collSt (op : Nat) (group : Nat := groupOf) (st : Nat := 2) : Dev :=
  let d := (fabricOf (conn9 st)).dev
  let d := (((d.wr COLL_CTRL.EN 1 1).wr COLL_Qp_LO.DA 0x88000000 1 3).wr FAB_RANKp_i.VALID1 1 0 3 0).wr FAB_RANKp_i.DEV1 9 0 3 0
  { (d.mwrN 0x88000000 (descOf op) 64).mwrN 0x88000400 group 64 with collQ := [(64 + 3, (1, 0))] }

/-- The device after the descriptor has been read, and after the group record has. -/
def collAfter (op : Nat) (group : Nat := groupOf) (st : Nat := 2) : (Bool × Dev) × (MRes × Dev) × Coll :=
  let d := collSt op group st
  let e := (d.engRead 1 0x88000000 64).2
  let a := (collTaken d e 1 3).allowed 1 3 (collGroup (descOf op)) 256 true
  let b := a.2.engRead 1 (collGroup (descOf op)) 256
  (a, b, { collNew d e 1 3 (descOf op) with group := b.1.val, seq := word32 b.1.val 33 })

theorem witness_CollTakes : ∀ op < 9, ∃ e, CollTakes (collSt op) 1 3 (descOf op) e := by
  have h : ∀ op < 9, let d := collSt op
      d.bit COLL_CTRL.EN 1 = true ∧ (d.collIdx 1 3).1 ≠ (d.collIdx 1 3).2 ∧
        (d.rd COLL_Qp_IDX.CQ_PI 1 3 + ((d.colls.filter (fun x => x.half == 1)).filter (fun x => x.part == 3)).length + 2 ^ 16 -
          d.rd COLL_Qp_CQ_CI.CQ_CI 1 3) % 2 ^ 16 < 2 ^ d.rd COLL_Qp_HI.LOG2 1 3 ∧
        (d.engRead 1 (d.collSlot 1 3 (d.collIdx 1 3).2) 64).1.val = descOf op := by
    decide +kernel
  intro op ho
  obtain ⟨a, b, c, e⟩ := h op ho
  exact ⟨_, a, b, c, _, (Prod.eta _).symm, e⟩

/-- Collective 4 of the group runs. -/
def run4 (op : Nat) (todo : List (Nat × Nat)) : Dev × Coll :=
  let x : Coll := ⟨4, 1, 3, 0, descOf op, groupOf, [1, 9], 2, 0, [], todo, [], [], false⟩
  ({ collSt op with colls := [x] }, x)

theorem witness_CollectiveCommands :
    (let d := collSt 1
     let e := d.engRead 1 (d.collSlot 1 3 0) 64
     let g := e.2.engRead 1 (collGroup e.1.val) 4
     g.1.val % 2 ^ 12 = 5 ∧ (g.2.writerIs (.fn 1) 5).1 = true ∧ (g.2.writerIn (.fn 1) 3 5).1 = true ∧
       (g.2.writerIs (.core 17) 5).1 = false ∧ ((g.2.writerIs (.core 17) 5).2.writerIn (.core 17) 3 5).1 = true ∧
       (ringAhead (g.2.rd COLL_Qp_IDX.CI 1 3) 1 (g.2.rd COLL_Qp_HI.LOG2 1 3)).2 = false ∧ Live { State.reset with dev := d }) ∧
    ((Dev.reset.wr COLL_CTRL.EN 0 1).bit COLL_CTRL.EN 1 = false ∧ (collSt 1).colls = []) ∧
    (let w := (collAfter 1).2.1.2.engWrite 1 (collGroup (descOf 1) + 132) 4 1
     let x : Coll := { collNew (collSt 1) (collSt 1) 1 3 (descOf 1) with alg := 2, devs := [1, 9], group := groupOf }
     (collAfter 1).1.1 = true ∧ (collAfter 1).2.1.1.val = groupOf ∧ w.rd COLL_CTRL.TREE_MAX_LOG2 1 = 16 ∧
       w.bit FAB_AGREE_STAT.DEPARTED_SELF = false ∧ (x.others.filterMap (fun r => (w.rankFault x r).map (fun st => (st, r)))) = []) ∧
    (∀ op ∈ [1, 2, 3, 4, 5, 6, 7], let x : Coll := { collNew (collSt op) (collSt op) 1 3 (descOf op) with group := groupOf }
      x.bad = false ∧ (collAlg x.op x.algo x.n x.size 16).isSome = true) ∧
    (({ collNew (collSt 1) (collSt 1) 1 3 (descOf 1) with group := groupOf 4 } : Coll).bad = true ∧ ((collSt 1).allowed 1 4 (collGroup (descOf 1)) 256 true).1 = false ∧
      ((collSt 1).wr FAB_AGREE_STAT.DEPARTED_SELF 1).bit FAB_AGREE_STAT.DEPARTED_SELF = true ∧
      (let x : Coll := { collNew (collSt 1) (collSt 1) 1 3 (descOf 1) with group := groupOf }
       (x.others.filterMap (fun r => ((collAfter 1 groupOf 0).2.1.2.rankFault x r).map (fun st => (st, r)))).head? = some (9, 1))) ∧
    (∀ step ∈ [0, 0xFFF], let f := pkt 20 5 (step * 2 ^ 12)
      (run4 1 []).1.collFor f = some (run4 1 []).2 ∧ (collSt 1).collFor f = none ∧ collStepOf f = step) ∧
    ((run4 5 []).1.collAt 4 = some (run4 5 []).2 ∧ (collSt 5).collAt 4 = none ∧ (run4 5 []).1.collDone (run4 5 []).2 = false ∧
      (let x := { (run4 4 []).2 with alg := 2 }; ({ collSt 4 with colls := [x] } : Dev).collDone x = true ∧
        (Dev.copyAll x x.plan.post (collSt 4)).1 = true)) := by
  refine ⟨?_, ?_, ?_, ?_, ?_, ?_, ?_⟩ <;> (try simp only [Live]) <;> decide +kernel

/-- A step's descriptor: OP, the primary core 4095, tenant 5, one block of output or none. -/
def chkDesc (op : Nat) (blocks : Nat := 1) : Nat :=
  op * 2 ^ 28 + 5 * 2 ^ 12 + 4095 + 2 ^ 32 + 0x88010000 * 2 ^ 160 + blocks * 2 ^ 224 + 0x88020000 * 2 ^ 256

/-- The queue of partition 3 holds the descriptor. -/
def chkSt (op : Nat) (tenant : Option Nat := none) : Dev :=
  let d := ((part3 State.reset).dev.wr CHK_CTRL.EN 1).wr CHK_Qp_LO.DA 0x88000000 0 3
  { d.mwrN 0x88000000 (chkDesc op) 128 with chkQ := [(3, (1, 0))], tenants := [(5, tenant)] }

theorem witness_ChkTakes : ∀ op ∈ [0, 1, 2], ∀ t ∈ [none, some ten5], ∃ e, ChkTakes (chkSt op t) 3 (chkDesc op) e := by
  have h : ∀ op ∈ [0, 1, 2], ∀ t ∈ [none, some ten5], let d := chkSt op t
      d.bit CHK_CTRL.EN = true ∧ (d.chkIdx 3).1 ≠ (d.chkIdx 3).2 ∧ (FMap.get d.chkSkip [] 3).contains (d.chkIdx 3).2 = false ∧
        d.steps.length < 256 ∧ (d.rd CHK_Qp_IDX.CQ_PI 0 3 + (d.steps.filter (fun x => x.part == 3)).length + 2 ^ 16 -
          d.rd CHK_Qp_CQ_CI.CQ_CI 0 3) % 2 ^ 16 < 2 ^ d.rd CHK_Qp_HI.LOG2 0 3 ∧
        (d.chkRead 2 (d.chkSlot 3 (d.chkIdx 3).2) 128).1.val = chkDesc op := by
    decide +kernel
  intro op ho t ht
  obtain ⟨a, b, c, e, f, g⟩ := h op ho t ht
  exact ⟨_, a, b, c, e, f, _, (Prod.eta _).symm, g⟩

/-- Step 6 in a stage, with no blocks to compare. -/
def step6 (st : StepAt) (repOk : Bool := true) (repExit : Nat := 7) : ChkStep :=
  ⟨6, 3, 0, chkDesc 1 0, 0, false, st, some 17, some 18, 7, 0, runDigest [], repExit, repOk⟩

/-- The step runs, and cores 17, 18 and 4095 are HALTED with a cause and an exit code. -/
def stepDev (x : ChkStep) (cause exit : Nat) : Dev :=
  { [17, 18, 4095].foldl (fun (d : Dev) c => ((d.wr CORE_SEQ_STAT.STATE 3 c).wr CORE_SEQ_STAT.HALT_CAUSE cause c).wr CORE_SEQ_EXIT.CODE exit c)
      Dev.reset with steps := [x] }

theorem witness_UnderstudySteps :
    (let d := chkSt 1
     let e := d.chkRead 2 (d.chkSlot 3 (d.chkIdx 3).1) 4
     let e0 := (d.mwrN 0x88000080 (5 * 2 ^ 12) 4).chkRead 2 (d.chkSlot 3 (d.chkIdx 3).1) 4
     e0.1.val / 2 ^ 12 % 2 ^ 12 = 5 ∧ (e.2.writerIs (.fn 1) 5).1 = true ∧ (e.2.writerIn (.fn 1) 3 5).1 = true ∧
       (e.2.writerIs (.core 17) 5).1 = false ∧ (e.2.writerIn (.core 17) 3 5).1 = true ∧
       (ringAhead (e.2.rd CHK_Qp_IDX.CI 0 3) 1 (e.2.rd CHK_Qp_HI.LOG2 0 3)).2 = false) ∧
    ((Dev.reset.wr CHK_CTRL.EN 0).bit CHK_CTRL.EN = false ∧ Dev.reset.stopped = false ∧ Dev.reset.stepAt 6 = none) ∧
    (∀ t ∈ [none, some ten5], (chkSt 1 t).tenantCurtained 5 = false ∧ ((chkSt 1 t).tenantEntry 5).1 = t) ∧
    (({ chkSt 1 (some ten5) with curtains := [⟨.tenant 5, [], [], .auto, none⟩] } : Dev).tenantCurtained 5 = true) ∧
    (let y : Nat → ChkStep := fun op => { step6 .held with desc := chkDesc op }
     (y 0).op = 0 ∧ (y 1).op ≠ 0 ∧ (y 1).bad = false ∧ (y 2).bad = true ∧ (y 1).tenant = 5 ∧ (y 1).primary = 4095) ∧
    (∀ p ∈ [(1, 7), (2, 7), (1, 0x8000), (1, 0x4000)], RunHalted (stepDev (step6 .primary) p.1 p.2) (step6 .primary) .primary 4095) ∧
    (∀ p ∈ [(1, 7), (2, 7)], RunHalted (stepDev (step6 .tie) p.1 p.2) (step6 .tie) .tie 18 ∧
      RunHalted (stepDev (step6 .replay) p.1 p.2) (step6 .replay) .replay 17) ∧
    (let z := (stepDev (step6 .primary) 1 0x4000).runEnd 4095 false
     z.rd CORE_SEQ_STAT.HALT_CAUSE 4095 = 1 ∧ (z.rd CORE_SEQ_EXIT.CODE 4095).testBit 14 = true ∧
       (z.rd CORE_SEQ_EXIT.CODE 4095).testBit 15 = false ∧ (z.wr CHK_CTRL.FORCE_UNCHECKED 1).bit CHK_CTRL.FORCE_UNCHECKED = true) ∧
    (∀ st ∈ [StepAt.wantReplay, .wantTie, .primary, .compare], (stepDev (step6 st) 1 7).stepAt 6 = some (step6 st)) ∧
    (Dev.dataOnly (step6 .compare).outDa (step6 .compare).blocks Dev.reset = ([], Dev.reset) ∧
      (step6 .compare).repOk = true ∧ (step6 .compare).repExit = (step6 .compare).exit ∧ (step6 .compare false).repOk = false ∧
      (Dev.reset.wr CHK_CTRL.TIEBREAK 1).bit CHK_CTRL.TIEBREAK = true ∧ (Dev.reset.wr CHK_CTRL.TIEBREAK 0).bit CHK_CTRL.TIEBREAK = false) ∧
    (let z := fun exit => (stepDev (step6 .tie true 9) 1 exit).runEnd 18 false
     (z 7).rd CORE_SEQ_EXIT.CODE 18 = (step6 .tie true 9).exit ∧ (z 9).rd CORE_SEQ_EXIT.CODE 18 ≠ (step6 .tie true 9).exit ∧
       (z 9).rd CORE_SEQ_EXIT.CODE 18 = (step6 .tie true 9).repExit ∧ runDigest [] = (step6 .tie true 9).repDigest ∧
       (z 8).rd CORE_SEQ_EXIT.CODE 18 ≠ (step6 .tie true 9).exit ∧ (z 8).rd CORE_SEQ_EXIT.CODE 18 ≠ (step6 .tie true 9).repExit) := by
  refine ⟨?_, ?_, ?_, ?_, ?_, ?_, ?_, ?_, ?_, ?_, ?_⟩ <;> (try simp only [RunHalted]) <;> decide +kernel

/-- Core 17, whose slice is lost, in a state with a cause and an exit code. -/
def rehBase (state cause exit : Nat) : Dev :=
  (((Dev.reset.wr CORE_SEQ_STAT.STATE state 17).wr CORE_SEQ_STAT.HALT_CAUSE cause 17).wr CORE_SEQ_EXIT.CODE exit 17).wr
    DARN_CL_ORPHAN.LOST 2 0 1

/-- Core 17 runs a kernel of Rehearsal. -/
def rehDev (r : Reh) (state cause exit : Nat) : Dev := { rehBase state cause exit with rehs := [r] }

theorem witness_RehearsalCommands :
    (let d := Dev.reset
     d.bit CHK_REH_RESULT.BUSY = false ∧ (d.wr CHK_REH_RESULT.BUSY 1).bit CHK_REH_RESULT.BUSY = true ∧
       (d.wr CHK_REH_RESULT.TARGET 4095).rehEligible (4095 % 4096) = true ∧
       ((d.wr DARN_CORE_STATE.STATE 2 0 4095).wr CHK_REH_RESULT.TARGET 4095).rehEligible (4095 % 4096) = false ∧
       ((List.range 16).map (fun k => 4095 / 16 % 256 * 16 + k)).filter (d.wr CHK_REH_RESULT.TARGET 4095).rehEligible ≠ [] ∧
       ((List.range 16).map (fun k => 4095 / 16 % 256 * 16 + k)).filter
         ((List.range 16).foldl (fun (d : Dev) k => d.wr DARN_CORE_STATE.STATE 2 0 (4080 + k)) d).rehEligible = []) ∧
    (let d := Dev.reset.wr CHK_REH_CTRL.AUTO 1
     d.bit CHK_REH_CTRL.AUTO = true ∧ (Dev.reset.wr CHK_REH_CTRL.AUTO 0).bit CHK_REH_CTRL.AUTO = false ∧
       d.rehs.any (fun r => !r.cmd) = false ∧ d.rehEligible ((d.rehLast + 1 + 0) % 4096) = true) ∧
    (∀ limit : Bool, ∀ st ∈ [2, 3], ∀ p ∈ [(1, 7), (2, 7), (1, 8)], let r : Reh := ⟨17, 0, 7 * 2 ^ 160, [], true, limit, false⟩
      (rehDev r st p.1 p.2).rehs.find? (fun r => r.core == 17) = some r ∧ (rehDev r st p.1 p.2).halted 17 = decide (st = 3) ∧
        (rehDev r st p.1 p.2).rd CORE_SEQ_STAT.HALT_CAUSE 17 = p.1 ∧ (rehDev r st p.1 p.2).rd CORE_SEQ_EXIT.CODE 17 = p.2 ∧
        (rehDev r st p.1 p.2).rehs.find? (fun r => r.core == 16) = none ∧
        (rehDev r st p.1 p.2).rehs.find? (fun r => r.core == 17 && !r.gone) = some r) ∧
    ((stepDev { step6 .held with desc := 17 } 1 7).steps.any (fun x => x.stage == .held && x.primary == 17) = true) := by
  refine ⟨?_, ?_, ?_, ?_⟩ <;> decide +kernel

/-- The scratch region of core 17. -/
def scratch17 : Nat := sliceDa 17 ((rehBase 3 1 7).rd CHK_REH_SCRATCH.OFFSET * 4096)

theorem word_entry (a b : Nat) (ha : a < 2 ^ 32) (hb : b < 2 ^ 32) : word32 (a * 2 ^ 128 + b * 2 ^ 160) 3 = 0 ∧
    word32 (a * 2 ^ 128 + b * 2 ^ 160) 4 = a ∧ word32 (a * 2 ^ 128 + b * 2 ^ 160) 5 = b := by
  refine ⟨?_, ?_, ?_⟩ <;> simp only [word32, Nat.reduceMul, Nat.reducePow] at * <;> omega

theorem scratch_zeros (x : List Reh) : (Dev.dataOnly scratch17 1 { rehBase 3 1 7 with rehs := x }).1 = [(crc32c (bytesOf 0 4096)).toNat] := by
  have h : (rehBase 3 1 7).daRefused scratch17 = some 4 := by decide +kernel
  have g : ∀ (d : Dev) (da : Nat), Dev.daRefused { d with rehs := x } da = d.daRefused da := fun _ _ => rfl
  simp only [Dev.dataOnly, Dev.chkRead, g, h]

/-- The scratch region reads as zeros, so a digest can be met or missed. -/
theorem witness_RehearsalCommands_digest (equal : Bool) : ∃ entry vs e,
    let d := rehDev ⟨17, 0, entry, [], true, false, false⟩ 3 1 7
    word32 entry 5 % 2 ^ 16 = 7 ∧
      Dev.dataOnly (sliceDa 17 (d.rd CHK_REH_SCRATCH.OFFSET * 4096)) (max 1 (min 256 (word32 entry 3 % 2 ^ 9))) d = (vs, e) ∧
      decide (runDigest vs = word32 entry 4) = equal := by
  obtain ⟨z, hz⟩ : ∃ z, z = [(crc32c (bytesOf 0 4096)).toNat] := ⟨_, rfl⟩
  have b : runDigest z < 2 ^ 32 := (crc32c _).isLt
  have w := word_entry ((runDigest z + if equal then 0 else 1) % 2 ^ 32) 7 (Nat.mod_lt _ (by decide)) (by decide)
  obtain ⟨en, hen⟩ : ∃ en, en = (runDigest z + if equal then 0 else 1) % 2 ^ 32 * 2 ^ 128 + 7 * 2 ^ 160 := ⟨_, rfl⟩
  rw [← hen] at w
  refine ⟨en, _, _, ?_, (Prod.eta _).symm, ?_⟩
  · have := w.2.2
    omega
  · have k : max 1 (min 256 (word32 en 3 % 2 ^ 9)) = 1 := by rw [w.1]; rfl
    have s := scratch_zeros [⟨17, 0, en, [], true, false, false⟩]
    rw [k]
    rw [show sliceDa 17 ((rehDev ⟨17, 0, en, [], true, false, false⟩ 3 1 7).rd CHK_REH_SCRATCH.OFFSET * 4096) = scratch17 from rfl]
    unfold rehDev
    rw [s, ← hz, w.2.1]
    cases equal <;> simp <;> omega

/-- A device whose layer sensor 32767 is as given, and whose layers otherwise are at 40 °C. -/
def layerDev (x : Sensor) : Dev := { Dev.reset with layerS := [(32767, x)] }

theorem witness_SensorSamples :
    (Awake State.reset ∧ Dev.reset.dramHot = none) ∧
    ((Sensor.init.judge (some 320) [] 0).2.2 = false ∧ ({ Sensor.init with st := 1, run := 63 }.judge none [] 0).2.2 = true ∧
      4095 * 8 + 7 = 32767 ∧ FMap.get (layerDev { Sensor.init with st := 1, run := 63 }).layerS Sensor.init 32767 =
        { Sensor.init with st := 1, run := 63 }) ∧
    (∀ run ∈ [14, 15], let d : Dev := { Dev.reset with bgRun := [(1, run)] }
      let m := (d.wr SFE_BG.BG0_MV 1000 1).wr SFE_BG.BG1_MV 900 1
      let used := if m.bit SFE_STAT.BG_SEL 1 then 900 else 1000
      used < 100 * (1000 - 900) ∧ FMap.get d.bgRun 0 1 + 1 = run + 1 ∧ m.bit SFE_STAT.BG_SUSPECT 1 = false) ∧
    ((Dev.reset.wr THM_COOL_CTRL.FLOW_EN 0).bit THM_COOL_CTRL.FLOW_EN = false ∧ (Dev.reset.wr THM_COOL_CTRL.FLOW_EN 1).bit THM_COOL_CTRL.FLOW_EN = true) ∧
    (Heat.init.nT = 0 ∧ (let w : Heat := ⟨160, 240, 1, 3, 1, 300, 1, false⟩
      w.bad = false ∧ w.nT ≠ 0 ∧ w.nF ≠ 0 ∧ w.nP ≠ 0 ∧ 300 * w.nP ≤ w.watts ∧ (Dev.reset.wr THM_COOL_CTRL.BAL_EN 1).bit THM_COOL_CTRL.BAL_EN = true)) ∧
    (∀ c ∈ [(none, false), (some (300, 480, true), true)], let d : Dev := { cool with cyc := c.1 }
      d.dramHot.map Prod.fst = some 320 ∧ (320 : Int) ≤ d.dramThrot ∧
        (let k := d.cyc.getD (320, 320, false)
         let r := cycleStep k.1 k.2.1 k.2.2 320
         r.2.1 = c.2 ∧ r.2.2 = false ∧ (320 : Int) ≤ ({ d with cyc := some r.1 } : Dev).dramThrot)) := by
  refine ⟨?_, ?_, ?_, ?_, ?_, ?_⟩ <;> (try simp only [Awake]) <;> decide +kernel

/-- The governor wants half 1 to step. -/
def wants (up : Bool) (opp top : Nat) : Dev :=
  { Dev.reset.wr PWR_OPP.OPP_B opp with gov := { Governor.init with want := [(1, up)], oppMax := top } }

/-- Half 1 is in a step. -/
def stepping (x : Dvfs) : Dev := { Dev.reset with dvfs := [(1, x)] }

theorem witness_PowerAndClocks :
    (Awake State.reset ∧ Dev.reset.rd PWR_REGn_STAT.LINK 0 1 = 0 ∧ FMap.find Dev.reset.dvfsLast 1 = none ∧ FMap.find Dev.reset.dvfs 1 = none ∧
      FMap.find Dev.reset.gov.want 1 = none) ∧
    (∀ p ∈ [(true, 1, 3), (true, 3, 3), (false, 1, 3), (false, 0, 3)], let d := wants p.1 p.2.1 p.2.2
      FMap.find d.gov.want 1 = some p.1 ∧ d.rd (oppField 1) = p.2.1 ∧ d.gov.oppMax = p.2.2) ∧
    (let d : Dev := { Dev.reset with now := 1000000, dvfsLast := [(1, 0)] }
     FMap.find d.dvfsLast 1 = some 0 ∧ 0 + 1000000 ≤ d.now) ∧
    (∀ x ∈ [Dvfs.mk 2 3 false, ⟨3, 2, false⟩, ⟨2, 3, true⟩, ⟨3, 2, true⟩], FMap.find (stepping x).dvfs 1 = some x) ∧
    (∀ l ∈ [0, 1, 2], (Dev.reset.wr PWR_REGn_STAT.LINK l 0 5).rd PWR_REGn_STAT.LINK 0 5 = l) ∧
    (let d : Dev := { Dev.reset with regLinks := [(5, { RegLink.init with fails := 3 }), (1, { RegLink.init with fails := 3 })], dvfs := [(1, ⟨2, 3, false⟩)] }
     3 ≤ (d.reg 5).fails ∧ FMap.find d.dvfs 5 = none ∧ FMap.find d.dvfs 1 = some ⟨2, 3, false⟩) ∧
    (({ Dev.reset with wear := { Dev.reset.wear with due := true } } : Dev).wear.due = true ∧ Dev.reset.wear.due = false) ∧
    (({ Dev.reset with trip := true } : Dev).trip = true ∧ Dev.reset.trip = false) ∧
    (25 ∈ pllDomains ∧ Dev.reset.bit CLK_STAT.HOLDOVER = false ∧
      ∀ st ∈ [2, 3], (Dev.reset.wr CLK_DOMn.STATE st 0 25).rd CLK_DOMn.STATE 0 25 = st) ∧
    (∀ r < 2, let d := Dev.reset.wr (presentField r) 1
      d.bit (presentField r) = true ∧ Dev.reset.bit (presentField r) = false ∧ (d.wr CLK_STAT.SEL r).rd CLK_STAT.SEL = r ∧
        (d.wr CLK_STAT.SEL (1 - r)).rd CLK_STAT.SEL ≠ r ∧ ((d.wr CLK_STAT.SEL r).wr CLK_STAT.HOLDOVER 1).bit CLK_STAT.HOLDOVER = true) ∧
    (let d := [0, 1, 2].foldl (fun (d : Dev) p => d.wr FPORT_STAT.LINK 2 p) Dev.reset
     (consensus (d.measured [some 5, some 6, some 7])).1.isSome = true ∧ (consensus (d.measured [some 5, none, some 7])).1 = none) := by
  refine ⟨?_, ?_, ?_, ?_, ?_, ?_, ?_, ?_, ?_, ?_, ?_⟩ <;> (try simp only [Awake]) <;> decide +kernel

/-- A signed token for nonce 3, serial number 0x1234 and key slot 1. Its key is the point of the signature less the
base point, so that r and s are the digest (R600). -/
def token : List Byte := bytesOf
  (0xCE611BD94C2F38B99697EBC296245BC366E00176F9A03633308B462259A05AC1FA6DFDE6077F2EE167E8780DD1EB177D525DD1C4191DEDF0C82AD5C622B44FED5AE1BC9BE439A030BFD38839A511BA2CBFDA9E833440C373D9A4FD5FFFEF5C04 +
   0x58212A5D4BA020DABDB35AB5EC5B317DD26ED79688D9701A638A2B3F72CE83CBEB2D3B984F82315D0000000000000001000000000000123400000000000000000000000000000000000000000000000000000000000000030000000000000032 * 2 ^ 768 +
   0xEC800C1B4622BA3158212A5D4BA020DABDB35AB5EC5B317DD26ED79688D9701A638A2B3F72CE83CBEB2D3B984F82315DEC800C1B4622BA31 * 2 ^ 1536) 256

/-- The digest of its key is in debug slot 1, its nonce is current and its serial number is the device's. -/
def unlockable (keyOn : Bool := true) : Dev :=
  let d := Dev.reset.wr SEQ_SERIAL.SERIAL 0x1234
  { d with
    mgmt := { d.mgmt with nonce := some 3 },
    part := { d.part with dbgKeys := [(none, false), (if keyOn then some 0xDAE4C714B2DA34776C4221A0DACB9611D3D2A68A814FC5C967E9C5B4A6FFD089AD9EFA7FD5DC213B79009BDCD552070F else none, false)] } }

theorem witness_token : unlockable.tokenOk token = true ∧ (unlockable false).tokenOk token = false := by decide +kernel

/-- An image of a header with one empty section and a footer, of serial number 1, rollback level 3 and key slot 0 (R513, R514). -/
def signed : List Byte := bytesOf
  (0x200000000020000000000000000000000000000000000000000000000000000000000000000000000000000000000000000000000030000000100000200000100014954584F +
   (0x805A5CACC83EB2313F2FA6BCAEE80B38D00C2B5BE3C72D32AF9BC1BA4F26FF8DE3473860D560785BF9CDFB8ABFDC303E84096E93975A85B6374C54C6D26D5C94F4DA7A4ACEA03E41B48D5D0595A77340743ADED62E7D7771815C1A0C042A3504 +
   0x16C4977A45BDAD8C4280F5DA04365BB46CC4EA39029F46B56EC905444E0B3A4FA787D08AF003877801DA7D35AC6652F616C4977A45BDAD8C4280F5DA04365BB46CC4EA39029F46B56EC905444E0B3A4FA787D08AF0038778000000000000009C * 2 ^ 768 +
   0x1DA7D35AC6652F6 * 2 ^ 1536) * 2 ^ 4096) 768

/-- Both copies hold it, and the digest of its key is in slot 0. -/
def twoCopies : Dev :=
  { Dev.reset with
    flash := [(1, signed), (2, signed)],
    part := { Dev.reset.part with keys := [(some 0xCA18606870CEF461EAD6981D8C9D8CD782A50FD0C91AA1C22C6F52F3066266BA441EB9C02D5C02B62C814264322036C3, false)] } }

theorem witness_copies : checkCopy signed true twoCopies.part.keys twoCopies.rbLevel = 1 ∧ imgRb signed = 3 ∧ imgSerial signed = 1 ∧
    checkCopy signed true [] 0 = 5 := by decide +kernel

theorem witness_copiesCarry : twoCopies.copiesCarry 3 true true = true := by
  have a : twoCopies.copyAt 1 = signed := rfl
  have b : twoCopies.copyAt 2 = signed := rfl
  simp only [Dev.copiesCarry, a, b, witness_copies.1, witness_copies.2.1]
  decide

/-- The update engine stands at a stage, with a job and a check. -/
def updating (st : UpdStage) (job : Option (List Byte) := none) (check : Option (Nat × Bool) := none) (size : Nat := 2) : Dev :=
  { Dev.reset with mgmt := { Mgmt.init with upd := { Update.init with stage := st, job := job, check := check, size := size } } }

theorem witness_ManagementRequests :
    (let d := Dev.reset.wr MGT_STAT.I3C 1
     Awake State.reset ∧ d.bit MGT_STAT.I3C = true ∧ d.mgmt.i3c = none ∧ (Dev.reset.wr MGT_STAT.I3C 0).bit MGT_STAT.I3C = false ∧
       ({ d with mgmt := { d.mgmt with i3c := some 8 } } : Dev).mgmt.i3c ≠ none ∧ d.mgmt.erasing = false ∧ d.mgmt.keyErased = false) ∧
    (0 < 254 ∧ 254 < 255 ∧ (∀ t ∈ [0, 2, 5], (pldmCommands t).isSome = true) ∧ (pdrs[13 - 1]?).isSome = true ∧ 13 < 14) ∧
    (∀ id ∈ [1, 7], (Dev.reset.sensorRead id).isSome = true) ∧ Dev.reset.sensorRead 0 = none ∧
    (∀ id ∈ [20, 22], (Dev.reset.stateRead id).isSome = true) ∧ Dev.reset.stateRead 23 = none ∧
    (Dev.reset.bit SEQ_RST_RESULT.BUSY = false ∧ Dev.reset.hostUpd = true ∧ ({ Dev.reset with opts := [(0x0502, 0)] } : Dev).hostUpd = false ∧
      Dev.reset.rd MGT_STAT.UPD_OWNER = 0 ∧ Dev.reset.bit MGT_UPD_RESULT.BUSY = false) ∧
    (let d := (Dev.reset.wr MGT_UPD_SRC.DA 0x11000000).wr MGT_UPD_LEN.BYTES 8
     let e := d.wr MGT_UPD_SRC.DA (2 ^ 36)
     ((d.wr MGT_UPD_RESULT.CODE 0).stagedBytes (d.rd MGT_UPD_SRC.DA * 8) (d.rd MGT_UPD_LEN.BYTES)).1 = some (List.replicate 8 0) ∧
       ((e.wr MGT_UPD_RESULT.CODE 0).stagedBytes (e.rd MGT_UPD_SRC.DA * 8) (e.rd MGT_UPD_LEN.BYTES)).1 = none) ∧
    (∀ o ∈ [1, 2], let d := (Dev.reset.wr MGT_UPD_RESULT.BUSY 1).wr MGT_STAT.UPD_OWNER o
      d.bit MGT_UPD_RESULT.BUSY = true ∧ d.rd MGT_STAT.UPD_OWNER = o) ∧
    (∀ st ∈ [UpdStage.idle, .learn, .ready, .download, .verify, .apply], (updating st).mgmt.upd.stage = st) ∧
    ((updating .download (some [1])).mgmt.upd.job = some [1] ∧ [1].length < (updating .download (some [1])).mgmt.upd.size ∧
      (updating .download (some [1, 2])).mgmt.upd.size ≤ [1, 2].length ∧ ∀ b, (updating .verify none (some (1, b))).mgmt.upd.check = some (1, b)) ∧
    (let d := { twoCopies with mgmt := (updating .idle (some signed)).mgmt }.wr MGT_STAT.UPD_OWNER 2
     let x : Dev := { d with flash := FMap.set d.flash d.targetCopy signed }
     d.mgmt.upd.job = some signed ∧ d.rd MGT_STAT.UPD_OWNER = 2 ∧ x.part.keys = twoCopies.part.keys ∧ x.rbLevel = twoCopies.rbLevel ∧
       x.rd SEQ_IMG.SERIAL < 1 ∧ Dev.reset.part.keys.all (fun k => k.1.isNone) = true ∧ Dev.reset.rbLevel = 0) ∧
    (0 ≤ Dev.reset.part.chain.length ∧ ({ Dev.reset with mgmt := { Mgmt.init with keyErased := true, erasing := true } } : Dev).mgmt.keyErased = true) := by
  refine ⟨?_, ?_, ?_, ?_, ?_, ?_, ?_, ?_, ?_, ?_, ?_, ?_, ?_⟩ <;> (try simp only [Awake]) <;> decide +kernel

/-- The token lies in memory from 0x88000000. -/
def stored : Memory := (((List.range 256).map (0x88000000 + ·)).zip token).filter (fun c => c.2 != 0)

theorem witness_FusesDebugAndTestPort :
    (let v := 0x7B1E * 2 ^ 16
     (v + 3) / 2 ^ 16 % 2 ^ 16 = 0x7B1E ∧ 0 / 2 ^ 16 % 2 ^ 16 ≠ 0x7B1E ∧ twoCopies.bit MGT_UPD_RESULT.BUSY = false ∧ twoCopies.rbLevel < (v + 3) % 64 ∧
       (v + 3) % 64 = 3 ∧ (v + 0) % 64 ≤ twoCopies.rbLevel) ∧
    (let d := Dev.reset
     Awake State.reset ∧ d.bit MGT_DBG_STAT.BUSY = false ∧ (d.wr MGT_DBG_STAT.BUSY 1).bit MGT_DBG_STAT.BUSY = true ∧ d.mgmt.erasing = false ∧
       d.bit THM_STAT.SHUTDOWN = false ∧ (d.wr THM_STAT.SHUTDOWN 1).bit THM_STAT.SHUTDOWN = true ∧
       (d.wr THM_STAT.SHUTDOWN 1).cooled = false ∧ ({ d with mgmt := { d.mgmt with erasing := true } } : Dev).mgmt.erasing = true ∧
       (d.wr MGT_DBG_STAT.STATE 3).rd MGT_DBG_STAT.STATE = 3 ∧ d.rd MGT_DBG_STAT.STATE ≠ 3 ∧ d.bit MGT_UPD_RESULT.BUSY = false) ∧
    (let d := { unlockable.wr MGT_DBG_TOKEN.DA 0x88000000 with mem := stored }
     let r := d.stagedBytes (d.rd MGT_DBG_TOKEN.DA) 256
     r.1 = some token ∧ r.2.mgmt = unlockable.mgmt ∧ r.2.part = unlockable.part ∧ r.2.rd SEQ_SERIAL.SERIAL = unlockable.rd SEQ_SERIAL.SERIAL) ∧
    (Dev.reset.crst = false ∧ ({ Dev.reset with crst := true } : Dev).crst = true ∧ ({ Dev.reset with stopped := true, crst := true } : Dev).dark = true) ∧
    (let d := { Dev.reset.wr MGT_DBG_STAT.STATE 2 with tap := { Tap.init with ir := [(0, 0x21)] } }
     (d.debugOpen && d.irOf 0 == 0x21 && !d.dark) = true ∧ (Dev.reset.debugOpen && Dev.reset.irOf 0 == 0x21 && !Dev.reset.dark) = false) := by
  refine ⟨?_, ?_, ?_, ?_, ?_⟩ <;> (try simp only [Awake]) <;> decide +kernel

/-- Core 17 of partition 3 may access its registers. -/
def access17 : State := part3 (runs 0)

/-- The device is READY. -/
def ready17 : Dev := access17.dev.wr SEQ_STAT.READY 1

theorem witness_RegisterAccesses :
    (∀ a ∈ [CORE_ARR_CTRL.addr 17 0 0, CORE_MNG_BLOCKS.addr 17 0 0, CORE_ARR_CTRL.addr 17 0 0 + 640], ∀ wr ∈ [true, false],
      let p := access17.dev.regAllowed (.core 17) (2 ^ 47 + a) wr
      Live access17 ∧ OpenTo access17.dev (.core 17) a ∧ p.1 = true ∧
        (p.2.ctrlDown && decide (a < 0x100000) && halfOf a != p.2.entryHalf (.core 17)) = false ∧ p.2.regRouteLost (.core 17) a = false ∧
        p.2.seenOff (p.2.entryHalf (.core 17)) a = a ∧ a < 2 ^ 28 ∧ a % 8 = 0) ∧
    ((siteAt (CORE_ARR_CTRL.addr 17 0 0)).map (fun x => (x.reg.wide, x.word)) = some (false, 0) ∧ siteAt (CORE_ARR_CTRL.addr 17 0 0 + 640) = none ∧
      (siteAt (CORE_MNG_BLOCKS.addr 17 0 0)).map (fun x => (x.reg.wide, x.word)) = some (true, 0) ∧
      (siteAt (CORE_MNG_BLOCKS.addr 17 0 0 + 4)).map (fun x => (x.reg.wide, x.word)) = some (true, 1) ∧
      wideWord (CORE_MNG_BLOCKS.addr 17 0 0) = some 0 ∧ wideWord (CORE_MNG_BLOCKS.addr 17 0 0 + 4) = some 1) ∧
    (∀ a ∈ [CORE_ARR_CTRL.addr 17 0 0, CORE_MNG_BLOCKS.addr 17 0 0 + 4], (siteAt a).all (fun x =>
      let e := access17.dev
      !e.unitOff x && !e.siteCurtained x && !isMgt x.reg && ((e.devCmd (.core 17) x 7).or (e.unitCmd (.core 17) x 7)).isNone &&
        (e.wordWrite (.core 17) x 7).1.isSome) = true) ∧
    ((siteAt (CL_CUE_CMD.addr 1 0 0)).all (fun x => (access17.dev.unitCmd (.core 17) x 7).isSome) = true ∧
      (siteAt (MGT_DBG_CMD.addr 0 0 0)).all (fun x => isMgt x.reg && !access17.dev.mayManage (.core 17)) = true) ∧
    (∀ x ∈ (siteAt (CORE_ARR_CTRL.addr 17 0 0)).toList,
      (access17.dev.wr DARN_CORE_STATE.STATE 2 0 17).unitOff x = true ∧
      ({ access17.dev with curtains := [⟨.core 17, [], [17], .rst 17, none⟩] } : Dev).siteCurtained x = true) ∧
    (∀ x ∈ (siteAt (CORE_MNG_BLOCKS.addr 17 0 0)).toList, (access17.dev.wordWrite (.core 17) x 7).1 = none ∧
      ([(Requester.core 17, x.addr, 5)].find? (fun k => k.1 == Requester.core 17 && k.2.1 == x.addr)).isSome = true) ∧
    ((access17.dev.regAllowed (.core 17) (2 ^ 47 + 0x1000) true).1 = false ∧
      OutOfReach { access17.dev with ctrlDown := true } (.core 17) 0x80000) ∧
    (OpenTo ready17 (.fn 0) (CORE_ARR_CTRL.addr 17 0 0) ∧ access17.dev.bit SEQ_STAT.READY = false ∧ ready17.bit SEQ_STAT.READY = true ∧
      msixWord 0 0x118000 = some 0 ∧ msixWord 2 0x800 = some 0 ∧ msixWord 2 0 = none ∧ access17.dev.debugOpen = false ∧
      wideWord (CORE_ARR_CTRL.addr 17 0 0) = none) := by
  refine ⟨?_, ?_, ?_, ?_, ?_, ?_, ?_, ?_⟩ <;> (try simp only [Live, OpenTo, OutOfReach]) <;> decide +kernel

/-- A device whose control channel is lost. -/
def parted (lone : Nat) : Dev := { Dev.reset with ctrlDown := true, lone := lone }

theorem witness_AStepRunsTheFrontCommand : State.reset.dev.dark = false ∧ State.reset.dev.ctrlDown = false ∧
    ({ State.reset with dev := { Dev.reset with crst := true, stopped := true } } : State).dev.dark = true ∧
    (parted 999998).dark = false ∧ (parted 999998).ctrlDown = true ∧ (parted 999998).lone + 1 < 1000000 ∧
    1000000 ≤ (parted 999999).lone + 1 := by decide

theorem witness_MemoryReadsWhatWasStored : (7 + 1 ≤ 8 ∨ 8 + 4 ≤ 7) ∧ (12 + 1 ≤ 8 ∨ 8 + 4 ≤ 12) ∧ Dev.reset.memWf ∧ 18 ≠ 17 ∧
    (2 ^ 20 - 4) + 4 ≤ 2 ^ 20 := ⟨by decide, by decide, Dev.memWf_reset, by decide, by decide⟩

theorem witness_HeldInResetStays : HeldInReset { pending := [.darnNop], dev := asHeld Dev.reset } ∧
    step { pending := [.darnNop], dev := asHeld Dev.reset } = .next { pending := [], dev := asHeld Dev.reset } :=
  ⟨⟨rfl, by simp⟩, rfl⟩

theorem witness_AssertingCrstHolds (x : BootIn) : Instr.crstNRelease x ∉ [Instr.darnNop] ∧ Dev.reset.commit = none ∧ Dev.reset.crst = false ∧
    (asHeld Dev.reset).crst = true := ⟨by simp, rfl, rfl, rfl⟩

/-! ### Ill-formed commands, one for each check -/

theorem test_wf_units : [Instr.or 4096, .pfFlr 2, .wbAll 256, .dmaCopy 4095 8, .fportLinkUp 8, .seamPortDown 1 16, .meshLinkDown 255 6,
    .seamBadFrame 1 15 (.data (flits 3) 0 0) 0, .seamBadFrame 1 15 (.idle 64 0) 0, .seamDataFrame 1 15 ⟨4, 1, false, 0, 0⟩ 0 0,
    .seamNakFrame 1 15 (2 ^ 16), .seamTrainFrame 1 15 80 0, .patrolScrub (.word 0) 0 0 32 false].all (fun i => !i.wf) = true := by decide +kernel

theorem test_wf_numbers : [Instr.vfFlr 64, .chkStep 64, .barrEnable 1 64 0, .wrNop 8192, .recheckTimer 1024, .hqNop 2048 0,
    .atsInvalidate 66, .pllUnlock 0, .pllUnlock 26, .avsPoll 6 none].all (fun i => !i.wf) = true := by decide +kernel

theorem test_wf_memory : [Instr.laneFailing 4095 1152, .layerTempSample 4095 8 none, .refresh 4095 7 16 0, .wbSlice 255 16, .unpin 255 16,
    .cueCmdFree 255 64].all (fun i => !i.wf) = true := by decide +kernel

theorem test_wf_control : [Instr.darnCommit (2 ^ 24), .setTid 256, .i3cEntdaa 128, .lowWordRead .preset 0, .lowWordRead (.fn 66) 0,
    .lowWordRead (.core 4096) 0, .lowWordRead (.queue 0 1024) 0, .curtainLower (.tenant 4096), .curtainLower (.part 64),
    .curtainLower (.cluster 256), .join { rx7 with port := 8 } (pkt 16 0)].all (fun i => !i.wf) = true := by decide +kernel

theorem test_wf_holds : [Instr.or 4095, .seamTrainFrame 1 15 79 0, .pllUnlock 25, .lowWordRead (.queue 1 1023) 0, .curtainLower (.tenant 4095),
    .join rx7 (pkt 16 0)].all (fun i => i.wf) = true := by decide +kernel

/-! ### The examples and fixed results of the spec -/

/-- The device after a command, or none. -/
def after (o : Host.Outcome State Fault Refusal) : Option Dev :=
  match o with
  | .next t => some t.dev
  | _ => none

/-- ADD wraps, and the index moves on (R71, R86, R87). -/
theorem test_add_wraps : (after (exec (.add 17) (at17 (word 1 3 1 2 0 0) [(1, -1), (2, 1)]))).map (fun d => (d.sreg 17 3, d.rd CORE_SEQ_PC.PC 17)) =
    some (0, 1) := by decide

/-- SUBI takes a sign-extended IMM32 (R85). -/
theorem test_subi : (after (exec (.sub 17) (at17 (word 2 1 1 0 1 (2 ^ 32 - 2)) [(1, 5)]))).map (fun d => d.sreg 17 1) = some 7 := by decide

/-- High halves of the products of all-ones (R87). -/
theorem test_mulhu : (after (exec (.mulhu 17) (at17 (word 1 3 1 1 16 0) [(1, -1)]))).map (fun d => d.sreg 17 3) = some 0xFFFFFFFFFFFFFFFE := by decide
theorem test_mulh : (after (exec (.mulh 17) (at17 (word 1 3 1 1 15 0) [(1, -1)]))).map (fun d => d.sreg 17 3) = some 0 := by decide

/-- Division by zero and of the most negative value by -1 (R71), and the sign of a remainder (R87). -/
theorem test_div_zero : (after (exec (.div 17) (at17 (word 1 3 1 2 17 0) [(1, 9)]))).map (fun d => d.sreg 17 3) = some (-1) := by decide
theorem test_div_least : (after (exec (.div 17) (at17 (word 1 3 1 2 17 0) [(1, BitVec.intMin 64), (2, -1)]))).map (fun d => d.sreg 17 3) =
    some (BitVec.intMin 64) := by decide
theorem test_rem_zero : (after (exec (.rem 17) (at17 (word 1 3 1 2 19 0) [(1, 9)]))).map (fun d => d.sreg 17 3) = some 9 := by decide
theorem test_rem_sign : (after (exec (.rem 17) (at17 (word 1 3 1 2 19 0) [(1, -7), (2, 3)]))).map (fun d => d.sreg 17 3) = some (-1) := by decide

/-- SRA shifts by the low six bits, and CLZ of zero is 64 (R87). -/
theorem test_sra : (after (exec (.sra 17) (at17 (word 1 3 1 2 7 0) [(1, -8), (2, 65)]))).map (fun d => d.sreg 17 3) = some (-4) := by decide
theorem test_clz_zero : (after (exec (.clz 17) (at17 (word 1 3 1 0 21 0) []))).map (fun d => d.sreg 17 3) = some 64 := by decide

/-- Register 0 stays zero (R70). -/
theorem test_register_zero : (after (exec (.add 17) (at17 (word 1 0 1 1 0 0) [(1, 7)]))).map (fun d => d.sreg 17 0) = some 0 := by decide

/-- LIW sign-extends IMM48 (R88). -/
theorem test_liw : (after (exec (.liw 17) (at17 (BitVec.ofNat 64 (3 * 2 ^ 58 + 3 * 2 ^ 53 + 2 ^ 47)) []))).map (fun d => d.sreg 17 3) =
    some 0xFFFF800000000000 := by decide

/-- JR to index 2,048 traps with PC_RANGE: TVAL has the index, TCAUSE the code, and the vector is taken (R93, R109). -/
theorem test_jr_range : (after (exec (.jr 17) (with17 (with17 (at17 (word 10 0 1 0 0 0) [(1, 2048)]) CORE_SEQ_TVEC.VALID 1) CORE_SEQ_TVEC.INDEX 5))).map
    (fun d => [d.rd CORE_SEQ_PC.PC 17, d.rd CORE_SEQ_TVAL.TVAL 17, d.rd CORE_SEQ_STAT.IN_TRAP 17, d.rd CORE_SEQ_TCAUSE.CAUSE 17]) =
    some [5, 2048, 1, 6] := by decide

/-- Bytes of a store are little-endian (R10, R73). -/
theorem test_st32 : (after (exec (.st32 17) (at17 (word 6 0 1 2 4 8) [(1, 0x1000), (2, 0xAABBCCDD)]))).map (fun d => (d.lrd 17 0x1008 1, d.lrd 17 0x100B 1, d.lrd 17 0x100C 1)) =
    some (0xDD, 0xAA, 0) := by decide

/-- The fields of the example instructions of chapters 3, 5, 7 and 10. -/
theorem test_example_words :
    (let w : W64 := 0x50874840000003FF; (opOf w, rdOf w, raOf w, rbOf w, fnOf w) = (0x14, 4, 7, 9, 1)) ∧
    word 0x14 4 7 9 1 0x3FF = 0x50874840000003FF ∧ word 0x30 20 21 22 1 1 = 0xC295B04000000001 ∧ word 0x3C 10 11 12 9 3 = 0xF14B624000000003 ∧
    word 0x38 0 6 0 1 3 = 0xE006004000000003 := by decide

/-- The Unit ID of chapter 1: bank 5 of L0 in the slice of core B:37:1. -/
theorem test_example_unit : (uidCluster 0xA50A05, uidSlot 0xA50A05, uidKind 0xA50A05, uidInst 0xA50A05) = (128 + 37, 1, 8, 5) ∧
    unitCore ((128 + 37) * 16 + 1) 8 5 = 0xA50A05 := by decide

/-- The register addresses of the examples of chapters 1 and 12. -/
theorem test_example_addresses : CL_CACHE_STAT.addr 120 0 0 = 0x4C01000 ∧ CORE_DMA_CHn_STAT.addr (120 * 16 + 9) 0 0 = 0x4C34800 ∧
    BARR_CLMASKn_w.addr 0 9 0 = 0x01B2200 + 0x10 := by decide

/-- The MXFP4 block of chapter 4, its values from FP32. -/
theorem test_example_mxfp4 : mxEncode 7 [decodeNum 0 0x40A9999A, decodeNum 0 0x3E99999A, decodeNum 0 0xBF99999A] = (0x7F, [7, 1, 0xA]) := by
  decide +kernel

/-- The CRC-32C of 32 zero bytes in RFC 3720, which R473 names. -/
theorem test_crc32c : crc32c (List.replicate 32 0) = 0x8A9136AA := by decide +kernel

/-- The SHA-384 digest of "abc" in FIPS 180-4, which R515 names. -/
theorem test_sha384 : sha384 [0x61, 0x62, 0x63] =
    0xCB00753F45A35E8BB5A03D699AC65007272C32AB0EDED1631A8B605A43FF5BED8086072BA1E7CC2358BAECA134C825A7 := by decide +kernel

/-- The drift window of the example of chapter 20: port 4 is the outlier, and CLK_DEV.SEL reads 0xE49E. -/
theorem test_example_drift :
    (after (exec (.driftWindow [some 7120, some 6890, some 7450, some 7010, some 1200, some 6930] none)
      (on State.reset (fun d => (List.range 6).foldl (fun d p => d.wr FPORT_STAT.LINK 2 p) d)))).map
      (fun d => (d.rd CLK_DEV.SEL, d.rd CLK_MON_SRC.USED, d.rd CLK_MON_SRC.OUTLIER)) = some (0xE49E, 0x3F, 0x10) := by decide +kernel

/-- R582: a step of fabric time while the control channel is lost reaches Half A only. -/
theorem test_step_of_one_half : (((parted 0).stepTime 5).timeOf 0, ((parted 0).stepTime 5).timeOf 1) = (5, 0) ∧
    ((Dev.reset.stepTime 5).timeOf 0, (Dev.reset.stepTime 5).timeOf 1) = (5, 5) := by decide

/-- R375: the warm reset after a SPLIT takes the banks of Half A, and another one returns the tables to their Reset entries. -/
theorem test_split_reset :
    (let f := CL_CACHE_HINTWIN_CTRL.OWNER
     let one : Dev := { (Dev.reset.wr f 7 130 2).wr f 5 3 1 with shadow := [(f.key 130 2 0, 3)] }
     let split := (one.wr HALF_COMMIT.RESULT 4).wr HALF_COMMIT.BANK 1 1
     [split, one].map (fun d => (d.warmBase.rd f 130 2, d.warmBase.rd f 3 1, d.warmBase.shadow.length)) = [(3, 5, 0), (0, 0, 0)]) := by
  decide +kernel

/-- An idle step only moves the clock, and a command that waits is taken first. -/
theorem test_queue : (after (step State.reset)).map Dev.now = some 1 ∧
    (match step { State.reset with pending := [.darnNop, .rehNop] } with | .next t => t.pending.length | _ => 0) = 1 := by decide

end Sys2Proof.Tests
end

section
/-! What stores leave in device memory and local memory (R10, R73, R261), and what a cold reset leaves everywhere. -/
namespace Sys2Proof.Machine
open Sys2Proof

variable (d : Dev)

/-! ### Operations beside the memories: both byte maps stay as they are -/

@[simp] theorem Dev.updSlice_memories (n : Nat) (f : SliceSt → SliceSt) :
    (d.updSlice n f).mem = d.mem ∧ (d.updSlice n f).lmem = d.lmem := ⟨rfl, rfl⟩

@[simp] theorem Dev.add_memories (f : Fld) (k u i j : Nat) :
    (d.add f k u i j).mem = d.mem ∧ (d.add f k u i j).lmem = d.lmem := ⟨rfl, rfl⟩

@[simp] theorem Dev.setPoison_memories (a : Nat) :
    (d.setPoison a).mem = d.mem ∧ (d.setPoison a).lmem = d.lmem := ⟨rfl, rfl⟩

@[simp] theorem Dev.clearBlk_memories (a : Nat) :
    (d.clearBlk a).mem = d.mem ∧ (d.clearBlk a).lmem = d.lmem := ⟨rfl, rfl⟩

@[simp] theorem Dev.fixRow_memories (n key : Nat) :
    (d.fixRow n key).mem = d.mem ∧ (d.fixRow n key).lmem = d.lmem := ⟨rfl, rfl⟩

@[simp] theorem Dev.noteSpares_memories (n bank : Nat) :
    (d.noteSpares n bank).mem = d.mem ∧ (d.noteSpares n bank).lmem = d.lmem := ⟨rfl, rfl⟩

@[simp] theorem Dev.dropRec_memories : d.dropRec.mem = d.mem ∧ d.dropRec.lmem = d.lmem := ⟨rfl, rfl⟩

@[simp] theorem Dev.queueRec_memories (r : ErrRec) : (d.queueRec r).mem = d.mem ∧ (d.queueRec r).lmem = d.lmem := by
  unfold Dev.queueRec; split <;> simp

@[simp] theorem Dev.err_memories (cls op unit addr : Nat) :
    (d.err cls op unit addr).mem = d.mem ∧ (d.err cls op unit addr).lmem = d.lmem := by
  unfold Dev.err
  split
  · split <;> simp
  · simp

@[simp] theorem Dev.sendMsix_memories (func vec : Nat) :
    (d.sendMsix func vec).mem = d.mem ∧ (d.sendMsix func vec).lmem = d.lmem := by
  unfold Dev.sendMsix; split <;> simp

@[simp] theorem Dev.irqSend_memories (i : Nat) : (d.irqSend i).mem = d.mem ∧ (d.irqSend i).lmem = d.lmem := by
  unfold Dev.irqSend; split <;> simp

@[simp] theorem Dev.event_memories (cls : Nat) (part : Option Nat) :
    (d.event cls part).mem = d.mem ∧ (d.event cls part).lmem = d.lmem := by
  unfold Dev.event; split <;> simp

@[simp] theorem Dev.svc_memories (b : Nat) : (d.svc b).mem = d.mem ∧ (d.svc b).lmem = d.lmem := by
  unfold Dev.svc; dsimp only; split <;> simp

@[simp] theorem Dev.replace_memories : d.replace.mem = d.mem ∧ d.replace.lmem = d.lmem := d.svc_memories 0

@[simp] theorem Dev.mapChange_memories (unit : Nat) :
    (d.mapChange unit).mem = d.mem ∧ (d.mapChange unit).lmem = d.lmem := by simp [Dev.mapChange]

@[simp] theorem Dev.darnPend_memories (kind unit detail : Nat) :
    (d.darnPend kind unit detail).1.mem = d.mem ∧ (d.darnPend kind unit detail).1.lmem = d.lmem := by
  unfold Dev.darnPend
  split
  · simp
  · dsimp only; split <;> simp

@[simp] theorem Dev.countWings_memories (n bytes : Nat) :
    (d.countWings n bytes).mem = d.mem ∧ (d.countWings n bytes).lmem = d.lmem := by
  unfold Dev.countWings; split <;> simp

@[simp] theorem Dev.countBytes_memories (f : Fld) (n bytes : Nat) :
    (d.countBytes f n bytes).mem = d.mem ∧ (d.countBytes f n bytes).lmem = d.lmem := by simp [Dev.countBytes]

@[simp] theorem Dev.notePoison_memories (a : Nat) : (d.notePoison a).mem = d.mem ∧ (d.notePoison a).lmem = d.lmem := by
  unfold Dev.notePoison; split <;> simp

/-- The end of a row's copy moves no byte of the address map (R264). -/
@[simp] theorem Dev.rowCopied_memories (n key : Nat) :
    (d.rowCopied n key).mem = d.mem ∧ (d.rowCopied n key).lmem = d.lmem := by
  unfold Dev.rowCopied
  split
  · simp
  · dsimp only
    split <;> split <;> simp

@[simp] theorem Dev.rowWait_memories (a n : Nat) : (d.rowWait a n).mem = d.mem ∧ (d.rowWait a n).lmem = d.lmem := by
  unfold Dev.rowWait
  generalize (d.slice (daCore a)).copying = rows
  induction rows generalizing d with
  | nil => simp
  | cons c rows ih =>
    simp only [List.foldl_cons, ih]
    split <;> simp

/-! ### Device memory: reading after writing -/

/-- A read sees the bytes it covers and nothing else. -/
theorem Dev.mrd_congr {d e : Dev} (a n : Nat)
    (h : ∀ x, a ≤ x → x < a + n → FMap.get d.mem 0 x = FMap.get e.mem 0 x) : d.mrd a n = e.mrd a n := by
  induction n generalizing a with
  | zero => rfl
  | succ n ih =>
    rw [Dev.mrd, Dev.mrd, h a (by omega) (by omega), ih (a + 1) (fun x h1 h2 => h x (by omega) (by omega))]

theorem Dev.mrd_of_mem_eq {d e : Dev} (h : d.mem = e.mem) (a n : Nat) : d.mrd a n = e.mrd a n :=
  Dev.mrd_congr a n (fun _ _ _ => by rw [h])

/-- Where no byte is listed, memory reads zero. -/
theorem Dev.mrd_of_mem_nil {d : Dev} (h : d.mem = []) (a n : Nat) : d.mrd a n = 0 := by
  induction n generalizing a with
  | zero => rfl
  | succ n ih => simp [Dev.mrd, ih, h]

/-- The bytes that are written read back as the value, little-endian. -/
theorem Dev.mrd_mwrN_same (a v n : Nat) : (d.mwrN a v n).mrd a n = v % 256 ^ n := by
  induction n generalizing d a v with
  | zero => simp [Dev.mrd, Nat.mod_one]
  | succ n ih =>
    have hfirst : FMap.get (d.mwrN a v (n + 1)).mem 0 a = BitVec.ofNat 8 v := by
      rw [Dev.mwrN, Dev.mwrN_outside _ _ _ _ _ (by omega), Dev.mput_same]
    rw [Dev.mrd, hfirst, Dev.mwrN, ih, Nat.pow_succ', Nat.mod_mul, BitVec.toNat_ofNat]

/-- A read beside the bytes that are written sees no change. -/
theorem Dev.mrd_mwrN_outside (a v n b k : Nat) (h : b + k ≤ a ∨ a + n ≤ b) : (d.mwrN a v n).mrd b k = d.mrd b k :=
  Dev.mrd_congr b k (fun x _ _ => Dev.mwrN_outside d a v n x (by omega))

@[simp] theorem Dev.mwrN_lmem (a v n : Nat) : (d.mwrN a v n).lmem = d.lmem := by
  induction n generalizing d a v with
  | zero => rfl
  | succ n ih => rw [Dev.mwrN, ih, Dev.mput_lmem]

/-- A write of bytes depends on the bytes there are, and on nothing else of the device. -/
theorem Dev.mwrN_mem_congr {d e : Dev} (h : d.mem = e.mem) (a v n : Nat) : (d.mwrN a v n).mem = (e.mwrN a v n).mem := by
  induction n generalizing d e a v with
  | zero => exact h
  | succ n ih => exact ih (by simp [Dev.mput, h]) (a + 1) (v / 256)

/-! ### Stores -/

theorem Dev.store_mem (a n v : Nat) : (d.store a n v).mem = (d.mwrN a v n).mem := by
  simp [Dev.store, Dev.storeIn, Dev.mwrN_mem_congr (d.rowWait_memories a n).1]

@[simp] theorem Dev.store_lmem (a n v : Nat) : (d.store a n v).lmem = d.lmem := by simp [Dev.store, Dev.storeIn]

theorem Dev.memWf_of_memories_eq {d e : Dev} (hm : e.mem = d.mem) (hl : e.lmem = d.lmem) (h : d.memWf) : e.memWf := by
  unfold Dev.memWf; rw [hm, hl]; exact h

theorem Dev.memWf_store {d : Dev} (h : d.memWf) (a n v : Nat) : (d.store a n v).memWf :=
  Dev.memWf_of_memories_eq (d.store_mem a n v) (by simp) (Dev.memWf_mwrN h a v n)

theorem Dev.storeBlock_mem (a v : Nat) (p : Bool) : (d.storeBlock a v p).mem = (d.mwrN a v 4096).mem := by
  cases p <;> simp [Dev.storeBlock, Dev.store_mem, Dev.mwrN_mem_congr (d.clearBlk_memories a).1]

@[simp] theorem Dev.storeBlock_lmem (a v : Nat) (p : Bool) : (d.storeBlock a v p).lmem = d.lmem := by
  cases p <;> simp [Dev.storeBlock]

theorem Dev.mrd_store_same (a n v : Nat) : (d.store a n v).mrd a n = v % 256 ^ n := by
  rw [Dev.mrd_of_mem_eq (d.store_mem a n v), Dev.mrd_mwrN_same]

theorem Dev.mrd_store_outside (a n v b k : Nat) (h : b + k ≤ a ∨ a + n ≤ b) : (d.store a n v).mrd b k = d.mrd b k := by
  rw [Dev.mrd_of_mem_eq (d.store_mem a n v), Dev.mrd_mwrN_outside _ _ _ _ _ _ h]

theorem Dev.mrd_storeBlock_same (a v : Nat) (p : Bool) : (d.storeBlock a v p).mrd a 4096 = v % 256 ^ 4096 := by
  rw [Dev.mrd_of_mem_eq (d.storeBlock_mem a v p), Dev.mrd_mwrN_same]

theorem Dev.memWf_storeBlock {d : Dev} (h : d.memWf) (a v : Nat) (p : Bool) : (d.storeBlock a v p).memWf :=
  Dev.memWf_of_memories_eq (d.storeBlock_mem a v p) (by simp) (Dev.memWf_mwrN h a v 4096)

/-! ### Local memory: the byte map of device memory once more, read at the keys of a core -/

/-- The device whose device memory is the local memories, by their keys. -/
def Dev.localAsMem (d : Dev) : Dev := { d with mem := d.lmem }

theorem lkey_succ (c a : Nat) : lkey c (a + 1) = lkey c a + 1 := (Nat.add_assoc ..).symm

theorem Dev.lrd_eq_mrd (c a n : Nat) : d.lrd c a n = d.localAsMem.mrd (lkey c a) n := by
  induction n generalizing a with
  | zero => rfl
  | succ n ih => rw [Dev.lrd, Dev.mrd, ih, lkey_succ]; rfl

theorem Dev.lwrN_lmem (c a v n : Nat) : (d.lwrN c a v n).lmem = (d.localAsMem.mwrN (lkey c a) v n).mem := by
  induction n generalizing d a v with
  | zero => rfl
  | succ n ih => rw [Dev.lwrN, ih, lkey_succ, Dev.mwrN]; exact Dev.mwrN_mem_congr (by rfl) _ _ _

theorem Dev.lwr_lmem (c a n v : Nat) : (d.lwr c a n v).lmem = (d.localAsMem.mwrN (lkey c a) v n).mem :=
  d.lwrN_lmem c a v n

@[simp] theorem Dev.lwrN_mem (c a v n : Nat) : (d.lwrN c a v n).mem = d.mem := by
  induction n generalizing d a v with
  | zero => rfl
  | succ n ih => rw [Dev.lwrN, ih, Dev.lput_mem]

@[simp] theorem Dev.lwr_mem (c a n v : Nat) : (d.lwr c a n v).mem = d.mem := d.lwrN_mem c a v n

theorem Dev.lrd_of_lmem_nil {d : Dev} (h : d.lmem = []) (c a n : Nat) : d.lrd c a n = 0 := by
  rw [Dev.lrd_eq_mrd, Dev.mrd_of_mem_nil h]

theorem Dev.lrd_lwr (c a n v c' b k : Nat) :
    (d.lwr c a n v).lrd c' b k = (d.localAsMem.mwrN (lkey c a) v n).mrd (lkey c' b) k := by
  rw [Dev.lrd_eq_mrd]; exact Dev.mrd_of_mem_eq (d.lwr_lmem c a n v) _ _

theorem Dev.lrd_lwr_same (c a n v : Nat) : (d.lwr c a n v).lrd c a n = v % 256 ^ n := by
  rw [Dev.lrd_lwr, Dev.mrd_mwrN_same]

/-- A store changes no read whose keys lie beside its own. -/
theorem Dev.lrd_lwr_outside (c a n v c' b k : Nat) (h : lkey c' b + k ≤ lkey c a ∨ lkey c a + n ≤ lkey c' b) :
    (d.lwr c a n v).lrd c' b k = d.lrd c' b k := by
  rw [Dev.lrd_lwr, Dev.mrd_mwrN_outside _ _ _ _ _ _ h, Dev.lrd_eq_mrd]

/-- The keys of two cores lie in different spans of 1 MiB. -/
theorem lkey_spans_apart {c c' a n b k : Nat} (hc : c' ≠ c) (ha : a + n ≤ 2 ^ 20) (hb : b + k ≤ 2 ^ 20) :
    lkey c' b + k ≤ lkey c a ∨ lkey c a + n ≤ lkey c' b := by
  unfold lkey; omega

end Sys2Proof.Machine

namespace Sys2Proof.Claims
open Sys2Proof Sys2Proof.Machine

/-- Settles O57: a store is the write of its bytes under its keys, and such a write reads back and spares all other keys. -/
theorem memoryReadsWhatWasStored : Obligations.MemoryReadsWhatWasStored := by
  intro d a n v b k
  refine ⟨d.mrd_store_same a n v, d.mrd_store_outside a n v b k,
    fun p => ⟨d.mrd_storeBlock_same a v p, fun h => Dev.memWf_storeBlock h a v p⟩,
    fun c => ⟨d.lrd_lwr_same c a n v, fun h => ?sameCore, fun c' hc ha hb => ?otherCore, d.lwr_mem c a n v,
      fun h => Dev.memWf_lwr h c a n v⟩,
    d.store_lmem a n v, fun h => Dev.memWf_store h a n v⟩
  case sameCore => exact d.lrd_lwr_outside c a n v c b k (by unfold lkey; omega)
  case otherCore => exact d.lrd_lwr_outside c a n v c' b k (lkey_spans_apart hc ha hb)

/-- Settles O56: a device that lists no field, byte or core reads each at its default. -/
theorem afterReset : Obligations.AfterReset := by
  refine ⟨rfl, Dev.memWf_reset, fun f u i j => rfl, fun da n => Dev.mrd_of_mem_nil rfl da n,
    fun c a n => Dev.lrd_of_lmem_nil rfl c a n, fun c r => ?scalar, rfl, rfl, rfl, rfl, rfl, rfl⟩
  case scalar => unfold Dev.sreg; split <;> rfl

end Sys2Proof.Claims
end

section
/-! Register accesses (R11, R17, R18, R28, R29, R39, R312, R373, R446, R448, R527): what each stage of an access answers,
from the word of a register up to the command. -/
namespace Sys2Proof.Machine
open Sys2Proof Sys2Proof.Claims

variable {s : State} {d e g t : Dev} {who : Requester} {x : Site} {a b m n r v w : Nat} {wr : Option Nat}

/-! ### Commands of the units' clock domains -/

/-- A command under `act` gives the change it makes, while the clocks of the units run. -/
theorem gives_iff_of_act {i : Instr} {f : Dev → Dev} (hi : exec i s = act s f) (hl : Live s) :
    Gives i s t ↔ f s.dev = t := by
  rw [Gives, hi, act_running f hl]; simp

theorem gives_registerWrite_iff (hl : Live s) :
    Gives (.registerWrite who a n v) s t ↔ s.dev.access who a (if n = 8 then 8 else 4) (some v) = t :=
  gives_iff_of_act (f := fun d => d.access who a _ (some v)) rfl hl

theorem gives_rcFieldRead_iff (hl : Live s) :
    Gives (.rcFieldRead who a n) s t ↔ s.dev.access who a (accessBytes n) none = t :=
  gives_iff_of_act (f := fun d => d.access who a _ none) rfl hl

theorem gives_narrowRegisterWrite_iff (hl : Live s) :
    Gives (.narrowRegisterWrite who a n v) s t ↔ s.dev.access who a (if n = 2 then 2 else 1) (some v) = t :=
  gives_iff_of_act (f := fun d => d.access who a _ (some v)) rfl hl

theorem gives_lowWordWrite_iff (hl : Live s) : Gives (.lowWordWrite who a v) s t ↔
    (if wideWord a = some 0 then s.dev.access who a 4 (some v) else s.dev) = t :=
  gives_iff_of_act rfl hl

theorem gives_lowWordRead_iff (hl : Live s) : Gives (.lowWordRead who a) s t ↔
    (if wideWord a = some 0 then s.dev.access who a 4 none else s.dev) = t :=
  gives_iff_of_act rfl hl

theorem gives_highWordWrite_iff (hl : Live s) : Gives (.highWordWrite who a v) s t ↔
    (if wideWord a = some 1 then s.dev.access who a 4 (some v) else s.dev) = t :=
  gives_iff_of_act rfl hl

/-- A write of 4 or 8 bytes is an access of as many. -/
theorem writeBytes_eq (hn : n ∈ [4, 8]) : (if n = 8 then 8 else 4) = n := by
  simp only [List.mem_cons, List.not_mem_nil, or_false] at hn
  rcases hn with rfl | rfl <;> rfl

/-- A read of 1, 2, 4 or 8 bytes is an access of as many. -/
theorem accessBytes_eq (hn : n ∈ [1, 2, 4, 8]) : accessBytes n = n := by
  simp only [List.mem_cons, List.not_mem_nil, or_false] at hn
  rcases hn with rfl | rfl | rfl | rfl <;> rfl

/-! ### Writes of a register -/

theorem Dev.siteWrite_of_writes (h : Writes e who x v m t) : e.siteWrite who x v m = t := by
  unfold Dev.siteWrite
  obtain ⟨hoff, rfl⟩ | ⟨hoff, hcur, rfl⟩ | ⟨hoff, hcur, hrest⟩ := h
  · simp [hoff]
  · simp [hoff, hcur]
  · obtain ⟨hmgt, hmay, rfl⟩ | ⟨hpass, hcmd⟩ := hrest
    · simp [hoff, hcur, hmgt, hmay]
    · have hmgt : (isMgt x.reg && !e.mayManage who) = false := by rcases hpass with h | h <;> simp [h]
      obtain hcmd | ⟨hcmd, rfl⟩ := hcmd <;> simp [hoff, hcur, hmgt, hcmd]

theorem Dev.writeWord32_reserved (hs : siteAt b = none) : e.writeWord32 who b v = e := by simp [Dev.writeWord32, hs]

/-- A low word is held and changes no register. -/
theorem Dev.writeWord32_held (hs : siteAt b = some x) (hw : e.wordWrite who x (v % 2 ^ 32) = (none, g)) :
    e.writeWord32 who b v = g := by simp only [Dev.writeWord32, hs, hw]

theorem Dev.writeWord32_takes (hs : siteAt b = some x) (hw : e.wordWrite who x (v % 2 ^ 32) = (some (w, m), g))
    (ht : Writes g who x w m t) : e.writeWord32 who b v = t := by
  simp only [Dev.writeWord32, hs, hw, Dev.siteWrite_of_writes ht]

/-- Both words of a 64-bit register go in one step, and a low word that was held is dropped. -/
theorem Dev.barWrite_eight_whole (hs : siteAt b = some x) (hwide : x.reg.wide = true) (hlow : x.word = 0)
    (ht : Writes { e with held := e.held.filter (fun k => k.1 != who) } who x (v % 2 ^ 64) (2 ^ 64 - 1) t) :
    e.barWrite who b 8 v = t := by
  simp only [Dev.barWrite, hs, hwide, hlow, beq_self_eq_true, Bool.and_self, if_true]
  exact Dev.siteWrite_of_writes ht

/-- 64 bits that do not meet a 64-bit register are two words. -/
theorem Dev.barWrite_eight_split (hs : siteAt b = some x) (hx : x.reg.wide = false ∨ x.word ≠ 0) :
    e.barWrite who b 8 v = (e.writeWord32 who b v).writeWord32 who (b + 4) (v / 2 ^ 32) := by
  have hwhole : (x.reg.wide && x.word == 0) = false := by rcases hx with h | h <;> simp [h]
  simp [Dev.barWrite, hs, hwhole]

theorem Dev.barWrite_eight_reserved (hs : siteAt b = none) :
    e.barWrite who b 8 v = e.writeWord32 who (b + 4) (v / 2 ^ 32) := by simp [Dev.barWrite, hs]

/-! ### Reads of a register -/

/-- The captures that a read of `x` leaves: all but the one that `who` has of it. -/
def Dev.captRest (d : Dev) (who : Requester) (x : Site) : List (Requester × Nat × Nat) :=
  d.capt.filter (fun k => !(k.1 == who && k.2.1 == x.addr))

theorem Dev.readWord32_narrow (hwide : x.reg.wide = false) (hlow : x.word = 0) (hr : e.siteRead x = (m, g)) :
    e.readWord32 who x = (m % 2 ^ 32, g.clearRc x 0) := by simp [Dev.readWord32, hwide, hlow, hr]

/-- The low word of a 64-bit register captures the high word. -/
theorem Dev.readWord32_low (hwide : x.reg.wide = true) (hlow : x.word = 0) (hr : e.siteRead x = (m, g)) :
    e.readWord32 who x =
      (m % 2 ^ 32, { g.clearRc x 0 with capt := e.captRest who x ++ [(who, x.addr, m / 2 ^ 32)] }) := by
  simp [Dev.readWord32, Dev.captRest, hwide, hlow, hr]

theorem Dev.readWord32_captured {k : Requester × Nat × Nat} (hhigh : x.word = 1)
    (hk : e.capt.find? (fun k => k.1 == who && k.2.1 == x.addr) = some k) :
    e.readWord32 who x = (k.2.2, { e with capt := e.captRest who x }) := by
  simp [Dev.readWord32, Dev.captRest, hhigh, hk]

theorem Dev.readWord32_high (hhigh : x.word = 1) (hr : e.siteRead x = (m, g))
    (hk : e.capt.find? (fun k => k.1 == who && k.2.1 == x.addr) = none) :
    e.readWord32 who x = (m / 2 ^ 32, g.clearRc x 1) := by
  simp [Dev.readWord32, hhigh, hk, hr]

theorem Dev.barRead_four (hs : siteAt b = some x) : e.barRead who b 4 = e.readWord32 who x := by simp [Dev.barRead, hs]

theorem Dev.barRead_four_reserved (hs : siteAt b = none) : e.barRead who b 4 = (0, e) := by simp [Dev.barRead, hs]

theorem Dev.barRead_eight_whole (hs : siteAt b = some x) (hwide : x.reg.wide = true) (hlow : x.word = 0)
    (hr : e.siteRead x = (m, g)) : e.barRead who b 8 = (m, g.clearRc x 2) := by
  simp [Dev.barRead, hs, hwide, hlow, hr]

theorem Dev.barRead_eight_split (hs : siteAt b = some x) (hx : x.reg.wide = false ∨ x.word ≠ 0) {lo hi : Nat} {h : Dev}
    (hlo : e.readWord32 who x = (lo, g)) (hhi : g.barRead who (b + 4) 4 = (hi, h)) :
    e.barRead who b 8 = (lo + hi * 2 ^ 32, h) := by
  have hwhole : (x.reg.wide && x.word == 0) = false := by rcases hx with h | h <;> simp [h]
  simp only [Dev.barRead] at hhi
  simp [Dev.barRead, hs, hwhole, hlo, hhi]

theorem Dev.barRead_eight_reserved (hs : siteAt b = none) {hi : Nat} {h : Dev}
    (hhi : e.barRead who (b + 4) 4 = (hi, h)) : e.barRead who b 8 = (hi * 2 ^ 32, h) := by
  simp only [Dev.barRead] at hhi
  simp [Dev.barRead, hs, hhi]

/-- A narrow read clears no RC field and takes no capture. -/
theorem Dev.barRead_narrow (hn : n ∈ [1, 2]) (hs : siteAt (b - b % 4) = some x) (hr : e.siteRead x = (m, g)) :
    e.barRead who b n = (m / 2 ^ (32 * x.word) / 2 ^ (8 * (b % 4)) % 2 ^ (8 * n), g) := by
  simp only [List.mem_cons, List.not_mem_nil, or_false] at hn
  rcases hn with rfl | rfl <;> simp [Dev.barRead, hs, hr]

theorem Dev.barRead_narrow_reserved (hn : n ∈ [1, 2]) (hs : siteAt (b - b % 4) = none) : e.barRead who b n = (0, e) := by
  simp only [List.mem_cons, List.not_mem_nil, or_false] at hn
  rcases hn with rfl | rfl <;> simp [Dev.barRead, hs]

/-! ### The way of an access to its register (R28, R312, R373) -/

theorem regDa_mod (ha : a < 2 ^ 28) : (2 ^ 47 + a) % 2 ^ 28 = a := by omega
theorem regDa_div (ha : a < 2 ^ 28) : (2 ^ 47 + a) / 2 ^ 28 = 2 ^ 19 := by omega

theorem Dev.regAccess_refused (ha : a < 2 ^ 28) (h : d.regAllowed who (2 ^ 47 + a) wr.isSome = (false, e)) :
    d.regAccess who (2 ^ 47 + a) n wr = (none, e.err 3 (if wr.isSome then 2 else 1) (reqUnit who) (2 ^ 47 + a)) := by
  simp only [Dev.regAccess, regDa_div ha, h, ne_eq, not_true, if_false, Bool.not_false, if_true]

theorem Dev.regAccess_outOfReach (ha : a < 2 ^ 28) (hn : a % n = 0)
    (h : d.regAllowed who (2 ^ 47 + a) wr.isSome = (true, e)) (hout : OutOfReach e who a) :
    d.regAccess who (2 ^ 47 + a) n wr = (none, e.err 4 (if wr.isSome then 2 else 1) (reqUnit who) (2 ^ 47 + a)) := by
  simp only [Dev.regAccess, regDa_div ha, regDa_mod ha, hn, Nat.sub_zero, h, ne_eq, not_true, if_false, Bool.not_true,
    Bool.false_eq_true]
  rcases hout with hctrl | hmesh
  · rw [if_pos hctrl]
  · rw [if_pos hmesh, ite_self]

/-- A write that is let through is served at its offset in the half that it enters. -/
theorem Dev.regAccess_admitted_write (ha : a < 2 ^ 28) (hn : a % n = 0) (h : Admitted d who a true e b) :
    d.regAccess who (2 ^ 47 + a) n (some v) = (some 0, e.barWrite who b n v) := by
  obtain ⟨-, hallow, hreach, rfl⟩ := h
  obtain ⟨hctrl, hmesh⟩ := not_or.1 hreach
  simp only [Dev.regAccess, regDa_div ha, regDa_mod ha, hn, Nat.sub_zero, Option.isSome_some, hallow, ne_eq, not_true,
    if_false, Bool.not_true, Bool.false_eq_true, if_neg hctrl, if_neg hmesh]

theorem Dev.regAccess_admitted_read (ha : a < 2 ^ 28) (hn : a % n = 0) (h : Admitted d who a false e b) :
    d.regAccess who (2 ^ 47 + a) n none = (some (e.barRead who b n).1, (e.barRead who b n).2) := by
  obtain ⟨-, hallow, hreach, rfl⟩ := h
  obtain ⟨hctrl, hmesh⟩ := not_or.1 hreach
  simp only [Dev.regAccess, regDa_div ha, regDa_mod ha, hn, Nat.sub_zero, Option.isSome_none, hallow, ne_eq, not_true,
    if_false, Bool.not_true, Bool.false_eq_true, if_neg hctrl, if_neg hmesh]

/-! ### What a requester is answered (R29, R445-R448, R507) -/

/-- The device after an access that came to `r`: a read is answered, a write of a function never is. -/
def Dev.answered (who : Requester) (a n : Nat) (wr : Option Nat) (r : Option Nat × Dev) : Dev :=
  match r.1, wr with
  | some v, none => r.2.emit (.regData who a n v)
  | some _, some _ => r.2
  | none, none => r.2.emit (.errCompletion who a)
  | none, some _ => match who with
    | .fn _ => r.2
    | _ => r.2.emit (.errCompletion who a)

theorem Dev.access_fn {f : Nat} (hf : f < 66) :
    d.access (.fn f) a n wr = Dev.answered (.fn f) a n wr (d.fnAccess f a n wr) := by
  simp only [Dev.access, Nat.mod_eq_of_lt hf]
  rfl

/-- A function is not served before READY. -/
theorem Dev.fnAccess_notReady {f : Nat} (hr : d.bit SEQ_STAT.READY = false) : d.fnAccess f a n wr = (none, d) := by
  simp [Dev.fnAccess, hr]

theorem Dev.fnAccess_msix {f : Nat} (hr : d.bit SEQ_STAT.READY = true) (ha : a < if f < 2 then 2 ^ 28 else 4096)
    (hn : a % n = 0) (hw : msixWord f a = some w) :
    d.fnAccess f a n wr = (some (d.msixAccess f w n wr).1, (d.msixAccess f w n wr).2) := by
  have hoff : (if f < 2 then a % 2 ^ 28 else a % 4096) = a := by
    split at ha <;> rename_i hf <;> simp only [hf, if_true, if_false] <;> exact Nat.mod_eq_of_lt ha
  simp only [Dev.fnAccess, hr, hn, Nat.sub_zero, hoff, hw, Bool.not_true, Bool.false_eq_true, if_false]

theorem Dev.fnAccess_pf {f : Nat} (hf : f < 2) (hr : d.bit SEQ_STAT.READY = true) (ha : a < 2 ^ 28) (hn : a % n = 0)
    (hw : msixWord f a = none) : d.fnAccess f a n wr = d.regAccess (.fn f) (2 ^ 47 + a) n wr := by
  simp only [Dev.fnAccess, hr, hn, Nat.sub_zero, Nat.mod_eq_of_lt ha, hf, hw, Bool.not_true, Bool.false_eq_true, if_false,
    if_true]

theorem Dev.fnAccess_vf {f : Nat} (hf : 2 ≤ f) (hr : d.bit SEQ_STAT.READY = true) (ha : a < 4096) (hn : a % n = 0)
    (hw : msixWord f a = none) :
    d.fnAccess f a n wr = (some (d.vfAccess f a n wr).1, (d.vfAccess f a n wr).2) := by
  simp only [Dev.fnAccess, hr, hn, Nat.sub_zero, Nat.mod_eq_of_lt ha, if_neg (Nat.not_lt.2 hf), hw, Bool.not_true,
    Bool.false_eq_true, if_false]

/-- A requester to whom an offset is open meets the register space there. -/
theorem Dev.access_open (ho : OpenTo d who a) (ha : a < 2 ^ 28) (hn : a % n = 0) :
    d.access who a n wr = Dev.answered who a n wr (d.regAccess who (2 ^ 47 + a) n wr) := by
  have hmod : a % 2 ^ 28 = a := Nat.mod_eq_of_lt ha
  cases who with
  | fn f =>
    obtain ⟨hf, hr, hw⟩ := ho
    rw [Dev.access_fn (by omega), Dev.fnAccess_pf hf hr ha hn hw]
  | core _ | queue _ _ =>
    simp only [Dev.access, hmod]
    rfl
  | preset => exact ho.elim
  | debug =>
    have hopen : d.debugOpen = true := ho
    simp only [Dev.access, hopen, if_true, hmod]
    rfl

/-- A closed debug port and the preset loader change nothing. -/
theorem Dev.access_closed (h : (who = .debug ∧ d.debugOpen = false) ∨ who = .preset) : d.access who a n wr = d := by
  obtain ⟨rfl, hclosed⟩ | rfl := h
  · simp [Dev.access, hclosed]
  · rfl

theorem Dev.access_admitted_write (ha : a < 2 ^ 28) (hn : a % n = 0) (h : Admitted d who a true e b)
    (ht : e.barWrite who b n v = t) : d.access who a n (some v) = t := by
  rw [Dev.access_open h.1 ha hn, Dev.regAccess_admitted_write ha hn h, ht]; rfl

theorem Dev.access_admitted_read (ha : a < 2 ^ 28) (hn : a % n = 0) (h : Admitted d who a false e b)
    (ht : e.barRead who b n = (r, g)) : d.access who a n none = g.emit (.regData who a n r) := by
  rw [Dev.access_open h.1 ha hn, Dev.regAccess_admitted_read ha hn h, ht]; rfl

/-- The two ways in which an open access fails: refused by protection, or cut off from its register (R28, R373). -/
theorem Dev.regAccess_failed {cls : Nat} (ha : a < 2 ^ 28) (hn : a % n = 0)
    (h : (d.regAllowed who (2 ^ 47 + a) wr.isSome = (false, e) ∧ cls = 3) ∨
      (d.regAllowed who (2 ^ 47 + a) wr.isSome = (true, e) ∧ OutOfReach e who a ∧ cls = 4)) :
    d.regAccess who (2 ^ 47 + a) n wr = (none, e.err cls (if wr.isSome then 2 else 1) (reqUnit who) (2 ^ 47 + a)) := by
  obtain ⟨hno, rfl⟩ | ⟨hyes, hout, rfl⟩ := h
  · exact Dev.regAccess_refused ha hno
  · exact Dev.regAccess_outOfReach ha hn hyes hout

/-- A write that fails is answered with an error completion, but for one of a function. -/
theorem Dev.answered_write_failed (ho : OpenTo d who a) :
    Dev.answered who a n (some v) (none, t) = if isPf who then t else t.emit (.errCompletion who a) := by
  cases who with
  | fn f => simp [Dev.answered, isPf, ho.1]
  | core _ | queue _ _ | preset | debug => rfl

end Sys2Proof.Machine

namespace Sys2Proof.Claims
open Sys2Proof Sys2Proof.Machine

variable {s : State} {d e g t : Dev} {who : Requester} {x : Site} {a b m n r v w : Nat}

/-! ### The commands, by the stages above -/

theorem gives_write_of_admitted (hl : Live s) (ha : a < 2 ^ 28) (h : Admitted s.dev who a true e b) (hn : n ∈ [4, 8])
    (hal : a % n = 0) (ht : e.barWrite who b n v = t) : Gives (.registerWrite who a n v) s t := by
  rw [gives_registerWrite_iff hl, writeBytes_eq hn]
  exact Dev.access_admitted_write ha hal h ht

theorem gives_read_of_admitted (hl : Live s) (ha : a < 2 ^ 28) (h : Admitted s.dev who a false e b) (hn : n ∈ [1, 2, 4, 8])
    (hal : a % n = 0) (ht : e.barRead who b n = (r, g)) : Gives (.rcFieldRead who a n) s (g.emit (.regData who a n r)) := by
  rw [gives_rcFieldRead_iff hl, accessBytes_eq hn]
  exact Dev.access_admitted_read ha hal h ht

/-- An access to a word of a 64-bit register under its own name is the access of four bytes. -/
theorem gives_lowWordWrite_of_registerWrite (hl : Live s) (hw : wideWord a = some 0)
    (h : Gives (.registerWrite who a 4 v) s t) : Gives (.lowWordWrite who a v) s t := by
  rw [gives_registerWrite_iff hl, writeBytes_eq (by simp)] at h
  rwa [gives_lowWordWrite_iff hl, if_pos hw]

theorem gives_highWordWrite_of_registerWrite (hl : Live s) (hw : wideWord a = some 1)
    (h : Gives (.registerWrite who a 4 v) s t) : Gives (.highWordWrite who a v) s t := by
  rw [gives_registerWrite_iff hl, writeBytes_eq (by simp)] at h
  rwa [gives_highWordWrite_iff hl, if_pos hw]

theorem gives_lowWordRead_of_rcFieldRead (hl : Live s) (hw : wideWord a = some 0)
    (h : Gives (.rcFieldRead who a 4) s t) : Gives (.lowWordRead who a) s t := by
  rw [gives_rcFieldRead_iff hl, accessBytes_eq (by simp)] at h
  rwa [gives_lowWordRead_iff hl, if_pos hw]

theorem gives_narrowWrite_of_admitted (hl : Live s) (ha : a < 2 ^ 28) (h : Admitted s.dev who a true e b) (hn : n ∈ [1, 2])
    (hal : a % n = 0) : Gives (.narrowRegisterWrite who a n v) s e := by
  rw [gives_narrowRegisterWrite_iff hl]
  simp only [List.mem_cons, List.not_mem_nil, or_false] at hn
  rcases hn with rfl | rfl <;> exact Dev.access_admitted_write ha hal h rfl

theorem gives_write_of_failed {cls : Nat} (hl : Live s) (ha : a < 2 ^ 28) (ho : OpenTo s.dev who a) (hn : n ∈ [4, 8])
    (hal : a % n = 0)
    (h : (s.dev.regAllowed who (2 ^ 47 + a) true = (false, e) ∧ cls = 3) ∨
      (s.dev.regAllowed who (2 ^ 47 + a) true = (true, e) ∧ OutOfReach e who a ∧ cls = 4)) :
    let t := e.err cls 2 (reqUnit who) (2 ^ 47 + a)
    Gives (.registerWrite who a n v) s (if isPf who then t else t.emit (.errCompletion who a)) := by
  intro t
  rw [gives_registerWrite_iff hl, writeBytes_eq hn, Dev.access_open ho ha hal, Dev.regAccess_failed (wr := some v) ha hal h]
  exact Dev.answered_write_failed ho

theorem gives_read_of_failed {cls : Nat} (hl : Live s) (ha : a < 2 ^ 28) (ho : OpenTo s.dev who a)
    (hn : n ∈ [1, 2, 4, 8]) (hal : a % n = 0)
    (h : (s.dev.regAllowed who (2 ^ 47 + a) false = (false, e) ∧ cls = 3) ∨
      (s.dev.regAllowed who (2 ^ 47 + a) false = (true, e) ∧ OutOfReach e who a ∧ cls = 4)) :
    Gives (.rcFieldRead who a n) s ((e.err cls 1 (reqUnit who) (2 ^ 47 + a)).emit (.errCompletion who a)) := by
  rw [gives_rcFieldRead_iff hl, accessBytes_eq hn, Dev.access_open ho ha hal, Dev.regAccess_failed (wr := none) ha hal h]
  rfl

/-- A write of a function leaves what its access leaves, answered or not. -/
theorem gives_write_of_fnAccess {f : Nat} {r : Option Nat} (hl : Live s) (hf : f < 66) (hn : n ∈ [4, 8])
    (h : s.dev.fnAccess f a n (some v) = (r, t)) : Gives (.registerWrite (.fn f) a n v) s t := by
  rw [gives_registerWrite_iff hl, writeBytes_eq hn, Dev.access_fn hf, h]
  cases r <;> rfl

theorem gives_read_of_fnAccess {f : Nat} (hl : Live s) (hf : f < 66) (hn : n ∈ [1, 2, 4, 8])
    (h : s.dev.fnAccess f a n none = (some r, t)) :
    Gives (.rcFieldRead (.fn f) a n) s (t.emit (.regData (.fn f) a n r)) := by
  rw [gives_rcFieldRead_iff hl, accessBytes_eq hn, Dev.access_fn hf, h]
  rfl

/-- The accesses of 4 and 8 bytes are among those of 1, 2, 4 and 8. -/
theorem readBytes_of_writeBytes (hn : n ∈ [4, 8]) : n ∈ [1, 2, 4, 8] := by
  simp only [List.mem_cons, List.not_mem_nil, or_false] at hn ⊢; omega

theorem readBytes_of_narrow (hn : n ∈ [1, 2]) : n ∈ [1, 2, 4, 8] := by
  simp only [List.mem_cons, List.not_mem_nil, or_false] at hn ⊢; omega

/-- Settles O53: every command is one access, and an access passes the stages above: the check of its requester, the way to
its register, the word of the register. -/
theorem registerAccesses : Obligations.RegisterAccesses := by
  intro s who a b v e hl ha
  refine ⟨fun hadm => ?writes, fun hadm => ?reads,
    fun n hn hal ho => ⟨fun cls h => gives_write_of_failed hl ha ho hn hal h,
      fun cls h => gives_read_of_failed hl ha ho (readBytes_of_writeBytes hn) hal h⟩,
    ?functions, ?closed, ?notLow, ?notHigh⟩
  case writes =>
    have write4 {t} (hal : a % 4 = 0) (ht : e.writeWord32 who b v = t) : Gives (.registerWrite who a 4 v) s t :=
      gives_write_of_admitted hl ha hadm (by simp) hal ht
    have write8 {t} (hal : a % 8 = 0) (ht : e.barWrite who b 8 v = t) : Gives (.registerWrite who a 8 v) s t :=
      gives_write_of_admitted hl ha hadm (by simp) hal ht
    refine ⟨fun hal hs => write4 hal (Dev.writeWord32_reserved hs), fun x g hal hs hw => ?lowWord,
      fun x g w m t hal hs hw ht => ?takes,
      fun x t hal hs hwide hlow ht => write8 hal (Dev.barWrite_eight_whole hs hwide hlow ht),
      fun x hal hs hx => write8 hal (Dev.barWrite_eight_split hs hx),
      fun hal hs => write8 hal (Dev.barWrite_eight_reserved hs),
      fun hal => gives_narrowWrite_of_admitted hl ha hadm (by simp) hal,
      gives_narrowWrite_of_admitted hl ha hadm (by simp) (Nat.mod_one a)⟩
    case lowWord =>
      have h4 := write4 hal (Dev.writeWord32_held hs hw)
      exact ⟨h4, fun hword => gives_lowWordWrite_of_registerWrite hl hword h4⟩
    case takes =>
      have h4 := write4 hal (Dev.writeWord32_takes hs hw ht)
      exact ⟨h4, fun hword => gives_highWordWrite_of_registerWrite hl hword h4⟩
  case reads =>
    have read {n r t} (hn : n ∈ [1, 2, 4, 8]) (hal : a % n = 0) (ht : e.barRead who b n = (r, t)) :
        Gives (.rcFieldRead who a n) s (t.emit (.regData who a n r)) := gives_read_of_admitted hl ha hadm hn hal ht
    have read4 {x r t} (hal : a % 4 = 0) (hs : siteAt b = some x) (ht : e.readWord32 who x = (r, t)) :
        Gives (.rcFieldRead who a 4) s (t.emit (.regData who a 4 r)) := read (by simp) hal ((Dev.barRead_four hs).trans ht)
    refine ⟨fun hal hs => read (by simp) hal (Dev.barRead_four_reserved hs),
      fun x g m hal hs hwide hlow hr => read4 hal hs (Dev.readWord32_narrow hwide hlow hr),
      fun x g m hal hs hwide hlow hr => ?lowWord, fun x k hal hs hhigh hk => ?captured,
      fun x g m hal hs hhigh hr hk => read4 hal hs (Dev.readWord32_high hhigh hr hk),
      fun x g m hal hs hwide hlow hr => read (by simp) hal (Dev.barRead_eight_whole hs hwide hlow hr),
      fun x lo g hi h hal hs hx hlo hhi => read (by simp) hal (Dev.barRead_eight_split hs hx hlo hhi),
      fun hi h hal hs hhi => read (by simp) hal (Dev.barRead_eight_reserved hs hhi),
      fun n hn hal => ⟨fun hs => read (readBytes_of_narrow hn) hal (Dev.barRead_narrow_reserved hn hs),
        fun x g m hs hr => read (readBytes_of_narrow hn) hal (Dev.barRead_narrow hn hs hr)⟩⟩
    case lowWord =>
      have h4 := read4 hal hs (Dev.readWord32_low hwide hlow hr)
      rw [hs]
      exact ⟨h4, fun hword => gives_lowWordRead_of_rcFieldRead hl hword h4⟩
    case captured =>
      rw [hs]
      exact read4 hal hs (Dev.readWord32_captured hhigh hk)
  case functions =>
    rintro f n hf hn hal rfl
    refine ⟨fun hr => ⟨gives_write_of_fnAccess hl hf hn (Dev.fnAccess_notReady hr), ?asleep⟩,
      fun w hr hlt hw => ⟨gives_write_of_fnAccess hl hf hn (Dev.fnAccess_msix hr hlt hal hw),
        gives_read_of_fnAccess hl hf (readBytes_of_writeBytes hn) (Dev.fnAccess_msix hr hlt hal hw)⟩,
      fun hr hvf hlt hw => ⟨?vfWrite,
        gives_read_of_fnAccess hl hf (readBytes_of_writeBytes hn) (Dev.fnAccess_vf hvf hr hlt hal hw)⟩⟩
    case asleep =>
      rw [gives_rcFieldRead_iff hl, accessBytes_eq (readBytes_of_writeBytes hn), Dev.access_fn hf, Dev.fnAccess_notReady hr]
      rfl
    case vfWrite =>
      have hn4 : 4 ≤ n := by simp only [List.mem_cons, List.not_mem_nil, or_false] at hn; omega
      refine gives_write_of_fnAccess (r := some 0) hl hf hn ((Dev.fnAccess_vf hvf hr hlt hal hw).trans ?_)
      simp only [Dev.vfAccess, hn4, and_true]
  case closed =>
    intro h n
    exact ⟨(gives_registerWrite_iff hl).2 (Dev.access_closed h), (gives_rcFieldRead_iff hl).2 (Dev.access_closed h),
      (gives_narrowRegisterWrite_iff hl).2 (Dev.access_closed h)⟩
  case notLow =>
    exact fun h => ⟨(gives_lowWordWrite_iff hl).2 (if_neg h), (gives_lowWordRead_iff hl).2 (if_neg h)⟩
  case notHigh =>
    exact fun h => (gives_highWordWrite_iff hl).2 (if_neg h)

end Sys2Proof.Claims
end

section
/-! Totality (R28, R39, R84): every command is a change of the device under one of three guards, and none of the guards
touches the queue. -/
namespace Sys2Proof.Machine
open Sys2Proof

variable (i : Instr) (s : State) (f : Dev → Dev)

/-! ### The guards answer a next state, and only the device differs in it -/

theorem act_answers : ∃ d, act s f = .next { s with dev := d } := by
  cases hs : s.dev.stopped
  case false => exact ⟨f s.dev, act_running f hs⟩
  case true => exact ⟨s.dev, act_stopped f hs⟩

theorem ctl_answers : ∃ d, ctl s f = .next { s with dev := d } := by
  cases hs : s.dev.dark
  case false => exact ⟨f s.dev, ctl_lit f hs⟩
  case true => exact ⟨s.dev, ctl_dark f hs⟩

theorem tapStep_answers : ∃ d, tapStep s f = .next { s with dev := d } := ⟨f s.dev, rfl⟩

/-! ### Every command stands under a guard -/

/-- A meaning that is one change of the device under a guard: it neither reads nor writes the queue. -/
inductive Guarded : (State → Out) → Prop where
  | act (f : Dev → Dev) : Guarded (fun s => act s f)
  | ctl (f : Dev → Dev) : Guarded (fun s => ctl s f)
  | unstopped (f : Dev → Dev) : Guarded (fun s => tapStep s f)

theorem Guarded.answers {m : State → Out} (h : Guarded m) : ∃ d, m s = .next { s with dev := d } := by
  cases h with
  | act f => exact act_answers s f
  | ctl f => exact ctl_answers s f
  | unstopped f => exact tapStep_answers s f

/-- The release of CRST_N changes nothing while CRST_N is not asserted (R508). -/
theorem execCrstNRelease_guarded (b : BootIn) : Guarded (fun s => execCrstNRelease b s) := by
  have h : (fun s => execCrstNRelease b s) =
      fun s => tapStep s (fun d => if d.crst then d.coldBoot b (if b.power then 0 else 1) else d) := by
    funext s
    simp only [execCrstNRelease, tapStep]
    cases s.dev.crst <;> rfl
  exact h ▸ .unstopped _

/-- Nothing stops the test access port, CRST_N, the appearance of a reference and the discharge; the commands of CTRL,
MGMT and TIME stop in the dark (R574), and all others while the clocks of the units are stopped (R557, R508). -/
theorem exec_guarded : Guarded (fun s => exec i s) := by
  unfold exec
  cases i with
  | tapTestLogicReset | tapExtest | tapIdcode | tapSamplePreload | tapClamp | tapHighz | tapDietest | tapDbgUnlock
  | tapDbgAccess | tapBypass | dbgRead32 | dbgWrite32 | dbgAccessNop => exact .unstopped _
  | crstNAssert => exact .unstopped (fun d => { d.coldBase with crst := true })
  | crstNRelease b => exact execCrstNRelease_guarded b
  | referenceAppears r => exact .unstopped (referenceAppears r)
  | activeDischarge vaux => exact .unstopped (activeDischarge vaux)
  | rstWarm | rstCold | warmResetContinue | layerTempSample | errorRecord | ueRateHour | avsPoll | regLinkLost
  | regDegradedTimeout | dvfsStep | dvfsVoltageReached | dvfsTimeout | pllRelockDone | governorEstimateTick
  | governorMsTick | thermalTick | logicSensorSample | bandgapMeasure | thermistorSample | flowSample
  | heatBalanceWindow | thermalCycleCount | wearWrite | pllUnlock | referenceLost | referenceReturn | driftWindow
  | i3cEntdaa | i3cSetdasa | setEndpointId | getEndpointId | getEndpointUuid | getMctpVersionSupport
  | getMessageTypeSupport | getTid | setTid | getPldmVersion | getPldmTypes | getPldmCommands | getPdrRepositoryInfo
  | getPdr | getSensorReading | getStateSensorReadings | setStateEffecterStates | getStateEffecterStates
  | setNumericEffecterValue | getNumericEffecterValue | queryDeviceIdentifiers | getFirmwareParameters
  | requestUpdate | passComponentTable | updateComponent | firmwareDataReceive | transferComplete | verifyComplete
  | applyComplete | activateFirmware | getStatus | cancelUpdateComponent | cancelUpdate | getVersion
  | getCapabilities | negotiateAlgorithms | getDigests | getCertificate | spdmChallenge | getMeasurements | updWrite
  | updCancel | updNop | updateDone | rbCmd | dbgChallenge | dbgUnlock | dbgNop | debugEraseDone | nonceExpiry
  | pllLockRegained | unsupportedRequest | coldBootContinue => exact .ctl _
  | _ => exact .act _

theorem exec_answers : ∃ d, exec i s = .next { s with dev := d } := (exec_guarded i).answers s

/-! ### A step -/

theorem step_of_idle {s : State} (h : s.pending = []) : step s = .next { s with dev := s.dev.tick } := by
  simp only [step, h]

theorem step_of_waiting {s : State} {rest : List Instr} (h : s.pending = i :: rest) :
    step s = exec i { s with pending := rest } := by
  simp only [step, h]

theorem step_drops_front : ∃ t, step s = .next t ∧ t.pending = s.pending.tail := by
  cases h : s.pending with
  | nil => exact ⟨_, step_of_idle h, h⟩
  | cons i rest =>
    obtain ⟨d, hd⟩ := exec_answers i { s with pending := rest }
    exact ⟨_, (step_of_waiting i h).trans hd, rfl⟩

end Sys2Proof.Machine

namespace Sys2Proof.Claims
open Sys2Proof Sys2Proof.Machine

/-- Settles O55: a guard answers whatever the state, and a step runs the command in front on the rest of the queue. -/
theorem everyCommandAnswers : Obligations.EveryCommandAnswers :=
  ⟨exec_answers, step_drops_front⟩

end Sys2Proof.Claims
end

section
/-! Darn commands (R59, R61, R62), COMMIT (R65, R66) and the error logger (R490, R495, R499): what each command answers under
each of its guards. -/
namespace Sys2Proof.Machine
open Sys2Proof

variable {d : Dev} {u kind : Nat} {r : ErrRec} {rest : List ErrRec}

/-! ### DARN_CMD while a command runs, and while none does -/

theorem Dev.darnCmdW_busy (f : Dev → Dev) (hb : d.bit DARN_STAT.CMD_BUSY = true) :
    d.darnCmdW f = d.wr DARN_STAT.CMD_LOST 1 := if_pos hb

theorem Dev.darnCmdW_idle (f : Dev → Dev) (hb : d.bit DARN_STAT.CMD_BUSY = false) : d.darnCmdW f = f d := by
  simp [Dev.darnCmdW, hb]

theorem Dev.darnRepair_busy {used : Fld} {f : Dev → Dev} (hb : d.bit DARN_STAT.CMD_BUSY = true) :
    d.darnRepair u kind used f = d.wr DARN_STAT.CMD_LOST 1 := Dev.darnCmdW_busy _ hb

section
variable (hb : d.bit DARN_STAT.CMD_BUSY = false)
include hb

/-! ### RETIRE_CORE and RETIRE_CLUSTER (R61) -/

theorem Dev.darnRetireCore_of_not_core (hu : uidIsCore u 0 1 = false) : d.darnRetireCore u = d.darnRefuse 2 u := by
  simp [Dev.darnRetireCore, Dev.darnCmdW_idle _ hb, hu]

theorem Dev.darnRetireCore_of_not_enabled (hu : uidIsCore u 0 1 = true) (he : d.coreEnabled (uidCore u) = false) :
    d.darnRetireCore u = d.darnRefuse 3 u := by
  simp [Dev.darnRetireCore, Dev.darnCmdW_idle _ hb, hu, he]

theorem Dev.darnRetireCore_of_enabled (hu : uidIsCore u 0 1 = true) (he : d.coreEnabled (uidCore u) = true) :
    d.darnRetireCore u = (d.darnApply 1 u 6 (fun e => e.retireOne (uidCore u) 6)).coreCurtain (uidCore u) .darn := by
  simp [Dev.darnRetireCore, Dev.darnCmdW_idle _ hb, hu, he]

theorem Dev.darnRetireCluster_of_not_cluster (hu : uidIsCluster u 17 = false) :
    d.darnRetireCluster u = d.darnRefuse 2 u := by
  simp [Dev.darnRetireCluster, Dev.darnCmdW_idle _ hb, hu]

theorem Dev.darnRetireCluster_of_enabled (hu : uidIsCluster u 17 = true) (hi : uidInst u = 0)
    (he : d.clusterEnabled (uidCluster u) = true) :
    d.darnRetireCluster u =
      (d.darnApply 2 u 6 (fun e => ((List.range 16).map (fun k => uidCluster u * 16 + k)).foldl
        (fun e n => if e.coreEnabled n then e.retireOne n 5 else e)
        (e.wr DARN_CL_STATE.STATE 3 0 (uidCluster u)))).clusterCurtain (uidCluster u) .darn := by
  simp [Dev.darnRetireCluster, Dev.darnCmdW_idle _ hb, hu, hi, he]

/-! ### RETIRE_LINK (R62) -/

theorem Dev.darnRetireLink_of_not_link (hu : uidIsCluster u 14 = false) : d.darnRetireLink u = d.darnRefuse 2 u := by
  simp [Dev.darnRetireLink, Dev.darnCmdW_idle _ hb, hu]

theorem Dev.darnRetireLink_of_present {peer : Nat} (hu : uidIsCluster u 14 = true)
    (hp : linkPeer (uidCluster u) (uidInst u) = some peer) (hnear : d.linkGone (uidCluster u) (uidInst u) = false)
    (hfar : d.linkGone peer (linkBack (uidInst u)) = false) :
    d.darnRetireLink u =
      d.darnApply 3 u 0 (fun e => (e.setBit DARN_CL_STATE.LINK_PEND (uidInst u) true 0 (uidCluster u)).setBit
        DARN_CL_STATE.LINK_PEND (linkBack (uidInst u)) true 0 peer) := by
  simp [Dev.darnRetireLink, Dev.darnCmdW_idle _ hb, hu, hp, hnear, hfar]

/-! ### REPAIR_ROW and REPAIR_COL (R62): one argument for both, over the spare that each takes -/

variable {used : Fld} {f : Dev → Dev} (hu : uidIsCore u 1 4 = true) (he : d.coreEnabled (uidCore u) = true)
include hu he

theorem Dev.darnRepair_of_spare_used (hs : (d.rd used 0 (uidCore u)).testBit (uidInst u) = true) :
    d.darnRepair u kind used f = d.darnRefuse 4 u := by
  simp [Dev.darnRepair, Dev.darnCmdW_idle _ hb, hu, he, hs]

theorem Dev.darnRepair_of_spare_free (hs : (d.rd used 0 (uidCore u)).testBit (uidInst u) = false) :
    d.darnRepair u kind used f =
      (d.darnApply kind u (d.rd DARN_CMD_ARG.INDEX)
        (fun e => f (e.setBit used (uidInst u) true 0 (uidCore u)))).coreCurtain (uidCore u) .darn := by
  simp [Dev.darnRepair, Dev.darnCmdW_idle _ hb, hu, he, hs]

end

/-! ### COMMIT (R65) -/

theorem Dev.darnCommit_busy (hb : d.bit DARN_STAT.CMD_BUSY = true) :
    d.darnCommit u = d.wr DARN_STAT.CMD_LOST 1 := by simp [Dev.darnCommit, hb]

theorem Dev.darnCommit_idle (hb : d.bit DARN_STAT.CMD_BUSY = false) (hc : d.bit DARN_STAT.COMMIT_BUSY = false) :
    d.darnCommit u = { d.wr DARN_STAT.COMMIT_BUSY 1 with commit := some (u, d.darnQ) } := by
  simp [Dev.darnCommit, hb, hc]

/-! ### The logger (R490, R495) -/

theorem errorRecord_of_nil (h : d.recs = []) : errorRecord d = d := by simp [errorRecord, h]

/-- A record that matches one of the registers merges with it. -/
theorem errorRecord_of_match {i : Nat} (h : d.recs = r :: rest)
    (hf : ({ d with recs := rest } : Dev).recFind r = some i) :
    errorRecord d = if r.cls = 2 then (({ d with recs := rest } : Dev).recMerge i).ueNote
      else ({ d with recs := rest } : Dev).recMerge i := by
  simp only [errorRecord, h, hf]

/-- A record that matches none takes a register of its own. -/
theorem errorRecord_of_no_match (h : d.recs = r :: rest) (hf : ({ d with recs := rest } : Dev).recFind r = none) :
    errorRecord d = if r.cls = 2 then (({ d with recs := rest } : Dev).recNew r).ueNote
      else ({ d with recs := rest } : Dev).recNew r := by
  simp only [errorRecord, h, hf]

end Sys2Proof.Machine

namespace Sys2Proof.Claims
open Sys2Proof Sys2Proof.Machine

variable {s : State} {t : Dev} {u w code : Nat} {verify : List Bool} {es : List (Nat × Nat × Nat)}

/-! ### The commands as changes of the device -/

/-- A command under `ctl` gives the change it makes, while CTRL, MGMT and TIME run. -/
theorem gives_iff_of_ctl {i : Instr} {f : Dev → Dev} (hi : exec i s = ctl s f) (hd : s.dev.dark = false) :
    Gives i s t ↔ f s.dev = t := by
  rw [Gives, hi, ctl_lit f hd]; simp

/-- The commands that name a unit take the 24 bits of its Unit ID (R31). -/
theorem gives_iff_of_unit {i : Instr} {f : Dev → Nat → Dev} (hi : exec i s = act s (fun d => f d (u % 2 ^ 24)))
    (hl : Live s) (hu : u < 2 ^ 24) : Gives i s t ↔ f s.dev u = t := by
  rw [gives_iff_of_act hi hl, Nat.mod_eq_of_lt hu]

theorem gives_darnRetireCore_iff (hl : Live s) (hu : u < 2 ^ 24) :
    Gives (.darnRetireCore u) s t ↔ s.dev.darnRetireCore u = t := gives_iff_of_unit rfl hl hu

theorem gives_darnRetireCluster_iff (hl : Live s) (hu : u < 2 ^ 24) :
    Gives (.darnRetireCluster u) s t ↔ s.dev.darnRetireCluster u = t := gives_iff_of_unit rfl hl hu

theorem gives_darnRetireLink_iff (hl : Live s) (hu : u < 2 ^ 24) :
    Gives (.darnRetireLink u) s t ↔ s.dev.darnRetireLink u = t := gives_iff_of_unit rfl hl hu

theorem gives_darnRepairRow_iff (hl : Live s) (hu : u < 2 ^ 24) :
    Gives (.darnRepairRow u) s t ↔ s.dev.darnRepairRow u = t := gives_iff_of_unit rfl hl hu

theorem gives_darnRepairCol_iff (hl : Live s) (hu : u < 2 ^ 24) :
    Gives (.darnRepairCol u) s t ↔ s.dev.darnRepairCol u = t := gives_iff_of_unit rfl hl hu

theorem gives_darnCommit_iff (hl : Live s) (hu : u < 2 ^ 24) :
    Gives (.darnCommit u) s t ↔ s.dev.darnCommit u = t := gives_iff_of_unit rfl hl hu

theorem gives_darnNop_iff (hl : Live s) : Gives .darnNop s t ↔ s.dev.darnCmdW (fun d => d) = t :=
  gives_iff_of_act rfl hl

theorem gives_errorRecord_iff (hd : s.dev.dark = false) : Gives .errorRecord s t ↔ errorRecord s.dev = t :=
  gives_iff_of_ctl rfl hd

theorem gives_ueRateHour_iff (hd : s.dev.dark = false) :
    Gives .ueRateHour s t ↔ ({ s.dev with ueHours := (0 :: s.dev.ueHours).take 168 } : Dev).ueCheck = t :=
  gives_iff_of_ctl (f := fun d => Dev.ueCheck { d with ueHours := (0 :: d.ueHours).take 168 }) rfl hd

/-- R59: while CMD_BUSY is 1, whatever is written to DARN_CMD is discarded with CMD_LOST. -/
theorem gives_cmdLost_of_busy (hl : Live s) (hu : u < 2 ^ 24) (hb : s.dev.bit DARN_STAT.CMD_BUSY = true) :
    ∀ i ∈ [Instr.darnRetireCore u, .darnRetireCluster u, .darnRetireLink u, .darnRepairRow u, .darnRepairCol u,
      .darnNop, .darnCommit u], Gives i s (s.dev.wr DARN_STAT.CMD_LOST 1) := by
  simp only [List.forall_mem_cons, List.not_mem_nil, false_implies, implies_true, and_true]
  exact ⟨(gives_darnRetireCore_iff hl hu).2 (Dev.darnCmdW_busy _ hb),
    (gives_darnRetireCluster_iff hl hu).2 (Dev.darnCmdW_busy _ hb),
    (gives_darnRetireLink_iff hl hu).2 (Dev.darnCmdW_busy _ hb),
    (gives_darnRepairRow_iff hl hu).2 (Dev.darnRepair_busy hb),
    (gives_darnRepairCol_iff hl hu).2 (Dev.darnRepair_busy hb),
    (gives_darnNop_iff hl).2 (Dev.darnCmdW_busy _ hb),
    (gives_darnCommit_iff hl hu).2 (Dev.darnCommit_busy hb)⟩

/-! ### The ends of a command and of a COMMIT (R59, R66) -/

theorem gives_darnCmdDone_of_lowered (hl : Live s) (hc : s.dev.darnCmd = some (code, w))
    (hk : s.dev.curtains.any (fun k => k.src == .darn) = false) :
    Gives .darnCmdDone s ((({ s.dev with darnCmd := none } : Dev).darnRefuse code w).wr DARN_STAT.CMD_BUSY 0) := by
  change execDarnCmdDone s = _
  simp only [execDarnCmdDone, act_running _ hl, hc, hk, Bool.false_eq_true, if_false]

theorem gives_darnCmdDone_of_raised (hl : Live s) (hc : s.dev.darnCmd = some (code, w))
    (hk : s.dev.curtains.any (fun k => k.src == .darn) = true) : Gives .darnCmdDone s s.dev := by
  change execDarnCmdDone s = _
  simp only [execDarnCmdDone, act_running _ hl, hc, hk, if_true]

theorem gives_darnCmdDone_of_none (hl : Live s) (hc : s.dev.darnCmd = none) : Gives .darnCmdDone s s.dev := by
  change execDarnCmdDone s = _
  simp [execDarnCmdDone, act_running _ hl, hc]

theorem gives_commitDone_of_some (hl : Live s) (hc : s.dev.commit = some (w, es)) :
    Gives (.commitDone verify) s (s.dev.commitEnd w (Dev.commitEntries es verify s.dev) false) := by
  change execCommitDone verify s = _
  simp [execCommitDone, act_running _ hl, hc]

theorem gives_commitDone_of_none (hl : Live s) (hc : s.dev.commit = none) : Gives (.commitDone verify) s s.dev := by
  change execCommitDone verify s = _
  simp [execCommitDone, act_running _ hl, hc]

/-- Settles O39: each command is one change of the device, and the guards of that change are those of the statement. -/
theorem darnAndErrorLog : Obligations.DarnAndErrorLog := by
  intro s u verify hu d n g free refused ix
  refine ⟨?retireCore, ?coreBadUnit, ?coreNotEnabled, ?retireCluster, ?clusterBadUnit, ?retireLink, ?linkBadUnit, ?repair,
    ?nop, fun hl hb => gives_cmdLost_of_busy hl hu hb,
    fun code w hl hc => ⟨gives_darnCmdDone_of_lowered hl hc, gives_darnCmdDone_of_raised hl hc⟩,
    gives_darnCmdDone_of_none, ?commit, fun w es => gives_commitDone_of_some, gives_commitDone_of_none,
    ?record, ?noRecord, fun hd => (gives_ueRateHour_iff hd).2 rfl⟩
  case retireCore =>
    exact fun ⟨hl, hb⟩ hc he => (gives_darnRetireCore_iff hl hu).2 (Dev.darnRetireCore_of_enabled hb hc he)
  case coreBadUnit =>
    exact fun ⟨hl, hb⟩ hc => (gives_darnRetireCore_iff hl hu).2 (Dev.darnRetireCore_of_not_core hb hc)
  case coreNotEnabled =>
    exact fun ⟨hl, hb⟩ hc he => (gives_darnRetireCore_iff hl hu).2 (Dev.darnRetireCore_of_not_enabled hb hc he)
  case retireCluster =>
    exact fun ⟨hl, hb⟩ hc hi he =>
      (gives_darnRetireCluster_iff hl hu).2 (Dev.darnRetireCluster_of_enabled hb hc hi he)
  case clusterBadUnit =>
    exact fun ⟨hl, hb⟩ hc => (gives_darnRetireCluster_iff hl hu).2 (Dev.darnRetireCluster_of_not_cluster hb hc)
  case retireLink =>
    exact fun peer ⟨hl, hb⟩ hc hp hnear hfar =>
      (gives_darnRetireLink_iff hl hu).2 (Dev.darnRetireLink_of_present hb hc hp hnear hfar)
  case linkBadUnit =>
    exact fun ⟨hl, hb⟩ hc => (gives_darnRetireLink_iff hl hu).2 (Dev.darnRetireLink_of_not_link hb hc)
  case repair =>
    exact fun ⟨hl, hb⟩ hc he =>
      ⟨fun hs => (gives_darnRepairRow_iff hl hu).2 (Dev.darnRepair_of_spare_free hb hc he hs),
        fun hs => (gives_darnRepairRow_iff hl hu).2 (Dev.darnRepair_of_spare_used hb hc he hs),
        fun hs => (gives_darnRepairCol_iff hl hu).2 (Dev.darnRepair_of_spare_free hb hc he hs)⟩
  case nop => exact fun ⟨hl, hb⟩ => (gives_darnNop_iff hl).2 (Dev.darnCmdW_idle _ hb)
  case commit => exact fun ⟨hl, hb⟩ hc => (gives_darnCommit_iff hl hu).2 (Dev.darnCommit_idle hb hc)
  case record =>
    intro r rest hd hr
    rw [gives_errorRecord_iff hd]
    cases hf : ({ s.dev with recs := rest } : Dev).recFind r with
    | some i => simp only [errorRecord_of_match hr hf, d]
    | none => simp only [errorRecord_of_no_match hr hf, d]
  case noRecord => exact fun hd hr => (gives_errorRecord_iff hd).2 (errorRecord_of_nil hr)

end Sys2Proof.Claims
end

section
/-! What an output entry accumulates where no array effect disturbs it (R141, R142, R146, R147, R149). -/
namespace Sys2Proof.Machine
open Sys2Proof

variable {p : MxPlan} {job : MxJob} {c t v a n i : Nat}

/-! ### Products without an array effect (R141, R142, R146, R147) -/

theorem MxPlan.tileBad_of_no_effects (h : p.fx = []) : p.tileBad t v a i n = false := by simp [MxPlan.tileBad, h]

theorem MxPlan.wrong_of_no_effects (h : p.fx = []) : p.wrong t v a n = none := by simp [MxPlan.wrong, h]

theorem MxPlan.products_of_no_effects (h : p.fx = []) : p.products t v a n =
    ((List.range p.k).filter (fun i => p.feeds i n)).map (fun i => Num.mul (p.w t a n i) (p.x t v a i)) := by
  simp [MxPlan.products, MxPlan.tileBad_of_no_effects h]

/-- No column sum is formed wrong, so an output column takes the products of its chain of arrays. -/
theorem MxPlan.terms_of_no_effects (h : p.fx = []) :
    p.terms t v a n = (p.chain a).flatMap (fun b => p.products t v b n) := by
  simp [MxPlan.terms, MxPlan.wrong_of_no_effects h]

/-- Without split bits the array is one block. -/
@[simp] theorem splitBlock_zero (q : Nat) : splitBlock 0 q = 0 := by simp [splitBlock]

theorem MxPlan.feeds_of_unsplit (hr : p.rsplit = 0) (hc : p.csplit = 0) : p.feeds i n = true := by
  simp [MxPlan.feeds, hr, hc]

/-! ### Accumulation (R149) -/

/-- Local address of the accumulator entry of output column `n` of array `a` and vector `v`: the ganged stream has one
array (R147). -/
def accAddr (job : MxJob) (p : MxPlan) (v a n : Nat) : Nat :=
  let e := Desc.ofBits job.dacc
  (if p.fn = 2 then e.at n 0 v else e.at n a v).toNat

/-- ZERO clears an entry before its first step. -/
theorem mxAccumulate_of_zeroed (r : MxRun) (hz : mmZero job.word = true) : mxAccumulate c job p 0 v a n r =
    { r with d := r.d.lwr c (accAddr job p v a n) 4 <|
      encodeNum 0 true (Num.sum (Num.fin false 0 0 :: p.terms 0 v a n)) } := by
  simp [mxAccumulate, hz, accAddr]

/-- Later steps, and any step without ZERO, add to the entry as it is read. -/
theorem mxAccumulate_of_kept (r : MxRun) (hk : mmZero job.word = false ∨ t ≠ 0)
    (hgood : r.d.lbad c (accAddr job p v a n) 4 = false) : mxAccumulate c job p t v a n r =
    { r with d := (r.d.countLce c (accAddr job p v a n) 4).lwr c (accAddr job p v a n) 4 <|
      encodeNum 0 true (Num.sum (decodeNum 0 (r.d.lrd c (accAddr job p v a n) 4) :: p.terms t v a n)) } := by
  have hfresh : (mmZero job.word && t == 0) = false := by rcases hk with h | h <;> simp [h]
  unfold accAddr at hgood
  simp [mxAccumulate, hfresh, hgood, accAddr]

end Sys2Proof.Machine

namespace Sys2Proof.Claims
open Sys2Proof Sys2Proof.Machine

/-- Settles O18: without an effect a column takes the products of its chain, and an entry accumulates the terms of its
column: from zero with ZERO in the first step, and from what it holds otherwise. -/
theorem matrixProducts : Obligations.MatrixProducts := by
  intro c job p t v a n r hfx e x terms
  have hterms : p.terms t v a n = terms := by
    simp only [MxPlan.terms_of_no_effects hfx, MxPlan.products_of_no_effects hfx, MxPlan.chain, terms]
  refine ⟨hterms, fun hz ht => ?zeroed, fun hk hgood => ?kept, fun hr hc i => MxPlan.feeds_of_unsplit hr hc⟩
  case zeroed =>
    subst ht
    rw [mxAccumulate_of_zeroed r hz, hterms]
    rfl
  case kept =>
    rw [mxAccumulate_of_kept r hk hgood, hterms]
    rfl

end Sys2Proof.Claims
end

section
/-! Issue of an instruction (R72, R84, R86), and what MMAC, its completion and MCKS answer (R148, R150-R152, R161). -/
namespace Sys2Proof.Machine
open Sys2Proof Sys2Proof.Claims

variable {s : State} {d t : Dev} {w : W64} {c op fn : Nat} {rd ra rb : Bool}

/-! ### Issue -/

/-- An instruction that may issue is executed by the row of its opcode and function. -/
theorem Dev.issue_of_issues (h : Issues s c op fn) (f : Dev → W64 → Dev) :
    s.dev.issue c (isOpFn op fn) f = f s.dev (s.dev.instr c) := by
  obtain ⟨-, hcan, hop, hfn, hfree⟩ := h
  exact s.dev.issue_eq c _ f hcan (by simp [isOpFn, hop, hfn]) hfree

/-- A command that only issues a row gives the change of that row. -/
theorem gives_iff_of_issues {i : Instr} {f : Dev → W64 → Dev}
    (hi : exec i s = act s (fun d => d.issue c (isOpFn op fn) f)) (h : Issues s c op fn) :
    Gives i s t ↔ f s.dev (s.dev.instr c) = t := by
  rw [gives_iff_of_act hi h.1, Dev.issue_of_issues h]

theorem regsOk_iff_unused : regsOk w rd ra rb = true ↔ Unused w rd ra rb := by
  simp only [regsOk, Unused, Bool.and_eq_true, Bool.or_eq_true, beq_iff_eq,
    Decidable.or_iff_not_imp_left, Bool.not_eq_true, and_assoc]

theorem Dev.checked_true (f : Dev → Dev) : d.checked c w true f = f d := rfl

/-! ### Issue of an MMAC (R148, R150, R151) -/

/-- The descriptors that an MMAC names: those of scales only with their modes on. -/
def mmNamed (d : Dev) (c : Nat) (w : W64) : List Desc :=
  [d.desc c (rdOf w), d.desc c (raOf w), d.desc c (rbOf w)] ++ (if mmWmx w then [d.desc c (mmDws w)] else []) ++
    (if mmXmx w then [d.desc c (mmDxs w)] else [])

/-- What an MMAC takes along when it issues (R72, R134, R162). -/
def mmJob (d : Dev) (c : Nat) (w : W64) : MxJob :=
  { word := w, pcIdx := d.pc c, dacc := d.descBits c (rdOf w), dw := d.descBits c (raOf w),
    dx := d.descBits c (rbOf w), dws := d.descBits c (mmDws w), dxs := d.descBits c (mmDxs w),
    ckEn := d.rd CORE_ARR_CTRL.CK_EN c, ckTrap := d.bit CORE_ARR_CTRL.CK_TRAP c,
    tol := d.rd CORE_ARR_CTRL.TOL c, entryFmt := d.rd CORE_MNG_CTRL.ENTRY_FMT c }

/-- The device after the MMAC at the head of core `c` has joined the matrix queue and retired. -/
def mmJoined (d : Dev) (c : Nat) : Dev :=
  (d.updCore c (fun k => { k with mxq := k.mxq ++ [mmJob d c (d.instr c)] })).retire c

/-- The MMAC of tile mode `fn` at the head of core `c` may issue and passes R84 and the checks of R98 and R150. -/
structure MmacReady (s : State) (c fn : Nat) : Prop where
  issues : Issues s c 0x20 fn
  fields : mmFieldsOk (s.dev.instr c) = true
  descs : descTrap (s.dev.instr c) (mmNamed s.dev c (s.dev.instr c)) = none
  shape : let w := s.dev.instr c
    mmShapeOk w (s.dev.desc c (rdOf w)) (s.dev.desc c (raOf w)) (s.dev.desc c (rbOf w)) (s.dev.desc c (mmDws w))
      (s.dev.desc c (mmDxs w)) = true

/-- Past its checks an MMAC waits while five are held, and joins the queue otherwise. -/
theorem MmacReady.mmacIssue_eq (h : MmacReady s c fn) :
    mmacIssue fn c s.dev = if 5 ≤ (s.dev.core c).mxq.length then s.dev else mmJoined s.dev c := by
  have hdescs := h.descs
  unfold mmNamed at hdescs
  rw [mmacIssue, Dev.issue_of_issues h.issues, h.fields, Dev.checked_true]
  simp only [hdescs, h.shape, Bool.not_true, Bool.false_eq_true, if_false]
  rfl

/-- The three tile modes are one instruction with their function as its argument. -/
theorem gives_mmac_iff {i : Instr} (hl : Live s)
    (hi : (fn, i) ∈ [(0, Instr.mmacIndependent c), (1, .mmacPacked c), (2, .mmacGanged c)]) :
    Gives i s t ↔ mmacIssue fn c s.dev = t := by
  simp only [List.mem_cons, Prod.mk.injEq, List.not_mem_nil, or_false] at hi
  obtain ⟨rfl, rfl⟩ | ⟨rfl, rfl⟩ | ⟨rfl, rfl⟩ := hi <;> exact gives_iff_of_act rfl hl

/-! ### Completion of an MMAC (R161) -/

section
variable {j : MxJob} {rest : List MxJob} {fx : List ArrayFx} {r : MxRun} {k : Nat} {codes : List Nat}
  (hq : (d.core c).mxq = j :: rest) (hr : mxRun c j fx (d.updCore c (fun k => { k with mxq := rest })) = r)
include hq hr

theorem mmacComplete_of_no_codes (h : r.codes = []) : mmacComplete c fx d = r.d := by
  simp only [mmacComplete, hq, hr, h, lowest]

theorem mmacComplete_of_codes (h : r.codes = k :: codes) :
    mmacComplete c fx d = r.d.unitFault c (codes.foldl min k) j.pcIdx := by
  simp only [mmacComplete, hq, hr, h, lowest]

end

theorem gives_mmacComplete_iff {fx : List ArrayFx} (hl : Live s) :
    Gives (.mmacComplete c fx) s t ↔ mmacComplete c fx s.dev = t := gives_iff_of_act rfl hl

/-! ### MCKS (R152) -/

/-- MCKS past its checks: it waits for the matrix unit, then answers the word and clears it. -/
theorem gives_mcks_iff (hi : Issues s c 0x21 0) (hu : Unused (s.dev.instr c) true false false)
    (himm : immOf (s.dev.instr c) = 0) : Gives (.mcks c) s t ↔
      (if (s.dev.core c).mxq = [] then ((s.dev.setS c (rdOf (s.dev.instr c)) (s.dev.core c).mcks.word).updMcks c
        (fun _ => ⟨false, false, 0, 0⟩)).retire c else s.dev) = t := by
  have hok : (regsOk (s.dev.instr c) true false false && immOf (s.dev.instr c) == 0) = true := by
    simp [regsOk_iff_unused.2 hu, himm]
  rw [gives_iff_of_issues rfl hi, hok, Dev.checked_true]
  simp only [bne_iff_ne, ne_eq, ite_not]

end Sys2Proof.Machine

namespace Sys2Proof.Claims
open Sys2Proof Sys2Proof.Machine

/-- Settles O17: each command is one change of the device, and past its checks that change turns on the matrix queue: on
its length at issue, its first entry at completion, and its being empty at MCKS. -/
theorem matrixInstructions : Obligations.MatrixInstructions := by
  intro s c fx d w acc dw dx dws dxs named ready job joined
  refine ⟨?issue, ?complete, ?mcks⟩
  case issue =>
    intro fn i hi ⟨hissues, hfields, hdescs, hshape⟩
    have hready : MmacReady s c fn := ⟨hissues, hfields, hdescs, hshape⟩
    rw [gives_mmac_iff hissues.1 hi, gives_mmac_iff hissues.1 hi, hready.mmacIssue_eq]
    exact ⟨fun h => if_neg (Nat.not_le.2 h), fun h => if_pos h⟩
  case complete =>
    intro j rest hl hq r
    exact ⟨fun h => (gives_mmacComplete_iff hl).2 (mmacComplete_of_no_codes hq rfl h),
      fun k t h => (gives_mmacComplete_iff hl).2 (mmacComplete_of_codes hq rfl h)⟩
  case mcks =>
    intro hi hu himm
    exact ⟨fun h => (gives_mcks_iff hi hu himm).2 (if_neg h), fun h => (gives_mcks_iff hi hu himm).2 (if_pos h)⟩

end Sys2Proof.Claims
end

section
/-! The vector engine: how an instruction of VOP, VSF, VRED and VMISC joins the queue (R166, R178, R179), and the value
that an element-wise instruction forms at one place of its streams (R167-R170, R184). -/
namespace Sys2Proof.Machine
open Sys2Proof Sys2Proof.Claims

variable {s : State} {d t : Dev} {w : W64} {c fn i : Nat} {j : VJob} {isRow : W64 → Bool} {x : Instr}

/-! ### Issue (R166, R178, R179) -/

/-- Past its checks a vector instruction waits while eight are held, and joins the queue otherwise. -/
theorem vectorIssue_of_ready (h : VectorReady s c) (hrow : isRow (s.dev.instr c) = true) :
    vectorIssue isRow c s.dev = if 8 ≤ (s.dev.core c).vq.length then s.dev
      else vectorJoined s.dev c ((s.dev.sreg c (rbOf (s.dev.instr c))).toNat % 2 ^ 32) := by
  obtain ⟨-, hcan, hfree, hfields, hdescs, hshape⟩ := h
  rw [vectorIssue, Dev.issue_eq s.dev c isRow _ hcan hrow hfree, hfields, Dev.checked_true]
  simp only [hdescs, hshape, Bool.not_true, Bool.false_eq_true, if_false]
  rfl

theorem gives_vector_iff (hx : exec x s = act s (vectorIssue isRow c)) (h : VectorReady s c)
    (hrow : isRow (s.dev.instr c) = true) : Gives x s t ↔
      (if 8 ≤ (s.dev.core c).vq.length then s.dev
        else vectorJoined s.dev c ((s.dev.sreg c (rbOf (s.dev.instr c))).toNat % 2 ^ 32)) = t := by
  rw [gives_iff_of_act hx h.1, vectorIssue_of_ready h hrow]

/-! ### The rows, by their functions (R169, R171, R174, R175) -/

def vopRows (c : Nat) : List (Nat × Instr) :=
  [(0, .vadd c), (1, .vsub c), (2, .vmul c), (3, .vfma c), (4, .vmin c), (5, .vmax c), (6, .vcmplt c), (7, .vcmple c),
    (8, .vcmpeq c), (16, .viadd c), (17, .visub c), (18, .vimul c), (19, .vimin c), (20, .vimax c), (21, .vand c),
    (22, .vor c), (23, .vxor c), (24, .vshl c), (25, .vsra c)]

def vsfRows (c : Nat) : List (Nat × Instr) :=
  [(0, .exp2 c), (1, .exp c), (2, .log2 c), (3, .log c), (4, .rcp c), (5, .sqrt c), (6, .rsqrt c), (7, .tanh c),
    (8, .sigmoid c), (9, .silu c), (10, .gelu c), (11, .sinpi c), (12, .cospi c)]

def vredRows (c : Nat) : List (Nat × Instr) :=
  [(0, .rsum c), (1, .rsumsq c), (2, .rmax c), (3, .rmin c), (4, .rmaxabs c), (5, .rdot c)]

def vmiscRows (c : Nat) : List (Nat × Instr) :=
  [(0, .vmov c), (1, .vcvt c), (2, .vfill c), (3, .vabs c), (4, .vneg c), (5, .vrot c)]

theorem exec_vopRows : ∀ r ∈ vopRows c, exec r.2 s = act s (vectorIssue (isVop r.1) c) := by
  simp only [vopRows, List.forall_mem_cons, List.not_mem_nil, false_implies, implies_true, and_true]
  and_intros <;> rfl

theorem exec_vsfRows : ∀ r ∈ vsfRows c, exec r.2 s = act s (vectorIssue (isVsf r.1) c) := by
  simp only [vsfRows, List.forall_mem_cons, List.not_mem_nil, false_implies, implies_true, and_true]
  and_intros <;> rfl

theorem exec_vredRows : ∀ r ∈ vredRows c, exec r.2 s = act s (vectorIssue (isOpFn 0x2D r.1) c) := by
  simp only [vredRows, List.forall_mem_cons, List.not_mem_nil, false_implies, implies_true, and_true]
  and_intros <;> rfl

theorem exec_vmiscRows : ∀ r ∈ vmiscRows c, exec r.2 s = act s (vectorIssue (isOpFn 0x2E r.1) c) := by
  simp only [vmiscRows, List.forall_mem_cons, List.not_mem_nil, false_implies, implies_true, and_true]
  and_intros <;> rfl

theorem isVop_iff : isVop fn w = true ↔ (opOf w = 0x28 ∨ opOf w = 0x29 ∨ opOf w = 0x2A) ∧ fnOf w = fn := by
  simp [isVop, or_assoc]

theorem isVsf_iff : isVsf fn w = true ↔ (opOf w = 0x2B ∨ opOf w = 0x2C) ∧ fnOf w = fn := by
  simp [isVsf]

theorem isOpFn_iff {op : Nat} : isOpFn op fn w = true ↔ opOf w = op ∧ fnOf w = fn := by
  simp [isOpFn]

/-! ### The operands of an element-wise instruction at one place (R167, R184) -/

/-- Element codes at place `i` of the two sources, marked where the granule is uncorrectable or the stream ends
before. -/
def vCodeA (d : Dev) (c i : Nat) (j : VJob) : Nat × Bool := (codes d c (Desc.ofBits j.da)).getD i (0, true)
def vCodeB (d : Dev) (c i : Nat) (j : VJob) : Nat × Bool := (codes d c (Desc.ofBits j.db)).getD i (0, true)

/-- The second operand of the two-stream and the immediate form, as a number and as an integer. -/
def vNumB (d : Dev) (c i : Nat) (j : VJob) : Num :=
  if opOf j.word = 0x28 then valueOf (Desc.ofBits j.db).format (vCodeB d c i j) else decodeNum 0 (immOf j.word)
def vIntB (d : Dev) (c i : Nat) (j : VJob) : W32 :=
  if opOf j.word = 0x28 then intOf (Desc.ofBits j.db).format (vCodeB d c i j).1 else BitVec.ofNat 32 (immOf j.word)

/-- A source value at place `i` is of an uncorrectable granule, or past the end of its stream. -/
def vMarked (d : Dev) (c i : Nat) (j : VJob) : Bool :=
  (vCodeA d c i j).2 || (opOf j.word == 0x28 && (vCodeB d c i j).2)

theorem vMarked_eq_false_iff : vMarked d c i j = false ↔
    (vCodeA d c i j).2 = false ∧ (opOf j.word = 0x28 → (vCodeB d c i j).2 = false) := by
  simp [vMarked]

/-- The third operand, which only VFMA reads: the value of the destination, marked by its word (R168, R184). -/
def vNumD (d : Dev) (c i : Nat) (j : VJob) : Num :=
  let dd := Desc.ofBits j.dd
  let marked := ((List.range dd.vals).zip (codes d c dd)).map fun p =>
    (p.2.1, d.lbad c (dd.nth (p.1 / valsPerElem dd.format) / 4 * 4) 4)
  valueOf dd.format ((if vReadsDd j.word then marked else []).getD i (0, true))

/-- Past the end of a stream the value is NaN, as that of a marked code is. -/
theorem getD_map_valueOf (fmt : Nat) (l : List (Nat × Bool)) :
    (l.map (valueOf fmt)).getD i .nan = valueOf fmt (l.getD i (0, true)) := by
  rw [List.getD_eq_getElem?_getD, List.getD_eq_getElem?_getD, List.getElem?_map]
  cases l[i]? <;> rfl

/-! ### Signed minimum and maximum (R169) -/

theorem vopInt_min (a b : W32) : vopInt 19 a b = if a.toInt < b.toInt then a else b := by
  simp [vopInt, BitVec.slt_iff_toInt_lt]

theorem vopInt_max (a b : W32) : vopInt 20 a b = if a.toInt < b.toInt then b else a := by
  simp [vopInt, BitVec.slt_iff_toInt_lt]

/-! ### The result of an element-wise instruction at one place (R168-R170, R184) -/

section
variable (hop : opOf j.word = 0x28 ∨ opOf j.word = 0x29) (hi : i < (Desc.ofBits j.dd).vals)
include hop hi

/-- The two-stream form reads its second operand from DB and the immediate form from IMM32; the rest is common. -/
theorem vResult_getElem?_of_float (hfn : fnOf j.word ≤ 8) : (vResult d c j)[i]? =
    some (toDest (Desc.ofBits j.dd).format j.sat (if vMarked d c i j then .nan else
      vopFloat (fnOf j.word) (valueOf (Desc.ofBits j.da).format (vCodeA d c i j)) (vNumB d c i j) (vNumD d c i j))) := by
  rw [apply_ite (toDest _ _)]
  rcases hop with hop | hop <;>
    simp [-List.getD_eq_getElem?_getD, getD_map_valueOf, vResult, hop, hfn, hi, vReadsDa, vReadsDb, vScalar, vMarked,
      vCodeA, vCodeB, vNumB, vNumD]

theorem vResult_getElem?_of_int (hfn : 8 < fnOf j.word) : (vResult d c j)[i]? =
    some (if vMarked d c i j then toDest (Desc.ofBits j.dd).format j.sat .nan else
      intTo (Desc.ofBits j.dd).format
        (vopInt (fnOf j.word) (intOf (Desc.ofBits j.da).format (vCodeA d c i j).1) (vIntB d c i j))) := by
  rcases hop with hop | hop <;>
    simp [vResult, hop, Nat.not_le.2 hfn, hi, vReadsDa, vReadsDb, vScalar, vMarked, vCodeA, vCodeB, vIntB]

theorem vResult_getElem?_of_marked (h : vMarked d c i j = true) :
    (vResult d c j)[i]? = some (toDest (Desc.ofBits j.dd).format j.sat .nan) := by
  rcases Nat.lt_or_ge 8 (fnOf j.word) with hfn | hfn
  · rw [vResult_getElem?_of_int hop hi hfn, if_pos h]
  · rw [vResult_getElem?_of_float hop hi hfn, if_pos h]

theorem vResult_getElem?_of_good_float (h : vMarked d c i j = false) (hfn : fnOf j.word = fn) (hle : fn ≤ 8) :
    (vResult d c j)[i]? = some (encodeNum (Desc.ofBits j.dd).format j.sat (roundF32
      (vopFloat fn (valueOf (Desc.ofBits j.da).format (vCodeA d c i j)) (vNumB d c i j) (vNumD d c i j)))) := by
  subst hfn
  rw [vResult_getElem?_of_float hop hi hle, h, if_neg Bool.false_ne_true, toDest]

theorem vResult_getElem?_of_good_int (h : vMarked d c i j = false) (hfn : fnOf j.word = fn) (hlt : 8 < fn) :
    (vResult d c j)[i]? = some (intTo (Desc.ofBits j.dd).format
      (vopInt fn (intOf (Desc.ofBits j.da).format (vCodeA d c i j).1) (vIntB d c i j))) := by
  subst hfn
  rw [vResult_getElem?_of_int hop hi hlt, h, if_neg Bool.false_ne_true]

end

end Sys2Proof.Machine

namespace Sys2Proof.Claims
open Sys2Proof Sys2Proof.Machine

/-- Settles O21: the code at a place is the NaN of a marked operand, or what the operation of the instruction's function
gives on the operands there. For each function this is the operation that the statement names. -/
theorem vectorElementResults : Obligations.VectorElementResults := by
  intro d c i j w dd da db ca cb hi _ hforms a b n m good floats ints
  have hop : opOf w = 0x28 ∨ opOf w = 0x29 := hforms.imp_left And.left
  have hgood : vMarked d c i j = false ↔ good := vMarked_eq_false_iff
  have hfloat (fn : Nat) (hle : fn ≤ 8 := by decide) : floats fn (vopFloat fn a b (vNumD d c i j)) :=
    fun h hfn => vResult_getElem?_of_good_float hop hi (hgood.2 h) hfn hle
  have hint (fn : Nat) (hlt : 8 < fn := by decide) : ints fn (vopInt fn n m) :=
    fun h hfn => vResult_getElem?_of_good_int hop hi (hgood.2 h) hfn hlt
  exact ⟨fun h _ => vResult_getElem?_of_marked hop hi (Bool.of_not_eq_false (mt hgood.1 h)),
    hfloat 0, hfloat 1, hfloat 2, hfloat 4, hfloat 5, hfloat 6, hfloat 7, hfloat 8, hint 16, hint 17, hint 18,
    vopInt_min n m ▸ hint 19, vopInt_max n m ▸ hint 20, hint 21, hint 22, hint 23, hint 24, hint 25⟩

/-- Settles O19: whatever the row, an instruction that is ready waits for room in the queue or joins it. -/
theorem vectorInstructionsIssue : Obligations.VectorInstructionsIssue := by
  intro s c fn i d w goes
  have goes_of {isRow} (hi : exec i s = act s (vectorIssue isRow c)) (hrow : fnOf w = fn → isRow w = true) : goes :=
    fun hready hfn =>
      ⟨fun h => (gives_vector_iff hi hready (hrow hfn)).2 (if_neg (Nat.not_le.2 h)),
        fun h => (gives_vector_iff hi hready (hrow hfn)).2 (if_pos h)⟩
  exact ⟨fun hi hop => goes_of (exec_vopRows _ hi) (fun hfn => isVop_iff.2 ⟨hop, hfn⟩),
    fun hi hop => goes_of (exec_vsfRows _ hi) (fun hfn => isVsf_iff.2 ⟨hop, hfn⟩),
    fun hi hop => goes_of (exec_vredRows _ hi) (fun hfn => isOpFn_iff.2 ⟨hop, hfn⟩),
    fun hi hop => goes_of (exec_vmiscRows _ hi) (fun hfn => isOpFn_iff.2 ⟨hop, hfn⟩)⟩

end Sys2Proof.Claims
end

section
/-! The queue of the vector engine: how an attention instruction joins it (R178, R209-R215), how its first waiting
instruction reads and its oldest writing one completes (R179). -/
namespace Sys2Proof.Machine
open Sys2Proof Sys2Proof.Claims

variable {s : State} {d t : Dev} {c op fn code : Nat} {x : Instr}

/-! ### Issue of an attention instruction -/

/-- Past its checks an attention instruction waits while eight are held, and joins the queue otherwise. -/
theorem attnIssue_of_ready (h : AttentionReady s c op fn) :
    attnIssue op fn c s.dev = if 8 ≤ (s.dev.core c).vq.length then s.dev
      else vectorJoined s.dev c (s.dev.sreg c (rbOf (s.dev.instr c))).toNat := by
  obtain ⟨hissues, hfields, hdescs, hshape⟩ := h
  rw [attnIssue, Dev.issue_of_issues hissues, hfields, Dev.checked_true]
  simp only [hdescs, hshape, Bool.not_true, Bool.false_eq_true, if_false]
  rfl

/-- The attention instructions, by major opcode and function. -/
def attentionRows (c : Nat) : List (Nat × Nat × Instr) :=
  [(0x32, 0, .apos c), (0x32, 1, .arope c), (0x32, 2, .amask c), (0x33, 0, .asmx c), (0x33, 1, .asfin c),
    (0x33, 2, .asrec c)]

theorem exec_attentionRows : ∀ r ∈ attentionRows c, exec r.2.2 s = act s (attnIssue r.1 r.2.1 c) := by
  simp only [attentionRows, List.forall_mem_cons, List.not_mem_nil, false_implies, implies_true, and_true]
  and_intros <;> rfl

theorem gives_attention_iff (hx : (op, fn, x) ∈ attentionRows c) (h : AttentionReady s c op fn) : Gives x s t ↔
    (if 8 ≤ (s.dev.core c).vq.length then s.dev
      else vectorJoined s.dev c (s.dev.sreg c (rbOf (s.dev.instr c))).toNat) = t := by
  rw [gives_iff_of_act (exec_attentionRows _ hx) h.1.1, attnIssue_of_ready h]

/-! ### The first waiting instruction reads (R179, R184) -/

/-- The plan of an instruction in the queue, by its major opcode. -/
def queuePlan (d : Dev) (c : Nat) (j : VJob) : VPlan :=
  if opOf j.word = 0x32 ∨ opOf j.word = 0x33 then attnPlan d c j else vecPlan d c j

section
variable {j : VJob} {rest : List VJob} {p : VPlan} (hq : (d.core c).vq = j :: rest) (hp : queuePlan d c j = p)
include hq hp

/-- What still writes the streams of the first waiting instruction holds it back. -/
theorem vectorReadStart_of_blocked (h : vMayStart (d.core c) j p = false) : vectorReadStart c d = d := by
  unfold queuePlan at hp
  simp only [vectorReadStart, vStart, hq, hp, h, Bool.not_false, if_true]

/-- An instruction whose sources are good moves to those that write, with no fault code. -/
theorem vectorReadStart_of_good (h : vMayStart (d.core c) j p = true) (hbad : p.bad = []) (hbadD : p.badD = []) :
    vectorReadStart c d = (d.countGran c p.addrs).updCore c (fun k => { k with
      vq := rest,
      vwr := k.vwr ++ [{ pcIdx := j.pcIdx, writes := p.puts, spans := p.writes, nvals := p.nvals,
                         destRead := p.destRead, codes := [] }] }) := by
  unfold queuePlan at hp
  simp only [vectorReadStart, vStart, hq, hp, h, hbad, hbadD, Bool.not_true, Bool.false_eq_true, if_false,
    List.foldl_nil, List.isEmpty_nil, if_true, List.append_nil]

end

theorem gives_vectorReadStart_iff (hl : Live s) : Gives (.vectorReadStart c) s t ↔ vectorReadStart c s.dev = t :=
  gives_iff_of_act rfl hl

/-! ### The oldest writing instruction completes (R179, R184) -/

/-- The device after the writes of `p`, which leaves `rest` writing, and whether one of them met an uncorrectable word. -/
def vWritten (d : Dev) (c : Nat) (p : VPend) (rest : List VPend) : Dev × Bool :=
  p.writes.foldl (fun r x => vPut c p.destRead x r) (d.updCore c (fun k => { k with vwr := rest }), false)

/-- The device after the writes of `p` have been made and counted. -/
def vCounted (d : Dev) (c : Nat) (p : VPend) (rest : List VPend) : Dev :=
  ((vWritten d c p rest).1.add CORE_VEC_INSTR.INSTR 1 c).add CORE_VEC_VALUES.VALUES p.nvals c

section
variable {p : VPend} {rest : List VPend} (hw : (d.core c).vwr = p :: rest) (hgood : (vWritten d c p rest).2 = false)
include hw hgood

theorem vectorComplete_of_no_codes (h : p.codes = []) : vectorComplete c d = vCounted d c p rest := by
  unfold vWritten at hgood
  simp only [vectorComplete, hw, hgood, h, Bool.false_eq_true, if_false, vCounted, vWritten]

/-- A fault code noted when the instruction read is raised once its writes are made. -/
theorem vectorComplete_of_codes {codes : List Nat} (h : p.codes = code :: codes) :
    vectorComplete c d = (vCounted d c p rest).unitFault c code p.pcIdx := by
  unfold vWritten at hgood
  simp only [vectorComplete, hw, hgood, h, Bool.false_eq_true, if_false, vCounted, vWritten]

end

theorem gives_vectorComplete_iff (hl : Live s) : Gives (.vectorComplete c) s t ↔ vectorComplete c s.dev = t :=
  gives_iff_of_act rfl hl

end Sys2Proof.Machine

namespace Sys2Proof.Claims
open Sys2Proof Sys2Proof.Machine

/-- Settles O20: the length of the queue decides the issue, the plan of the first waiting instruction its start, and the
fault codes of the oldest writing one how it ends. -/
theorem attentionInstructionsIssue : Obligations.AttentionInstructionsIssue := by
  intro s c d w
  refine ⟨?issue, ?start, ?complete⟩
  case issue =>
    intro op fn i hi hready
    exact ⟨fun h => (gives_attention_iff hi hready).2 (if_neg (Nat.not_le.2 h)),
      fun h => (gives_attention_iff hi hready).2 (if_pos h)⟩
  case start =>
    intro j rest hl hq p q
    exact ⟨fun h hbad hbadD => (gives_vectorReadStart_iff hl).2 (vectorReadStart_of_good hq rfl h hbad hbadD),
      fun h => (gives_vectorReadStart_iff hl).2 (vectorReadStart_of_blocked hq rfl h)⟩
  case complete =>
    intro p rest hl hw r e
    exact ⟨fun hgood h => (gives_vectorComplete_iff hl).2 (vectorComplete_of_no_codes hw hgood h),
      fun code t hgood h => (gives_vectorComplete_iff hl).2 (vectorComplete_of_codes hw hgood h)⟩

end Sys2Proof.Claims
end

section
/-! The SEQ instructions: how one reaches the context agent (R189, R198), what the agent answers (R200, R203, R527), and how
its status returns. -/
namespace Sys2Proof.Machine
open Sys2Proof Sys2Proof.Claims

variable {s : State} {d e f t : Dev} {c fn : Nat} {x : Instr} {q : SeqReq}

/-! ### Issue (R189, R198) -/

/-- The SEQ instructions, by function. -/
def seqRows (c : Nat) : List (Nat × Instr) :=
  [(0, .sqopen c), (1, .sqadmit c), (2, .sqcommit c), (3, .sqtrim c), (4, .sqclose c), (5, .sqevict c), (6, .sqget c),
    (7, .sqset c), (8, .sqpage c)]

theorem exec_seqRows : ∀ r ∈ seqRows c, exec r.2 s = act s (seqIssue r.1 c) := by
  simp only [seqRows, List.forall_mem_cons, List.not_mem_nil, false_implies, implies_true, and_true]
  and_intros <;> rfl

/-- What the instruction at the head of core `c` hands to the agent, with its function. -/
def seqRequest (d : Dev) (c fn : Nat) : SeqReq :=
  let w := d.instr c
  { fn := fn, ra := (d.sreg c (raOf w)).toNat, rb := (d.sreg c (rbOf w)).toNat, imm := immOf w }

/-- Past its checks a SEQ instruction hands its request over and stalls issue. -/
theorem seqIssue_of_issues (h : Issues s c 0x30 fn) (hfields : seqFieldsOk fn (s.dev.instr c) = true) :
    seqIssue fn c s.dev = s.dev.updCore c (fun k => { k with
      wait := .seq (rdOf (s.dev.instr c)), seqReq := some (seqRequest s.dev c fn) }) := by
  rw [seqIssue, Dev.issue_of_issues h, hfields, Dev.checked_true]
  rfl

theorem gives_seq_iff (hx : (fn, x) ∈ seqRows c) (hl : Live s) : Gives x s t ↔ seqIssue fn c s.dev = t :=
  gives_iff_of_act (exec_seqRows _ hx) hl

/-! ### The context agent (R200, R203) -/

/-- The device in which the agent has answered core `c` with value `v` and fault code `fault`. -/
def Dev.seqAnswered (d : Dev) (c v fault : Nat) : Dev :=
  d.updCore c (fun k => { k with seqReq := none, seqAns := some (v, fault) })

theorem seqAgentRequest_of_none (hq : (d.core c).seqReq = none) : seqAgentRequest c d = d := by
  simp only [seqAgentRequest, hq]

/-- A request whose admission waits sends its WAIT again. -/
theorem seqAgentRequest_of_held {h : SeqHeld} (hq : (d.core c).seqReq = some q) (hh : (d.core c).seqHeld = some h) :
    seqAgentRequest c d = seqRetry c h d := by
  simp only [seqAgentRequest, hq, hh]

section
variable (hq : (d.core c).seqReq = some q) (hh : (d.core c).seqHeld = none)
include hq hh

theorem seqAgentRequest_out_of_range (hra : 2 ^ 15 ≤ q.ra) :
    seqAgentRequest c d = d.seqAnswered c (if q.fn = 6 ∨ q.fn = 8 then 2 ^ 64 - 1 else 6) 0 := by
  simp only [seqAgentRequest, hq, hh, if_pos hra, Dev.seqAnswered]

/-! A number in range, of a context that is not homed inside a Curtain. -/
variable (hra : q.ra < 2 ^ 15) (hfree : ((d.corePart c).bind (fun p => d.ctxDa p q.ra)).any
  (fun da => d.clusterCurtained (daCore da / 16)) = false)
include hra hfree

theorem seqAgentRequest_of_not_opened {o : SeqOut} (ho : d.ctxOpen c q.ra (seqLim q.fn) = (.inr o, e)) :
    seqAgentRequest c d = o.dev.seqAnswered c o.val o.fault := by
  simp only [seqAgentRequest, hq, hh, if_neg (Nat.not_le.2 hra), hfree, ho, Bool.false_eq_true, if_false, Dev.seqAnswered]

variable {p da rec : Nat} (ho : d.ctxOpen c q.ra (seqLim q.fn) = (.inl (p, da, rec), e))
include ho

theorem seqAgentRequest_of_done {o : SeqOut}
    (hdo : e.seqDo (daCore da / 16) p (e.rd CORE_SEQ_TENANT.TENANT c) c q.ra da rec q = (some o, f)) :
    seqAgentRequest c d = o.dev.seqAnswered c o.val o.fault := by
  simp only [seqAgentRequest, hq, hh, if_neg (Nat.not_le.2 hra), hfree, ho, hdo, Bool.false_eq_true, if_false,
    Dev.seqAnswered]

/-- An admission that waits leaves the core waiting, but for one that a halt withdraws (R81). -/
theorem seqAgentRequest_of_waiting
    (hdo : e.seqDo (daCore da / 16) p (e.rd CORE_SEQ_TENANT.TENANT c) c q.ra da rec q = (none, f)) :
    seqAgentRequest c d = if (f.core c).halting = none then f else f.seqWithdraw c := by
  simp only [seqAgentRequest, hq, hh, if_neg (Nat.not_le.2 hra), hfree, ho, hdo, Bool.false_eq_true, if_false]

end

theorem gives_seqAgentRequest_iff (hl : Live s) : Gives (.seqAgentRequest c) s t ↔ seqAgentRequest c s.dev = t :=
  gives_iff_of_act rfl hl

/-! ### The wake of a waiting admission, and the return of a status (R200, R203) -/

theorem sqadmitWake_of_wake {h : SeqHeld} {cue k kind : Nat} {rest : List CueAns} (hh : (d.core c).seqHeld = some h)
    (ha : (d.core c).cueAns = .wake cue k kind :: rest) : sqadmitWake c d = (d.dropAns c).seqWake c h k kind := by
  simp only [sqadmitWake, hh, ha]

/-- Without a waiting admission an answer of a cue is not the agent's. -/
theorem sqadmitWake_of_not_held (hh : (d.core c).seqHeld = none) : sqadmitWake c d = d := by
  rw [sqadmitWake, hh]
  split
  · contradiction
  · rfl

theorem gives_sqadmitWake_iff (hl : Live s) : Gives (.sqadmitWake c) s t ↔ sqadmitWake c s.dev = t :=
  gives_iff_of_act rfl hl

/-- The device after value `v` has been written to `rd` and the instruction has retired and ended its wait. -/
def Dev.seqReturned (d : Dev) (c v rd : Nat) : Dev :=
  (((d.updCore c (fun k => { k with seqAns := none })).setS c rd (BitVec.ofNat 64 v)).retire c).endWait c

theorem seqStatusReturn_of_answer {v fault rd : Nat} (ha : (d.core c).seqAns = some (v, fault))
    (hw : (d.core c).wait = .seq rd) : seqStatusReturn c d =
      if fault = 0 then d.seqReturned c v rd else (d.seqReturned c v rd).unitFault c fault (d.pc c) := by
  simp only [seqStatusReturn, ha, hw, Dev.seqReturned]

theorem gives_seqStatusReturn_iff (hl : Live s) : Gives (.seqStatusReturn c) s t ↔ seqStatusReturn c s.dev = t :=
  gives_iff_of_act rfl hl

end Sys2Proof.Machine

namespace Sys2Proof.Claims
open Sys2Proof Sys2Proof.Machine

/-- Settles O22: the request is what the agent finds with the core, its answer what the return finds, and the agent's
answer turns on the number, on whether the context opens, and on what the operation reports. -/
theorem sequenceInstructions : Obligations.SequenceInstructions := by
  intro s c d w
  refine ⟨?issue, ?request, fun q h hl hq hh => (gives_seqAgentRequest_iff hl).2 (seqAgentRequest_of_held hq hh),
    fun hl hq => (gives_seqAgentRequest_iff hl).2 (seqAgentRequest_of_none hq),
    fun v fault rd hl ha hw => (gives_seqStatusReturn_iff hl).2 (seqStatusReturn_of_answer ha hw),
    fun h cue k kind rest hl hh ha => (gives_sqadmitWake_iff hl).2 (sqadmitWake_of_wake hh ha),
    fun hl hh => (gives_sqadmitWake_iff hl).2 (sqadmitWake_of_not_held hh)⟩
  case issue =>
    exact fun fn i hi hissues hfields => (gives_seq_iff hi hissues.1).2 (seqIssue_of_issues hissues hfields)
  case request =>
    intro q hl hq hh answer
    exact ⟨fun hra => (gives_seqAgentRequest_iff hl).2 (seqAgentRequest_out_of_range hq hh hra), fun hra hfree =>
      ⟨fun o e ho => (gives_seqAgentRequest_iff hl).2 (seqAgentRequest_of_not_opened hq hh hra hfree ho),
        fun p da rec e o f ho hdo => (gives_seqAgentRequest_iff hl).2 (seqAgentRequest_of_done hq hh hra hfree ho hdo),
        fun p da rec e f ho hdo => (gives_seqAgentRequest_iff hl).2 (seqAgentRequest_of_waiting hq hh hra hfree ho hdo)⟩⟩

end Sys2Proof.Claims
end

section
/-! Near-bank commands: how an instruction joins its core's port (R222, R231), how a command leaves the port for its slice
controller or is discarded (R221, R230, R232), starts and resumes there (R219, R222, R233, R234), and how it ends (R236). -/
namespace Sys2Proof.Machine
open Sys2Proof Sys2Proof.Claims

variable {s : State} {d e t : Dev} {c i op fn code : Nat} {j : PimJob} {x : Instr} {perr : List (Nat × Nat)}

/-! ### Issue (R222, R231) -/

/-- The near-bank instructions, by major opcode and function. -/
def pimRows (c : Nat) : List (Nat × Nat × Instr) :=
  [(0x34, 0, .pwr c), (0x34, 1, .prd c), (0x34, 2, .pclr c), (0x35, 0, .pdot c), (0x36, 0, .pcol c), (0x37, 0, .pmark c),
    (0x37, 1, .pfence c)]

theorem exec_pimRows : ∀ r ∈ pimRows c, exec r.2.2 s = act s (pimIssue r.1 r.2.1 c) := by
  simp only [pimRows, List.forall_mem_cons, List.not_mem_nil, false_implies, implies_true, and_true]
  and_intros <;> rfl

/-- The command that the instruction at the head of core `c` becomes, with copies of its operands. -/
def pimNew (d : Dev) (c : Nat) : PimJob :=
  let w := d.instr c
  { word := w, pcIdx := d.pc c, ra := (d.sreg c (raOf w)).toNat, rb := (d.sreg c (rbOf w)).toNat,
    dd := d.descBits c (rdOf w), phase := .queued, arr := 0, start := 0 }

/-- The device after the near-bank instruction at the head of core `c` has joined the port and retired. -/
def pimJoined (d : Dev) (c : Nat) : Dev :=
  (d.updCore c (fun k => { k with pimq := k.pimq ++ [pimNew d c] })).retire c

/-- Past the checks of R231 an instruction waits while the port holds 16 commands, and joins it otherwise. -/
theorem pimIssue_of_ready (h : NearBankReady s c op fn) :
    pimIssue op fn c s.dev = if 16 ≤ (s.dev.core c).pimq.length then s.dev else pimJoined s.dev c := by
  obtain ⟨hissues, hfields, hshape, halign, hdot, hspan⟩ := h
  rw [pimIssue, Dev.issue_of_issues hissues, hfields, Dev.checked_true]
  by_cases hop : op = 0x35
  · obtain ⟨hdesc, hformat, hsize⟩ := hdot hop
    subst hop
    simp only [hdesc, hshape, hformat, hsize, halign, beq_self_eq_true, decide_true, Bool.and_true, Bool.not_true, if_true]
    rfl
  · have hlocal : ¬(op = 0x34 ∧ fn < 2 ∧ (2 ^ 20 ≤ (s.dev.sreg c (rbOf (s.dev.instr c))).toNat ∨
        spanOk (s.dev.sreg c (rbOf (s.dev.instr c))).toNat (pimBytes (s.dev.instr c)) = false)) := by
      rintro ⟨hop, hfn, hbad⟩
      obtain ⟨hlt, hok⟩ := hspan hop hfn
      exact hbad.elim (Nat.not_le.2 hlt) (by simp [hok])
    simp only [beq_false_of_ne hop, hshape, halign, if_neg hlocal, Bool.not_true, Bool.false_and, Bool.or_false,
      Bool.false_eq_true, if_false]
    rfl

theorem gives_pimRow_iff (hx : (op, fn, x) ∈ pimRows c) (h : NearBankReady s c op fn) : Gives x s t ↔
    (if 16 ≤ (s.dev.core c).pimq.length then s.dev else pimJoined s.dev c) = t := by
  rw [gives_iff_of_act (exec_pimRows _ hx) h.1.1, pimIssue_of_ready h]

/-! ### Start in the banks (R219, R222, R233) -/

/-- The device after command `j`, at place `i` of core `c`'s port, has started: its units have passed to the tenant of
its core and it has the next number at its slice. -/
def Dev.pimStarted (d : Dev) (c i : Nat) (j : PimJob) : Dev :=
  let n := daCore j.da
  let e := j.units.foldl (fun e u => e.pimOwn n u (e.rd CORE_SEQ_TENANT.TENANT c)) d
  (e.updSlice n (fun k => { k with pimSeq := k.pimSeq + 1 })).setPim c i
    { j with phase := .running, start := (e.slice n).pimSeq }

/-- An earlier command in the banks, or the cap, holds a command back. -/
theorem Dev.pimStart_of_blocked (h : d.pimBehind j = true ∨ d.pimRoom j = false) : d.pimStart c i j = d := by
  rw [Dev.pimStart, if_pos]
  rcases h with h | h <;> simp [h]

theorem Dev.pimStart_of_free (hbehind : d.pimBehind j = false) (hroom : d.pimRoom j = true) :
    d.pimStart c i j = d.pimStarted c i j := by
  rw [Dev.pimStart, hbehind, hroom]
  rfl

/-! ### Dispatch (R221, R222, R230, R232) -/

/-- The command as it waits at its slice controller, with the next number of arrival there. -/
def PimJob.arrived (j : PimJob) (d : Dev) : PimJob :=
  { j with phase := .waiting, arr := (d.slice (daCore j.da)).pimSeq }

/-- The device after command `j`, at place `i` of core `c`'s port, has arrived at its slice controller. -/
def Dev.pimArrived (d : Dev) (c i : Nat) (j : PimJob) : Dev :=
  (d.updSlice (daCore j.da) (fun k => { k with pimSeq := k.pimSeq + 1 })).setPim c i (j.arrived d)

/-- The device after command `j`, at place `i` of core `c`'s port, has failed its check with a fault code (R232). -/
def Dev.pimDiscarded (d : Dev) (c i : Nat) (j : PimJob) (code : Nat) : Dev :=
  ((d.err (if code = 0x505 then 4 else 3) code (unitCore c 7 0) (j.ra % 2 ^ 48)).wr CORE_SLC_PIM_STAT.ADDR_SEEN 1 c).setPim
    c i { j with phase := .discarded code }

/-- Only the controller of an orphan slice has a bound on what it holds. -/
theorem Dev.pimFull_eq_false (h : d.orphan (daCore j.da) = false ∨ d.pimHeld (daCore j.da) < 16) : d.pimFull j = false := by
  rcases h with h | h
  · rw [Dev.pimFull, h, Bool.false_and]
  · rw [Dev.pimFull, decide_eq_false (Nat.not_le.2 h), Bool.and_false]

theorem Dev.pimFull_eq_true (ho : d.orphan (daCore j.da) = true) (hn : 16 ≤ d.pimHeld (daCore j.da)) :
    d.pimFull j = true := by
  rw [Dev.pimFull, ho, decide_eq_true hn, Bool.and_true]

section
variable (hj : (d.core c).pimq[i]? = some j)
include hj

theorem pimDispatch_of_waiting (hp : j.phase = .waiting) : pimDispatch c i d = d.pimStart c i j := by
  simp only [pimDispatch, hj, hp, if_true]

/-! A command that is still in its port. -/
variable (hp : j.phase = .queued)
include hp

theorem pimDispatch_of_out_of_order (ho : d.pimOrder c i j = false) : pimDispatch c i d = d := by
  simp [pimDispatch, hj, hp, ho]

/-- PMARK and PFENCE have nothing to check and no bank to wait for. -/
theorem pimDispatch_of_mark_or_fence (ho : d.pimOrder c i j = true) (hop : j.op = 0x37) :
    pimDispatch c i d = d.setPim c i { j with phase := .running } := by
  simp [pimDispatch, hj, hp, ho, hop]

theorem pimDispatch_of_full (hop : j.op ≠ 0x37) (hda : pimDaOk j.ra = true) (hfull : d.pimFull j = true) :
    pimDispatch c i d = d := by
  simp [pimDispatch, hj, hp, hop, hda, hfull]

/-! A command whose turn it is, with room at its slice controller. -/
variable (ho : d.pimOrder c i j = true) (hop : j.op ≠ 0x37) (hfull : d.pimFull j = false)
include ho hop hfull

theorem pimDispatch_of_passed (hcheck : d.pimCheck c j = (none, e)) :
    pimDispatch c i d = (e.pimArrived c i j).pimStart c i (j.arrived e) := by
  simp [pimDispatch, hj, hp, ho, hop, hfull, hcheck, Dev.pimTick, Dev.pimArrived, PimJob.arrived]

theorem pimDispatch_of_failed (hcheck : d.pimCheck c j = (some code, e)) :
    pimDispatch c i d = e.pimDiscarded c i j code := by
  simp [pimDispatch, hj, hp, ho, hop, hfull, hcheck, Dev.pimDiscarded]

end

theorem gives_pimDispatch_iff (hl : Live s) : Gives (.pimDispatch c i) s t ↔ pimDispatch c i s.dev = t :=
  gives_iff_of_act rfl hl

/-! ### Resumption (R234) and completion (R236) -/

/-- The device after command `j`, at place `i` of core `c`'s port, has ended with fault codes `codes`: it has left the port
and is counted, and has signalled its cue and raised its lowest code. -/
def Dev.pimEnded (d : Dev) (c i : Nat) (j : PimJob) (codes : List Nat) : Dev :=
  let e := (d.updCore c (fun k => { k with pimq := delNth k.pimq i })).pimCounted c j
  let e := match j.cue with | some q => e.signalUnit c q 1 | none => e
  if codes = [] then e else e.unitFault c (leastCode codes) j.pcIdx

section
variable (hj : (d.core c).pimq[i]? = some j)
include hj

theorem pimResume_of_paused (hp : j.phase = .paused) :
    pimResume c i d = if d.pimRoom j = true then d.setPim c i { j with phase := .running } else d := by
  simp [pimResume, hj, hp]

/-- A command that was started does its work as it ends. -/
theorem pimComplete_of_running (hp : j.phase = .running) :
    pimComplete c i perr d = (pimRun c j perr d).dev.pimEnded c i j (pimRun c j perr d).codes := by
  simp only [pimComplete, hj, hp]
  rfl

theorem pimComplete_of_discarded (hp : j.phase = .discarded code) : pimComplete c i perr d = d.pimEnded c i j [code] := by
  simp only [pimComplete, hj, hp]
  rfl

end

theorem gives_pimResume_iff (hl : Live s) : Gives (.pimResume c i) s t ↔ pimResume c i s.dev = t :=
  gives_iff_of_act rfl hl

theorem gives_pimComplete_iff (hl : Live s) : Gives (.pimComplete c i perr) s t ↔ pimComplete c i perr s.dev = t :=
  gives_iff_of_act rfl hl

end Sys2Proof.Machine

namespace Sys2Proof.Claims
open Sys2Proof Sys2Proof.Machine

/-- Settles O24: the length of the port decides the issue; the phase of a command, its turn and its check decide what a
dispatch does with it, and its phase how it resumes and ends. -/
theorem nearBankCommands : Obligations.NearBankCommands := by
  intro s c i perr d w new
  refine ⟨?issue, ?command⟩
  case issue =>
    intro op fn x hx hready
    exact ⟨fun h => (gives_pimRow_iff hx hready).2 (if_neg (Nat.not_le.2 h)),
      fun h => (gives_pimRow_iff hx hready).2 (if_pos h)⟩
  case command =>
    intro j hl hj finish started blocked
    have dispatch {t} : pimDispatch c i d = t → Gives (.pimDispatch c i) s t := (gives_pimDispatch_iff hl).2
    refine ⟨fun hp ho hop => dispatch (pimDispatch_of_mark_or_fence hj hp ho hop),
      fun hp ho => dispatch (pimDispatch_of_out_of_order hj hp ho),
      fun hp hda hop horphan hheld => dispatch (pimDispatch_of_full hj hp hop hda (Dev.pimFull_eq_true horphan hheld)),
      ?waitingStarts, ?waitingStays, ?arrives,
      fun hp h => (gives_pimResume_iff hl).2 ((pimResume_of_paused hj hp).trans (if_pos h)),
      fun hp h => (gives_pimResume_iff hl).2 ((pimResume_of_paused hj hp).trans (if_neg (Bool.not_eq_true _ ▸ h))),
      fun hp => (gives_pimComplete_iff hl).2 (pimComplete_of_running hj hp),
      fun code hp => (gives_pimComplete_iff hl).2 (pimComplete_of_discarded hj hp)⟩
    case waitingStarts =>
      exact fun hp hb hr => dispatch ((pimDispatch_of_waiting hj hp).trans (Dev.pimStart_of_free hb hr))
    case waitingStays =>
      exact fun hp hb => dispatch ((pimDispatch_of_waiting hj hp).trans (Dev.pimStart_of_blocked hb))
    case arrives =>
      intro hp ho hop hroom
      have hfull : d.pimFull j = false := Dev.pimFull_eq_false hroom
      refine ⟨fun e he => ?passed, fun e code he => dispatch (pimDispatch_of_failed hj hp ho hop hfull he)⟩
      case passed =>
        have harrived := pimDispatch_of_passed hj hp ho hop hfull he
        exact ⟨fun hb hr => dispatch (harrived.trans (Dev.pimStart_of_free hb hr)),
          fun hb => dispatch (harrived.trans (Dev.pimStart_of_blocked hb))⟩

end Sys2Proof.Claims
end

section
/-! What a slice controller answers: reads and writes (R248, R253, R259, R283), scrub reads (R262) and the operations of its
adder (R273). -/
namespace Sys2Proof.Machine
open Sys2Proof Sys2Proof.Claims

variable {s : State} {d t : Dev} {who : Requester} {w : ScrubAt} {chk : Option Nat}
  {da n v x cls flips again slot : Nat} {cut last : Bool}

/-! ### Reads (R248, R259) -/

theorem sliceRead_of_refused (h : d.daRefused da = some cls) : sliceRead who da n flips again slot cut d =
    (d.err cls 1 (reqUnit who) da).emit (.errCompletion who da) := by
  simp only [sliceRead, h]

/-- Both copies of a connection of the command path have failed. -/
theorem sliceRead_of_cut (h : d.daRefused da = none) : sliceRead who da n flips again slot true d =
    (((d.loseSlice (daCore da)).mapChange (unitCore (daCore da) 7 0)).err 4 1 (reqUnit who) da).emit
      (.errCompletion who da) := by
  simp only [sliceRead, h, if_true]

theorem sliceRead_of_served (h : d.daRefused da = none) : sliceRead who da n flips again slot false d =
    let r := d.readWord da (BitVec.ofNat 288 flips) (BitVec.ofNat 288 again) slot
    let k := min n (32 - da % 32)
    (r.2.countBytes CORE_SLC_RD_BYTES.BYTES (daCore da) k).emit
      (.memData who da k (r.1.val / 256 ^ (da % 32) % 256 ^ k) r.1.ue r.1.poison) := by
  simp only [sliceRead, h, Bool.false_eq_true, if_false]

theorem gives_sliceRead_iff (hl : Live s) : Gives (.sliceRead who da n flips again slot cut) s t ↔
    sliceRead who da n flips again slot cut s.dev = t := gives_iff_of_act rfl hl

/-! ### Writes (R253, R283, R324) -/

theorem sliceWrite_of_refused (h : d.daRefused da = some cls) : sliceWrite who da n v chk d =
    (d.err cls 2 (reqUnit who) da).emit (.errCompletion who da) := by
  simp only [sliceWrite, h]

/-- A write without a check value, which ends within its slice. -/
theorem sliceWrite_of_unchecked (h : d.daRefused da = none) (hn : n ≤ 2 ^ 27 - daOff da) :
    sliceWrite who da n v none d = d.directWrite da n v := by
  simp only [sliceWrite, h, Nat.min_eq_left hn]

section
variable (h : d.daRefused da = none) (hda : da % 4096 = 0)
include h hda

/-- The poison pattern in the place of a check value. -/
theorem sliceWrite_of_poison : sliceWrite who da 4096 v (some 0xA5C33C5A) d = d.blockWrite da v true false := by
  simp only [sliceWrite, h, hda, and_self, if_true, decide_true, Bool.not_true, Bool.false_and, Bool.true_or,
    Bool.false_eq_true, if_false]

variable (hv : v < 256 ^ 4096) (hx : x ≠ 0xA5C33C5A)
include hv hx

theorem sliceWrite_of_matching (hgood : x = (blockCheck da v).toNat) :
    sliceWrite who da 4096 v (some x) d = d.blockWrite da v false false := by
  subst hgood
  simp only [sliceWrite, h, Nat.mod_eq_of_lt hv]
  simp [hda, hx]

theorem sliceWrite_of_mismatching (hbad : x ≠ (blockCheck da v).toNat) : sliceWrite who da 4096 v (some x) d =
    (d.blockWrite da v true false).err 8 2 (unitCore (daCore da) 7 0) da := by
  simp only [sliceWrite, h, Nat.mod_eq_of_lt hv]
  simp [hda, hx, hbad]

end

theorem gives_sliceWrite_iff (hl : Live s) : Gives (.sliceWrite who da n v chk) s t ↔
    sliceWrite who da n v chk s.dev = t := gives_iff_of_act rfl hl

/-! ### Scrub reads (R262) -/

theorem patrolScrub_of_disabled (hen : d.bit CORE_SLC_SCRUB.EN (daCore (scrubDa w)) = false) :
    patrolScrub w flips again slot last d = d := by
  simp [patrolScrub, hen]

section
variable (hen : d.bit CORE_SLC_SCRUB.EN (daCore da) = true) (h : d.daRefused da = none)
include hen h

theorem patrolScrub_word : patrolScrub (.word da) flips again slot last d =
    if last then (d.scrubWord da flips again slot).add CORE_SLC_SCRUB_PASSES.PASSES 1 (daCore da)
    else d.scrubWord da flips again slot := by
  simp [patrolScrub, scrubDa, hen, h]

theorem patrolScrub_check : patrolScrub (.check da) flips again slot last d =
    if last then (d.scrubCheck da flips again slot).add CORE_SLC_SCRUB_PASSES.PASSES 1 (daCore da)
    else d.scrubCheck da flips again slot := by
  simp [patrolScrub, scrubDa, hen, h]

end

/-- The code finds an error in the word of a DA as it is read with `flips`. -/
def Dev.wordDisturbed (d : Dev) (da flips : Nat) : Bool :=
  decodePattern (FMap.get d.badw 0 (da / 32) ^^^ BitVec.ofNat 288 flips) != ⟨0, 0, 0⟩

section
variable {r : MRes × Dev} (hr : d.readWord da (BitVec.ofNat 288 flips) (BitVec.ofNat 288 again) slot 4 = r)
include hr

/-- What is found decides whether the word is written back. -/
theorem Dev.scrubWord_of_readWord : d.scrubWord da flips again slot =
    let e := r.2.add CORE_SLC_RD_BYTES.BYTES 32 (daCore da)
    if r.1.ue || !d.wordDisturbed da flips then e
    else { e.add CORE_SLC_WR_BYTES.BYTES 32 (daCore da) with badw := FMap.del e.badw (da / 32) } := by
  subst hr
  rfl

/-- A word that is clean or uncorrectable is not written back. -/
theorem Dev.scrubWord_of_left (h : r.1.ue = true ∨ d.wordDisturbed da flips = false) :
    d.scrubWord da flips again slot = r.2.add CORE_SLC_RD_BYTES.BYTES 32 (daCore da) := by
  rw [Dev.scrubWord_of_readWord hr]
  exact if_pos (by rcases h with h | h <;> simp [h])

theorem Dev.scrubWord_of_corrected (hue : r.1.ue = false) (h : d.wordDisturbed da flips = true) :
    d.scrubWord da flips again slot =
      let e := r.2.add CORE_SLC_RD_BYTES.BYTES 32 (daCore da)
      { e.add CORE_SLC_WR_BYTES.BYTES 32 (daCore da) with badw := FMap.del e.badw (da / 32) } := by
  rw [Dev.scrubWord_of_readWord hr]
  exact if_neg (by simp [hue, h])

end

theorem gives_patrolScrub_iff (hl : Live s) : Gives (.patrolScrub w flips again slot last) s t ↔
    patrolScrub w flips again slot last s.dev = t := gives_iff_of_act rfl hl

/-! ### The adder (R273) -/

theorem adderOp_of_nil (h : (d.slice n).addq = []) : adderOp n d = d := by simp only [adderOp, h]

theorem adderOp_of_cons {op : AddOp} {rest : List AddOp} (h : (d.slice n).addq = op :: rest) : adderOp n d =
    let r := (d.updSlice n (fun k => { k with addq := rest })).adderRun op
    r.2.updCore op.core (fun k =>
      { k with atomq := k.atomq.map (fun a => if a.aid == op.aid then a.adderDone r.1 else a) }) := by
  simp only [adderOp, h]

theorem gives_adderOp_iff (hl : Live s) : Gives (.adderOp n) s t ↔ adderOp n s.dev = t := gives_iff_of_act rfl hl

end Sys2Proof.Machine

namespace Sys2Proof.Claims
open Sys2Proof Sys2Proof.Machine

/-- Settles O34: a refusal, a cut command path and the check value a block brings decide an access; whether scrubbing is
on and what the code finds decide a scrub read; the queue of the adder decides its operation. -/
theorem sliceControllers : Obligations.SliceControllers := by
  intro s who da n v flips again slot key layer bank row hl d m refused r k
  refine ⟨fun h => (gives_sliceRead_iff hl).2 (sliceRead_of_served h),
    fun h => (gives_sliceRead_iff hl).2 (sliceRead_of_cut h),
    fun cls h => ⟨fun b => (gives_sliceRead_iff hl).2 (sliceRead_of_refused h),
      (gives_sliceWrite_iff hl).2 (sliceWrite_of_refused h)⟩,
    fun h hn => (gives_sliceWrite_iff hl).2 (sliceWrite_of_unchecked h hn), ?block,
    (gives_iff_of_act (f := fun d => d.rowCopied n key) rfl hl).2 rfl,
    (gives_iff_of_act (f := fun d => d.updSlice n fun x => { x with laneCnt := [] }) rfl hl).2 rfl,
    (gives_iff_of_act (f := fun d => d) rfl hl).2 rfl, ?scrub,
    fun hen => ⟨(gives_patrolScrub_iff hl).2 (patrolScrub_of_disabled hen),
      (gives_patrolScrub_iff hl).2 (patrolScrub_of_disabled hen)⟩,
    fun op rest hq => (gives_adderOp_iff hl).2 (adderOp_of_cons hq),
    fun hq => (gives_adderOp_iff hl).2 (adderOp_of_nil hq)⟩
  case block =>
    exact fun h hda hv => ⟨(gives_sliceWrite_iff hl).2 (sliceWrite_of_poison h hda),
      fun hx => (gives_sliceWrite_iff hl).2 (sliceWrite_of_matching h hda hv hx rfl),
      fun x hx hbad => (gives_sliceWrite_iff hl).2 (sliceWrite_of_mismatching h hda hv hx hbad)⟩
  case scrub =>
    intro x read bad hen h
    have word {last t} (ht : (if last then (d.scrubWord da flips again slot).add CORE_SLC_SCRUB_PASSES.PASSES 1 m
        else d.scrubWord da flips again slot) = t) : Gives (.patrolScrub (.word da) flips again slot last) s t :=
      (gives_patrolScrub_iff hl).2 ((patrolScrub_word hen h).trans ht)
    have left (hkeep : x.1.ue = true ∨ ¬bad) : d.scrubWord da flips again slot = read :=
      Dev.scrubWord_of_left rfl (hkeep.imp_right fun h => Bool.eq_false_iff.2 fun hb => h (bne_iff_ne.1 hb))
    exact ⟨fun hkeep => word (left hkeep), fun hue hbad => word (Dev.scrubWord_of_corrected rfl hue (bne_iff_ne.2 hbad)),
      fun hkeep => word (congrArg (·.add CORE_SLC_SCRUB_PASSES.PASSES 1 m) (left hkeep)),
      (gives_patrolScrub_iff hl).2 (patrolScrub_check hen h)⟩

end Sys2Proof.Claims
end

section
/-! The test commands of a slice controller (R276, R277), and a lane whose count has reached its limit (R249). -/
namespace Sys2Proof.Machine
open Sys2Proof Sys2Proof.Claims

variable {s : State} {d t : Dev} {f : Dev → Dev} {u ok : Bool} {n lane layer bank rowsel word res r : Nat}

/-! ### Start and completion (R277) -/

/-- The device after a test command has started that will report RESULT `res`. -/
def Dev.testStarted (d : Dev) (n res : Nat) : Dev :=
  (d.updSlice n (fun k => { k with test := some res })).wr CORE_SLC_TEST_STAT.BUSY 1 n

theorem Dev.testStart_of_busy (hb : d.bit CORE_SLC_TEST_STAT.BUSY n = true) :
    d.testStart n res f = d.wr CORE_SLC_TEST_STAT.LOST 1 n := if_pos hb

theorem Dev.testNop_of_busy (hb : d.bit CORE_SLC_TEST_STAT.BUSY n = true) :
    d.testNop n = d.wr CORE_SLC_TEST_STAT.LOST 1 n := if_pos hb

section
variable (hb : d.bit CORE_SLC_TEST_STAT.BUSY n = false)
include hb

theorem Dev.testNop_of_idle : d.testNop n = d := by simp [Dev.testNop, hb]

/-- A command that may act acts as it starts, and will report DONE. -/
theorem Dev.testStart_of_accepted (hok : ok = true) :
    d.testStart n (if ok then 1 else 2) f = f (d.testStarted n 1) := by
  simp [Dev.testStart, Dev.testStarted, hb, hok]

/-- A command that may not act will report REFUSED. -/
theorem Dev.testStart_of_refused (hok : ok = false) : d.testStart n (if ok then 1 else 2) f = d.testStarted n 2 := by
  simp [Dev.testStart, Dev.testStarted, hb, hok]

end

theorem gives_rawRd_iff (hl : Live s) : Gives (.rawRd n u layer bank rowsel word) s t ↔
    s.dev.rawRd n u layer bank rowsel word = t :=
  gives_iff_of_act (f := fun d => d.rawRd n u layer bank rowsel word) rfl hl

theorem gives_rawWr_iff (hl : Live s) : Gives (.rawWr n u layer bank rowsel word) s t ↔
    s.dev.rawWr n u layer bank rowsel word = t :=
  gives_iff_of_act (f := fun d => d.rawWr n u layer bank rowsel word) rfl hl

theorem gives_decRd_iff (hl : Live s) : Gives (.decRd n u layer bank rowsel word) s t ↔
    s.dev.decRd n u layer bank rowsel word = t :=
  gives_iff_of_act (f := fun d => d.decRd n u layer bank rowsel word) rfl hl

theorem gives_markRow_iff (hl : Live s) : Gives (.markRow n u) s t ↔ s.dev.testMarkRow n u = t :=
  gives_iff_of_act (f := fun d => d.testMarkRow n u) rfl hl

theorem gives_fixLane_iff (hl : Live s) (hlane : s.dev.rd CORE_SLC_TEST_ADDR.DA n % 2048 = lane) :
    Gives (.fixLane n) s t ↔
      s.dev.testStart n (if lane < 1152 && !s.dev.spareLaneUsed n lane then 1 else 2) (fun e => e.repairLane n lane) = t := by
  subst hlane
  exact gives_iff_of_act (f := fun d => d.fixLane n) rfl hl

theorem gives_testNop_iff (hl : Live s) : Gives (.testNop n) s t ↔ s.dev.testNop n = t :=
  gives_iff_of_act (f := fun d => d.testNop n) rfl hl

/-- R277: while BUSY is 1, whatever is written to CMD is discarded with LOST. -/
theorem gives_testLost_of_busy (hl : Live s) (hb : s.dev.bit CORE_SLC_TEST_STAT.BUSY n = true) :
    ∀ i ∈ [Instr.rawRd n u layer bank rowsel word, .rawWr n u layer bank rowsel word, .decRd n u layer bank rowsel word,
      .markRow n u, .fixLane n, .testNop n], Gives i s (s.dev.wr CORE_SLC_TEST_STAT.LOST 1 n) := by
  simp only [List.forall_mem_cons, List.not_mem_nil, false_implies, implies_true, and_true]
  exact ⟨(gives_rawRd_iff hl).2 (Dev.testStart_of_busy hb), (gives_rawWr_iff hl).2 (Dev.testStart_of_busy hb),
    (gives_decRd_iff hl).2 (Dev.testStart_of_busy hb), (gives_markRow_iff hl).2 (Dev.testStart_of_busy hb),
    (gives_fixLane_iff hl rfl).2 (Dev.testStart_of_busy hb), (gives_testNop_iff hl).2 (Dev.testNop_of_busy hb)⟩

theorem gives_testCmdDone_of_some (hl : Live s) (ht : (s.dev.slice n).test = some r) : Gives (.testCmdDone n) s
    (((s.dev.updSlice n (fun k => { k with test := none })).wr CORE_SLC_TEST_STAT.RESULT r n).wr
      CORE_SLC_TEST_STAT.BUSY 0 n) := by
  change execTestCmdDone n s = _
  simp only [execTestCmdDone, act_running _ hl, ht]

theorem gives_testCmdDone_of_none (hl : Live s) (ht : (s.dev.slice n).test = none) : Gives (.testCmdDone n) s s.dev := by
  change execTestCmdDone n s = _
  simp only [execTestCmdDone, act_running _ hl, ht]

/-! ### What a command accepts -/

/-- A spare row in use may not be written under its own number. -/
theorem rawWr_guard_eq_false (h : u = false ∨ d.spareInUse n layer bank rowsel = true) :
    (u && !d.spareInUse n layer bank rowsel) = false := by
  rcases h with h | h <;> simp [h]

theorem fixLane_guard_eq_true (hlane : lane < 1152) (hfree : d.spareLaneUsed n lane = false) :
    (decide (lane < 1152) && !d.spareLaneUsed n lane) = true := by simp [hlane, hfree]

theorem fixLane_guard_eq_false (h : 1152 ≤ lane ∨ d.spareLaneUsed n lane = true) :
    (decide (lane < 1152) && !d.spareLaneUsed n lane) = false := by
  rcases h with h | h
  · simp [Nat.not_lt.2 h]
  · simp [h]

/-! ### A failing lane (R249) -/

/-- A lane whose count has reached LANE_LIMIT takes the spare of its group, or loses the group. -/
theorem gives_laneFailing_iff (hl : Live s) (hn : n < 4096) (hlane : lane < 1152)
    (hcount : s.dev.rd CORE_SLC_CTRL.LANE_LIMIT n ≤ FMap.get (s.dev.slice n).laneCnt 0 lane) :
    Gives (.laneFailing n lane) s t ↔
      (if s.dev.spareLaneUsed n lane then
        (s.dev.updSlice n (fun k => { k with laneCnt := FMap.del k.laneCnt lane })).groupLost n lane
      else s.dev.repairLane n lane) = t := by
  change execLaneFailing n lane s = _ ↔ _
  simp [execLaneFailing, act_running _ hl, Nat.not_le.2 hn, Nat.not_le.2 hlane, Nat.not_lt.2 hcount]

end Sys2Proof.Machine

namespace Sys2Proof.Claims
open Sys2Proof Sys2Proof.Machine

/-- Settles O35: every command starts alike, and whether it is accepted decides between DONE with its effect and REFUSED;
whether the spare of its group is in use decides for a failing lane. -/
theorem sliceTestCommands : Obligations.SliceTestCommands := by
  intro s n layer bank rowsel word lane u hl d idle start e fill raw at_ put
  refine ⟨fun hi => (gives_rawRd_iff hl).2 (Dev.testStart_of_accepted hi rfl),
    fun hi hda => (gives_rawRd_iff hl).2 (Dev.testStart_of_accepted hi hda),
    fun hi hda => (gives_rawRd_iff hl).2 (Dev.testStart_of_refused hi hda),
    fun hi hs => (gives_rawWr_iff hl).2 (Dev.testStart_of_accepted hi (congrArg not hs)),
    fun hi h => (gives_rawWr_iff hl).2 (Dev.testStart_of_refused hi (rawWr_guard_eq_false h)),
    fun hi => (gives_decRd_iff hl).2 (Dev.testStart_of_accepted hi rfl),
    fun hi => (gives_decRd_iff hl).2 (Dev.testStart_of_refused hi rfl),
    fun hi hda => (gives_markRow_iff hl).2 (Dev.testStart_of_accepted hi hda),
    fun hi => (gives_markRow_iff hl).2 (Dev.testStart_of_refused hi rfl),
    fun hi hlane hs => (gives_fixLane_iff hl rfl).2 (Dev.testStart_of_accepted hi (fixLane_guard_eq_true hlane hs)),
    fun hi h => (gives_fixLane_iff hl rfl).2 (Dev.testStart_of_refused hi (fixLane_guard_eq_false h)),
    fun hi => (gives_testNop_iff hl).2 (Dev.testNop_of_idle hi),
    fun hb => gives_testLost_of_busy hl (Bool.not_eq_false _ ▸ hb),
    fun r => gives_testCmdDone_of_some hl, gives_testCmdDone_of_none hl, ?lane⟩
  case lane =>
    exact fun hn hlane hcount =>
      ⟨fun hs => (gives_laneFailing_iff hl hn hlane hcount).2 (if_neg (Bool.not_eq_true _ ▸ hs)),
        fun hs => (gives_laneFailing_iff hl hn hlane hcount).2 (if_pos hs)⟩

end Sys2Proof.Claims
end

section
/-! Samples of the layer sensors (R254-R257), the bandgaps (R554) and the flow meter (R559), the heat-balance window (R561)
and the cycle count (R562): the questions that decide each, and what stays as it is. -/
namespace Sys2Proof.Machine
open Sys2Proof Sys2Proof.Claims

variable {s : State} {d t : Dev} {n l h mv0 mv1 pulses : Nat} {temp : Option Int}
  {temps : List (Option Int × Option Int)} {rs : List (Nat × Nat)}

/-! ### Records and events: the flow and heat of the coolant stay as they are -/

section
variable (d : Dev)

@[simp] theorem Dev.dropRec_coolant : d.dropRec.flowIdle = d.flowIdle ∧ d.dropRec.heat = d.heat := ⟨rfl, rfl⟩

@[simp] theorem Dev.queueRec_coolant (r : ErrRec) :
    (d.queueRec r).flowIdle = d.flowIdle ∧ (d.queueRec r).heat = d.heat := by
  unfold Dev.queueRec; split <;> simp

@[simp] theorem Dev.err_coolant (cls op unit addr : Nat) :
    (d.err cls op unit addr).flowIdle = d.flowIdle ∧ (d.err cls op unit addr).heat = d.heat := by
  unfold Dev.err
  split
  · split <;> simp
  · simp

@[simp] theorem Dev.sendMsix_coolant (func vec : Nat) :
    (d.sendMsix func vec).flowIdle = d.flowIdle ∧ (d.sendMsix func vec).heat = d.heat := by
  unfold Dev.sendMsix; split <;> simp

@[simp] theorem Dev.irqSend_coolant (i : Nat) : (d.irqSend i).flowIdle = d.flowIdle ∧ (d.irqSend i).heat = d.heat := by
  unfold Dev.irqSend; split <;> simp

@[simp] theorem Dev.event_coolant (cls : Nat) (part : Option Nat) :
    (d.event cls part).flowIdle = d.flowIdle ∧ (d.event cls part).heat = d.heat := by
  unfold Dev.event; split <;> simp

@[simp] theorem Dev.svc_coolant (b : Nat) : (d.svc b).flowIdle = d.flowIdle ∧ (d.svc b).heat = d.heat := by
  unfold Dev.svc; dsimp only; split <;> simp

@[simp] theorem Dev.coolLost_coolant (inst : Nat) :
    (d.coolLost inst).flowIdle = d.flowIdle ∧ (d.coolLost inst).heat = d.heat := by
  simp [Dev.coolLost, Dev.sensorLost]

@[simp] theorem Dev.ite_coolLost_coolant (p : Prop) [Decidable p] (inst : Nat) :
    (if p then d.coolLost inst else d).flowIdle = d.flowIdle ∧ (if p then d.coolLost inst else d).heat = d.heat := by
  split <;> simp

@[simp] theorem Dev.coolFlag_coolant (f : Fld) (on : Bool) (opcode : Nat) :
    (d.coolFlag f on opcode).flowIdle = d.flowIdle ∧ (d.coolFlag f on opcode).heat = d.heat := by
  unfold Dev.coolFlag; split <;> simp

end

/-! ### The flow meter (R559) -/

theorem flowSample_of_disabled (hen : d.bit THM_COOL_CTRL.FLOW_EN = false) : flowSample pulses d =
    (({ d with frontS := FMap.del d.frontS 44, flowIdle := 0, heat := { d.heat with bad := true } } : Dev).wr
      THM_FLOW.ML_MIN 0).coolFlag THM_STAT.FLOW_LOW false 0x0B14 := by
  simp [flowSample, hen]

/-- A sample counts the seconds without a pulse and joins the window. -/
theorem flowSample_of_enabled (hen : d.bit THM_COOL_CTRL.FLOW_EN = true) :
    (flowSample pulses d).flowIdle = (if pulses = 0 then d.flowIdle + 1 else 0) ∧
      (flowSample pulses d).heat.pulses = d.heat.pulses + pulses ∧ (flowSample pulses d).heat.nF = d.heat.nF + 1 := by
  simp [flowSample, hen]

theorem gives_flowSample_iff (hd : s.dev.dark = false) : Gives (.flowSample pulses) s t ↔ flowSample pulses s.dev = t :=
  gives_iff_of_ctl rfl hd

/-! ### Layer sensors, logic sensors, bandgaps and thermistors (R254, R551, R554, R560) -/

theorem gives_layerTempSample_iff (hd : s.dev.dark = false) (hn : n < 4096) (hlt : l < 8) :
    Gives (.layerTempSample n l temp) s t ↔ layerSample n l temp s.dev = t := by
  rw [gives_iff_of_ctl (f := layerSample (n % 4096) (l % 8) temp) rfl hd, Nat.mod_eq_of_lt hn, Nat.mod_eq_of_lt hlt]

theorem gives_logicSensorSample_iff (hd : s.dev.dark = false) (hh : h < 2) : Gives (.logicSensorSample h temps) s t ↔
    (List.range 32).foldl (fun x k => x.logicSample h k (x.bandgap h (temps.getD k (none, none)))) s.dev = t := by
  rw [gives_iff_of_ctl (f := fun d => (List.range 32).foldl
    (fun x k => x.logicSample (h % 2) k (x.bandgap (h % 2) (temps.getD k (none, none)))) d) rfl hd, Nat.mod_eq_of_lt hh]

theorem gives_bandgapMeasure_iff (hd : s.dev.dark = false) (hh : h < 2) (h0 : mv0 < 65536) (h1 : mv1 < 65536) :
    Gives (.bandgapMeasure h mv0 mv1) s t ↔ bandgapMeasure h mv0 mv1 s.dev = t := by
  rw [gives_iff_of_ctl (f := bandgapMeasure (h % 2) (mv0 % 65536) (mv1 % 65536)) rfl hd, Nat.mod_eq_of_lt hh,
    Nat.mod_eq_of_lt h0, Nat.mod_eq_of_lt h1]

theorem gives_thermistorSample_iff (hd : s.dev.dark = false) : Gives (.thermistorSample rs) s t ↔
    thermistorSample rs s.dev = t := gives_iff_of_ctl rfl hd

/-! ### The heat-balance window (R561) -/

/-- A window that is not judged: bad, without a sample of an input, or below 300 W. -/
theorem heatBalance_of_unjudged (hbad : d.heat.bad = true ∨ d.heat.nT = 0 ∨ d.heat.nF = 0 ∨ d.heat.nP = 0 ∨
    d.heat.watts < 300 * d.heat.nP) : heatBalance d = { d with heat := Heat.init } := by
  refine if_pos ?_
  rcases hbad with h | h | h | h | h <;> simp only [h, true_or, or_true]

theorem gives_heatBalanceWindow_iff (hd : s.dev.dark = false) : Gives .heatBalanceWindow s t ↔ heatBalance s.dev = t :=
  gives_iff_of_ctl rfl hd

/-! ### The cycle count (R562) -/

theorem thermalCycle_of_none (hhot : d.dramHot = none) : thermalCycle d = d := by simp only [thermalCycle, hhot]

/-- The step of the cycle count at DRAM temperature `x`. -/
def Dev.cycleNext (d : Dev) (x : Int) : (Int × Int × Bool) × Bool × Bool :=
  let c := d.cyc.getD (x, x, false)
  cycleStep c.1 c.2.1 c.2.2 x

/-- A count of cycles leaves the throttle threshold where it is. -/
@[simp] theorem Dev.dramThrot_add_cycles (k : Nat) : (d.add THM_CYC.COUNT k).dramThrot = d.dramThrot := by
  have hkey : THM_CTRL.DRAM_LOWER.key 0 0 0 ≠ THM_CYC.COUNT.key 0 0 0 := by decide
  simp only [Dev.dramThrot, Dev.dramLower, Dev.add, Dev.rd_wr_ne _ _ _ _ _ _ _ _ _ _ hkey]

section
variable {x : Int} {k : Nat} (hhot : d.dramHot = some (x, k)) (hbig : (d.cycleNext x).2.2 = false)
include hhot hbig

/-- A second in which no cycle ended and the throttle threshold was not passed. -/
theorem thermalCycle_of_unended (hend : (d.cycleNext x).2.1 = false) (hcool : x ≤ d.dramThrot) :
    thermalCycle d = { d with cyc := some (d.cycleNext x).1 } := by
  simp only [Dev.cycleNext] at hbig hend ⊢
  simp only [thermalCycle, hhot, hbig, hend, Bool.false_eq_true, if_false]
  exact if_neg (Int.not_lt.2 hcool)

/-- A second in which a cycle ended that is not big, and the throttle threshold was not passed. -/
theorem thermalCycle_of_ended (hend : (d.cycleNext x).2.1 = true) (hcool : x ≤ d.dramThrot) :
    thermalCycle d = ({ d with cyc := some (d.cycleNext x).1 } : Dev).add THM_CYC.COUNT 1 := by
  simp only [Dev.cycleNext] at hbig hend ⊢
  simp only [thermalCycle, hhot, hbig, hend, Bool.false_eq_true, if_false, if_true, Dev.dramThrot_add_cycles]
  exact if_neg (Int.not_lt.2 hcool)

end

theorem gives_thermalCycleCount_iff (hd : s.dev.dark = false) : Gives .thermalCycleCount s t ↔ thermalCycle s.dev = t :=
  gives_iff_of_ctl rfl hd

end Sys2Proof.Machine

namespace Sys2Proof.Claims
open Sys2Proof Sys2Proof.Machine

/-- Settles O49: the verdict on the sample, the run of suspect measurements, FLOW_EN, the completeness of the window and the
step of the cycle count decide each sample. -/
theorem sensorSamples : Obligations.SensorSamples := by
  intro s n l h mv0 mv1 pulses t temps rs hd hn hlt hh h0 h1 d rates a byte b r c bad e f
  have hlayer : layerSample n l t d = if r.2.2 = true then f.sensorLost (unitCore n 7 0) l else f := by
    simp only [layerSample, Option.isNone_iff_eq_none]
    rfl
  refine ⟨fun hr => (gives_layerTempSample_iff hd hn hlt).2 (hlayer.trans (if_neg (Bool.not_eq_true _ ▸ hr))),
    fun hr => (gives_layerTempSample_iff hd hn hlt).2 (hlayer.trans (if_pos hr)),
    (gives_logicSensorSample_iff hd hh).2 rfl, ?bandgaps, (gives_thermistorSample_iff hd).2 rfl,
    fun hen => (gives_flowSample_iff hd).2 (flowSample_of_disabled hen),
    fun hen => ⟨_, (gives_flowSample_iff hd).2 rfl, flowSample_of_enabled hen⟩, ?heat,
    fun hhot => (gives_thermalCycleCount_iff hd).2 (thermalCycle_of_none hhot), ?cycles⟩
  case bandgaps =>
    intro m used run x
    have hmeasure : bandgapMeasure h mv0 mv1 d = if 16 ≤ run ∧ (!x.bit SFE_STAT.BG_SUSPECT h) = true then
        ((x.wr SFE_STAT.BG_SUSPECT 1 h).err 13 0x0B31 (unitFront h 32) 0).svc 3 else x := rfl
    exact ⟨fun hrun => (gives_bandgapMeasure_iff hd hh h0 h1).2 (hmeasure.trans (if_neg fun hs => Nat.not_le.2 hrun hs.1)),
      fun hrun hs => (gives_bandgapMeasure_iff hd hh h0 h1).2 (hmeasure.trans (if_pos ⟨hrun, congrArg not hs⟩))⟩
  case heat =>
    intro w x
    refine ⟨fun hbad => (gives_heatBalanceWindow_iff hd).2 (heatBalance_of_unjudged hbad), ?judged⟩
    case judged =>
      intro hgood hT hF hP hwatts hbal
      have hjudged : ¬(w.bad = true ∨ w.nT = 0 ∨ w.nF = 0 ∨ w.nP = 0 ∨ w.watts < 300 * w.nP ∨
          (!d.bit THM_COOL_CTRL.BAL_EN) = true) := by simp [hgood, hT, hF, hP, Nat.not_lt.2 hwatts, hbal]
      exact (gives_heatBalanceWindow_iff hd).2 (if_neg hjudged)
  case cycles =>
    intro t k hhot c r x
    exact ⟨fun hend hbig hcool => (gives_thermalCycleCount_iff hd).2 (thermalCycle_of_unended hhot hbig hend hcool),
      fun hend hbig hcool => (gives_thermalCycleCount_iff hd).2 (thermalCycle_of_ended hhot hbig hend hcool)⟩

end Sys2Proof.Claims
end

section
/-! The values that atomics leave (R295), how an atomic, an LRED or a CWB joins its core's queue (R294-R297), what it does at
its home cache (R295, R297, R298, R300), and how its result returns (R296, R300). -/
namespace Sys2Proof.Machine
open Sys2Proof Sys2Proof.Claims

variable {s : State} {d e t : Dev} {wide : Bool} {a : AtomJob} {l : Line}
  {c i g key n fn old opnd cmp cls code : Nat}

/-! ### Values (R295) -/

/-- A value that fits its width keeps its bits when it is read as two's complement. -/
theorem signed_of_lt {v : Nat} (h : v < 2 ^ n) :
    signed n v = if v < 2 ^ (n - 1) then (v : Int) else (v : Int) - 2 ^ n := by
  simp only [signed, Nat.mod_eq_of_lt h]

/-- A value that an atomic of integers leaves fits the width of its word. -/
theorem atomFn_lt (hold : old < 2 ^ (if wide then 64 else 32)) (hopnd : opnd < 2 ^ (if wide then 64 else 32)) :
    ∀ fn < 10, atomFn fn wide old opnd cmp < 2 ^ (if wide then 64 else 32)
  | 0, _ => Nat.mod_lt _ (Nat.two_pow_pos _)
  | 1, _ => iteInduction (motive := (· < _)) (fun _ => hold) fun _ => hopnd
  | 2, _ => iteInduction (motive := (· < _)) (fun _ => hopnd) fun _ => hold
  | 3, _ => Nat.lt_of_le_of_lt (Nat.min_le_left _ _) hold
  | 4, _ => Nat.max_lt.2 ⟨hold, hopnd⟩
  | 5, _ => Nat.and_lt_two_pow _ hopnd
  | 6, _ => Nat.or_lt_two_pow hold hopnd
  | 7, _ => Nat.xor_lt_two_pow hold hopnd
  | 8, _ => hopnd
  | 9, _ => iteInduction (motive := (· < _)) (fun _ => hopnd) fun _ => hold
  | n + 10, h => absurd h (Nat.not_lt.2 (Nat.le_add_left 10 n))

/-! ### Issue (R294, R295, R296) -/

/-- The instruction word of an atomic names a word of 64 bits. -/
def atomWide (w : W64) : Bool := immOf w % 2 == 1

/-- The atomic with function `fn` at the head of core `c` may issue and passes R84 and the checks of R295. -/
structure AtomReady (s : State) (c fn : Nat) : Prop where
  issues : Issues s c 0x3C fn
  fields : Unused (s.dev.instr c) true true true
  imm : immOf (s.dev.instr c) < 4
  narrow : 10 ≤ fn → atomWide (s.dev.instr c) = false

/-- The device in which `a` has joined core `c`'s atomic queue and its instruction has retired. -/
def Dev.atomJoined (d : Dev) (c : Nat) (a : AtomJob) : Dev := (d.pushAtom c a).retire c

/-- What the atomic with function `fn` at the head of core `c` takes along when it issues. -/
def atomNew (d : Dev) (c fn : Nat) : AtomJob :=
  let w := d.instr c
  let trim := fun (x : W64) => if atomWide w then x.toNat else x.toNat % 2 ^ 32
  { fn := fn, wide := atomWide w, fetch := immOf w / 2 == 1, typ := 0, rd := rdOf w, da := (d.sreg c (raOf w)).toNat,
    opnd := trim (d.sreg c (rbOf w)), cmp := trim (d.sreg c (rdOf w)), pcIdx := d.pc c, aid := 0, phase := .queued,
    poison := false, bank := d.epochBank (coreHalf c) }

/-- The address of the instruction at the head of core `c` when it is an atomic, an LRED or a CWB. -/
def atomDa (d : Dev) (c : Nat) : Nat := (d.sreg c (raOf (d.instr c))).toNat

/-- Past its checks an atomic needs an aligned address, and waits while 16 are held. -/
theorem AtomReady.atomIssue_eq (h : AtomReady s c fn) : atomIssue fn c s.dev =
    if atomDa s.dev c % (if atomWide (s.dev.instr c) then 8 else 4) ≠ 0 then s.dev.trap c 4 (atomDa s.dev c)
    else if 16 ≤ (s.dev.core c).atomq.length then s.dev else s.dev.atomJoined c (atomNew s.dev c fn) := by
  obtain ⟨hissues, hfields, himm, hnarrow⟩ := h
  have hok : (regsOk (s.dev.instr c) true true true && immBelow (s.dev.instr c) 2 &&
      !(decide (10 ≤ fn) && atomWide (s.dev.instr c))) = true := by
    rw [Bool.and_eq_true, Bool.and_eq_true, Bool.not_eq_true', Bool.and_eq_false_imp, decide_eq_true_iff]
    exact ⟨⟨regsOk_iff_unused.2 hfields, decide_eq_true himm⟩, hnarrow⟩
  unfold atomWide at hok
  rw [atomIssue, Dev.issue_of_issues hissues]
  simp only [hok, Dev.checked_true, bne_iff_ne]
  rfl

/-- The atomics are one instruction with their function as its argument. -/
theorem gives_atom_iff (hl : Live s) : ∀ r ∈ [(0, Instr.aadd c), (1, .amin c), (2, .amax c), (3, .aminu c),
    (4, .amaxu c), (5, .aand c), (6, .aor c), (7, .axor c), (8, .aswap c), (9, .acas c), (10, .afadd c), (11, .ahadd c)],
    Gives r.2 s t ↔ atomIssue r.1 c s.dev = t := by
  simp only [List.forall_mem_cons, List.not_mem_nil, false_implies, implies_true, and_true]
  and_intros <;> exact gives_iff_of_act rfl hl

/-! ### Issue of an LRED and a CWB (R297) -/

/-- LRED with an aligned target, a source of 128 good bytes in one local memory, and room in the queue. -/
theorem lredIssue_of_good (h : Issues s c 0x3D 0) (hu : Unused (s.dev.instr c) false true true)
    (himm : immOf (s.dev.instr c) < 3) (hda : atomDa s.dev c % 128 = 0)
    {b : Nat} (hb : (s.dev.sreg c (rbOf (s.dev.instr c))).toNat = b) (halign : b % 32 = 0) (hlocal : b < 2 ^ 20)
    (hspan : spanOk b 128 = true) (hgood : s.dev.lbad c b 128 = false) (hroom : (s.dev.core c).atomq.length < 16) :
    lredIssue c s.dev = (s.dev.countLce c b 128).atomJoined c
      { fn := 12, wide := false, fetch := false, typ := immOf (s.dev.instr c), rd := 0, da := atomDa s.dev c,
        opnd := s.dev.lrd c b 128, cmp := 0, pcIdx := s.dev.pc c, aid := 0, phase := .queued, poison := false,
        bank := s.dev.epochBank (coreHalf c) } := by
  subst hb
  have hok : (regsOk (s.dev.instr c) false true true && decide (immOf (s.dev.instr c) < 3)) = true := by
    simp [regsOk_iff_unused.2 hu, himm]
  unfold atomDa at hda
  rw [lredIssue, Dev.issue_of_issues h, hok, Dev.checked_true]
  simp only [hda, halign, hspan, hgood, Nat.not_le.2 hlocal, Nat.not_le.2 hroom, bne_self_eq_false, Bool.true_eq_false,
    Bool.false_eq_true, or_self, if_false]
  rfl

theorem gives_lred_iff (hl : Live s) : Gives (.lred c) s t ↔ lredIssue c s.dev = t := gives_iff_of_act rfl hl

/-- What the CWB at the head of core `c` takes along when it issues. -/
def cwbNew (d : Dev) (c : Nat) : AtomJob :=
  { fn := 13, wide := false, fetch := false, typ := 0, rd := 0, da := atomDa d c,
    opnd := (d.sreg c (rbOf (d.instr c))).toNat, cmp := 0, pcIdx := d.pc c, aid := 0, phase := .queued, poison := false,
    bank := d.epochBank (coreHalf c) }

/-- Past its checks a CWB needs an aligned address, and waits while 16 are held. -/
theorem cwbIssue_of_issues (h : Issues s c 0x3D 1) (hu : Unused (s.dev.instr c) false true true)
    (himm : immOf (s.dev.instr c) = 0) : cwbIssue c s.dev =
    if atomDa s.dev c % 128 ≠ 0 then s.dev.trap c 4 (atomDa s.dev c)
    else if 16 ≤ (s.dev.core c).atomq.length then s.dev else s.dev.atomJoined c (cwbNew s.dev c) := by
  have hok : (regsOk (s.dev.instr c) false true true && immOf (s.dev.instr c) == 0) = true := by
    simp [regsOk_iff_unused.2 hu, himm]
  rw [cwbIssue, Dev.issue_of_issues h, hok, Dev.checked_true]
  simp only [bne_iff_ne]
  rfl

theorem gives_cwb_iff (hl : Live s) : Gives (.cwb c) s t ↔ cwbIssue c s.dev = t := gives_iff_of_act rfl hl

/-! ### Execution (R295, R297, R298, R300) -/

/-- The address of a waiting atomic as its core sees it. -/
def Dev.atomSeen (d : Dev) (c : Nat) (a : AtomJob) : Nat := d.seenDa (coreHalf c) (a.da % 2 ^ 48)

/-- The cluster whose cache is the home of that address. -/
def Dev.atomHome (d : Dev) (c : Nat) (a : AtomJob) : Nat := d.atomSeen c a / 2 ^ 31 % 256

/-- Atomic `a`, at place `i` of core `c`'s queue, is the first queued for its line, and its home is in no Curtain. -/
structure AtomFree (d : Dev) (c i : Nat) (a : AtomJob) : Prop where
  held : (d.core c).atomq[i]? = some a
  queued : a.phase = .queued
  first : ((d.core c).atomq.take i).any (fun b => b.phase == .queued && b.da / 128 == a.da / 128) = false
  uncurtained : d.clusterCurtained (d.atomHome c a) = false

/-- The range of a CWB stays within its slice. -/
def AtomJob.InSlice (a : AtomJob) : Prop := a.opnd < 2 ^ 14 ∧ daOff a.da + 128 * a.opnd ≤ 2 ^ 27

/-- An access without an error meets its line. -/
theorem Dev.hitErr_of_no_error {flip op : Nat} (h : d.line g key = some l) : d.hitErr g key 0 flip op = (.present, d) := by
  simp only [Dev.hitErr, h, if_true]

/-- The bytes of a line that atomic `a` acts on. -/
def AtomJob.oldIn (a : AtomJob) (l : Line) (da : Nat) : Nat := l.data.toNat / 256 ^ (da % 128) % 256 ^ a.size

/-- A line after atomic `a` has run in it. -/
def AtomJob.newLine (a : AtomJob) (l : Line) (da : Nat) : Line :=
  { l with data := BitVec.ofNat 1024 (patch l.data.toNat (da % 128) a.size (a.apply (a.oldIn l da))), dirty := true }

/-- An atomic whose line is present runs there, its hint STREAM or LAST taken as NORMAL. -/
theorem Dev.atomInCache_of_present {da : Nat} {h : Nat × Option Nat} (hg : g = daCore da / 16)
    (hf : d.findLine g (daCore da % 16) (lineIdx da) = some key) (hline : d.line g key = some l) :
    d.atomInCache a da h 0 0 =
      ({ a.finish (a.oldIn l da) 0 with poison := (d.add CL_CACHE_HITS.HITS 1 g).poisoned da },
        (((d.add CL_CACHE_HITS.HITS 1 g).setLine g key (a.newLine l da)).touch g key
          (if 2 ≤ h.1 then 0 else h.1, h.2)).add CL_CACHE_ATOMS.OPS 1 g) := by
  subst hg
  have hcounted : (d.add CL_CACHE_HITS.HITS 1 (daCore da / 16)).line (daCore da / 16) key = some l := hline
  simp only [Dev.atomInCache, hf, Dev.hitErr_of_no_error hline, hcounted]
  rfl

/-- An atomic that is no longer queued, or whose line has waiting accesses, stays as it is. -/
theorem atomExecute_of_blocked (hi : (d.core c).atomq[i]? = some a)
    (h : a.phase ≠ .queued ∨ (a.fn ≠ 13 ∧ (d.cache (d.atomHome c a)).waits (d.atomSeen c a) = true)) :
    atomExecute c i 0 0 d = d := by
  unfold Dev.atomHome Dev.atomSeen at h
  simp only [atomExecute, hi]
  refine if_pos ?_
  rcases h with hphase | ⟨hfn, hwaits⟩
  · simp only [bne_iff_ne.2 hphase, Bool.true_or]
  · simp only [bne_iff_ne.2 hfn, hwaits, Bool.and_self, Bool.or_true]

section
variable (h : AtomFree d c i a)
include h

/-- A CWB of a range within its slice, no line of which is refused. -/
theorem atomExecute_of_cwb (hfn : a.fn = 13) (hin : a.InSlice) (hpass : d.cwbRefused a.bank c a.da a.opnd = (none, e)) :
    atomExecute c i 0 0 d = (e.cwbRun (d.atomSeen c a) a.opnd).setAtom c i (a.finish 0 0) := by
  obtain ⟨hheld, hqueued, hfirst, hopen⟩ := h
  obtain ⟨hlines, hend⟩ := hin
  unfold Dev.atomHome Dev.atomSeen at hopen
  simp only [atomExecute, hheld, hqueued, hfirst, hopen, hfn, Nat.not_le.2 hlines, Nat.not_lt.2 hend, hpass,
    bne_self_eq_false, decide_false, Bool.or_self, Bool.and_false, Bool.false_and, Bool.false_eq_true, if_false, if_true,
    Dev.atomSeen]

/-! An atomic or an LRED whose line has no waiting access. -/
variable (hfn : a.fn ≠ 13) (hwaits : (d.cache (d.atomHome c a)).waits (d.atomSeen c a) = false)
include hfn hwaits

theorem atomExecute_of_refused (hrefused : d.atomRefused a.bank c a.da a.size = (some cls, e)) :
    atomExecute c i 0 0 d = (e.setAtom c i (a.finish 0 0x601)).err cls 0x601 (e.atomUnit c a.da) a.da := by
  obtain ⟨hheld, hqueued, hfirst, hopen⟩ := h
  unfold Dev.atomHome Dev.atomSeen at hopen hwaits
  simp only [atomExecute, hheld, hqueued, hfirst, hopen, hwaits, hfn, hrefused, beq_eq_false_iff_ne.2 hfn, bne_self_eq_false,
    Bool.or_self, Bool.and_false, Bool.false_and, Bool.false_eq_true, if_false]

/-- An atomic whose line is present in an enabled home cache runs there. -/
theorem atomExecute_of_present (hpass : d.atomRefused a.bank c a.da a.size = (none, e))
    (hen : e.clusterEnabled (d.atomHome c a) = true) {r : (Nat × Option Nat) × Dev}
    (hr : e.hintOf (d.atomHome c a) (daCore (d.atomSeen c a) % 16) (lineIdx (d.atomSeen c a)) none = r)
    (hf : (r.2.findLine (d.atomHome c a) (daCore (d.atomSeen c a) % 16) (lineIdx (d.atomSeen c a))).isSome = true) :
    atomExecute c i 0 0 d = let y := r.2.atomInCache a (d.atomSeen c a) r.1 0 0; y.2.setAtom c i y.1 := by
  obtain ⟨hheld, hqueued, hfirst, hopen⟩ := h
  subst hr
  unfold Dev.atomHome Dev.atomSeen at hopen hwaits hen hf
  simp only [atomExecute, hheld, hqueued, hfirst, hopen, hwaits, hfn, hpass, hen, hf, beq_eq_false_iff_ne.2 hfn,
    bne_self_eq_false, Bool.or_self, Bool.and_false, Bool.false_and, Bool.not_true, Bool.false_eq_true, if_false,
    Dev.atomSeen, Dev.atomHome]

end

theorem gives_atomExecute_iff (hl : Live s) : Gives (.atomExecute c i 0 0) s t ↔ atomExecute c i 0 0 s.dev = t :=
  gives_iff_of_act rfl hl

/-! ### Results (R296, R300) -/

/-- The device in which atomic `a` has left core `c`'s queue, with the value that FETCH writes: all ones for a fault. -/
def Dev.atomReturned (d : Dev) (c i : Nat) (a : AtomJob) (old code : Nat) : Dev :=
  let e := d.updCore c (fun k => { k with atomq := delNth k.atomq i })
  if a.fetch then e.setS c a.rd (if code = 0 then BitVec.ofNat 64 old else BitVec.allOnes 64) else e

theorem atomResult_of_done (hi : (d.core c).atomq[i]? = some a) (hp : a.phase = .done old code) : atomResult c i d =
    if code = 0 then d.atomReturned c i a old code else (d.atomReturned c i a old code).unitFault c code a.pcIdx := by
  simp only [atomResult, hi, hp]
  rfl

theorem atomResult_of_queued (hi : (d.core c).atomq[i]? = some a) (hp : a.phase = .queued) : atomResult c i d = d := by
  simp only [atomResult, hi, hp]

theorem gives_atomResult_iff (hl : Live s) : Gives (.atomResult c i) s t ↔ atomResult c i s.dev = t :=
  gives_iff_of_act rfl hl

end Sys2Proof.Machine

namespace Sys2Proof.Claims
open Sys2Proof Sys2Proof.Machine

/-- Settles O32: each function of R295 is the operation it names, and each of these keeps the width. -/
theorem atomicValues : Obligations.AtomicValues := by
  intro wide old x cmp n sg f hold hx
  have hsg : ∀ v < 2 ^ n, signed n v = sg v := fun v => signed_of_lt
  have hless : (signed n old < signed n x) = (sg old < sg x) := by rw [hsg old hold, hsg x hx]
  exact ⟨rfl, ite_congr hless (fun _ => rfl) fun _ => rfl, ite_congr hless (fun _ => rfl) fun _ => rfl, rfl, rfl,
    Nat.testBit_and old x, Nat.testBit_or old x, Nat.testBit_xor old x, rfl,
    fun heq => if_pos heq, fun hne => if_neg hne, atomFn_lt hold hx⟩

/-- Settles O31: alignment and the room in the queue decide the issue; the phase of a waiting atomic, its turn and its
checks decide what it does at its home, and the code it ends with how its result returns. -/
theorem atomics : Obligations.Atomics := by
  refine ⟨?issue, ?execution⟩
  case issue =>
    intro s c d w da b wide room joined trim
    refine ⟨?atom, ?lred, ?cwb⟩
    case atom =>
      intro fn x hx hissues hfields himm hnarrow
      have hready : AtomReady s c fn := ⟨hissues, hfields, himm, hnarrow⟩
      have hgives {t} : Gives x s t ↔ atomIssue fn c d = t := gives_atom_iff hissues.1 _ hx
      rw [hgives, hgives, hgives, hready.atomIssue_eq]
      exact ⟨fun ha hr => (if_neg fun h => h ha).trans (if_neg (Nat.not_le.2 hr)),
        fun ha hr => (if_neg fun h => h ha).trans (if_pos (Nat.not_lt.1 hr)), fun ha => if_pos ha⟩
    case lred =>
      exact fun hissues hu himm hda halign hlocal hspan hgood hroom => (gives_lred_iff hissues.1).2
        (lredIssue_of_good hissues hu himm hda rfl halign hlocal hspan hgood hroom)
    case cwb =>
      intro hissues hu himm
      rw [gives_cwb_iff hissues.1, gives_cwb_iff hissues.1, cwbIssue_of_issues hissues hu himm]
      exact ⟨fun ha hr => (if_neg fun h => h ha).trans (if_neg (Nat.not_le.2 hr)), fun ha => if_pos ha⟩
  case execution =>
    intro s c i a hl hi d da g free done
    have hfree : free → AtomFree d c i a := fun ⟨hqueued, hfirst, hopen⟩ => ⟨hi, hqueued, hfirst, hopen⟩
    refine ⟨?refused, ?present, ?cwb, fun h => (gives_atomExecute_iff hl).2 (atomExecute_of_blocked hi h),
      fun old code hp => (gives_atomResult_iff hl).2 (atomResult_of_done hi hp),
      fun hp => (gives_atomResult_iff hl).2 (atomResult_of_queued hi hp)⟩
    case refused =>
      exact fun e cls h hfn hwaits hrefused =>
        (gives_atomExecute_iff hl).2 (atomExecute_of_refused (hfree h) hfn hwaits hrefused)
    case present =>
      intro e key l h hfn hpass hen r hf hline hg hwaits old new
      refine (gives_atomExecute_iff hl).2 ?_
      rw [atomExecute_of_present (hfree h) hfn hwaits hpass hen rfl (Option.isSome_of_eq_some hf)]
      exact congrArg (fun y : AtomJob × Dev => y.2.setAtom c i y.1) (Dev.atomInCache_of_present hg hf hline)
    case cwb =>
      exact fun e h hfn hlines hend hpass =>
        (gives_atomExecute_iff hl).2 (atomExecute_of_cwb (hfree h) hfn ⟨hlines, hend⟩ hpass)

end Sys2Proof.Claims
end

section
/-! DMA channels (R320, R326): the rules of a channel, what a halt and a completion leave beside it, and the places of the
status word. -/
namespace Sys2Proof.Machine
open Sys2Proof

variable (d : Dev) {c m n : Nat}

/-! ### A channel after an update, and after operations beside the cores -/

theorem Dev.ch_congr {d e : Dev} (h : e.cores = d.cores) (c n : Nat) : e.ch c n = d.ch c n := by
  simp only [Dev.ch, Dev.core, h]

@[simp] theorem Dev.ch_updCh_same (c n : Nat) (f : DmaCh → DmaCh) : (d.updCh c n f).ch c n = f (d.ch c n) := by
  simp [Dev.ch, Dev.updCh]

theorem Dev.ch_updCh_ne (f : DmaCh → DmaCh) (h : m ≠ n) : (d.updCh c n f).ch c m = d.ch c m := by
  simp [Dev.ch, Dev.updCh, FMap.get_upd_ne _ _ _ h]

@[simp] theorem Dev.updCh_memories (c n : Nat) (f : DmaCh → DmaCh) :
    (d.updCh c n f).mem = d.mem ∧ (d.updCh c n f).lmem = d.lmem := ⟨rfl, rfl⟩

@[simp] theorem Dev.queueRec_cores (r : ErrRec) : (d.queueRec r).cores = d.cores := by
  unfold Dev.queueRec; split <;> rfl

@[simp] theorem Dev.err_cores (cls op unit addr : Nat) : (d.err cls op unit addr).cores = d.cores := by
  unfold Dev.err
  split
  · split <;> rfl
  · simp

/-! ### Records: of the register fields, only those of dropped records change -/

/-- The fields that a dropped record changes have other keys than `g`. -/
def Fld.besideDrops (g : Fld) (u i j : Nat) : Prop :=
  g.key u i j ≠ ERR_DROP.COUNT.key 0 0 0 ∧ g.key u i j ≠ ERR_STAT.DROP_SEEN.key 0 0 0

section
variable {g : Fld} {u i j : Nat} (hg : g.besideDrops u i j)
include hg

theorem Dev.rd_dropRec : d.dropRec.rd g u i j = d.rd g u i j := by
  obtain ⟨hcount, hseen⟩ := hg
  calc d.dropRec.rd g u i j
    _ = ((d.addSat ERR_DROP.COUNT 1).wr ERR_STAT.DROP_SEEN 1).rd g u i j := rfl
    _ = d.rd g u i j := by rw [Dev.rd_wr_ne _ _ _ _ _ _ _ _ _ _ hseen, Dev.addSat, Dev.rd_wr_ne _ _ _ _ _ _ _ _ _ _ hcount]

theorem Dev.rd_queueRec (r : ErrRec) : (d.queueRec r).rd g u i j = d.rd g u i j := by
  unfold Dev.queueRec
  split
  · exact d.rd_dropRec hg
  · rfl

theorem Dev.rd_err (cls op unit addr : Nat) : (d.err cls op unit addr).rd g u i j = d.rd g u i j := by
  unfold Dev.err
  split
  · split
    · exact d.rd_dropRec hg
    · rfl
  · exact d.rd_queueRec hg _

end

/-! ### Halts (R326) -/

/-- What a halt does at its channel: HALTED and the cause, and the address at fault. -/
def Dev.haltAt (d : Dev) (c n cause addr : Nat) : Dev :=
  (d.updCh c n (fun k => { k with halted := true, cause := cause })).wr CORE_DMA_CHn_FAULT.ADDR addr c n

/-- Beyond its channel a halt only counts and records: what these keep holds after it. -/
theorem Dev.dmaHalt_of_kept {P : Dev → Prop} {cause addr : Nat} (hstart : P (d.haltAt c n cause addr))
    (hcount : ∀ e f, f = CORE_DMA_UE_CNT.COUNT ∨ f = CORE_DMA_CHK_CNT.COUNT → P e → P (e.addSat f 1 c))
    (herr : ∀ e cls op unit a, P e → P (e.err cls op unit a)) (u : Option Nat) (op : Nat) :
    P (d.dmaHalt c n cause addr u op) := by
  unfold Dev.dmaHalt
  extract_lets _ started ueCounted counted unit
  have hue : P ueCounted :=
    iteInduction (motive := P) (fun _ => hcount _ _ (.inl rfl) hstart) (fun _ => hstart)
  have hcounted : P counted :=
    iteInduction (motive := P) (fun _ => hcount _ _ (.inr rfl) hue) (fun _ => hue)
  have hdone {cls op unit : Nat} : P (counted.err cls op unit addr) := herr _ _ _ _ _ hcounted
  refine iteInduction (motive := P) (fun h3 => hdone) fun _ => iteInduction (motive := P) (fun h5 => hdone) fun _ =>
    iteInduction (motive := P) (fun h4 => ?localData) fun _ =>
      iteInduction (motive := P) (fun h6 => hcounted) fun _ => hdone
  case localData =>
    cases u with
    | some m => exact hdone
    | none => exact hcounted

section
variable (c n cause addr : Nat) (u : Option Nat) (op : Nat)

theorem Dev.dmaHalt_cores : (d.dmaHalt c n cause addr u op).cores = (d.haltAt c n cause addr).cores :=
  d.dmaHalt_of_kept (P := fun e => e.cores = (d.haltAt c n cause addr).cores) rfl (fun _ _ _ he => he)
    (fun e cls op unit a he => (e.err_cores cls op unit a).trans he) u op

@[simp] theorem Dev.dmaHalt_memories :
    (d.dmaHalt c n cause addr u op).mem = d.mem ∧ (d.dmaHalt c n cause addr u op).lmem = d.lmem :=
  d.dmaHalt_of_kept (P := fun e => e.mem = d.mem ∧ e.lmem = d.lmem) ⟨rfl, rfl⟩ (fun _ _ _ he => he)
    (fun e cls op unit a he => by simpa using he) u op

/-- The channels after a halt: HALTED and the cause at the one, nothing at the others. -/
theorem Dev.ch_dmaHalt (m : Nat) : (d.dmaHalt c n cause addr u op).ch c m =
    (d.updCh c n (fun k => { k with halted := true, cause := cause })).ch c m :=
  Dev.ch_congr (d.dmaHalt_cores c n cause addr u op) c m

/-- A halt leaves its address in FAULT.ADDR: its counters and those of dropped records have other keys. -/
theorem Dev.rd_fault_dmaHalt (haddr : addr < 2 ^ 64) :
    (d.dmaHalt c n cause addr u op).rd CORE_DMA_CHn_FAULT.ADDR c n = addr := by
  have hkeys {g : Fld} (hg : g = CORE_DMA_UE_CNT.COUNT ∨ g = CORE_DMA_CHK_CNT.COUNT) :
      CORE_DMA_CHn_FAULT.ADDR.key c n 0 ≠ g.key c 0 0 := by
    rcases hg with rfl | rfl <;> simp only [Fld.key, Reg.addr, CORE_DMA_CHn_FAULT.ADDR, CORE_DMA_CHn_FAULT,
      CORE_DMA_UE_CNT.COUNT, CORE_DMA_UE_CNT, CORE_DMA_CHK_CNT.COUNT, CORE_DMA_CHK_CNT] <;> omega
  have hdrops : CORE_DMA_CHn_FAULT.ADDR.besideDrops c n 0 := by
    simp only [Fld.besideDrops, Fld.key, Reg.addr, scopeBase, CORE_DMA_CHn_FAULT.ADDR, CORE_DMA_CHn_FAULT,
      ERR_DROP.COUNT, ERR_DROP, ERR_STAT.DROP_SEEN, ERR_STAT]
    omega
  refine d.dmaHalt_of_kept (P := fun e => e.rd CORE_DMA_CHn_FAULT.ADDR c n = addr) ?start ?count ?err u op
  case start => exact (Dev.rd_wr_same _ _ _ _ _ _).trans (Nat.mod_eq_of_lt haddr)
  case count => exact fun e f hf he => (Dev.rd_wr_ne _ _ _ _ _ _ _ _ _ _ (hkeys hf)).trans he
  case err => exact fun e cls op unit a he => (e.rd_err hdrops cls op unit a).trans he

end

/-! ### The status word (R326) -/

theorem ite_eq_toNat_mul (b : Bool) (w : Nat) : (if b then w else 0) = b.toNat * w := by cases b <;> simp

theorem testBit_of_digit {v i : Nat} {b : Bool} (h : v / 2 ^ i % 2 = b.toNat) : v.testBit i = b := by
  rw [Nat.testBit_eq_decide_div_mod_eq, h]; cases b <;> rfl

/-- The status word by its places, from the count of completions down to BUSY. -/
theorem DmaCh.status_eq (k : DmaCh) : k.status = k.doneCnt % 2 ^ 16 * 2 ^ 16 + k.q.length % 128 * 2 ^ 8 + k.cause % 16 * 16 +
    k.lost.toNat * 8 + k.poison.toNat * 4 + k.halted.toNat * 2 + (!k.q.isEmpty && !k.halted).toNat := by
  simp only [DmaCh.status, ite_eq_toNat_mul, Nat.mul_one]

theorem DmaCh.status_fields (k : DmaCh) : k.status < 2 ^ 32 ∧ k.status.testBit 0 = (!k.q.isEmpty && !k.halted) ∧
    k.status.testBit 1 = k.halted ∧ k.status.testBit 2 = k.poison ∧ k.status.testBit 3 = k.lost ∧
    k.status / 16 % 16 = k.cause % 16 ∧ k.status / 2 ^ 8 % 128 = k.q.length % 128 ∧
    k.status / 2 ^ 16 = k.doneCnt % 2 ^ 16 := by
  have hlost := k.lost.toNat_lt
  have hpoison := k.poison.toNat_lt
  have hhalted := k.halted.toNat_lt
  have hbusy := (!k.q.isEmpty && !k.halted).toNat_lt
  rw [k.status_eq]
  refine ⟨?_, testBit_of_digit ?_, testBit_of_digit ?_, testBit_of_digit ?_, testBit_of_digit ?_, ?_, ?_, ?_⟩ <;> omega

end Sys2Proof.Machine

namespace Sys2Proof.Claims
open Sys2Proof Sys2Proof.Machine

/-- Settles O16: a halt and a completion are each one update of the channel, and a halt goes on to count and record only;
each field of the status word stands at its place. -/
theorem aHaltedChannel : Obligations.AHaltedChannel := by
  intro d c n cause addr op u _ t x
  have hhalt : t.ch c n = { d.ch c n with halted := true, cause := cause } :=
    (d.ch_dmaHalt c n cause addr u op n).trans (d.ch_updCh_same c n _)
  have hdone : x.ch c n = { d.ch c n with
      q := (d.ch c n).q.drop 1, begun := false, pos := 0, doneCnt := ((d.ch c n).doneCnt + 1) % 2 ^ 16 } :=
    d.ch_updCh_same c n _
  obtain ⟨htmem, htlmem⟩ := d.dmaHalt_memories c n cause addr u op
  refine ⟨?halt, ?others, ?completion, DmaCh.status_fields, htmem, htlmem, rfl, rfl⟩
  case halt =>
    exact ⟨by rw [hhalt], by rw [hhalt], by rw [hhalt], fun haddr => d.rd_fault_dmaHalt c n cause addr u op (by omega)⟩
  case others =>
    exact fun m hm => ⟨(d.ch_dmaHalt c n cause addr u op m).trans (d.ch_updCh_ne _ hm), d.ch_updCh_ne _ hm⟩
  case completion => exact ⟨by rw [hdone], by rw [hdone], by rw [hdone]⟩

end Sys2Proof.Claims
end

section
/-! The form of a Seam frame (R363, R364): its 160 bytes by their places, and what a receiver reads in them. -/
namespace Sys2Proof.Machine
open Sys2Proof

/-! ### Numbers put together from places -/

theorem place_lt {lo hi : Nat} (a b : Nat) {c : Nat} (hlo : lo < 2 ^ a) (hhi : hi < 2 ^ b) (hc : a + b ≤ c) : lo + hi * 2 ^ a < 2 ^ c :=
  calc lo + hi * 2 ^ a
    _ < 2 ^ a + hi * 2 ^ a := Nat.add_lt_add_right hlo _
    _ = (hi + 1) * 2 ^ a := by rw [Nat.succ_mul, Nat.add_comm]
    _ ≤ 2 ^ b * 2 ^ a := Nat.mul_le_mul_right _ hhi
    _ = 2 ^ (a + b) := by rw [← Nat.pow_add, Nat.add_comm]
    _ ≤ 2 ^ c := Nat.pow_le_pow_right (by decide) hc

theorem digit_lt (v a : Nat) : v % 2 ^ a < 2 ^ a := Nat.mod_lt _ (Nat.two_pow_pos a)

theorem place_mod {lo hi : Nat} (a : Nat) (hlo : lo < 2 ^ a) : (lo + hi * 2 ^ a) % 2 ^ a = lo := by
  rw [Nat.add_mul_mod_self_right, Nat.mod_eq_of_lt hlo]

theorem place_div {lo hi : Nat} (a : Nat) (hlo : lo < 2 ^ a) : (lo + hi * 2 ^ a) / 2 ^ a = hi := by
  rw [Nat.add_mul_div_right _ _ (Nat.two_pow_pos a), Nat.div_eq_of_lt hlo, Nat.zero_add]

theorem two_pow_split {c : Nat} (a b : Nat) (hc : c = a + b) : 2 ^ c = 2 ^ a * 2 ^ b := hc ▸ Nat.pow_add 2 a b

/-! ### Bytes 0 to 155 -/

/-- C0 and C1 of a frame, side by side. -/
def SeamFrame.control (f : SeamFrame) : Nat :=
  f.seq % 2 ^ 12 + f.bank % 2 * 2 ^ 23 + f.last.toNat * 2 ^ 24 + f.first.toNat * 2 ^ 25 + f.vc % 4 * 2 ^ 26 +
    f.kind % 16 * 2 ^ 28 + (f.ack % 2 ^ 12 + f.cred % 2 ^ 16 * 2 ^ 16) * 2 ^ 32

/-- DATA, above it PHDR, above it the control words. -/
theorem SeamFrame.body_eq (f : SeamFrame) :
    f.body = f.data % 2 ^ 1024 + (f.phdr % 2 ^ 128 + f.control * 2 ^ 128) * 2 ^ 1024 := by
  have hone (b : Bool) : (if b then 1 else 0) = b.toNat := by cases b <;> rfl
  have hc0 (w : Nat) (hw : w = 128 + 1024) : (2 : Nat) ^ w = 2 ^ 128 * 2 ^ 1024 := two_pow_split 128 1024 hw
  have hc1 (w : Nat) (hw : w = 32 + (128 + 1024)) : (2 : Nat) ^ w = 2 ^ 32 * (2 ^ 128 * 2 ^ 1024) := by
    rw [two_pow_split 32 (128 + 1024) hw, hc0 _ rfl]
  have hnest (x y c c' p q r : Nat) :
      x + y * p + c * (q * p) + c' * (r * (q * p)) = x + (y + (c + c' * r) * q) * p := by
    simp only [Nat.add_mul, Nat.mul_assoc, Nat.add_assoc]
  simp only [SeamFrame.body, SeamFrame.control, hone]
  rw [hc0 1152 rfl, hc1 1184 rfl, hnest]

theorem SeamFrame.control_lt (f : SeamFrame) : f.control < 2 ^ 64 := by
  have hlast := f.last.toNat_lt
  have hfirst := f.first.toNat_lt
  unfold SeamFrame.control
  omega

theorem SeamFrame.body_lt (f : SeamFrame) : f.body < 2 ^ 1248 := by
  have hdata : f.data % 2 ^ 1024 < 2 ^ 1024 := digit_lt _ 1024
  have hphdr : f.phdr % 2 ^ 128 < 2 ^ 128 := digit_lt _ 128
  rw [f.body_eq]
  exact place_lt 1024 192 hdata (place_lt 128 64 hphdr f.control_lt (by decide)) (by decide)

/-! ### The whole frame -/

theorem seamCrc_lt (b : Nat) : seamCrc b < 2 ^ 32 := BitVec.isLt _

theorem SeamFrame.word_mod (f : SeamFrame) : f.word % 2 ^ 1248 = f.body := by
  rw [SeamFrame.word, place_mod 1248 f.body_lt]

theorem SeamFrame.word_crc (f : SeamFrame) : f.word / 2 ^ 1248 % 2 ^ 32 = seamCrc f.body := by
  rw [SeamFrame.word, place_div 1248 f.body_lt, Nat.mod_eq_of_lt (seamCrc_lt _)]

/-- The fields of a frame have the widths of R363, and its KIND is not reserved. -/
def SeamFrame.Fits (f : SeamFrame) : Prop :=
  f.kind < 4 ∧ f.vc < 4 ∧ f.bank < 2 ∧ f.seq < 4096 ∧ f.ack < 4096 ∧ f.cred < 2 ^ 16 ∧ f.data < 2 ^ 1024 ∧ f.phdr < 2 ^ 128

section
variable {f : SeamFrame} (hf : f.Fits)
include hf

theorem SeamFrame.body_data : f.body % 2 ^ 1024 = f.data := by
  obtain ⟨-, -, -, -, -, -, hdata, -⟩ := hf
  rw [f.body_eq, Nat.mod_eq_of_lt hdata, place_mod 1024 hdata]

theorem SeamFrame.body_above : f.body / 2 ^ 1024 = f.phdr + f.control * 2 ^ 128 := by
  obtain ⟨-, -, -, -, -, -, hdata, hphdr⟩ := hf
  rw [f.body_eq, Nat.mod_eq_of_lt hdata, place_div 1024 hdata, Nat.mod_eq_of_lt hphdr]

theorem SeamFrame.body_phdr : f.body / 2 ^ 1024 % 2 ^ 128 = f.phdr := by
  have habove := SeamFrame.body_above hf
  obtain ⟨-, -, -, -, -, -, -, hphdr⟩ := hf
  rw [habove, place_mod 128 hphdr]

/-- From bit 1152 on stand the control words. -/
theorem SeamFrame.body_control {j : Nat} (k : Nat) (hj : j = 1152 + k) : f.body / 2 ^ j = f.control / 2 ^ k := by
  have habove := SeamFrame.body_above hf
  obtain ⟨-, -, -, -, -, -, -, hphdr⟩ := hf
  have hsplit : (2 : Nat) ^ j = 2 ^ 1024 * (2 ^ 128 * 2 ^ k) := by
    rw [two_pow_split 1024 (128 + k) (by omega), Nat.pow_add]
  rw [hsplit, ← Nat.div_div_eq_div_mul, ← Nat.div_div_eq_div_mul, habove, place_div 128 hphdr]

/-- The control words hold their fields at their places. -/
theorem SeamFrame.control_fields : f.control / 2 ^ 28 % 16 = f.kind ∧ f.control / 2 ^ 26 % 4 = f.vc ∧
    f.control / 2 ^ 25 % 2 = f.first.toNat ∧ f.control / 2 ^ 24 % 2 = f.last.toNat ∧ f.control / 2 ^ 23 % 2 = f.bank ∧
    f.control / 2 ^ 0 % 2 ^ 12 = f.seq ∧ f.control / 2 ^ 48 % 2 ^ 16 = f.cred ∧ f.control / 2 ^ 32 % 2 ^ 12 = f.ack := by
  obtain ⟨hkind, hvc, hbank, hseq, hack, hcred, -, -⟩ := hf
  have hlast := f.last.toNat_lt
  have hfirst := f.first.toNat_lt
  unfold SeamFrame.control
  refine ⟨?_, ?_, ?_, ?_, ?_, ?_, ?_, ?_⟩ <;> omega

/-- The 160 bytes of a frame read back as the frame. -/
theorem SeamFrame.read_word : SeamFrame.read f.word = some f := by
  obtain ⟨hkind, hvc, hfirst, hlast, hbank, hseq, hcred, hack⟩ := SeamFrame.control_fields hf
  have hbit (b : Bool) : (b.toNat == 1) = b := by cases b <;> rfl
  have hgood : ¬(4 ≤ f.kind ∨ seamCrc f.body ≠ seamCrc f.body) := by
    have := hf.1
    simp only [ne_eq, not_true, or_false]
    omega
  simp only [SeamFrame.read, f.word_mod, f.word_crc, SeamFrame.body_control hf 28 rfl, SeamFrame.body_control hf 26 rfl,
    SeamFrame.body_control hf 25 rfl, SeamFrame.body_control hf 24 rfl, SeamFrame.body_control hf 23 rfl,
    SeamFrame.body_control hf 0 rfl, SeamFrame.body_control hf 48 rfl, SeamFrame.body_control hf 32 rfl,
    SeamFrame.body_data hf, SeamFrame.body_phdr hf, hkind, hvc, hfirst, hlast, hbank, hseq, hcred, hack, hbit,
    if_neg hgood]

end

end Sys2Proof.Machine
end

section
/-! SEAM_LOOP (R379): a write sets the mode of each port out of service, port by port. -/
namespace Sys2Proof.Machine
open Sys2Proof

variable {d : Dev} {g : Fld} {h v x p m r u i j : Nat}

/-! ### The digits of a word of two-bit modes -/

/-- The word `r` with its digit `x` set to `m`, as a write of SEAM_LOOP sets the mode of one port. -/
def setDigit (r x m : Nat) : Nat := r - r / 4 ^ x % 4 * 4 ^ x + m * 4 ^ x

/-- Below digit `x` stand the digits of `r`, above `m` those of `r` again. -/
theorem setDigit_eq : setDigit r x m = r % 4 ^ x + (m + r / 4 ^ x / 4 * 4) * 4 ^ x := by
  have hword : r = r % 4 ^ x + r / 4 ^ x * 4 ^ x := (Nat.mod_add_div' r _).symm
  have hdigit : r / 4 ^ x * 4 ^ x = r / 4 ^ x % 4 * 4 ^ x + r / 4 ^ x / 4 * 4 * 4 ^ x := by
    rw [← Nat.add_mul, Nat.mod_add_div']
  rw [setDigit, Nat.add_mul]
  omega

theorem setDigit_div : setDigit r x m / 4 ^ x = m + r / 4 ^ x / 4 * 4 := by
  have hpos : 0 < 4 ^ x := Nat.pow_pos (by decide)
  rw [setDigit_eq, Nat.add_mul_div_right _ _ hpos, Nat.div_eq_of_lt (Nat.mod_lt _ hpos), Nat.zero_add]

theorem digit_setDigit_same (hm : m < 4) : setDigit r x m / 4 ^ x % 4 = m := by
  rw [setDigit_div, Nat.add_mul_mod_self_right, Nat.mod_eq_of_lt hm]

theorem digit_setDigit_above (hm : m < 4) (hp : x < p) : setDigit r x m / 4 ^ p % 4 = r / 4 ^ p % 4 := by
  obtain ⟨k, rfl⟩ := Nat.exists_eq_add_of_lt hp
  have hpow : 4 ^ (x + k + 1) = 4 ^ x * 4 * 4 ^ k := by
    rw [Nat.add_right_comm, Nat.pow_add, Nat.pow_succ]
  have hshift (q : Nat) : q / 4 ^ (x + k + 1) = q / 4 ^ x / 4 / 4 ^ k := by
    rw [hpow, ← Nat.div_div_eq_div_mul, ← Nat.div_div_eq_div_mul]
  have hsame : setDigit r x m / 4 ^ x / 4 = r / 4 ^ x / 4 := by
    rw [setDigit_div, Nat.add_mul_div_right _ _ (by decide), Nat.div_eq_of_lt hm, Nat.zero_add]
  rw [hshift, hshift, hsame]

/-- A digit depends on the word below the next digit only. -/
theorem digit_mod_pow {q : Nat} (hp : p < x) : q % 4 ^ x / 4 ^ p % 4 = q / 4 ^ p % 4 := by
  obtain ⟨k, rfl⟩ := Nat.exists_eq_add_of_lt hp
  have hpow : 4 ^ (p + k + 1) = 4 ^ p * (4 * 4 ^ k) := by
    rw [Nat.add_assoc, Nat.pow_add, Nat.pow_succ, Nat.mul_comm (4 ^ k)]
  rw [hpow, Nat.mod_mul_right_div_self, Nat.mod_mul_right_mod]

theorem digit_setDigit_below (hp : p < x) : setDigit r x m / 4 ^ p % 4 = r / 4 ^ p % 4 := by
  rw [← digit_mod_pow hp, setDigit_eq, Nat.add_mul_mod_self_right, Nat.mod_mod, digit_mod_pow hp]

theorem digit_setDigit_ne (hm : m < 4) (hp : p ≠ x) : setDigit r x m / 4 ^ p % 4 = r / 4 ^ p % 4 :=
  (Nat.lt_or_gt_of_ne hp).elim digit_setDigit_below (digit_setDigit_above hm)

/-! ### The fields that a write of SEAM_LOOP changes -/

theorem creditFld_reg (vc : Nat) : (creditFld vc).reg = SEAM_Pn_CREDIT := by unfold creditFld; split <;> rfl
theorem creditFld_lo_lt (vc : Nat) : (creditFld vc).lo < 32 := by unfold creditFld; split <;> decide

/-- A port that begins to reflect gets its credits anew and changes no other field. -/
theorem Dev.rd_startReflect (hg : ∀ vc, g.key u i j ≠ (creditFld vc).key h x 0) :
    (d.startReflect h x).rd g u i j = d.rd g u i j := by
  have hcredits (vcs : List Nat) (e : Dev) :
      (vcs.foldl (fun d vc => d.wr (creditFld vc) 32 h x) e).rd g u i j = e.rd g u i j := by
    induction vcs generalizing e with
    | nil => rfl
    | cons vc vcs ih => exact (ih _).trans (Dev.rd_wr_ne _ _ _ _ _ _ _ _ _ _ (hg vc))
  unfold Dev.startReflect
  split
  · exact hcredits _ _
  · rfl

/-- The credits of a port stand above the modes and the state of the ports. -/
theorem besideCredits (vc : Nat) : SEAM_LOOP.MODE.key h 0 0 ≠ (creditFld vc).key h x 0 ∧
    SEAM_STAT.UP.key 0 0 0 ≠ (creditFld vc).key h x 0 := by
  have hlo := creditFld_lo_lt vc
  simp only [Fld.key, Reg.addr, scopeBase, creditFld_reg, SEAM_LOOP.MODE, SEAM_LOOP, SEAM_STAT.UP, SEAM_STAT, SEAM_Pn_CREDIT]
  omega

/-! ### One port -/

/-- What a write of SEAM_LOOP does at port `x`. -/
def Dev.seamLoopPort (d : Dev) (h v x : Nat) : Dev :=
  if d.loopMode h x = v / 4 ^ x % 4 then d
  else if d.portUp x then d.wr SEAM_CTRL.LOOP_LOST 1 h
  else (d.wr SEAM_LOOP.MODE (setDigit (d.rd SEAM_LOOP.MODE h) x (v / 4 ^ x % 4)) h).startReflect h x

theorem Dev.seamLoop_eq_foldl : d.seamLoop h v = (List.range 16).foldl (fun d x => d.seamLoopPort h v x) d := rfl

/-- The mode that a write of SEAM_LOOP means for a port: a port in service keeps its own. -/
def Dev.loopTarget (d : Dev) (h v p : Nat) : Nat := if d.portUp p then d.loopMode h p else v / 4 ^ p % 4

/-- The word of the modes after the step of a port that is out of service. -/
theorem Dev.loopMode_wr_setDigit (hm : m < 4) (hp : p < 16) :
    ((d.wr SEAM_LOOP.MODE (setDigit (d.rd SEAM_LOOP.MODE h) x m) h).startReflect h x).loopMode h p =
      if p = x then m else d.loopMode h p := by
  have hread : ((d.wr SEAM_LOOP.MODE (setDigit (d.rd SEAM_LOOP.MODE h) x m) h).startReflect h x).rd SEAM_LOOP.MODE h =
      setDigit (d.rd SEAM_LOOP.MODE h) x m % 4 ^ 16 := by
    rw [Dev.rd_startReflect fun vc => (besideCredits vc).1, Dev.rd_wr_same]
    rfl
  rw [Dev.loopMode, hread, digit_mod_pow hp]
  split
  case isTrue hpx => rw [hpx, digit_setDigit_same hm]
  case isFalse hpx => exact digit_setDigit_ne hm hpx

theorem Dev.portUp_seamLoopPort : (d.seamLoopPort h v x).portUp p = d.portUp p := by
  have hlost : SEAM_STAT.UP.key 0 0 0 ≠ SEAM_CTRL.LOOP_LOST.key h 0 0 := by
    simp only [Fld.key, Reg.addr, scopeBase, SEAM_STAT.UP, SEAM_STAT, SEAM_CTRL.LOOP_LOST, SEAM_CTRL]; omega
  have hmode : SEAM_STAT.UP.key 0 0 0 ≠ SEAM_LOOP.MODE.key h 0 0 := by
    simp only [Fld.key, Reg.addr, scopeBase, SEAM_STAT.UP, SEAM_STAT, SEAM_LOOP.MODE, SEAM_LOOP]; omega
  unfold Dev.seamLoopPort Dev.portUp
  split
  case isTrue => rfl
  case isFalse =>
    split
    case isTrue => rw [Dev.rd_wr_ne _ _ _ _ _ _ _ _ _ _ hlost]
    case isFalse => rw [Dev.rd_startReflect fun vc => (besideCredits vc).2, Dev.rd_wr_ne _ _ _ _ _ _ _ _ _ _ hmode]

/-- The modes after the step of a port: that port has the mode meant for it, every other port its own. -/
theorem Dev.loopMode_seamLoopPort (hp : p < 16) :
    (d.seamLoopPort h v x).loopMode h p = if p = x then d.loopTarget h v x else d.loopMode h p := by
  have hkept (heq : d.loopTarget h v x = d.loopMode h x) :
      d.loopMode h p = if p = x then d.loopTarget h v x else d.loopMode h p := by
    split
    case isTrue hpx => rw [heq, hpx]
    case isFalse => rfl
  unfold Dev.seamLoopPort
  split
  case isTrue heq => exact hkept (by rw [Dev.loopTarget, ← heq, ite_self])
  case isFalse =>
    split
    case isTrue hup =>
      have hlost : SEAM_LOOP.MODE.key h 0 0 ≠ SEAM_CTRL.LOOP_LOST.key h 0 0 := by
        simp only [Fld.key, Reg.addr, SEAM_LOOP.MODE, SEAM_LOOP, SEAM_CTRL.LOOP_LOST, SEAM_CTRL]; omega
      rw [Dev.loopMode, Dev.rd_wr_ne _ _ _ _ _ _ _ _ _ _ hlost]
      exact hkept (if_pos hup)
    case isFalse hout => rw [Dev.loopMode_wr_setDigit (Nat.mod_lt _ (by decide)) hp, Dev.loopTarget, if_neg hout]

theorem Dev.loopTarget_seamLoopPort (hp : p < 16) : (d.seamLoopPort h v x).loopTarget h v p = d.loopTarget h v p := by
  simp only [Dev.loopTarget, Dev.portUp_seamLoopPort, Dev.loopMode_seamLoopPort hp]
  by_cases hpx : p = x
  · subst hpx
    by_cases hup : d.portUp p = true
    · simp only [if_true, if_pos hup]
    · simp only [if_neg hup]
  · rw [if_neg hpx]

/-! ### All ports -/

theorem Dev.loopMode_foldl_seamLoopPort (hp : p < 16) (xs : List Nat) (d : Dev) :
    (xs.foldl (fun d x => d.seamLoopPort h v x) d).loopMode h p = if p ∈ xs then d.loopTarget h v p else d.loopMode h p := by
  induction xs generalizing d with
  | nil => rfl
  | cons x xs ih =>
    rw [List.foldl_cons, ih, Dev.loopTarget_seamLoopPort hp, Dev.loopMode_seamLoopPort hp]
    by_cases hpx : p = x <;> simp [hpx]

/-- A write of SEAM_LOOP sets the mode of each port out of service, and of no other. -/
theorem Dev.loopMode_seamLoop (hp : p < 16) :
    (d.seamLoop h v).loopMode h p = if d.portUp p then d.loopMode h p else v / 4 ^ p % 4 := by
  rw [Dev.seamLoop_eq_foldl, Dev.loopMode_foldl_seamLoopPort hp, if_pos (List.mem_range.2 hp), Dev.loopTarget]

end Sys2Proof.Machine
end

section
/-! Mesh links (R311, R312) and Seam ports (R365-R369, R379): what decides each command, and what a half does with a frame
that reaches it. -/
namespace Sys2Proof.Machine
open Sys2Proof Sys2Proof.Claims

variable {s : State} {d e t : Dev} {f : SeamFrame} {o : SeamOut} {fr : SeamSend} {ok : Bool}
  {g l h p x lag cred lane errs v noise i q : Nat}

/-! ### Flits and links (R311, R312) -/

section
variable (hx : linkExists g l = true)
include hx

theorem meshFlit_of_good : meshFlit g l true d = d.add CL_MESH_FLITS.FLITS 1 g l := by simp [meshFlit, hx]

/-- A bad flit is resent, and enough resends within 1 ms write a record. -/
theorem meshFlit_of_bad : meshFlit g l false d =
    let e := d.addSat CL_MESH_RETRY.COUNT 1 g l
    let r := e.noteResend (8 * g + l) (e.rd CL_MESH_CTRL.ERR_LIMIT g)
    if r.1 then (r.2.err 1 9 (unitCluster g 14 l) 0).wr CL_MESH_STAT.ERR_SEEN 1 g else r.2 := by simp [meshFlit, hx]

theorem meshLinkDown_of_up (hup : d.linkDown g l = false) : meshLinkDown g l d =
    let e := (d.linkGoesDown g l).err 4 9 (unitCluster g 14 l) 0
    e.cores.foldl (fun d k => d.failLost k.1 8) e := by simp [meshLinkDown, hx, hup]

end

/-- A link that does not exist or is down already does not go down. -/
theorem meshLinkDown_of_idle (h : linkExists g l = false ∨ d.linkDown g l = true) : meshLinkDown g l d = d := by
  rcases h with h | h <;> simp [meshLinkDown, h]

theorem gives_meshFlitReceive_iff (hl : Live s) : Gives (.meshFlitReceive g l ok) s t ↔ meshFlit g l ok s.dev = t :=
  gives_iff_of_act rfl hl

theorem gives_meshLinkDown_iff (hl : Live s) : Gives (.meshLinkDown g l) s t ↔ meshLinkDown g l s.dev = t :=
  gives_iff_of_act rfl hl

/-! ### New frames (R365) -/

theorem Dev.newFrame_first (hp : (d.seam p x).packet = none) : d.newFrame p x o =
    ({ kind := 1, vc := o.vc % 4, first := true, last := decide (o.flits ≤ 1), bank := d.packetBank p o.old,
       seq := (d.seam p x).txSeq, cred := 0, ack := 0, data := if o.flits = 0 then 0 else o.data % 2 ^ 1024,
       phdr := o.phdr % 2 ^ 128 },
     if o.flits ≤ 1 then none else some { vc := o.vc % 4, left := o.flits - 1, bank := d.packetBank p o.old }) := by
  simp only [Dev.newFrame, hp]

theorem Dev.newFrame_next {k : SeamPacket} (hp : (d.seam p x).packet = some k) : d.newFrame p x o =
    ({ kind := 1, vc := k.vc, first := false, last := decide (k.left ≤ 1), bank := k.bank, seq := (d.seam p x).txSeq,
       cred := 0, ack := 0, data := o.data % 2 ^ 1024, phdr := 0 },
     if k.left ≤ 1 then none else some { k with left := k.left - 1 }) := by
  simp only [Dev.newFrame, hp]

/-! ### Receipt (R366-R368) -/

/-- After a discard an end takes nothing from an IDLE frame. -/
theorem Dev.seamGood_idle (hk : f.kind = 0) :
    d.seamGood h x f = (false, if (d.seam h x).nakOut then d else d.frameC1 h x f) := by simp only [Dev.seamGood, hk]

theorem Dev.seamGood_expected (hk : f.kind = 1) (hseq : f.seq = (d.seam h x).rxExp) : d.seamGood h x f =
    (true, (d.updSeam h x (fun k =>
      { k with rxExp := (k.rxExp + 1) % 4096, nakOut := false, nakDue := false,
               rxBuf := FMap.set k.rxBuf f.vc (k.buf f.vc ++ [f]) })).frameC1 h x f) := by
  simp only [Dev.seamGood, hk, if_pos hseq]

theorem Dev.seamGood_unexpected (hk : f.kind = 1) (hseq : f.seq ≠ (d.seam h x).rxExp) : d.seamGood h x f =
    (false, d.updSeam h x (fun k => { k with nakOut := true, nakDue := k.nakDue || !k.nakOut })) := by
  simp only [Dev.seamGood, hk, if_neg hseq]

theorem Dev.seamGood_nak (hk : f.kind = 2) : d.seamGood h x f =
    (false, (if (d.seam h x).nakOut then d else d.takeCredits h (d.seamPeer h x) x f.cred).seamReplay h x f.ack) := by
  simp only [Dev.seamGood, hk]

theorem Dev.seamTake_of_unread (hr : SeamFrame.read q = none) : d.seamTake h x q = (false, d.seamDiscard h x) := by
  simp only [Dev.seamTake, hr]

/-- A NAK that names a frame of the replay buffer: the replay is counted, and enough of them within 1 ms write a record. -/
theorem Dev.seamReplay_of_held (hi : (d.seam h x).replay.findIdx? (fun f => f.frame.seq == q % 4096) = some i) :
    d.seamReplay h x q =
      let e := (d.updSeam h x (fun k => { k with replay := k.replay.drop i, pos := q % 4096 })).addSat SEAM_Pn_REPLAY.COUNT 1 h x
      let r := e.noteResend (4096 + 16 * h + x) (e.rd SEAM_CTRL.ERR_LIMIT h)
      if r.1 then (r.2.err 1 9 (unitHalf h 22 x) 0).wr SEAM_CTRL.ERR_SEEN 1 h else r.2 := by
  simp only [Dev.seamReplay, hi]

/-! ### Frames sent to a half -/

theorem seamData_of_sent (hs : d.sendData (d.seamPeer h x) x o lag cred = some (f, e)) (hg : e.seamGood h x f = (ok, t)) :
    seamData h x o lag cred d = t.noteSent (d.seamPeer h x) x f.seq ok := by
  simp only [seamData, hs, hg]

theorem seamData_of_unsent (hs : d.sendData (d.seamPeer h x) x o lag cred = none) : seamData h x o lag cred d = d := by
  simp only [seamData, hs]

theorem seamBad_data_of_sent (hs : d.sendData (d.seamPeer h x) x o lag cred = some (f, e))
    (hr : SeamFrame.read (f.word ^^^ noise) = none) :
    seamBad h x (.data o lag cred) noise d = (e.seamDiscard h x).noteSent (d.seamPeer h x) x f.seq false := by
  simp only [seamBad, hs, Dev.seamTake_of_unread hr]

theorem seamBad_data_of_unsent (hs : d.sendData (d.seamPeer h x) x o lag cred = none) :
    seamBad h x (.data o lag cred) noise d = d := by
  simp only [seamBad, hs]

theorem seamBad_idle_of_unread (hrun : d.seamRuns (d.seamPeer h x) x = true)
    (hr : SeamFrame.read ((d.idleFrame (d.seamPeer h x) x lag cred).word ^^^ noise) = none) :
    seamBad h x (.idle lag cred) noise d = d.seamDiscard h x := by
  simp only [seamBad, hrun, if_true, Dev.seamTake_of_unread hr]

theorem seamIdle_of_running (hrun : d.seamRuns (d.seamPeer h x) x = true) : seamIdle h x lag cred d =
    if (d.seam h x).nakOut then d else d.frameC1 h x (d.idleFrame (d.seamPeer h x) x lag cred) := by
  have hgood := Dev.seamGood_idle (d := d) (h := h) (x := x) (f := d.idleFrame (d.seamPeer h x) x lag cred) rfl
  simp only [seamIdle, hrun, if_true, hgood]

/-- No NAK is owed. -/
theorem seamNak_of_none_due (hdue : (d.seam (d.seamPeer h x) x).nakDue = false) : seamNak h x cred d = d := by
  simp [seamNak, hdue]

theorem seamNak_of_due (hrun : d.seamRuns (d.seamPeer h x) x = true) (hdue : (d.seam (d.seamPeer h x) x).nakDue = true) :
    seamNak h x cred d =
      let p := d.seamPeer h x
      let u := d.updSeam p x (fun k => { k with nakDue := false })
      (if (u.seam h x).nakOut then u else u.takeCredits h p x (d.credits p x cred)).seamReplay h x (d.seam p x).rxExp := by
  simp only [seamNak, hrun, hdue, Bool.and_self, if_true]
  rw [Dev.seamGood_nak rfl]
  rfl

section
variable (hl : Live s) (hh : h < 2)
include hl hh

theorem gives_seamDataFrame_iff : Gives (.seamDataFrame h x o lag cred) s t ↔ seamData h x o lag cred s.dev = t := by
  rw [gives_iff_of_act (f := seamData (h % 2) x o lag cred) rfl hl, Nat.mod_eq_of_lt hh]

theorem gives_seamBadFrame_iff : Gives (.seamBadFrame h x fr noise) s t ↔ seamBad h x fr noise s.dev = t := by
  rw [gives_iff_of_act (f := seamBad (h % 2) x fr noise) rfl hl, Nat.mod_eq_of_lt hh]

theorem gives_seamIdleFrame_iff : Gives (.seamIdleFrame h x lag cred) s t ↔ seamIdle h x lag cred s.dev = t := by
  rw [gives_iff_of_act (f := seamIdle (h % 2) x lag cred) rfl hl, Nat.mod_eq_of_lt hh]

theorem gives_seamNakFrame_iff : Gives (.seamNakFrame h x cred) s t ↔ seamNak h x cred s.dev = t := by
  rw [gives_iff_of_act (f := seamNak (h % 2) x cred) rfl hl, Nat.mod_eq_of_lt hh]

/-! ### Training, ports that go down, loop-back (R369, R379) -/

theorem gives_seamTrainFrame_iff : Gives (.seamTrainFrame h x lane errs) s t ↔ seamTrain h x lane errs s.dev = t := by
  rw [gives_iff_of_act (f := seamTrain (h % 2) x lane errs) rfl hl, Nat.mod_eq_of_lt hh]

theorem gives_seamPortDown_iff : Gives (.seamPortDown h x) s t ↔
    (if 16 ≤ x || s.dev.portDown x || !s.dev.sendsFailed x then s.dev else s.dev.seamDown h x) = t := by
  rw [gives_iff_of_act (f := fun d => if 16 ≤ x || d.portDown x || !d.sendsFailed x then d else d.seamDown (h % 2) x) rfl hl,
    Nat.mod_eq_of_lt hh]

theorem gives_seamLoopWrite_iff : Gives (.seamLoopWrite h v) s t ↔ s.dev.seamLoop h v = t := by
  rw [gives_iff_of_act (f := fun d => d.seamLoop (h % 2) v) rfl hl, Nat.mod_eq_of_lt hh]

end

theorem seamTrain_of_disabled (hen : d.bit SEAM_PRBS.EN h = false) : seamTrain h x lane errs d = d := by
  simp [seamTrain, hen]

/-- The pattern checker is on the port, whose loop-back mode has a pattern to check. -/
theorem seamTrain_of_checked (hx : x < 16) (hlane : lane < 80) (hen : d.bit SEAM_PRBS.EN h = true)
    (hport : d.rd SEAM_PRBS.PORT h = x) (hmode : d.loopMode h x = 1 ∨ d.loopMode h x = 2) : seamTrain h x lane errs d =
      let e := d.updSeam h x (fun k => { k with prbs := FMap.set k.prbs lane (FMap.get k.prbs 0 lane + errs) })
      let worst := e.rd SEAM_Pn_LANE.WORST h x
      (if FMap.get (e.seam h x).prbs 0 worst < FMap.get (e.seam h x).prbs 0 lane then e.wr SEAM_Pn_LANE.WORST lane h x
        else e).addSat SEAM_Pn_LANE.ERRS errs h x := by
  refine if_pos ?_
  rcases hmode with hmode | hmode <;> simp [hx, hlane, hen, hport, hmode]

end Sys2Proof.Machine

namespace Sys2Proof.Claims
open Sys2Proof Sys2Proof.Machine

/-- Settles O36: the places of a frame's fields decide what is read in it; its KIND and SEQ, and whether a discard came
before it, what is accepted; the resends within 1 ms, whether a record is written; the state of a link or port, whether it
goes down and whether its mode is set. -/
theorem meshAndSeamFrames : Obligations.MeshAndSeamFrames := by
  intro s g l h x lag cred lane errs v noise o fr hl hh d bad note p nak sent idle
  refine ⟨fun hx => (gives_meshFlitReceive_iff hl).2 (meshFlit_of_good hx),
    fun hx hn => (gives_meshFlitReceive_iff hl).2 ((meshFlit_of_bad hx).trans (if_neg (Bool.not_eq_true _ ▸ hn))),
    fun hx hn => (gives_meshFlitReceive_iff hl).2 ((meshFlit_of_bad hx).trans (if_pos hn)),
    fun hx hup => (gives_meshLinkDown_iff hl).2 (meshLinkDown_of_up hx hup),
    fun hidle => (gives_meshLinkDown_iff hl).2 (meshLinkDown_of_idle hidle),
    fun hkind hvc hbank hseq hack hcred hdata hphdr =>
      SeamFrame.read_word ⟨hkind, hvc, hbank, hseq, hack, hcred, hdata, hphdr⟩,
    ⟨fun hp => ?first, fun k hp => ?next⟩,
    fun hrun hn => (gives_seamIdleFrame_iff hl hh).2 ((seamIdle_of_running hrun).trans (if_neg (Bool.not_eq_true _ ▸ hn))),
    fun hrun hn => (gives_seamIdleFrame_iff hl hh).2 ((seamIdle_of_running hrun).trans (if_pos hn)),
    fun f e hs hk hseq => (gives_seamDataFrame_iff hl hh).2 (seamData_of_sent hs (Dev.seamGood_expected hk hseq)),
    fun f e hs hk hseq => (gives_seamDataFrame_iff hl hh).2 (seamData_of_sent hs (Dev.seamGood_unexpected hk hseq)),
    fun f e hs hr => (gives_seamBadFrame_iff hl hh).2 (seamBad_data_of_sent hs hr),
    fun hs => ⟨(gives_seamDataFrame_iff hl hh).2 (seamData_of_unsent hs),
      (gives_seamBadFrame_iff hl hh).2 (seamBad_data_of_unsent hs)⟩,
    fun hrun hr => (gives_seamBadFrame_iff hl hh).2 (seamBad_idle_of_unread hrun hr), ?nak,
    fun hdue => (gives_seamNakFrame_iff hl hh).2 (seamNak_of_none_due hdue),
    fun hen => (gives_seamTrainFrame_iff hl hh).2 (seamTrain_of_disabled hen),
    fun hx hlane hen hport hmode =>
      (gives_seamTrainFrame_iff hl hh).2 (seamTrain_of_checked hx hlane hen hport hmode),
    fun hx hup hfailed => (gives_seamPortDown_iff hl hh).2 (if_neg (by simp [d, hx, hup, hfailed])),
    fun hstays => (gives_seamPortDown_iff hl hh).2 (if_pos ?stays),
    (gives_seamLoopWrite_iff hl hh).2 rfl, fun p hp => Dev.loopMode_seamLoop hp⟩
  case first =>
    rw [Dev.newFrame_first hp]
    exact ⟨rfl, rfl, rfl⟩
  case next =>
    rw [Dev.newFrame_next hp]
    exact ⟨rfl, rfl, rfl, rfl, rfl⟩
  case nak =>
    intro i hrun hdue q u t hi e r
    have hreplay : seamNak h x cred d = if r.1 then (r.2.err 1 9 (unitHalf h 22 x) 0).wr SEAM_CTRL.ERR_SEEN 1 h else r.2 :=
      (seamNak_of_due hrun hdue).trans (Dev.seamReplay_of_held hi)
    exact ⟨fun hr => (gives_seamNakFrame_iff hl hh).2 (hreplay.trans (if_neg (Bool.not_eq_true _ ▸ hr))),
      fun hr => (gives_seamNakFrame_iff hl hh).2 (hreplay.trans (if_pos hr))⟩
  case stays =>
    rcases hstays with hx | hdown | hfew
    · simp [hx]
    · simp [d, hdown]
    · simp [d, hfew]

end Sys2Proof.Claims
end

section
/-! A device that CRST_N holds (R505, R507, R598, R611): what acts on it at all, and what a step is. -/
namespace Sys2Proof.Machine
open Sys2Proof Sys2Proof.Claims

variable {s t : State} {d x : Dev} {f : Dev → Dev} {i : Instr}

/-! ### The device that is held -/

/-- Every field that a cold reset does not keep is at reset, CRST_N is asserted and the clocks of the units stand. -/
def Dev.Held (d : Dev) : Prop := d = asHeld d

/-- Whatever the kept fields are, the device they make up is held. -/
theorem Dev.held_asHeld (x : Dev) : (asHeld x).Held := rfl

/-- A cold reset under CRST_N holds whatever device it meets. -/
theorem Dev.held_coldBase (d : Dev) : Dev.Held { d.coldBase with crst := true } := rfl

theorem Dev.Held.stopped (h : d.Held) : d.stopped = true := by rw [h]; rfl

theorem Dev.Held.dark (h : d.Held) : d.dark = true := by rw [h]; rfl

/-- No boot waits for a reference. -/
theorem Dev.Held.boot (h : d.Held) : d.boot = none := by rw [h]; rfl

/-- The debug port is closed: MGT_DBG_STAT.STATE is at its Reset entry. -/
theorem Dev.Held.debugOpen (h : d.Held) : d.debugOpen = false := by rw [h]; rfl

theorem Dev.Held.tick (h : d.Held) : d.tick = d := by simp [Dev.tick, h.dark]

/-! ### Changes that reach what a cold reset keeps -/

theorem Dev.Held.emit (h : d.Held) (o : Output) : (d.emit o).Held := by rw [h]; rfl

theorem Dev.Held.updTap (h : d.Held) (g : Tap → Tap) : (d.updTap g).Held := by rw [h]; rfl

theorem Dev.Held.setIr (h : d.Held) (n code : Nat) : (d.setIr n code).Held := h.updTap _

theorem Dev.Held.setDieTest (h : d.Held) (l : List Nat) : Dev.Held { d with dieTest := l } := by rw [h]; rfl

/-- The discharge runs and may release the latch of THERMTRIP_N (R542, R611). -/
theorem Dev.Held.activeDischarge (h : d.Held) (vaux : Bool) : (activeDischarge vaux d).Held := by
  rw [h]
  unfold Machine.activeDischarge
  dsimp only
  split <;> rfl

/-- No boot waits, so none goes on when a reference appears. -/
theorem Dev.Held.referenceAppears (h : d.Held) (r : Nat) : Machine.referenceAppears r d = d := by
  simp [Machine.referenceAppears, h.boot]

/-- The closed debug port makes no access. -/
theorem Dev.Held.dbgAccess (h : d.Held) (g : Dev → (Nat × Nat) × Dev) : d.dbgAccess g = d := by
  simp [Dev.dbgAccess, h.debugOpen]

/-! ### Commands -/

/-- A command that leaves a held device held. -/
def KeepsHeld (m : State → Out) : Prop := ∀ s t, s.dev.Held → m s = .next t → t.dev.Held

/-- A command that a held device stops: one under `act` by the clocks of the units, one under `ctl` by those of CTRL, MGMT
and TIME. -/
theorem keepsHeld_of_stopped {m : State → Out} (hm : ∀ p x, m ⟨p, asHeld x⟩ = .next ⟨p, asHeld x⟩) : KeepsHeld m := by
  rintro ⟨p, d⟩ t h ht
  have h : d = asHeld d := h
  rw [h] at ht
  obtain rfl := Host.Outcome.next.inj ((hm p d).symm.trans ht)
  exact d.held_asHeld

/-- What nothing stops has to keep the device held by itself. -/
theorem keepsHeld_tapStep (hf : ∀ d : Dev, d.Held → (f d).Held) : KeepsHeld (fun s => tapStep s f) := by
  rintro s _ h ⟨⟩
  exact hf _ h

/-- The commands of the test access port, CRST_N_ASSERT, the appearance of a reference and the discharge act on a held
device, and keep it held; a release of CRST_N alone ends the reset. -/
theorem exec_keepsHeld (hi : ∀ b, i ≠ .crstNRelease b) : KeepsHeld (fun s => exec i s) := by
  unfold exec
  cases i with
  | tapTestLogicReset => exact keepsHeld_tapStep fun d h => h.updTap _
  | tapIdcode | tapBypass | tapHighz => exact keepsHeld_tapStep fun d h => (h.setIr _ _).emit _
  | tapSamplePreload => exact keepsHeld_tapStep fun d h => ((h.setIr _ _).updTap _).emit _
  | tapExtest =>
    refine keepsHeld_tapStep fun d h => ?_
    split
    · exact ((h.setIr _ _).updTap _).emit _
    · exact (h.setIr _ _).emit _
  | tapClamp =>
    refine keepsHeld_tapStep fun d h => ?_
    split <;> exact (h.setIr _ _).emit _
  | tapDietest => exact keepsHeld_tapStep fun d h => (h.setIr _ _).setDieTest _
  | tapDbgUnlock =>
    refine keepsHeld_tapStep fun d h => ?_
    have h' := (h.setIr 0 0x20).setIr 1 0x20
    simpa [h'.dark] using h'
  | tapDbgAccess => exact keepsHeld_tapStep fun d h => ((h.setIr _ _).setIr _ _).emit _
  | dbgRead32 | dbgWrite32 | dbgAccessNop => exact keepsHeld_tapStep fun d h => by rw [h.dbgAccess]; exact h
  | activeDischarge vaux => exact keepsHeld_tapStep fun d h => h.activeDischarge vaux
  | referenceAppears r => exact keepsHeld_tapStep fun d h => by rw [h.referenceAppears]; exact h
  | crstNAssert => exact keepsHeld_tapStep (f := fun d => { d.coldBase with crst := true }) fun d _ => d.held_coldBase
  | crstNRelease b => exact absurd rfl (hi b)
  | _ => exact keepsHeld_of_stopped fun p x => rfl

/-- A command that is not a release leaves a device that waits for one: the rest of the queue holds none either. -/
theorem heldInReset_of_exec {rest : List Instr} (hd : s.dev.Held) (hr : ∀ b, Instr.crstNRelease b ∉ i :: rest)
    (ht : exec i { s with pending := rest } = .next t) : HeldInReset t := by
  have hi : ∀ b, i ≠ .crstNRelease b := fun b hb => hr b (hb ▸ List.mem_cons_self ..)
  obtain ⟨e, he⟩ := exec_answers i { s with pending := rest }
  have hp : t.pending = rest := by
    obtain rfl := Host.Outcome.next.inj (he.symm.trans ht)
    rfl
  exact ⟨exec_keepsHeld hi { s with pending := rest } t hd ht, fun b hb => hr b (List.mem_cons_of_mem _ (hp ▸ hb))⟩

/-! ### The tick of the time count (R578) -/

theorem Dev.tick_lit (hd : d.dark = false) (hc : d.ctrlDown = false) : d.tick = { d with now := (d.now + 1) % 2 ^ 64 } := by
  simp [Dev.tick, hd, hc]

/-- While the control channel is lost, Half B counts the nanoseconds it is alone. -/
theorem Dev.tick_alone (hd : d.dark = false) (hc : d.ctrlDown = true) (h : d.lone + 1 < 1000000) :
    d.tick = { d with now := (d.now + 1) % 2 ^ 64, lone := d.lone + 1 } := by
  simp [Dev.tick, Dev.drift1, hd, hc, h]

/-- At a million of them its count drifts by a free one of -1, 0 and 1. -/
theorem Dev.tick_drifts (hd : d.dark = false) (hc : d.ctrlDown = true) (h : 1000000 ≤ d.lone + 1) :
    ∃ v, v ≤ 2 ∧ d.tick =
      { d with now := (d.now + 1) % 2 ^ 64, skew := d.skew + (v : Nat) - 1, lone := 0, free := d.free + 1 } :=
  ⟨(d.draw 2).1.toNat % 3, by omega, by simp [Dev.tick, Dev.drift1, Dev.draw, hd, hc, Nat.not_lt.2 h]⟩

theorem Dev.tick_dark (hd : d.dark = true) : d.tick = d := by simp [Dev.tick, hd]

end Sys2Proof.Machine

namespace Sys2Proof.Claims
open Sys2Proof Sys2Proof.Machine

/-- Settles O58: no command but a release moves a held device from reset, and neither does the tick. -/
theorem heldInResetStays : Obligations.HeldInResetStays := by
  rintro s t ⟨hd, hr⟩ ht
  cases hp : s.pending with
  | nil =>
    rw [step_of_idle hp, Dev.Held.tick hd] at ht
    obtain rfl := Host.Outcome.next.inj ht
    exact ⟨hd, hr⟩
  | cons i rest => exact heldInReset_of_exec hd (hp ▸ hr) ((step_of_waiting i hp).symm.trans ht)

/-- Settles O59: the cold reset at CRST_N makes a held device from the kept fields, which a running COMMIT alone changes. -/
theorem assertingCrstHolds : Obligations.AssertingCrstHolds := by
  refine fun d rest b => ⟨fun hr => ⟨_, rfl, ⟨d.held_coldBase, hr⟩, rfl, fun hc => ?kept⟩,
    fun h => ?released, fun h => ?notAsserted⟩
  case kept =>
    have hb : d.commitStop = d := by simp [Dev.commitStop, hc]
    simp [Dev.coldBase, hb]
  case released => simp [exec, execCrstNRelease, h]
  case notAsserted => simp [exec, execCrstNRelease, h]

/-- Settles O54: a step is the command in front, and on an empty queue the tick of the time count. -/
theorem aStepRunsTheFrontCommand : Obligations.AStepRunsTheFrontCommand := by
  intro s i rest
  have idle : step { s with pending := [] } = .next { s with pending := [], dev := s.dev.tick } := rfl
  refine ⟨rfl, fun hd hc => ?together, fun hd hc hl => ?alone, fun hd hc hl => ?drifts, fun hd => ?dark⟩
  case together => rw [idle, Dev.tick_lit hd hc]
  case alone => rw [idle, Dev.tick_alone hd hc hl]
  case drifts =>
    obtain ⟨v, hv, h⟩ := Dev.tick_drifts hd hc hl
    exact ⟨v, hv, by rw [idle, h]⟩
  case dark => rw [idle, Dev.tick_dark hd]

end Sys2Proof.Claims
end

section
/-! Barrier contexts (R352, R353, R355): what a release and a break leave in the registers of both halves. -/
namespace Sys2Proof.Machine
open Sys2Proof

variable (d : Dev) {f g : Fld} {h k n gen cause : Nat} {relA relB : Bool}

/-! ### Where the fields of a context stand -/

/-- A field of BARR_STATn. -/
def Fld.inBarrStat (f : Fld) : Prop := f.reg = BARR_STATn ∧ f.lo < 32

/-- A field of BARR_CTRLn. -/
def Fld.inBarrCtrl (f : Fld) : Prop := f.reg = BARR_CTRLn ∧ f.lo < 32

theorem Fld.inBarrStat.key (hf : f.inBarrStat) : f.key h n 0 = (0x1B1004 + h * 0x100000 + n * 0x200) * 16 + f.lo := by
  simp only [Fld.key, Reg.addr, hf.1, BARR_STATn, scopeBase]; omega

theorem Fld.inBarrCtrl.key (hf : f.inBarrCtrl) : f.key h n 0 = (0x1B1000 + h * 0x100000 + n * 0x200) * 16 + f.lo := by
  simp only [Fld.key, Reg.addr, hf.1, BARR_CTRLn, scopeBase]; omega

theorem brokenSeen_key : BARR_STAT.BROKEN_SEEN.key h 0 0 = (0x1B0000 + h * 0x100000) * 16 + 31 := by
  simp only [Fld.key, Reg.addr, BARR_STAT.BROKEN_SEEN, BARR_STAT, scopeBase]; omega

theorem barrStat_state : BARR_STATn.STATE.inBarrStat := ⟨rfl, by decide⟩
theorem barrStat_cause : BARR_STATn.CAUSE.inBarrStat := ⟨rfl, by decide⟩
theorem barrStat_arrived : BARR_STATn.ARRIVED.inBarrStat := ⟨rfl, by decide⟩
theorem barrStat_gen : BARR_STATn.GEN.inBarrStat := ⟨rfl, by decide⟩
theorem barrCtrl_span : BARR_CTRLn.SPAN.inBarrCtrl := ⟨rfl, by decide⟩
theorem barrCtrl_rcuev : BARR_CTRLn.RCUEV.inBarrCtrl := ⟨rfl, by decide⟩
theorem barrCtrl_rcue : BARR_CTRLn.RCUE.inBarrCtrl := ⟨rfl, by decide⟩
theorem barrCtrl_tenant : BARR_CTRLn.TENANT.inBarrCtrl := ⟨rfl, by decide⟩

/-! ### A write of one status field -/

section
variable (hf : f.inBarrStat)
include hf

/-- The other fields of the register keep their values. -/
theorem Dev.rd_barrStat_wr_sibling (v : Nat) (hg : g.inBarrStat) (hlo : g.lo ≠ f.lo) :
    (d.wr f v h n).rd g h n = d.rd g h n :=
  d.rd_wr_ne _ _ _ _ _ _ _ _ _ (by rw [hf.key, hg.key]; omega)

/-- BARR_CTRLn keeps its value. -/
theorem Dev.rd_barrCtrl_wr_barrStat (v : Nat) (hg : g.inBarrCtrl) : (d.wr f v h n).rd g h n = d.rd g h n := by
  have hflo := hf.2
  have hglo := hg.2
  exact d.rd_wr_ne _ _ _ _ _ _ _ _ _ (by rw [hf.key, hg.key]; omega)

/-- The context of the other half keeps its status. -/
theorem Dev.rd_barrStat_wr_otherHalf (v : Nat) (hg : g.inBarrStat) (hk : k ≠ h) :
    (d.wr f v h n).rd g k n = d.rd g k n := by
  have hflo := hf.2
  have hglo := hg.2
  exact d.rd_wr_ne _ _ _ _ _ _ _ _ _ (by rw [hf.key, hg.key]; omega)

end

theorem Dev.rd_barrStat_wr_brokenSeen (v : Nat) (hg : g.inBarrStat) :
    (d.wr BARR_STAT.BROKEN_SEEN v h).rd g k n = d.rd g k n := by
  have hglo := hg.2
  exact d.rd_wr_ne _ _ _ _ _ _ _ _ _ (by rw [brokenSeen_key, hg.key]; omega)

/-! ### Sleepers -/

/-- Who sleeps on a context is read from the cores. -/
theorem Dev.barrSleepers_congr {d e : Dev} (hc : e.cores = d.cores) : e.barrSleepers h n = d.barrSleepers h n := by
  rw [Dev.barrSleepers, hc]; rfl

theorem Dev.wakeSleepers_of_none (kind : Nat) (hs : d.barrSleepers h n = []) : d.wakeSleepers h n kind = d := by
  rw [Dev.wakeSleepers, hs]; rfl

/-! ### A release on which nobody sleeps -/

/-- The context takes its new GEN and its arrivals clear. -/
def Dev.barrReleased (d : Dev) (h n gen : Nat) : Dev := (d.wr BARR_STATn.GEN gen h n).setArrivals h n [] []

/-- The signal of the release cue. -/
def Dev.barrSignal (d : Dev) (h n : Nat) : CueOp :=
  { req := .barrier, fn := 0, cue := d.rd BARR_CTRLn.RCUE h n, arg := 1, co := false, tenant := d.rd BARR_CTRLn.TENANT h n,
    part := none }

theorem Dev.rd_barrCtrl_barrReleased (hg : g.inBarrCtrl) : (d.barrReleased h n gen).rd g h n = d.rd g h n :=
  (Dev.rd_barrCtrl_wr_barrStat _ barrStat_arrived _ hg).trans (d.rd_barrCtrl_wr_barrStat barrStat_gen _ hg)

theorem Dev.barrGen_barrReleased : (d.barrReleased h n gen).barrGen h n = gen % 2 ^ 16 :=
  (Dev.rd_barrStat_wr_sibling _ barrStat_arrived _ barrStat_gen (by decide)).trans (d.rd_wr_same ..)

theorem Dev.barrGen_barrReleased_otherHalf (hk : k ≠ h) :
    (d.barrReleased h n gen).barrGen k n = d.barrGen k n :=
  (Dev.rd_barrStat_wr_otherHalf _ barrStat_arrived _ barrStat_gen hk).trans
    (d.rd_barrStat_wr_otherHalf barrStat_gen _ barrStat_gen hk)

theorem Dev.arrived_barrReleased : (d.barrReleased h n gen).rd BARR_STATn.ARRIVED h n = 0 := Dev.rd_wr_same ..

/-- A good release signals the release cue where RCUEV is 1. -/
theorem Dev.barrRelease_of_good (hs : d.barrSleepers h n = []) : d.barrRelease h n gen true =
    if d.bit BARR_CTRLn.RCUEV h n then (d.barrReleased h n gen).postCue (d.barrSignal h n) else d.barrReleased h n gen := by
  have hnone : (d.barrReleased h n gen).wakeSleepers h n 0 = d.barrReleased h n gen := Dev.wakeSleepers_of_none _ _ hs
  have hctrl {g : Fld} (hg : g.inBarrCtrl) := d.rd_barrCtrl_barrReleased (h := h) (n := n) (gen := gen) hg
  unfold Dev.barrReleased at hnone hctrl
  simp only [Dev.barrRelease, hnone, Dev.bit, hctrl barrCtrl_rcuev, hctrl barrCtrl_rcue, hctrl barrCtrl_tenant,
    Bool.not_true, Bool.false_eq_true, if_false, Dev.barrReleased, Dev.barrSignal]
  rfl

/-- Beside the operations on their way a release leaves what the new GEN and the cleared arrivals leave. -/
theorem Dev.barrRelease_eq_barrReleased (hs : d.barrSleepers h n = []) :
    d.barrRelease h n gen true =
      { d.barrReleased h n gen with
        cueOps := d.cueOps ++ if d.bit BARR_CTRLn.RCUEV h n then [d.barrSignal h n] else [] } := by
  rw [d.barrRelease_of_good hs]
  split
  · rfl
  · rw [List.append_nil]; rfl

theorem Dev.barrGen_barrRelease (hs : d.barrSleepers h n = []) :
    (d.barrRelease h n gen true).barrGen h n = gen % 2 ^ 16 := by
  rw [d.barrRelease_eq_barrReleased hs]; exact d.barrGen_barrReleased

theorem Dev.barrGen_barrRelease_otherHalf (hs : d.barrSleepers h n = []) (hk : k ≠ h) :
    (d.barrRelease h n gen true).barrGen k n = d.barrGen k n := by
  rw [d.barrRelease_eq_barrReleased hs]; exact d.barrGen_barrReleased_otherHalf hk

theorem Dev.cores_barrRelease (hs : d.barrSleepers h n = []) : (d.barrRelease h n gen true).cores = d.cores := by
  rw [d.barrRelease_eq_barrReleased hs]; rfl

/-- Both joined contexts hold the one GEN. -/
theorem Dev.barrGen_joined (hs : ∀ k, k < 2 → d.barrSleepers k n = []) (hk : k < 2) :
    ((d.barrRelease 0 n gen true).barrRelease 1 n gen true).barrGen k n = gen % 2 ^ 16 := by
  have hs0 := hs 0 (by decide)
  have hs1 : (d.barrRelease 0 n gen true).barrSleepers 1 n = [] :=
    (Dev.barrSleepers_congr (d.cores_barrRelease hs0)).trans (hs 1 (by decide))
  obtain rfl | rfl : k = 0 ∨ k = 1 := by omega
  · rw [Dev.barrGen_barrRelease_otherHalf _ hs1 (by decide), Dev.barrGen_barrRelease _ hs0]
  · exact Dev.barrGen_barrRelease _ hs1

/-! ### A break at which nobody sleeps -/

/-- The context is BROKEN with its cause, and its arrivals clear. -/
def Dev.barrBroken (d : Dev) (h n cause : Nat) : Dev :=
  (((d.wr BARR_STATn.STATE 2 h n).wr BARR_STATn.CAUSE cause h n).wr BARR_STAT.BROKEN_SEEN 1 h).setArrivals h n [] []

theorem Dev.barrBreak_of_no_sleepers (hs : d.barrSleepers h n = []) : d.barrBreak h n cause = d.barrBroken h n cause :=
  Dev.wakeSleepers_of_none (d.barrBroken h n cause) 6 hs

theorem Dev.barrState_barrBroken : (d.barrBroken h n cause).barrState h n = 2 :=
  (Dev.rd_barrStat_wr_sibling _ barrStat_arrived _ barrStat_state (by decide)).trans <|
    (Dev.rd_barrStat_wr_brokenSeen _ _ barrStat_state).trans <|
      (Dev.rd_barrStat_wr_sibling _ barrStat_cause _ barrStat_state (by decide)).trans (d.rd_wr_same ..)

theorem Dev.cause_barrBroken (hc : cause < 16) : (d.barrBroken h n cause).rd BARR_STATn.CAUSE h n = cause :=
  (Dev.rd_barrStat_wr_sibling _ barrStat_arrived _ barrStat_cause (by decide)).trans <|
    (Dev.rd_barrStat_wr_brokenSeen _ _ barrStat_cause).trans <|
      (Dev.rd_wr_same ..).trans (Nat.mod_eq_of_lt hc)

/-- The context of the other half keeps its status. -/
theorem Dev.rd_barrBroken_otherHalf (hg : g.inBarrStat) (hk : k ≠ h) :
    (d.barrBroken h n cause).rd g k n = d.rd g k n :=
  (Dev.rd_barrStat_wr_otherHalf _ barrStat_arrived _ hg hk).trans <|
    (Dev.rd_barrStat_wr_brokenSeen _ _ hg).trans <|
      (Dev.rd_barrStat_wr_otherHalf _ barrStat_cause _ hg hk).trans
        (d.rd_barrStat_wr_otherHalf barrStat_state _ hg hk)

/-! ### The decision of the barrier unit -/

theorem Dev.barrDecide_of_not_full (hf : d.barrFull h n = false) : d.barrDecide h n relA relB = d := by
  simp [Dev.barrDecide, hf]

theorem Dev.barrDecide_alone (hf : d.barrFull h n = true) (hspan : d.bit BARR_CTRLn.SPAN h n = false) :
    d.barrDecide h n relA relB = d.barrRelease h n (d.barrGen h n + 1) (if h = 0 then relA else relB) := by
  simp [Dev.barrDecide, hf, hspan]

/-- The partner joins: the decision waits for it. -/
theorem Dev.barrDecide_joined (hf : d.barrFull h n = true) (hspan : d.bit BARR_CTRLn.SPAN h n = true)
    (ho : d.barrState (1 - h) n = 1) (hospan : d.bit BARR_CTRLn.SPAN (1 - h) n = true) :
    d.barrDecide h n relA relB = if d.barrFull (1 - h) n then
      (d.barrRelease 0 n (d.barrGen 0 n + 1) relA).barrRelease 1 n (d.barrGen 0 n + 1) relB else d := by
  simp [Dev.barrDecide, hf, hspan, ho, hospan]

/-- An OPEN partner without SPAN breaks with the context. -/
theorem Dev.barrDecide_unjoined (hf : d.barrFull h n = true) (hspan : d.bit BARR_CTRLn.SPAN h n = true)
    (ho : d.barrState (1 - h) n = 1) (hospan : d.bit BARR_CTRLn.SPAN (1 - h) n = false) (hh : h < 2)
    (hs : d.barrSleepers h n = []) (hos : d.barrSleepers (1 - h) n = []) :
    d.barrDecide h n relA relB = (d.barrBroken h n 4).barrBroken (1 - h) n 4 := by
  have hstill : (d.barrBroken h n 4).barrState (1 - h) n = 1 :=
    (d.rd_barrBroken_otherHalf barrStat_state (by omega)).trans ho
  have hos' : (d.barrBroken h n 4).barrSleepers (1 - h) n = [] := hos
  simp [Dev.barrDecide, hf, hspan, ho, hospan, d.barrBreak_of_no_sleepers hs, hstill,
    Dev.barrBreak_of_no_sleepers _ hos']

end Sys2Proof.Machine

namespace Sys2Proof.Claims
open Sys2Proof Sys2Proof.Machine

/-- Settles O30: arrivals, SPAN and the partner's state decide, and a release or break writes its own context alone. -/
theorem barrierReleases : Obligations.BarrierReleases := by
  intro d h n relA relB hh _
  refine ⟨d.barrDecide_of_not_full, fun hspan hf hpar => ?parity, fun hspan hf =>
    ⟨fun ho hospan => ⟨fun hwait => ?waits, fun hof hA hB hs hos => ?joined⟩, fun ho hospan hs hos => ?unjoined⟩,
    fun hspan hf hpar hs => ?alone⟩
  case parity =>
    rw [d.barrDecide_alone hf hspan, hpar]
    rfl
  case waits => simp [d.barrDecide_joined hf hspan ho hospan, hwait]
  case joined =>
    have hall : ∀ k, k < 2 → d.barrSleepers k n = [] := fun k hk => by
      obtain rfl | rfl : k = h ∨ k = 1 - h := by omega
      exacts [hs, hos]
    rw [d.barrDecide_joined hf hspan ho hospan, if_pos hof, hA, hB]
    exact ⟨d.barrGen_joined hall (by decide),
      (d.barrGen_joined hall (by decide)).trans (d.barrGen_joined hall (by decide)).symm⟩
  case unjoined =>
    intro t k hk
    have hne : h ≠ 1 - h := by omega
    rw [show t = _ from d.barrDecide_unjoined hf hspan ho hospan hh hs hos]
    obtain rfl | rfl : k = h ∨ k = 1 - h := by simpa using hk
    · exact ⟨(Dev.rd_barrBroken_otherHalf _ barrStat_state hne).trans d.barrState_barrBroken,
        (Dev.rd_barrBroken_otherHalf _ barrStat_cause hne).trans (d.cause_barrBroken (by decide))⟩
    · exact ⟨Dev.barrState_barrBroken _, Dev.cause_barrBroken _ (by decide)⟩
  case alone =>
    rw [d.barrDecide_alone hf hspan, hpar]
    refine ⟨d.barrGen_barrRelease hs, ?_⟩
    rw [d.barrRelease_eq_barrReleased hs]
    exact ⟨FMap.get_set_same .., FMap.get_set_same .., d.arrived_barrReleased, rfl, rfl,
      fun hv => by simp [hv], fun hv => by simp [hv, Dev.barrSignal]⟩

end Sys2Proof.Claims
end

section
/-! Cue instructions at the core (R337, R338, R340), cue operations at their home cluster and what returns (R339-R343), and
the commands of CL_CUE_CMD (R356, R357). -/
namespace Sys2Proof.Machine
open Sys2Proof Sys2Proof.Claims

variable {s : State} {d e t : Dev} {c g j fn cue rd kind q n pc : Nat} {co nt x : Bool} {op : CueOp} {ops : List CueOp}
  {answers : List CueAns} {r : CueRes}

/-! ### Issue (R337, R338) -/

/-- The cue that the instruction at the head of core `c` names. -/
def cueNamed (d : Dev) (c : Nat) : Nat := (d.sreg c (raOf (d.instr c))).toNat

/-- The operation that the instruction sends. -/
def cueNew (d : Dev) (c fn : Nat) : CueOp :=
  { req := .core c (d.pc c), fn := fn, cue := cueNamed d c % 2 ^ 14,
    arg := cueArg fn (d.instr c) (d.sreg c (rbOf (d.instr c))), co := immOf (d.instr c) == 1,
    tenant := d.rd CORE_SEQ_TENANT.TENANT c, part := d.corePart c }

/-- NOTRAP of a WAIT. -/
def cueNotrap (d : Dev) (c fn : Nat) : Bool := fn == 1 && W64.bits (d.instr c) 31 31 == 1

/-- The number is a cue's, and the mesh reaches its cluster. -/
def cueReached (d : Dev) (c : Nat) : Prop :=
  cueNamed d c < 2 ^ 14 ∧ d.meshLost (coreCluster c) (cueCluster (cueNamed d c % 2 ^ 14)) = false

/-- SIGNALs of core `c` on their way. -/
def signalsPosted (d : Dev) (c : Nat) : Nat := (d.cueOps.filter (fun o => o.fn == 0 && o.req.id == 4 * c)).length

section
variable (h : Issues s c 0x38 fn) (hok : cueFieldsOk fn (s.dev.instr c) = true)
include h hok

theorem cueIssue_of_reached (hr : cueReached s.dev c) : cueIssue fn c s.dev =
    if fn = 0 then
      (if 16 ≤ signalsPosted s.dev c then s.dev else (s.dev.postCue (cueNew s.dev c fn)).retire c)
    else (s.dev.postCue (cueNew s.dev c fn)).setWait c
      (.cue fn (cueNamed s.dev c % 2 ^ 14) (rdOf (s.dev.instr c)) (cueNotrap s.dev c fn) false) := by
  obtain ⟨hlt, hmesh⟩ := hr
  unfold cueNamed at hlt hmesh
  rw [cueIssue, Dev.issue_of_issues h, hok, Dev.checked_true]
  simp only [if_neg (Nat.not_le.2 hlt), hmesh, Bool.false_eq_true, if_false]
  rfl

theorem cueIssue_of_outOfRange (hr : 2 ^ 14 ≤ cueNamed s.dev c) : cueIssue fn c s.dev =
    if fn = 0 then
      (s.dev.updCore c (fun k => { k with sigRef := k.sigRef ++ [(3, s.dev.pc c, cueNamed s.dev c % 2 ^ 14)] })).retire c
    else s.dev.cueRefuse c fn (cueNamed s.dev c % 2 ^ 14) (rdOf (s.dev.instr c)) 3 (cueNotrap s.dev c fn) := by
  unfold cueNamed at hr ⊢
  rw [cueIssue, Dev.issue_of_issues h, hok, Dev.checked_true]
  simp only [if_pos hr]
  rfl

end

/-- NOTRAP writes the kind of a refused WAIT. -/
theorem Dev.cueRefuse_notrap : d.cueRefuse c 1 cue rd kind true =
    ((d.setS c rd (BitVec.ofNat 64 kind)).retire c).endWait c := rfl

/-- Any other refusal traps, with the kind and the cue in TVAL. -/
theorem Dev.cueRefuse_trap (h : ¬(fn = 1 ∧ nt = true)) :
    d.cueRefuse c fn cue rd kind nt = d.endWaitTrap c 10 (kind * 2 ^ 24 + cue % 2 ^ 14) :=
  if_neg (by simpa using h)

/-- The round-trip instructions (R338). -/
noncomputable def cueRows (c : Nat) : List (Nat × Instr) :=
  [(1, .wait c), (2, .take c), (3, .trywait c), (4, .arm c), (5, .cread c), (6, .cinit c), (7, .cfree c)]

theorem exec_cueRows : ∀ r ∈ cueRows c, r.1 ≠ 0 ∧ exec r.2 s = act s (cueIssue r.1 c) := by
  simp only [cueRows, List.forall_mem_cons, List.not_mem_nil, false_implies, implies_true, and_true]
  exact ⟨⟨by decide, rfl⟩, ⟨by decide, rfl⟩, ⟨by decide, rfl⟩, ⟨by decide, rfl⟩, ⟨by decide, rfl⟩, ⟨by decide, rfl⟩,
    by decide, rfl⟩

theorem gives_signal_iff (hl : Live s) : Gives (.signal c) s t ↔ cueIssue 0 c s.dev = t := gives_iff_of_act rfl hl

/-! ### The way over the mesh: it is read from the registers and the retired links -/

section
variable (hlinks : e.linkRet = d.linkRet)
include hlinks

theorem Dev.linkOk_congr (g l : Nat) : e.linkOk g l = d.linkOk g l := by simp only [Dev.linkOk, hlinks]

theorem Dev.badX_congr (h y xd fuel a : Nat) : e.badX h y xd fuel a = d.badX h y xd fuel a := by
  induction fuel generalizing a with
  | zero => rfl
  | succ fuel ih => simp only [Dev.badX, Dev.linkOk_congr hlinks, ih]

theorem Dev.badY_congr (h a yd fuel y : Nat) : e.badY h a yd fuel y = d.badY h a yd fuel y := by
  induction fuel generalizing y with
  | zero => rfl
  | succ fuel ih => simp only [Dev.badY, Dev.linkOk_congr hlinks, ih]

theorem Dev.routeTo_congr (g xd yd : Nat) : e.routeTo g xd yd = d.routeTo g xd yd := by
  simp only [Dev.routeTo, Dev.badX_congr hlinks, Dev.badY_congr hlinks]

theorem Dev.seamColumn_congr (h a : Nat) : e.seamColumn h a = d.seamColumn h a := by
  simp only [Dev.seamColumn, Dev.linkOk_congr hlinks]

theorem Dev.routeEntry_congr (g n : Nat) : e.routeEntry g n = d.routeEntry g n := by
  simp only [Dev.routeEntry, Dev.routeTo_congr hlinks, Dev.seamColumn_congr hlinks]

variable (hregs : e.regs = d.regs)
include hregs

theorem Dev.routeDown_congr (fuel g t : Nat) : e.routeDown fuel g t = d.routeDown fuel g t := by
  induction fuel generalizing g with
  | zero => rfl
  | succ fuel ih =>
    simp only [Dev.routeDown, Dev.routeEntry_congr hlinks, Dev.seamColumn_congr hlinks, Dev.linkDown, Dev.rd, hregs, ih]

omit hlinks in
theorem Dev.linkDown_congr (g l : Nat) : e.linkDown g l = d.linkDown g l := by simp only [Dev.linkDown, Dev.rd, hregs]

omit hlinks in
theorem Dev.alone_congr (h : Nat) : e.alone h = d.alone h := by simp only [Dev.alone, Dev.bit, Dev.rd, hregs]

omit hlinks in
theorem Dev.reflects_congr (h a : Nat) : e.reflects h a = d.reflects h a := by
  simp only [Dev.reflects, Dev.alone_congr hregs, Dev.loopMode, Dev.rd, hregs]

theorem Dev.loopLost_congr (g t : Nat) : e.loopLost g t = d.loopLost g t := by
  delta Dev.loopLost
  rw [Dev.seamColumn_congr hlinks]
  cases d.seamColumn (g / 128) (clusterX t) with
  | none => rfl
  | some a => simp only [Dev.reflects_congr hregs, Dev.linkDown_congr hregs, Dev.routeDown_congr hlinks hregs]

theorem Dev.meshLost_congr (g t : Nat) : e.meshLost g t = d.meshLost g t := by
  simp only [Dev.meshLost, Dev.alone_congr hregs, Dev.linkDown_congr hregs, Dev.loopLost_congr hlinks hregs,
    Dev.routeDown_congr hlinks hregs]

theorem Dev.seenCue_congr (h q : Nat) : e.seenCue h q = d.seenCue h q := by
  have hr : e.reflects h = d.reflects h := funext (Dev.reflects_congr hregs h)
  simp only [Dev.seenCue, Dev.seenAt, Dev.seamColumn_congr hlinks, hr]

end

/-! ### At the cue storage (R339, R340) -/

/-- What the answer to a round trip does at the core. -/
def Dev.cueAnswered (e : Dev) (c : Nat) (op : CueOp) : CueRes → Dev
  | .value v => e.answer c (.value v)
  | .refused kind => e.answer c (.refused kind op.cue)
  | .queued => e.wr CORE_SEQ_STAT.SLEEPING 1 c
  | .nack => (e.answer c (.nack op)).wr CORE_SEQ_STAT.SLEEPING 1 c

/-- The oldest operation of all, a round trip of a core that reaches its cluster, is performed and answered. -/
theorem cueOpArrive_of_oldest (hops : d.cueOps = op :: ops) (hreq : op.req = .core c pc) (hfn : op.fn ≠ 0)
    (hmesh : d.meshLost (coreCluster c) (cueCluster op.cue) = false)
    (hp : ({ d with cueOps := ops } : Dev).cuePerform op.fn (d.seenCue (coreHalf c) op.cue) op.arg op.co op.tenant op.part
      c false = (r, e)) : cueOpArrive 0 d = e.cueAnswered c op r := by
  have hget : d.cueOps[0]? = some op := by rw [hops]; rfl
  have hrest : delNth d.cueOps 0 = ops := by rw [hops]; rfl
  have hmesh' := (Dev.meshLost_congr (d := d) (e := { d with cueOps := ops }) rfl rfl _ _).trans hmesh
  have hseen := Dev.seenCue_congr (d := d) (e := { d with cueOps := ops }) rfl rfl (coreHalf c) op.cue
  simp only [cueOpArrive, hget, List.take_zero, List.any_nil, Bool.false_eq_true, if_false, hrest, hreq,
    CueReq.coreOf, hmesh', hseen, Dev.cuePart, hp, hfn]
  cases r <;> rfl

theorem gives_cueOpArrive_iff (hl : Live s) {i : Nat} : Gives (.cueOpArrive i) s t ↔ cueOpArrive i s.dev = t :=
  gives_iff_of_act rfl hl

/-! ### What returns to a core (R340, R341, R343) -/

theorem gives_cueReply_iff (hl : Live s) : Gives (.cueReply c) s t ↔ cueReply c s.dev = t := gives_iff_of_act rfl hl
theorem gives_cueWake_iff (hl : Live s) : Gives (.cueWake c) s t ↔ cueWake c s.dev = t := gives_iff_of_act rfl hl
theorem gives_cueCancel_iff (hl : Live s) : Gives (.cueCancel c) s t ↔ cueCancel c s.dev = t := gives_iff_of_act rfl hl
theorem gives_waitNackResend_iff (hl : Live s) : Gives (.waitNackResend c) s t ↔ waitNackResend c s.dev = t :=
  gives_iff_of_act rfl hl
theorem gives_signalRefused_iff (hl : Live s) : Gives (.signalRefused c) s t ↔ signalRefused c s.dev = t :=
  gives_iff_of_act rfl hl

theorem cueReply_of_value {v : Nat} (ha : (d.core c).cueAns = .value v :: answers)
    (hw : (d.core c).wait = .cue fn cue rd nt x) :
    cueReply c d = (((d.dropAns c).setS c rd (BitVec.ofNat 64 v)).retire c).endWait c := by
  simp only [cueReply, ha, hw]

theorem cueReply_of_refused (ha : (d.core c).cueAns = .refused kind q :: answers)
    (hw : (d.core c).wait = .cue fn cue rd nt x) : cueReply c d = (d.dropAns c).cueRefuse c fn q rd kind nt := by
  simp only [cueReply, ha, hw]

theorem cueWake_of_waiting (ha : (d.core c).cueAns = .wake q n 0 :: answers)
    (hw : (d.core c).wait = .cue fn cue rd nt x) (hc : d.coreCurtained c = false) :
    cueWake c d = (((d.dropAns c).setS c rd 0).retire c).endWait c := by
  simp only [cueWake, ha, hw, hc, if_true]

/-- A core that waits no more returns what the grant took. -/
theorem cueWake_of_running (ha : (d.core c).cueAns = .wake q n 0 :: answers) (hw : (d.core c).wait = .run) :
    cueWake c d = ((d.dropAns c).setCount q ((d.dropAns c).cueCount q + n)).serveCue q := by
  simp only [cueWake, ha, hw]; rfl

theorem cueCancel_of_running (hw : (d.core c).wait = .run) : cueCancel c d = d := by simp only [cueCancel, hw]

section
variable (hw : (d.core c).wait = .cue fn cue rd nt true)
include hw

/-- The WAIT is still on its way: the cancel stays behind it. -/
theorem cueCancel_of_sent (hsent : d.cueOps.any (fun o => o.req.id == 4 * c && o.fn == 1) = true) : cueCancel c d = d := by
  simp only [cueCancel, hw, hsent, if_true]

theorem cueCancel_of_queued (hsent : d.cueOps.any (fun o => o.req.id == 4 * c && o.fn == 1) = false)
    (hq : d.waiters.any (fun w => w.core == c) = true) :
    cueCancel c d = ((d.removeWaiter c).sleep c false).setWait c .run := by
  simp only [cueCancel, hw, hsent, hq, if_true, Bool.false_eq_true, if_false]

theorem cueCancel_of_nack (hsent : d.cueOps.any (fun o => o.req.id == 4 * c && o.fn == 1) = false)
    (hq : d.waiters.any (fun w => w.core == c) = false) (ha : (d.core c).cueAns = .nack op :: answers) :
    cueCancel c d = ((d.dropAns c).sleep c false).setWait c .run := by
  simp only [cueCancel, hw, hsent, hq, ha, Bool.false_eq_true, if_false]

end

theorem waitNackResend_of_waiting (ha : (d.core c).cueAns = .nack op :: answers)
    (hw : (d.core c).wait = .cue fn cue rd nt false) : waitNackResend c d = (d.dropAns c).postCue op := by
  simp only [waitNackResend, ha, hw]

theorem signalRefused_of_cons {rest : List (Nat × Nat × Nat)} (hs : (d.core c).sigRef = (kind, pc, cue) :: rest) :
    signalRefused c d = (d.updCore c (fun k => { k with sigRef := rest })).unitTrap c
      (cue * 2 ^ 32 + (if kind = 4 then 0x801 else 0x802) * 65536 + pc) := by
  simp only [signalRefused, hs]

theorem signalRefused_of_nil (hs : (d.core c).sigRef = []) : signalRefused c d = d := by simp only [signalRefused, hs]

/-! ### Commands of the home cluster (R356, R357) -/

/-- The registers of cluster `g` are open: it is ENABLED and outside every Curtain. -/
def Dev.clusterOpen (d : Dev) (g : Nat) : Prop := d.clusterEnabled g = true ∧ d.clusterCurtained g = false

theorem Dev.clusterReg_open (h : d.clusterOpen g) (f : Dev → Dev) : d.clusterReg g f = f d := by
  simp [Dev.clusterReg, h.1, h.2]

theorem Dev.clusterReg_disabled (h : d.clusterEnabled g = false) (f : Dev → Dev) : d.clusterReg g f = d := by
  simp [Dev.clusterReg, h]

theorem Dev.clusterReg_curtained (h : d.clusterEnabled g = true) (hc : d.clusterCurtained g = true) (f : Dev → Dev) :
    d.clusterReg g f = d.wr SEQ_STAT.ACCESS_LOST 1 := by
  simp [Dev.clusterReg, h, hc]

theorem Dev.cueCmd_busy (hb : d.bit CL_CUE_STAT.BUSY g = true) (f : Dev → CueRes × Dev) :
    d.cueCmd g f = d.wr CL_CUE_STAT.CMD_LOST 1 g := if_pos hb

/-- RESULT of a command: 1, or 2 for a refusal. -/
def cueResult (g : Nat) (r : CueRes × Dev) : Dev := r.2.wr CL_CUE_STAT.RESULT (match r.1 with | .refused _ => 2 | _ => 1) g

/-- A command counts an operation and answers in RESULT. -/
theorem Dev.cueCmd_idle (hb : d.bit CL_CUE_STAT.BUSY g = false) (f : Dev → CueRes × Dev) :
    d.cueCmd g f = cueResult g (f (d.add CL_CUE_OPS.OPS 1 g)) := by
  simp only [Dev.cueCmd, hb, Bool.false_eq_true, if_false, cueResult]
  rcases f (d.add CL_CUE_OPS.OPS 1 g) with ⟨_ | _ | _ | _, e⟩ <;> rfl

section
variable (hb : d.bit CL_CUE_STAT.BUSY g = false)
include hb

theorem Dev.cueCmdInit_idle : d.cueCmdInit g j co = cueResult g
    ((d.add CL_CUE_OPS.OPS 1 g).cueHost 6 (cueNum g j) ((d.add CL_CUE_OPS.OPS 1 g).rd CL_CUE_ARG0.VALUE g +
      (d.add CL_CUE_OPS.OPS 1 g).rd CL_CUE_ARG1.LIMIT g * 2 ^ 24) co ((d.add CL_CUE_OPS.OPS 1 g).rd CL_CUE_ARG2.TENANT g)
      ((d.add CL_CUE_OPS.OPS 1 g).rd CL_CUE_ARG2.OWNER_CORE g)) := Dev.cueCmd_idle hb _

theorem Dev.cueCmdFree_idle : d.cueCmdFree g j =
    cueResult g ((d.add CL_CUE_OPS.OPS 1 g).cueHost 7 (cueNum g j) 0 false 0 0) := Dev.cueCmd_idle hb _

theorem Dev.cueCmdBreak_idle : d.cueCmdBreak g j =
    if (d.add CL_CUE_OPS.OPS 1 g).cueState (cueNum g j) = 0 then (d.add CL_CUE_OPS.OPS 1 g).wr CL_CUE_STAT.RESULT 2 g
    else ((d.add CL_CUE_OPS.OPS 1 g).breakCue (cueNum g j)).wr CL_CUE_STAT.RESULT 1 g := by
  rw [Dev.cueCmdBreak, Dev.cueCmd_idle hb]
  split <;> rfl

theorem Dev.cueCmdSignal_idle : d.cueCmdSignal g j =
    if (d.add CL_CUE_OPS.OPS 1 g).rd CL_CUE_ARG0.VALUE g = 0 then (d.add CL_CUE_OPS.OPS 1 g).wr CL_CUE_STAT.RESULT 2 g
    else cueResult g ((d.add CL_CUE_OPS.OPS 1 g).cueHost 0 (cueNum g j) ((d.add CL_CUE_OPS.OPS 1 g).rd CL_CUE_ARG0.VALUE g)
      false 0 0) := by
  rw [Dev.cueCmdSignal, Dev.cueCmd_idle hb]
  dsimp only
  split <;> rfl

theorem Dev.cueCmdNop_idle : d.cueCmdNop g = d := if_neg (by simp [hb])

end

/-- What each command of CL_CUE_CMD does where the registers of its cluster are open. -/
noncomputable def cueCmdRows (g j : Nat) (co : Bool) : List (Instr × (Dev → Dev)) :=
  [(.cueCmdInit g j co, fun d => d.cueCmdInit g j co), (.cueCmdFree g j, fun d => d.cueCmdFree g j),
    (.cueCmdBreak g j, fun d => d.cueCmdBreak g j), (.cueCmdSignal g j, fun d => d.cueCmdSignal g j),
    (.cueCmdNop g, fun d => d.cueCmdNop g)]

theorem exec_cueCmdRows : ∀ r ∈ cueCmdRows g j co, exec r.1 s = act s (fun d => d.clusterReg g r.2) := by
  simp only [cueCmdRows, List.forall_mem_cons, List.not_mem_nil, false_implies, implies_true, and_true]
  and_intros <;> rfl

/-- While BUSY every command is lost. -/
theorem cueCmdRows_busy (hb : d.bit CL_CUE_STAT.BUSY g = true) :
    ∀ r ∈ cueCmdRows g j co, r.2 d = d.wr CL_CUE_STAT.CMD_LOST 1 g := by
  simp only [cueCmdRows, List.forall_mem_cons, List.not_mem_nil, false_implies, implies_true, and_true]
  exact ⟨Dev.cueCmd_busy hb _, Dev.cueCmd_busy hb _, Dev.cueCmd_busy hb _, Dev.cueCmd_busy hb _, if_pos hb⟩

theorem gives_cueCmd_of_open {f : Dev → Dev} {i : Instr} (hl : Live s) (ho : s.dev.clusterOpen g)
    (hi : (i, f) ∈ cueCmdRows g j co) (ht : f s.dev = t) : Gives i s t :=
  (gives_iff_of_act (exec_cueCmdRows _ hi) hl).2 ((Dev.clusterReg_open ho f).trans ht)

end Sys2Proof.Machine

namespace Sys2Proof.Claims
open Sys2Proof Sys2Proof.Machine

/-- Settles O26: the cue number and the count of SIGNALs on their way decide what an instruction with good fields does. -/
theorem cueInstructions : Obligations.CueInstructions := by
  intro s c d w ra rows op reached posted
  refine ⟨fun h hok hr hlt => ?posts, fun h hok hr hfull => ?full, fun h hok hr => ?refusedSignal,
    ?roundTrip⟩
  case posts =>
    exact (gives_signal_iff h.1).2 ((cueIssue_of_reached h hok hr).trans (if_neg (Nat.not_le.2 hlt)))
  case full => exact (gives_signal_iff h.1).2 ((cueIssue_of_reached h hok hr).trans (if_pos hfull))
  case refusedSignal => exact (gives_signal_iff h.1).2 (cueIssue_of_outOfRange h hok hr)
  case roundTrip =>
    intro fn i hi h hok notrap
    obtain ⟨hfn, hexec⟩ := exec_cueRows (s := s) (fn, i) hi
    have hiff {t} : Gives i s t ↔ cueIssue fn c s.dev = t := gives_iff_of_act hexec h.1
    refine ⟨fun hr => hiff.2 ((cueIssue_of_reached h hok hr).trans (if_neg hfn)), fun hr hn => ?notrap,
      fun hr hn => ?trap⟩
    case notrap =>
      obtain ⟨rfl, -⟩ : fn = 1 ∧ _ := by simpa [notrap] using hn
      exact hiff.2 ((cueIssue_of_outOfRange h hok hr).trans ((if_neg hfn).trans
        ((congrArg _ hn).trans Dev.cueRefuse_notrap)))
    case trap =>
      refine hiff.2 ((cueIssue_of_outOfRange h hok hr).trans ((if_neg hfn).trans ?_))
      rw [Dev.cueRefuse_trap (by simp [show cueNotrap s.dev c fn = false from hn]), Nat.mod_mod]
      rfl

/-- Settles O28: the oldest operation meets no earlier one, the first answer and the wait of a core decide what it does, and
the state of the cluster and BUSY what a command does. -/
theorem cueHomes : Obligations.CueHomes := by
  refine ⟨?returns, ?commands⟩
  case returns =>
    intro s c hl d k
    refine ⟨?arrive, ?value, ?refused, ?refusedNotrap, ?wake, ?returned, ?cancel, ?noCancel, ?nack, ?signal, ?noSignal⟩
    case arrive =>
      intro op rest r e pc hops hreq hfn hmesh hp
      refine (gives_cueOpArrive_iff hl).2 ((cueOpArrive_of_oldest hops hreq hfn hmesh hp).trans ?_)
      cases r <;> rfl
    case value => exact fun v rest fn cue rd nt x ha hw => (gives_cueReply_iff hl).2 (cueReply_of_value ha hw)
    case refused =>
      exact fun kind q rest fn cue rd x ha hw =>
        (gives_cueReply_iff hl).2 ((cueReply_of_refused ha hw).trans (Dev.cueRefuse_trap (by simp)))
    case refusedNotrap =>
      exact fun kind q rest cue rd x ha hw =>
        (gives_cueReply_iff hl).2 ((cueReply_of_refused ha hw).trans Dev.cueRefuse_notrap)
    case wake => exact fun q n rest fn cue rd nt x ha hw hc => (gives_cueWake_iff hl).2 (cueWake_of_waiting ha hw hc)
    case returned => exact fun q n rest ha hw => (gives_cueWake_iff hl).2 (cueWake_of_running ha hw)
    case cancel =>
      exact fun fn cue rd nt hw => ⟨fun hs => (gives_cueCancel_iff hl).2 (cueCancel_of_sent hw hs),
        fun hs hq => (gives_cueCancel_iff hl).2 (cueCancel_of_queued hw hs hq),
        fun op rest hs hq ha => (gives_cueCancel_iff hl).2 (cueCancel_of_nack hw hs hq ha)⟩
    case noCancel => exact fun hw => (gives_cueCancel_iff hl).2 (cueCancel_of_running hw)
    case nack =>
      exact fun op rest fn cue rd nt ha hw => (gives_waitNackResend_iff hl).2 (waitNackResend_of_waiting ha hw)
    case signal => exact fun kind pc cue rest hs => (gives_signalRefused_iff hl).2 (signalRefused_of_cons hs)
    case noSignal => exact fun hs => (gives_signalRefused_iff hl).2 (signalRefused_of_nil hs)
  case commands =>
    intro s g j co hl d e cue open' idle rows init result
    have hresult : ∀ r, cueResult g r = result r := by rintro ⟨_ | _ | _ | _, e⟩ <;> rfl
    have hrows : ∀ i ∈ rows, ∃ f, (i, f) ∈ cueCmdRows g j co := by simp [rows, cueCmdRows]
    have isOpen {i f t} (ho : open') (hi : (i, f) ∈ cueCmdRows g j co) (ht : f d = t) : Gives i s t :=
      gives_cueCmd_of_open hl ho hi ht
    refine ⟨fun ⟨ho, hb⟩ => isOpen (f := fun d => d.cueCmdInit g j co) ho (by simp [cueCmdRows])
        ((Dev.cueCmdInit_idle hb).trans (hresult _)),
      fun ⟨ho, hb⟩ => isOpen (f := fun d => d.cueCmdFree g j) ho (by simp [cueCmdRows])
        ((Dev.cueCmdFree_idle hb).trans (hresult _)),
      fun ⟨ho, hb⟩ hs => isOpen (f := fun d => d.cueCmdBreak g j) ho (by simp [cueCmdRows])
        ((Dev.cueCmdBreak_idle hb).trans (if_neg hs)),
      fun ⟨ho, hb⟩ hs => isOpen (f := fun d => d.cueCmdBreak g j) ho (by simp [cueCmdRows])
        ((Dev.cueCmdBreak_idle hb).trans (if_pos hs)),
      fun ⟨ho, hb⟩ hv => isOpen (f := fun d => d.cueCmdSignal g j) ho (by simp [cueCmdRows])
        ((Dev.cueCmdSignal_idle hb).trans ((if_neg hv).trans (hresult _))),
      fun ⟨ho, hb⟩ hv => isOpen (f := fun d => d.cueCmdSignal g j) ho (by simp [cueCmdRows])
        ((Dev.cueCmdSignal_idle hb).trans (if_pos hv)),
      fun ⟨ho, hb⟩ => isOpen (f := fun d => d.cueCmdNop g) ho (by simp [cueCmdRows]) (Dev.cueCmdNop_idle hb),
      fun ho hb i hi => ?busy, fun hdis i hi => ?disabled, fun hen hcur i hi => ?curtained⟩
    case busy =>
      obtain ⟨f, hf⟩ := hrows i hi
      exact isOpen ho hf (cueCmdRows_busy hb _ hf)
    case disabled =>
      obtain ⟨f, hf⟩ := hrows i hi
      exact (gives_iff_of_act (exec_cueCmdRows _ hf) hl).2 (Dev.clusterReg_disabled hdis f)
    case curtained =>
      obtain ⟨f, hf⟩ := hrows i hi
      exact (gives_iff_of_act (exec_cueCmdRows _ hf) hl).2 (Dev.clusterReg_curtained hen hcur f)

end Sys2Proof.Claims
end

section
/-! Barrier instructions (R351, R355), arrivals at the barrier unit (R352, R355) and writes of BARR_CTRLn (R350). -/
namespace Sys2Proof.Machine
open Sys2Proof Sys2Proof.Claims

variable {s : State} {d t : Dev} {c h n v cl fn kind : Nat} {relA relB : Bool}

/-! ### Instructions past the field checks (R351) -/

/-- The instruction at the head of core `c` passes its checks: it acts on the context that RA names. -/
theorem barrIssue_of_issues {ok : W64 → Bool} (hi : Issues s c 0x39 fn) (hok : ok (s.dev.instr c) = true)
    (f : Dev → W64 → Nat → Dev) :
    barrIssue fn c ok f s.dev = f s.dev (s.dev.instr c) (barrCtx s.dev c (s.dev.instr c)) := by
  rw [barrIssue, Dev.issue_of_issues hi, hok, Dev.checked_true]

theorem gives_iff_of_barrIssue {i : Instr} {ok : W64 → Bool} {f : Dev → W64 → Nat → Dev} (hi : Issues s c 0x39 fn)
    (hok : ok (s.dev.instr c) = true) (hx : exec i s = act s (barrIssue fn c ok f)) :
    Gives i s t ↔ f s.dev (s.dev.instr c) (barrCtx s.dev c (s.dev.instr c)) = t := by
  rw [gives_iff_of_act hx hi.1, barrIssue_of_issues hi hok]

/-- The immediate of BSYNC and BWAIT is good when it holds NOTRAP at most. -/
theorem notrapOnly_of_unused {w : W64} {rb : Bool} (hu : Unused w true true rb) (himm : immOf w % 2 ^ 31 = 0) :
    (regsOk w true true rb && notrapOnly w) = true := by
  rw [regsOk_iff_unused.2 hu, notrapOnly, himm]; rfl

/-- BARRIVE and BREAD have no immediate. -/
theorem noImmediate_of_unused {w : W64} {rb : Bool} (hu : Unused w true true rb) (himm : immOf w = 0) :
    (regsOk w true true rb && immOf w == 0) = true := by
  simp [regsOk_iff_unused.2 hu, himm]

/-- A refusal writes its kind with NOTRAP, and traps without. -/
theorem Dev.barrRefuse_eq {w : W64} (hn : n < 64) : d.barrRefuse c n (rdOf w) kind (notrapOf w) =
    if W64.bits w 31 31 = 1 then ((d.setS c (rdOf w) (BitVec.ofNat 64 kind)).retire c).endWait c
    else d.endWaitTrap c 10 (kind * 2 ^ 24 + 2 ^ 23 + n) := by
  simp [Dev.barrRefuse, notrapOf, barrTval, Nat.mod_eq_of_lt hn]

theorem barrCtx_lt (d : Dev) (c : Nat) (w : W64) : barrCtx d c w < 64 := Nat.mod_lt _ (by decide)

/-! ### Arrivals (R352, R355) -/

/-- The arrival of a member cluster of an OPEN context whose cores have all arrived, and which has not been counted. -/
theorem barrierArrival_of_arrived {par : BusParity} (hopen : d.barrState h n = 1) (hmem : d.barrCluster h n cl = true)
    (hnew : cl ∉ d.arrivedCls h n)
    (hall : (d.barrCoresOf h n cl).all (fun k => (d.arrivedCores h n).contains k) = true) :
    barrierArrival h n cl par d = if !par.arrival then d.barrBusErr h n
      else (d.setArrivals h n (d.arrivedCores h n) (d.arrivedCls h n ++ [cl])).barrDecide h n par.relA par.relB := by
  simp only [barrierArrival, hopen, hmem, hall, List.contains_iff_mem.not.2 hnew]
  simp

theorem gives_barrierArrival_iff {par : BusParity} (hl : Live s) :
    Gives (.barrierArrival h n cl par) s t ↔ barrierArrival h n cl par s.dev = t := gives_iff_of_act rfl hl

/-! ### BARR_CTRLn (R350) -/

/-- A field holds the low bits of what is written. -/
theorem Dev.wr_congr_mod {f : Fld} {v v' : Nat} (hv : v % 2 ^ f.width = v' % 2 ^ f.width) (u i j : Nat) :
    d.wr f v u i j = d.wr f v' u i j := by rw [Dev.wr, hv, Dev.wr]

/-- The fields of BARR_CTRLn beside EN, as a write sets them. -/
def Dev.barrCtrlSet (d : Dev) (h n v : Nat) : Dev :=
  (((d.wr BARR_CTRLn.SPAN (v / 2 ^ 30) h n).wr BARR_CTRLn.RCUEV (v / 2 ^ 29) h n).wr BARR_CTRLn.RCUE (v / 2 ^ 12) h n).wr
    BARR_CTRLn.TENANT v h n

/-- EN lies above the other fields. -/
theorem Dev.barrCtrlSet_en : d.barrCtrlSet h n (v + 2 ^ 31) = d.barrCtrlSet h n v := by
  have hspan : (v + 2 ^ 31) / 2 ^ 30 % 2 = v / 2 ^ 30 % 2 := by omega
  have hrcuev : (v + 2 ^ 31) / 2 ^ 29 % 2 = v / 2 ^ 29 % 2 := by omega
  have hrcue : (v + 2 ^ 31) / 2 ^ 12 % 2 ^ 14 = v / 2 ^ 12 % 2 ^ 14 := by omega
  have htenant : (v + 2 ^ 31) % 2 ^ 12 = v % 2 ^ 12 := by omega
  rw [Dev.barrCtrlSet, Dev.wr_congr_mod (f := BARR_CTRLn.SPAN) hspan, Dev.wr_congr_mod (f := BARR_CTRLn.RCUEV) hrcuev,
    Dev.wr_congr_mod (f := BARR_CTRLn.RCUE) hrcue, Dev.wr_congr_mod (f := BARR_CTRLn.TENANT) htenant]
  rfl

section
variable (hv : v < 2 ^ 31)
include hv

theorem Dev.barrCtrl_enable_of_off (hen : d.bit BARR_CTRLn.EN h n = false) :
    d.barrCtrl h n (v + 2 ^ 31) = (d.barrCtrlSet h n v).barrOpen h n := by
  have hbit : (v + 2 ^ 31) / 2 ^ 31 % 2 = 1 := by omega
  rw [← Dev.barrCtrlSet_en]
  simp only [Dev.barrCtrl, hen, hbit, Bool.false_eq_true, if_false, decide_true, if_true]
  rfl

theorem Dev.barrCtrl_disable_of_off (hen : d.bit BARR_CTRLn.EN h n = false) :
    d.barrCtrl h n v = d.barrCtrlSet h n v := by
  have hbit : ¬v / 2 ^ 31 % 2 = 1 := by omega
  simp only [Dev.barrCtrl, hen, hbit, Bool.false_eq_true, if_false, decide_false]
  rfl

variable (hen : d.bit BARR_CTRLn.EN h n = true) (hspan : d.rd BARR_CTRLn.SPAN h n = v / 2 ^ 30 % 2)
  (hrcuev : d.rd BARR_CTRLn.RCUEV h n = v / 2 ^ 29 % 2) (hrcue : d.rd BARR_CTRLn.RCUE h n = v / 2 ^ 12 % 2 ^ 14)
  (htenant : d.rd BARR_CTRLn.TENANT h n = v % 2 ^ 12)
include hen hspan hrcuev hrcue htenant

theorem Dev.barrCtrl_disable_of_on : d.barrCtrl h n v = d.barrClose h n := by
  have hbit : ¬v / 2 ^ 31 % 2 = 1 := by omega
  simp only [Dev.barrCtrl, hen, hspan, hrcuev, hrcue, htenant, hbit, beq_self_eq_true, Bool.and_self, if_true,
    decide_false, Bool.false_eq_true, if_false]

theorem Dev.barrCtrl_enable_of_on : d.barrCtrl h n (v + 2 ^ 31) = d := by
  have hbit : (v + 2 ^ 31) / 2 ^ 31 % 2 = 1 := by omega
  have hspan' : d.rd BARR_CTRLn.SPAN h n = (v + 2 ^ 31) / 2 ^ 30 % 2 := by omega
  have hrcuev' : d.rd BARR_CTRLn.RCUEV h n = (v + 2 ^ 31) / 2 ^ 29 % 2 := by omega
  have hrcue' : d.rd BARR_CTRLn.RCUE h n = (v + 2 ^ 31) / 2 ^ 12 % 2 ^ 14 := by omega
  have htenant' : d.rd BARR_CTRLn.TENANT h n = (v + 2 ^ 31) % 2 ^ 12 := by omega
  simp only [Dev.barrCtrl, hen, hspan', hrcuev', hrcue', htenant', hbit, beq_self_eq_true, Bool.and_self, if_true,
    decide_true]

end

theorem gives_barrEnable_iff (hl : Live s) (hv : v < 2 ^ 31) :
    Gives (.barrEnable h n v) s t ↔ s.dev.barrCtrl h n (v + 2 ^ 31) = t := by
  rw [gives_iff_of_act (f := fun d => d.barrCtrl h n (v % 2 ^ 31 + 2 ^ 31)) rfl hl, Nat.mod_eq_of_lt hv]

theorem gives_barrDisable_iff (hl : Live s) (hv : v < 2 ^ 31) :
    Gives (.barrDisable h n v) s t ↔ s.dev.barrCtrl h n v = t := by
  rw [gives_iff_of_act (f := fun d => d.barrCtrl h n (v % 2 ^ 31)) rfl hl, Nat.mod_eq_of_lt hv]

end Sys2Proof.Machine

namespace Sys2Proof.Claims
open Sys2Proof Sys2Proof.Machine

/-- Settles O29: the barrier check decides an instruction with good fields, the parity a new arrival, and EN a write of
BARR_CTRLn. -/
theorem barriers : Obligations.Barriers := by
  intro s c h n v cl d w m gen sync wait asleep refused
  have hm : m < 64 := barrCtx_lt d c w
  refine ⟨?bsync, ?bsyncRefused, ?barrive, ?bwaitSleeps, ?bwaitAnswers, ?bwaitRefused, ?bread, ?arrival, ?off, ?on⟩
  case bsync =>
    rintro ⟨hi, hu, himm⟩ hnone
    refine (gives_iff_of_barrIssue hi (notrapOnly_of_unused hu himm) rfl).2 ?_
    rw [show s.dev.barrRefusal c (barrCtx s.dev c (s.dev.instr c)) true = none from hnone]
    rfl
  case bsyncRefused =>
    rintro kind ⟨hi, hu, himm⟩ hsome
    refine (gives_iff_of_barrIssue hi (notrapOnly_of_unused hu himm) rfl).2 ?_
    rw [show s.dev.barrRefusal c (barrCtx s.dev c (s.dev.instr c)) true = some kind from hsome]
    exact Dev.barrRefuse_eq hm
  case barrive =>
    intro hi hu himm
    have hok := noImmediate_of_unused hu himm
    refine ⟨fun hnone => (gives_iff_of_barrIssue hi hok rfl).2 ?_,
      fun kind hsome => (gives_iff_of_barrIssue hi hok rfl).2 ?_⟩
    · rw [show s.dev.barrRefusal c (barrCtx s.dev c (s.dev.instr c)) true = none from hnone]
      rfl
    · rw [show s.dev.barrRefusal c (barrCtx s.dev c (s.dev.instr c)) true = some kind from hsome]
      simp only [barrTval, Nat.mod_eq_of_lt (barrCtx_lt ..)]
      rfl
  case bwaitSleeps =>
    rintro ⟨hi, hu, himm⟩ hnone hgen
    refine (gives_iff_of_barrIssue hi (notrapOnly_of_unused hu himm) rfl).2 ?_
    rw [show s.dev.barrRefusal c (barrCtx s.dev c (s.dev.instr c)) false = none from hnone]
    exact if_neg (not_not.2 hgen)
  case bwaitAnswers =>
    rintro ⟨hi, hu, himm⟩ hnone hgen
    refine (gives_iff_of_barrIssue hi (notrapOnly_of_unused hu himm) rfl).2 ?_
    rw [show s.dev.barrRefusal c (barrCtx s.dev c (s.dev.instr c)) false = none from hnone]
    exact if_pos hgen
  case bwaitRefused =>
    rintro kind ⟨hi, hu, himm⟩ hsome
    refine (gives_iff_of_barrIssue hi (notrapOnly_of_unused hu himm) rfl).2 ?_
    rw [show s.dev.barrRefusal c (barrCtx s.dev c (s.dev.instr c)) false = some kind from hsome]
    exact Dev.barrRefuse_eq hm
  case bread => exact fun hi hu himm => (gives_iff_of_barrIssue hi (noImmediate_of_unused hu himm) rfl).2 rfl
  case arrival =>
    intro hl hopen hmem hnew hall relA relB
    exact ⟨(gives_barrierArrival_iff hl).2 (barrierArrival_of_arrived hopen hmem hnew hall),
      (gives_barrierArrival_iff hl).2 (barrierArrival_of_arrived hopen hmem hnew hall)⟩
  case off =>
    intro hl hv hen set
    exact ⟨(gives_barrEnable_iff hl hv).2 (Dev.barrCtrl_enable_of_off hv hen),
      (gives_barrDisable_iff hl hv).2 (Dev.barrCtrl_disable_of_off hv hen)⟩
  case on =>
    intro hl hv hen hspan hrcuev hrcue htenant
    exact ⟨(gives_barrDisable_iff hl hv).2 (Dev.barrCtrl_disable_of_on hv hen hspan hrcuev hrcue htenant),
      (gives_barrEnable_iff hl hv).2 (Dev.barrCtrl_enable_of_on hv hen hspan hrcuev hrcue htenant)⟩

end Sys2Proof.Claims
end

section
/-! CRST_N and waiting boots (R507, R574, R611), SEQ_RST_CMD and its arming (R505, R506, R537), LOWER (R525, R529), automatic
joins (R520) and warm resets (R522). -/
namespace Sys2Proof.Machine
open Sys2Proof Sys2Proof.Claims

variable {s : State} {d e t : Dev} {v r target code src n : Nat} {b : BootIn} {fails : List Nat} {verify : List Bool}
  {scope : CScope} {f : Dev → Dev} {ok cold : Bool}

/-! ### CRST_N -/

theorem gives_crstNRelease_of_asserted (h : s.dev.crst = true) :
    Gives (.crstNRelease b) s (s.dev.coldBoot b (if b.power then 0 else 1)) :=
  congrArg Host.Outcome.next (if_pos h)

theorem gives_crstNRelease_of_released (h : s.dev.crst = false) : Gives (.crstNRelease b) s s.dev :=
  congrArg Host.Outcome.next (if_neg (Bool.eq_false_iff.1 h))

/-! ### SEQ_RST_CMD (R505, R506, R537) -/

theorem Dev.rstCmd_busy (hb : d.bit SEQ_RST_RESULT.BUSY = true) : d.rstCmd f = d.wr SEQ_RST_RESULT.CMD_LOST 1 := if_pos hb

theorem Dev.rstCmd_idle (hb : d.bit SEQ_RST_RESULT.BUSY = false) : d.rstCmd f = f d := by simp [Dev.rstCmd, hb]

/-- CORE or CLUSTER that goes on: the arming is spent, and BUSY holds until the Curtain lowers. -/
def Dev.rstBegun (d : Dev) (target : Nat) : Dev := (Dev.rstResult { d with armed := false } 0 target).wr SEQ_RST_RESULT.BUSY 1

/-- CORE and CLUSTER go on for an enabled unit, and answer 2 for any other. -/
theorem Dev.rstScope_idle (hb : d.bit SEQ_RST_RESULT.BUSY = false) :
    d.rstScope target ok f = if ok then f (d.rstBegun target) else Dev.rstResult { d with armed := false } 2 target := by
  rw [Dev.rstScope, Dev.rstCmd_idle hb]
  cases ok <;> rfl

theorem Dev.rstCore_idle (hb : d.bit SEQ_RST_RESULT.BUSY = false) : d.rstCore v =
    if d.coreEnabled (v % 2 ^ 12) then (d.rstBegun (v % 2 ^ 12)).coreCurtain (v % 2 ^ 12) (.rst (v % 2 ^ 12))
    else Dev.rstResult { d with armed := false } 2 (v % 2 ^ 12) := by
  rw [Dev.rstCore, Dev.rstScope_idle hb]

theorem Dev.rstCluster_idle (hb : d.bit SEQ_RST_RESULT.BUSY = false) : d.rstCluster v =
    if d.clusterEnabled (v % 2 ^ 8) then (d.rstBegun (v % 2 ^ 12)).clusterCurtain (v % 2 ^ 8) (.rst (v % 2 ^ 12))
    else Dev.rstResult { d with armed := false } 2 (v % 2 ^ 12) := by
  rw [Dev.rstCluster, Dev.rstScope_idle hb]

/-- WARM, and COLD while no warm reset runs, are lost while BUSY. -/
theorem Dev.armedCmd_busy (hb : d.bit SEQ_RST_RESULT.BUSY = true) :
    d.armedCmd false f = d.wr SEQ_RST_RESULT.CMD_LOST 1 := by simp [Dev.armedCmd, hb]

theorem Dev.armedCmd_idle (hb : d.bit SEQ_RST_RESULT.BUSY = false) :
    d.armedCmd cold f = if d.armed then f { d with armed := false } else d.rstResult 3 0 := by
  cases ha : d.armed <;> simp [Dev.armedCmd, hb, ha]

section
variable (hl : Live s)
include hl

theorem gives_seqRstArmWrite_iff : Gives (.seqRstArmWrite v) s t ↔ { s.dev with armed := v % 2 ^ 16 == 0x5EA7 } = t :=
  gives_iff_of_act (f := fun d => { d with armed := v % 2 ^ 16 == 0x5EA7 }) rfl hl
theorem gives_armExpiry_iff : Gives .armExpiry s t ↔ { s.dev with armed := false } = t :=
  gives_iff_of_act (f := fun d => { d with armed := false }) rfl hl
theorem gives_rstCore_iff : Gives (.rstCore v) s t ↔ s.dev.rstCore v = t :=
  gives_iff_of_act (f := fun d => d.rstCore v) rfl hl
theorem gives_rstCluster_iff : Gives (.rstCluster v) s t ↔ s.dev.rstCluster v = t :=
  gives_iff_of_act (f := fun d => d.rstCluster v) rfl hl
theorem gives_rstNop_iff : Gives .rstNop s t ↔ s.dev.rstCmd (fun d => d) = t :=
  gives_iff_of_act (f := fun d => d.rstCmd (fun d => d)) rfl hl
theorem gives_curtainLower_iff : Gives (.curtainLower scope) s t ↔ curtainLower scope s.dev = t := gives_iff_of_act rfl hl

/-- While BUSY a command of SEQ_RST_CMD only sets CMD_LOST. -/
theorem gives_rstLost_of_busy (hb : s.dev.bit SEQ_RST_RESULT.BUSY = true) :
    ∀ i ∈ [Instr.rstCore v, .rstCluster v, .rstNop], Gives i s (s.dev.wr SEQ_RST_RESULT.CMD_LOST 1) := by
  simp only [List.forall_mem_cons, List.not_mem_nil, false_implies, implies_true, and_true]
  exact ⟨(gives_rstCore_iff hl).2 (if_pos hb), (gives_rstCluster_iff hl).2 (if_pos hb),
    (gives_rstNop_iff hl).2 (Dev.rstCmd_busy hb)⟩

/-! ### Automatic joins (R520) -/

/-- Exchanges that ended TIMEOUT are repeated. -/
def Dev.joinsRetry (d : Dev) : Dev :=
  Dev.pumpJoins { d with joins := { d.joins with todo := d.joins.todo ++ d.joins.retry, retry := [] } }

theorem gives_joinRetryTimer_iff : Gives .joinRetryTimer s t ↔ (if s.dev.joins.on then s.dev.joinsRetry else s.dev) = t :=
  gives_iff_of_act (f := fun d => if d.joins.on then d.joinsRetry else d) rfl hl

/-- Joins end at `ms`: SEQ_JOIN reports what is left and the time. -/
def Dev.joinsEnd (d e : Dev) (ms : Nat) : Dev :=
  { (((e.wr SEQ_STAT.JOINED 1).wr SEQ_STAT.STAGE 9).wr SEQ_JOIN.MISS d.joins.left.length).wr SEQ_JOIN.MS ms with
    joins := Joins.init }

/-- After a warm reset the time is a free one. -/
def Dev.joinDeadline (d : Dev) : Dev :=
  if d.joins.on then
    if d.rd SEQ_CAUSE.WARMS = 0 then d.joinsEnd d 4500 else d.joinsEnd (d.draw 21).2 (d.draw 21).1.toNat
  else d

theorem gives_joinDeadline_iff : Gives .joinDeadline s t ↔ s.dev.joinDeadline = t := by
  have hexec : exec .joinDeadline s = act s Dev.joinDeadline := by
    show execJoinDeadline s = _
    unfold execJoinDeadline
    congr 1
    funext d
    simp only [Dev.joinDeadline]
    split
    · split <;> rfl
    · rfl
  exact gives_iff_of_act hexec hl

end

/-! ### LOWER (R525, R529) -/

theorem curtainLower_of_none (h : d.curtains.find? (fun x => x.scope == scope && x.into.isNone) = none) :
    curtainLower scope d = d := by simp only [curtainLower, h]

theorem curtainLower_of_some {k : Curtain} (h : d.curtains.find? (fun x => x.scope == scope && x.into.isNone) = some k) :
    curtainLower scope d = ((d.curtains.filter (fun o => o.into == some scope)).foldl (fun d o => d.curtainReport o true)
      (Dev.curtainReport { d with curtains := d.curtains.filter (fun o => !(o == k) && o.into != some scope) } k
        false)).dispatch := by simp only [curtainLower, h]

/-! ### WARM, COLD and what goes on later (R522, R558, R574) -/

section
variable (hd : Awake s)
include hd

theorem gives_rstWarm_iff : Gives (.rstWarm fails verify) s t ↔
    s.dev.armedCmd false (fun d => (d.rstResult 0 0).warmGo 1 fails verify) = t :=
  gives_iff_of_ctl (f := fun d => d.armedCmd false (fun d => (d.rstResult 0 0).warmGo 1 fails verify)) rfl hd
theorem gives_rstCold_iff : Gives (.rstCold verify b) s t ↔ s.dev.armedCmd true (fun d => d.coldGo 2 verify b) = t :=
  gives_iff_of_ctl (f := fun d => d.armedCmd true (fun d => d.coldGo 2 verify b)) rfl hd

theorem gives_warmResetContinue_of_cooling (hw : s.dev.warm = some (.cooling, src)) :
    Gives (.warmResetContinue fails) s
      (if s.dev.cooled then (Dev.warmB { s.dev with warm := none } fails).warmEnd src else s.dev) := by
  show execWarmResetContinue fails s = _
  rw [execWarmResetContinue, ctl_lit _ hd]
  simp only [hw]

theorem gives_warmResetContinue_of_entry (hw : s.dev.warm = some (.entry, src)) :
    Gives (.warmResetContinue fails) s
      (((Dev.commitCut { s.dev with warm := none }).warmA 3).warmMid src fails) := by
  show execWarmResetContinue fails s = _
  rw [execWarmResetContinue, ctl_lit _ hd]
  simp only [hw]

theorem gives_coldBootContinue_of_none (hb : s.dev.boot = none) : Gives .coldBootContinue s s.dev := by
  show execColdBootContinue s = _
  rw [execColdBootContinue, ctl_lit _ hd]
  simp only [hb]

/-- A boot that waits for the device to cool goes on once it has. -/
theorem gives_coldBootContinue_of_cooled (hb : s.dev.boot = some b) (href : (b.ref0 || b.ref1) = true)
    (htrip : s.dev.trip = true) (hcool : s.dev.cooled = true) :
    Gives .coldBootContinue s ((Dev.emit { s.dev with trip := false } (.pin "THERMTRIP_N" true)).bootOn b) := by
  show execColdBootContinue s = _
  rw [execColdBootContinue, ctl_lit _ hd]
  simp only [hb, htrip, href, hcool, Bool.and_self, if_true]

end

theorem referenceAppears_of_none (h : d.boot = none) : referenceAppears r d = d := by simp only [referenceAppears, h]

theorem referenceAppears_of_waiting (h : d.boot = some b) (href : (b.ref0 || b.ref1) = false) : referenceAppears r d =
    (Dev.emit { d with boot := none } (.pin "SVC_REQ_N" true)).bootFrom
      { b with ref0 := r % 2 == 0, ref1 := r % 2 == 1 } := by
  simp only [referenceAppears, h, href, Bool.false_eq_true, if_false]

end Sys2Proof.Machine

namespace Sys2Proof.Claims
open Sys2Proof Sys2Proof.Machine

/-- Settles O38: BUSY, the arming and the state of the unit decide a command; a Curtain, the joins and a waiting reset or
boot decide what goes on later. -/
theorem resetsAndCurtains : Obligations.ResetsAndCurtains := by
  intro s v r b fails verify scope d idle go answer late
  have busy (h : ¬idle) : d.bit SEQ_RST_RESULT.BUSY = true := Bool.not_eq_false _ ▸ h
  refine ⟨rfl, gives_crstNRelease_of_asserted, gives_crstNRelease_of_released, fun hl => ?live, fun hd => ?awake,
    fun hb h0 h1 => ?appears, fun hb => ?noBoot⟩
  case live =>
    refine ⟨(gives_seqRstArmWrite_iff hl).2 rfl, (gives_armExpiry_iff hl).2 rfl,
      fun hi he => (gives_rstCore_iff hl).2 ((Dev.rstCore_idle hi).trans (if_pos he)),
      fun hi he => (gives_rstCore_iff hl).2 ((Dev.rstCore_idle hi).trans (if_neg (Bool.eq_false_iff.1 he))),
      fun hi he => (gives_rstCluster_iff hl).2 ((Dev.rstCluster_idle hi).trans (if_pos he)),
      fun hi he => (gives_rstCluster_iff hl).2 ((Dev.rstCluster_idle hi).trans (if_neg (Bool.eq_false_iff.1 he))),
      fun hi => (gives_rstNop_iff hl).2 (Dev.rstCmd_idle hi), fun hb => gives_rstLost_of_busy hl (busy hb),
      fun k hk => (gives_curtainLower_iff hl).2 (curtainLower_of_some hk),
      fun hk => (gives_curtainLower_iff hl).2 (curtainLower_of_none hk),
      fun hj => ⟨(gives_joinRetryTimer_iff hl).2 (if_pos hj),
        fun hw => (gives_joinDeadline_iff hl).2 ((if_pos hj).trans (if_pos hw)),
        fun hw n e he => (gives_joinDeadline_iff hl).2 ((if_pos hj).trans ((if_neg hw).trans (by rw [he]; rfl)))⟩,
      fun hj => ⟨(gives_joinRetryTimer_iff hl).2 (if_neg (Bool.eq_false_iff.1 hj)),
        (gives_joinDeadline_iff hl).2 (if_neg (Bool.eq_false_iff.1 hj))⟩⟩
  case awake =>
    refine ⟨fun hi ha => (gives_rstWarm_iff hd).2 ((Dev.armedCmd_idle hi).trans (if_pos ha)),
      fun hi ha => (gives_rstCold_iff hd).2 ((Dev.armedCmd_idle hi).trans (if_pos ha)),
      fun hi ha => ⟨(gives_rstWarm_iff hd).2 ((Dev.armedCmd_idle hi).trans (if_neg (Bool.eq_false_iff.1 ha))),
        (gives_rstCold_iff hd).2 ((Dev.armedCmd_idle hi).trans (if_neg (Bool.eq_false_iff.1 ha)))⟩,
      fun hb => (gives_rstWarm_iff hd).2 (Dev.armedCmd_busy (busy hb)),
      fun src hw => ⟨fun hc => ?cooled, fun hc => ?hot⟩, fun src hw => gives_warmResetContinue_of_entry hd hw,
      fun hb href => gives_coldBootContinue_of_cooled hd hb (by simpa using href), gives_coldBootContinue_of_none hd⟩
    case cooled => simpa only [show s.dev.cooled = true from hc, if_true] using gives_warmResetContinue_of_cooling hd hw
    case hot =>
      simpa only [show s.dev.cooled = false from hc, Bool.false_eq_true, if_false] using
        gives_warmResetContinue_of_cooling hd hw
  case appears =>
    exact congrArg (fun e => Host.Outcome.next { s with dev := e }) (referenceAppears_of_waiting hb (by simp [h0, h1]))
  case noBoot => exact congrArg (fun e => Host.Outcome.next { s with dev := e }) (referenceAppears_of_none hb)

end Sys2Proof.Claims
end

section
/-! The collectives engine: doorbells and descriptors (R419-R424), packets (R427) and completion (R428). -/
namespace Sys2Proof.Machine
open Sys2Proof Sys2Proof.Claims

variable {s : State} {d e a b t : Dev} {h p v id op desc : Nat} {who : Requester} {r : Rx} {f : Fft} {kind : Nat → Bool}
  {x y : Coll}

/-! ### Taking a descriptor (R420, R423) -/

/-- The algorithm that a collective takes; none where a field is bad. -/
def Dev.collAlgOf (w : Dev) (y : Coll) : Option Nat :=
  if y.bad then none else collAlg y.op y.algo y.n y.size (w.rd COLL_CTRL.TREE_MAX_LOG2 y.half)

/-- A collective that has its algorithm, with the devices of its ranks. -/
def Dev.collRanked (w : Dev) (y : Coll) (k : Nat) : Coll :=
  { y with alg := k, devs := (List.range y.n).map (fun r => (w.rankDev y.half y.part r).getD 1024) }

/-- The ranks that fail the checks of R423, in order. -/
def Dev.rankFaults (w : Dev) (z : Coll) : List (Nat × Nat) :=
  z.others.filterMap (fun r => (w.rankFault z r).map (fun st => (st, r)))

/-- A collective with its group goes on: DEPARTED_SELF, its fields and its ranks are judged in this order. -/
def Dev.collJudge (w : Dev) (y : Coll) : Dev :=
  if w.bit FAB_AGREE_STAT.DEPARTED_SELF then w.collReject y 7 y.rank
  else
    match w.collAlgOf y with
    | none => w.collReject y 4 y.rank
    | some k =>
      match (w.rankFaults (w.collRanked y k)).head? with
      | some (st, r) => w.collReject (w.collRanked y k) st r
      | none => w.collGo (w.collRanked y k)

/-- What a taken descriptor of a collective does: its group is read, and its sequence number advances. -/
def Dev.collLoad (t : Dev) (x : Coll) : Dev :=
  let a := t.allowed x.half x.part (collGroup x.desc) 256 true
  if !a.1 then a.2.collEnd x 5 0
  else
    let g := a.2.engRead x.half (collGroup x.desc) 256
    (g.2.engWrite x.half (collGroup x.desc + 132) 4 ((word32 g.1.val 33 + 1) % 2 ^ 32)).collJudge
      { x with group := g.1.val, seq := word32 g.1.val 33 }

/-- What a taken NOP does. -/
def Dev.collIdle (t : Dev) (x : Coll) : Dev :=
  let y := t.add COLL_Qp_IDX.CI 1 x.half x.part
  if x.cqe then y.collRecord x 0 0 else y

theorem collStart_of_off (hen : d.bit COLL_CTRL.EN h = false) : collStart kind h p d = d :=
  if_pos (by rw [hen]; rfl)

/-- A descriptor that the engine may take is read from the ring. -/
theorem collTakes_read (ht : CollTakes d h p desc e) :
    desc = (d.engRead h (d.collSlot h p (d.collIdx h p).2) 64).1.val ∧
      e = (d.engRead h (d.collSlot h p (d.collIdx h p).2) 64).2 := by
  obtain ⟨-, -, -, m, hm, rfl⟩ := ht
  exact ⟨by rw [hm], by rw [hm]⟩

/-- The engine is on, the queue holds a descriptor, and a record has room. -/
theorem collTakes_ready (ht : CollTakes d h p desc e) :
    ¬(!d.bit COLL_CTRL.EN h || (d.collIdx h p).1 == (d.collIdx h p).2 ||
      !decide ((d.rd COLL_Qp_IDX.CQ_PI h p + ((d.colls.filter (fun x => x.half == h)).filter (fun x => x.part == p)).length +
        2 ^ 16 - d.rd COLL_Qp_CQ_CI.CQ_CI h p) % 2 ^ 16 < 2 ^ d.rd COLL_Qp_HI.LOG2 h p)) = true := by
  obtain ⟨hen, hix, hroom, -⟩ := ht
  rw [hen, beq_eq_false_iff_ne.2 hix, decide_eq_true hroom]
  exact Bool.false_ne_true

/-! In the next two proofs `as_aux_lemma` keeps what was read a variable for the kernel, which would otherwise compute the
read when it compares the results. -/

theorem collStart_of_nop (ht : CollTakes d h p desc e) (hk : kind 0 = true) (hop : word32 desc 0 / 2 ^ 28 = 0) :
    collStart kind h p d = (collTaken d e h p).collIdle (collNew d e h p desc) := by
  have hready := collTakes_ready ht
  obtain ⟨rfl, rfl⟩ := collTakes_read ht
  refine (if_neg hready).trans ?_
  generalize d.engRead h (d.collSlot h p (d.collIdx h p).2) 64 = q at hop ⊢
  as_aux_lemma =>
    exact (if_neg (by rw [hop, hk]; exact Bool.false_ne_true)).trans ((if_neg fun h => h.1 hop).trans (if_pos hop))

/-! A group is read where the partition has it. -/

theorem Dev.collLoad_of_refused (ha : t.allowed x.half x.part (collGroup x.desc) 256 true = (false, a)) :
    t.collLoad x = a.collEnd x 5 0 := by
  simp only [Dev.collLoad, ha, Bool.not_false, if_true]

theorem Dev.collLoad_of_allowed {m : MRes} (ha : t.allowed x.half x.part (collGroup x.desc) 256 true = (true, a))
    (hm : a.engRead x.half (collGroup x.desc) 256 = (m, b)) :
    t.collLoad x = (b.engWrite x.half (collGroup x.desc + 132) 4 ((word32 m.val 33 + 1) % 2 ^ 32)).collJudge
      { x with group := m.val, seq := word32 m.val 33 } := by
  simp only [Dev.collLoad, ha, hm, Bool.not_true, Bool.false_eq_true, if_false]

/-- The device that the model leaves with a descriptor taken, by name. -/
theorem collTaken_lit : ({ (e.setCollIdx h p ((d.collIdx h p).1, ((d.collIdx h p).2 + 1) % 2 ^ 16)) with
    collN := (e.setCollIdx h p ((d.collIdx h p).1, ((d.collIdx h p).2 + 1) % 2 ^ 16)).collN + 1 } : Dev) =
    collTaken d e h p := (rfl)

theorem collStart_of_coll (ht : CollTakes d h p desc e) (hk : kind (word32 desc 0 / 2 ^ 28) = true)
    (hop : word32 desc 0 / 2 ^ 28 ≠ 0) (hrun : (d.colls.filter (fun x => x.half == h)).length < 64)
    (hgroup : ((d.colls.filter (fun x => x.half == h)).filter (fun x => collGroup x.desc == collGroup desc)).length < 8) :
    collStart kind h p d = (collTaken d e h p).collLoad (collNew d e h p desc) := by
  have hready := collTakes_ready ht
  obtain ⟨rfl, rfl⟩ := collTakes_read ht
  refine (if_neg hready).trans ?_
  generalize d.engRead h (d.collSlot h p (d.collIdx h p).2) 64 = q at hop hk hgroup ⊢
  as_aux_lemma =>
    refine (if_neg (by rw [hk]; exact Bool.false_ne_true)).trans
      ((if_neg fun h => h.2.elim (Nat.not_le.2 hrun) (Nat.not_le.2 hgroup)).trans ?_)
    clear hready ht hrun hgroup hk
    generalize q.1.val = v at hop ⊢
    generalize q.2 = e
    as_aux_lemma =>
      refine (if_neg hop).trans ?_
      rw [collTaken_lit]
      obtain ⟨⟨_ | _, a⟩, ha⟩ : ∃ r, (collTaken d e h p).allowed h p (collGroup v) 256 true = r := ⟨_, rfl⟩
      · rw [ha, Dev.collLoad_of_refused (x := collNew d e h p v) ha]
        exact if_pos rfl
      · obtain ⟨⟨m, b⟩, hm⟩ : ∃ r, a.engRead h (collGroup v) 256 = r := ⟨_, rfl⟩
        rw [ha, Dev.collLoad_of_allowed (x := collNew d e h p v) ha hm]
        refine (if_neg Bool.false_ne_true).trans ?_
        rw [show (true, a).2.engRead h (collGroup v) 256 = (m, b) from hm, Dev.collJudge]
        refine congrArg (ite _ _) ?_
        generalize hk : Dev.collAlgOf _ _ = k
        generalize ho : (if Coll.bad _ = true then none else _) = o
        obtain rfl : o = k := ho.symm.trans hk
        clear ho hk
        cases o with
        | none => rfl
        | some k =>
          dsimp only
          generalize hk : List.head? (Dev.rankFaults _ _) = o
          generalize ho : List.head? (List.filterMap _ _) = o'
          obtain rfl : o' = o := ho.symm.trans hk
          clear ho hk
          cases o' <;> rfl

section
variable {w g : Dev} {m : MRes} {k st rank : Nat}

theorem Dev.collJudge_of_departed (h : w.bit FAB_AGREE_STAT.DEPARTED_SELF = true) :
    w.collJudge y = w.collReject y 7 y.rank := if_pos h

theorem Dev.collJudge_of_bad (h : w.bit FAB_AGREE_STAT.DEPARTED_SELF = false) (hk : w.collAlgOf y = none) :
    w.collJudge y = w.collReject y 4 y.rank := by
  simp only [Dev.collJudge, h, hk, Bool.false_eq_true, if_false]

theorem Dev.collJudge_of_fault (h : w.bit FAB_AGREE_STAT.DEPARTED_SELF = false) (hk : w.collAlgOf y = some k)
    (hf : (w.rankFaults (w.collRanked y k)).head? = some (st, rank)) :
    w.collJudge y = w.collReject (w.collRanked y k) st rank := by
  simp only [Dev.collJudge, h, hk, hf, Bool.false_eq_true, if_false]

theorem Dev.collJudge_of_good (h : w.bit FAB_AGREE_STAT.DEPARTED_SELF = false) (hk : w.collAlgOf y = some k)
    (hf : w.rankFaults (w.collRanked y k) = []) : w.collJudge y = w.collGo (w.collRanked y k) := by
  simp only [Dev.collJudge, h, hk, hf, List.head?_nil, Bool.false_eq_true, if_false]

theorem Coll.bad_of_op (h : 8 ≤ y.op) : y.bad = true := by simp [Coll.bad, h]

/-- A reserved OP is rejected. -/
theorem Dev.collJudge_of_reserved (h : 8 ≤ y.op) :
    w.collJudge y = w.collReject y (if w.bit FAB_AGREE_STAT.DEPARTED_SELF then 7 else 4) y.rank := by
  cases hd : w.bit FAB_AGREE_STAT.DEPARTED_SELF with
  | true => exact Dev.collJudge_of_departed hd
  | false => exact Dev.collJudge_of_bad hd (if_pos (Coll.bad_of_op h))

end

/-! ### Packets and completion (R427, R428) -/

theorem collData_of_other {ready : Bool} (h : decide (collStepOf f = 0xFFF) ≠ ready) : collData ready r f d = d :=
  if_pos (bne_iff_ne.2 h)

theorem collData_of_run {ready : Bool} (h : decide (collStepOf f = 0xFFF) = ready) (hy : d.collFor f = some y) :
    collData ready r f d = (d.rxSeq r f 20 (collAct r f) false).collPump y.id := by
  simp only [collData, h, bne_self_eq_false, Bool.false_eq_true, if_false, hy, Option.map_some]

theorem collData_of_none {ready : Bool} (h : decide (collStepOf f = 0xFFF) = ready) (hy : d.collFor f = none) :
    collData ready r f d = d.rxSeq r f 20 (collAct r f) false := by
  simp only [collData, h, bne_self_eq_false, Bool.false_eq_true, if_false, hy, Option.map_none]

theorem collComplete_of_done {ok bad : Bool} (hy : d.collAt id = some y) (hdone : d.collDone y = true)
    (hc : Dev.copyAll y y.plan.post d = (ok, bad, e)) :
    collComplete id d = if ok then e.collEnd y (if y.poison || bad then 6 else 0) y.rank else e.collFail y 5 y.rank := by
  unfold collComplete
  simp only [hy, hdone, hc]
  cases ok <;> rfl

theorem collComplete_of_running (hy : d.collAt id = some y) (hdone : d.collDone y = false) : collComplete id d = d := by
  unfold collComplete
  simp only [hy, hdone, Bool.not_false, if_true]

theorem collComplete_of_none (hy : d.collAt id = none) : collComplete id d = d := by
  unfold collComplete
  simp only [hy]

/-! ### The commands -/

section
variable (hl : Live s)
include hl

theorem gives_collDoorbell_iff (hh : h < 2) (hp : p < 64) :
    Gives (.collDoorbell h p who v) s t ↔ s.dev.collDoorbell h p who v = t := by
  simpa only [Nat.mod_eq_of_lt hh, Nat.mod_eq_of_lt hp] using
    gives_iff_of_act (i := .collDoorbell h p who v) (f := fun d => d.collDoorbell (h % 2) (p % 64) who v) rfl hl

theorem gives_collData_iff : Gives (.collData r f) s t ↔ collData false r f s.dev = t := gives_iff_of_act rfl hl
theorem gives_collReady_iff : Gives (.collReady r f) s t ↔ collData true r f s.dev = t := gives_iff_of_act rfl hl
theorem gives_collComplete_iff : Gives (.collComplete id) s t ↔ collComplete id s.dev = t := gives_iff_of_act rfl hl

theorem gives_collNop_iff (hh : h < 2) (hp : p < 64) :
    Gives (.collNop h p) s t ↔ collStart (fun o => o == 0 || decide (8 ≤ o)) h p s.dev = t := by
  simpa only [Nat.mod_eq_of_lt hh, Nat.mod_eq_of_lt hp] using
    gives_iff_of_act (i := .collNop h p) (f := collStart (fun o => o == 0 || decide (8 ≤ o)) (h % 2) (p % 64)) rfl hl

/-- The commands of the collectives by their OP. -/
noncomputable def collRows (h p : Nat) : List (Nat × Instr) :=
  [(1, .allreduce h p), (2, .reduceScatter h p), (3, .allgather h p), (4, .broadcast h p), (5, .reduce h p),
   (6, .alltoall h p), (7, .collBarrier h p)]

/-- The command of an OP takes the descriptors of that OP. -/
theorem gives_collRow_iff {i : Instr} (hh : h < 2) (hp : p < 64) (hi : (op, i) ∈ collRows h p) :
    Gives i s t ↔ collStart (fun o => o == op) h p s.dev = t := by
  have hact (i : Instr) (op : Nat) (hi : exec i s = act s (collStart (fun o => o == op) (h % 2) (p % 64))) :
      Gives i s t ↔ collStart (fun o => o == op) h p s.dev = t := by
    simpa only [Nat.mod_eq_of_lt hh, Nat.mod_eq_of_lt hp] using gives_iff_of_act hi hl
  simp only [collRows, List.mem_cons, List.not_mem_nil, or_false, Prod.mk.injEq] at hi
  obtain ⟨rfl, rfl⟩ | ⟨rfl, rfl⟩ | ⟨rfl, rfl⟩ | ⟨rfl, rfl⟩ | ⟨rfl, rfl⟩ | ⟨rfl, rfl⟩ | ⟨rfl, rfl⟩ := hi <;>
    exact hact _ _ rfl

/-- While the engine is off no command takes a descriptor. -/
theorem gives_coll_of_off (hh : h < 2) (hp : p < 64) (hen : s.dev.bit COLL_CTRL.EN h = false) :
    ∀ x ∈ (0, Instr.collNop h p) :: collRows h p, Gives x.2 s s.dev := by
  rintro ⟨op, i⟩ hx
  rcases List.mem_cons.1 hx with hx | hx
  · cases hx
    exact (gives_collNop_iff hl hh hp).2 (collStart_of_off hen)
  · exact (gives_collRow_iff hl hh hp hx).2 (collStart_of_off hen)

end

/-! ### Judgements of a descriptor whose group is read (R423) -/

section
variable {i : Instr} {m : MRes}

/-- A collective that may start goes on as its group's judgement says. -/
theorem collStart_of_allowed (ht : CollTakes d h p desc e) (hk : kind (word32 desc 0 / 2 ^ 28) = true)
    (hop : word32 desc 0 / 2 ^ 28 ≠ 0) (hrun : (d.colls.filter (fun x => x.half == h)).length < 64)
    (hgroup : ((d.colls.filter (fun x => x.half == h)).filter (fun x => collGroup x.desc == collGroup desc)).length < 8)
    (ha : (collTaken d e h p).allowed h p (collGroup desc) 256 true = (true, a))
    (hm : a.engRead h (collGroup desc) 256 = (m, b)) :
    collStart kind h p d = (b.engWrite h (collGroup desc + 132) 4 ((word32 m.val 33 + 1) % 2 ^ 32)).collJudge
      { collNew d e h p desc with group := m.val, seq := word32 m.val 33 } :=
  (collStart_of_coll ht hk hop hrun hgroup).trans (Dev.collLoad_of_allowed (x := collNew d e h p desc) ha hm)

theorem collStart_of_refused (ht : CollTakes d h p desc e) (hk : kind (word32 desc 0 / 2 ^ 28) = true)
    (hop : word32 desc 0 / 2 ^ 28 ≠ 0) (hrun : (d.colls.filter (fun x => x.half == h)).length < 64)
    (hgroup : ((d.colls.filter (fun x => x.half == h)).filter (fun x => collGroup x.desc == collGroup desc)).length < 8)
    (ha : (collTaken d e h p).allowed h p (collGroup desc) 256 true = (false, a)) :
    collStart kind h p d = a.collEnd (collNew d e h p desc) 5 0 :=
  (collStart_of_coll ht hk hop hrun hgroup).trans (Dev.collLoad_of_refused (x := collNew d e h p desc) ha)

end

/-! ### Doorbells (R420) -/

section
variable {m g : MRes}

/-- The two judgements of a doorbell's writer, of the tenant at word 0 of the group. -/
theorem Dev.collDoorbell_of_read (hm : d.engRead h (d.collSlot h p (d.collIdx h p).1) 64 = (m, e))
    (hg : e.engRead h (collGroup m.val) 4 = (g, a)) :
    d.collDoorbell h p who v =
      let x := a.writerIs who (g.val % 2 ^ 12)
      let y := x.2.writerIn who p (g.val % 2 ^ 12)
      let r := ringAhead (y.2.rd COLL_Qp_IDX.CI h p) v (y.2.rd COLL_Qp_HI.LOG2 h p)
      if !x.1 || !y.1 then y.2.wr COLL_STAT.DB_LOST 1 h
      else (if r.2 then y.2.noteClamp (COLL_Qp_DB.addr h p 0) else y.2).setCollIdx h p (r.1, (d.collIdx h p).2) := by
  simp only [Dev.collDoorbell, hm, hg]

end

end Sys2Proof.Machine

namespace Sys2Proof.Claims
open Sys2Proof Sys2Proof.Machine

/-- Settles O46: the writer decides a doorbell; a descriptor's OP, its group, its fields and its ranks are judged in this
order; and a packet or a completion finds its collective or none. -/
theorem collectiveCommands : Obligations.CollectiveCommands := by
  intro s h p v id r f who e a b desc hl hh hp d op rows running few taken x
  have hrow {i : Instr} (hop : op ≠ 0) (hi : (op, i) ∈ rows) : (op, i) ∈ collRows h p :=
    (List.mem_cons.1 hi).resolve_left fun h => hop (congrArg Prod.fst h)
  have hop0 : word32 desc 0 / 2 ^ 28 = op := by simp [word32, op]
  have hkind : (word32 desc 0 / 2 ^ 28 == op) = true := beq_iff_eq.2 hop0
  refine ⟨fun m g hm hg => ?doorbell, fun hen i hi => ?off, fun ht hop => ?nop, fun i ht hf hop hi => ⟨fun ha => ?refused,
    fun m ha hm => ?judged⟩, fun ht hf hop m ha hm => ?reserved, fun y hy => ?run, fun hy => ?stray,
    fun y ok bad hy hdone hc => (gives_collComplete_iff hl).2 (collComplete_of_done hy hdone hc),
    fun y hy hdone => (gives_collComplete_iff hl).2 (collComplete_of_running hy hdone),
    fun hy => (gives_collComplete_iff hl).2 (collComplete_of_none hy)⟩
  case doorbell =>
    intro t x y ahead
    have hbell := Dev.collDoorbell_of_read (who := who) (v := v) hm hg
    refine ⟨fun hx hy => (gives_collDoorbell_iff hl hh hp).2 (hbell.trans (if_neg ?known)),
      fun hxy => (gives_collDoorbell_iff hl hh hp).2 (hbell.trans (if_pos ?unknown))⟩
    case known =>
      show ¬(!x.1 || !y.1) = true
      simp [hx, hy]
    case unknown =>
      show (!x.1 || !y.1) = true
      simpa using hxy
  case off =>
    obtain ⟨x, hx, rfl⟩ := List.mem_map.1 hi
    exact gives_coll_of_off hl hh hp hen x hx
  case nop => exact (gives_collNop_iff hl hh hp).2 (collStart_of_nop ht rfl (by rwa [hop0]))
  case refused =>
    exact (gives_collRow_iff hl hh hp (hrow hop hi)).2 (collStart_of_refused ht hkind (hop0 ▸ hop) hf.1 hf.2 ha)
  case judged =>
    have hstart := collStart_of_allowed (kind := fun o => o == op) ht hkind (hop0 ▸ hop) hf.1 hf.2 ha hm
    have judged {t : Dev} (ht : collStart (fun o => o == op) h p s.dev = t) : Gives i s t :=
      (gives_collRow_iff hl hh hp (hrow hop hi)).2 ht
    exact ⟨fun hd => judged (hstart.trans (Dev.collJudge_of_departed hd)),
      fun hd hk => judged (hstart.trans (Dev.collJudge_of_bad hd hk)),
      fun k hd hk => ⟨fun hb => judged (hstart.trans (Dev.collJudge_of_good hd hk hb)),
        fun st r hb => judged (hstart.trans (Dev.collJudge_of_fault hd hk hb))⟩⟩
  case reserved =>
    have hkind : (word32 desc 0 / 2 ^ 28 == 0 || decide (8 ≤ word32 desc 0 / 2 ^ 28)) = true :=
      Bool.or_eq_true_iff.2 (.inr (decide_eq_true (hop0.symm ▸ hop)))
    have hstart := collStart_of_allowed (kind := fun o => o == 0 || decide (8 ≤ o)) ht hkind (by omega) hf.1 hf.2 ha hm
    exact (gives_collNop_iff hl hh hp).2 (hstart.trans (Dev.collJudge_of_reserved (show 8 ≤ word32 desc 0 / 2 ^ 28 from hop0.symm ▸ hop)))
  case run =>
    exact ⟨fun hs => (gives_collReady_iff hl).2 (collData_of_run (decide_eq_true hs) hy),
      fun hs => (gives_collData_iff hl).2 (collData_of_run (decide_eq_false hs) hy)⟩
  case stray =>
    exact ⟨fun hs => (gives_collReady_iff hl).2 (collData_of_none (decide_eq_true hs) hy),
      fun hs => (gives_collData_iff hl).2 (collData_of_none (decide_eq_false hs) hy)⟩

end Sys2Proof.Claims
end

section
/-! The Understudy service: doorbells and descriptors (R478, R479, R484), runs that end (R480-R482). -/
namespace Sys2Proof.Machine
open Sys2Proof Sys2Proof.Claims

variable {s : State} {d e a b t : Dev} {p v id c desc : Nat} {who : Requester} {x y : ChkStep} {nop : Bool}

/-! ### Doorbells and descriptors (R484, R478, R479) -/

/-- The two judgements of a doorbell's writer, of the tenant in the first descriptor. -/
theorem Dev.chkDoorbell_of_read {m : MRes} (hm : d.chkRead 2 (d.chkSlot p (d.chkIdx p).1) 4 = (m, e)) :
    d.chkDoorbell p who v =
      let is := e.writerIs who (m.val / 2 ^ 12 % 2 ^ 12)
      let in' := is.2.writerIn who p (m.val / 2 ^ 12 % 2 ^ 12)
      let r := ringAhead (in'.2.rd CHK_Qp_IDX.CI 0 p) v (in'.2.rd CHK_Qp_HI.LOG2 0 p)
      if !is.1 || !in'.1 then in'.2.wr CHK_STAT.DB_LOST 1
      else (if r.2 then in'.2.noteClamp (CHK_Qp_DB.addr 0 p 0) else in'.2).setChkIdx p (r.1, (d.chkIdx p).2) := by
  simp only [Dev.chkDoorbell, hm]

theorem chkTake_of_off (hen : d.bit CHK_CTRL.EN = false) : chkTake nop p d = d := if_pos (by rw [hen]; rfl)

/-- What the service does with a descriptor `x` that it has taken, in `t`; it goes back to index `ix` while the tenant is
inside a Curtain. -/
def Dev.chkTaken (d t : Dev) (nop : Bool) (p : Nat) (x : ChkStep) : Dev :=
  if (x.op == 0) != nop then d
  else if (t.tenantEntry x.tenant).1.isSome && t.tenantCurtained x.tenant then
    (t.tenantEntry x.tenant).2.setChkIdx p (d.chkIdx p)
  else if nop then
    if x.cqe then (t.add CHK_Qp_IDX.CI 1 0 p).chkRecord x 0 false else t.add CHK_Qp_IDX.CI 1 0 p
  else if x.bad then t.stepDone x 6 false none
  else t.stepGo x

/-- `as_aux_lemma` keeps what was read a variable for the kernel. -/
theorem chkTake_of_takes (ht : ChkTakes d p desc e)
    (hx : x = { id := d.stepN, part := p, slot := (d.chkIdx p).2, desc := desc, seq := 0, selected := false, stage := .held,
                under := none, tie := none, exit := 0, diff := 0, repDigest := 0, repExit := 0, repOk := false })
    (hd : t = { e.setChkIdx p ((d.chkIdx p).1, ((d.chkIdx p).2 + 1) % 2 ^ 16) with stepN := d.stepN + 1 }) :
    chkTake nop p d = d.chkTaken t nop p x := by
  obtain ⟨hen, hix, hskip, hsteps, hroom, m, hm, rfl⟩ := ht
  obtain rfl : m = (d.chkRead 2 (d.chkSlot p (d.chkIdx p).2) 128).1 := by rw [hm]
  obtain rfl : e = (d.chkRead 2 (d.chkSlot p (d.chkIdx p).2) 128).2 := by rw [hm]
  have hon : ¬(!d.bit CHK_CTRL.EN || (d.chkIdx p).1 == (d.chkIdx p).2) = true := by
    rw [hen, beq_eq_false_iff_ne.2 hix]; exact Bool.false_ne_true
  have hfree : ¬(!decide ((d.rd CHK_Qp_IDX.CQ_PI 0 p + (d.steps.filter (fun x => x.part == p)).length + 2 ^ 16 -
      d.rd CHK_Qp_CQ_CI.CQ_CI 0 p) % 2 ^ 16 < 2 ^ d.rd CHK_Qp_HI.LOG2 0 p) || decide (256 ≤ d.steps.length)) = true := by
    rw [decide_eq_true hroom, decide_eq_false (Nat.not_le.2 hsteps)]; exact Bool.false_ne_true
  refine (if_neg hon).trans ((if_neg (Bool.eq_false_iff.1 hskip)).trans ((if_neg hfree).trans ?_))
  subst hx hd
  clear hm
  generalize d.chkRead 2 (d.chkSlot p (d.chkIdx p).2) 128 = q
  as_aux_lemma => rfl

theorem Dev.chkTaken_of_other (h : (x.op == 0) ≠ nop) : d.chkTaken t nop p x = d := if_pos (bne_iff_ne.2 h)

theorem Dev.chkTaken_of_held (h : (x.op == 0) = nop) (hs : (t.tenantEntry x.tenant).1.isSome = true)
    (hc : t.tenantCurtained x.tenant = true) :
    d.chkTaken t nop p x = (t.tenantEntry x.tenant).2.setChkIdx p (d.chkIdx p) :=
  (if_neg (by rw [h, bne_self_eq_false]; exact Bool.false_ne_true)).trans (if_pos (by rw [hs, hc]; rfl))

theorem Dev.chkTaken_of_free (h : (x.op == 0) = nop)
    (hf : ¬((t.tenantEntry x.tenant).1.isSome = true ∧ t.tenantCurtained x.tenant = true)) :
    d.chkTaken t nop p x =
      if nop then (if x.cqe then (t.add CHK_Qp_IDX.CI 1 0 p).chkRecord x 0 false else t.add CHK_Qp_IDX.CI 1 0 p)
      else if x.bad then t.stepDone x 6 false none else t.stepGo x :=
  (if_neg (by rw [h, bne_self_eq_false]; exact Bool.false_ne_true)).trans (if_neg fun h => hf (Bool.and_eq_true_iff.1 h))

/-! ### Runs that end (R479-R482) -/

section
variable (hx : d.stepAt id = some x)
include hx

theorem primaryHalt_of_halted (hst : x.stage = .primary) (hh : d.halted x.primary = true) :
    primaryHalt id d =
      let z := d.runEnd x.primary false
      let x' := { x with exit := z.rd CORE_SEQ_EXIT.CODE x.primary }
      if z.rd CORE_SEQ_STAT.HALT_CAUSE x.primary ≠ 1 then (z.stepDone { x with exit := 0 } 1 false (some (0x905, x.primary))).dispatch
      else if x'.exit.testBit 15 then (z.stepDone x' 2 false (some (0x904, x.primary))).dispatch
      else if !(x.selected || (x'.exit.testBit 14 && z.bit CHK_CTRL.FORCE_UNCHECKED)) then (z.stepDone x' 0 false none).dispatch
      else z.wantCore { x' with selected := true } .wantReplay := by
  unfold primaryHalt
  rw [hx]
  exact if_neg (by rw [hst, hh]; exact Bool.false_ne_true)

theorem compareDone_of_compare {outs stages : List Nat} (hst : x.stage = .compare)
    (ha : Dev.dataOnly x.outDa x.blocks d = (outs, a)) (hb : Dev.dataOnly x.stageDa x.blocks a = (stages, b)) :
    compareDone id d =
      let w := { x with diff := ((outs.zip stages).filter (fun q => q.1 != q.2)).length, repDigest := runDigest stages }
      if x.repOk && x.repExit == x.exit && w.diff == 0 then (b.stepDone w 0 false none).dispatch
      else if b.bit CHK_CTRL.TIEBREAK then b.wantCore w .wantTie
      else (b.stepDone w 3 false (some (0x903, w.primary))).dispatch := by
  have hne : (x.stage != .compare) = false := by rw [hst]; rfl
  simp only [compareDone, hx, hne, ha, hb, Bool.false_eq_true, if_false]

theorem compareDone_of_other (hst : x.stage ≠ .compare) : compareDone id d = d := by
  unfold compareDone
  rw [hx]
  exact if_pos (bne_iff_ne.2 hst)

theorem replayHalt_of_halted (hst : x.stage = .replay) (hu : x.under = some c) (hh : d.halted c = true) :
    replayHalt id d = (d.runEnd c false).setStep
      { x with stage := .compare, repExit := d.rd CORE_SEQ_EXIT.CODE c,
               repOk := d.rd CORE_SEQ_STAT.HALT_CAUSE c == 1 } := by
  simp only [replayHalt, hx, hst, hu, hh, Bool.not_true, Bool.false_eq_true, if_false]

/-- A tiebreak run that ends decides for the primary, for the replay or for neither. -/
theorem tiebreakHalt_of_halted {outs stages : List Nat} (hst : x.stage = .tie) (hu : x.tie = some c)
    (hh : d.halted c = true) (ha : Dev.dataOnly x.outDa x.blocks (d.runEnd c false) = (outs, a))
    (hb : Dev.dataOnly x.stageDa x.blocks a = (stages, b)) :
    tiebreakHalt id d =
      let z := d.runEnd c false
      (if z.rd CORE_SEQ_STAT.HALT_CAUSE c == 1 && z.rd CORE_SEQ_EXIT.CODE c == x.exit && outs == stages then
         b.stepDone x 0 false (some (0x902, x.under.getD 0))
       else if z.rd CORE_SEQ_STAT.HALT_CAUSE c == 1 && x.repOk && z.rd CORE_SEQ_EXIT.CODE c == x.repExit &&
           runDigest stages == x.repDigest then
         (Dev.commitStage x x.blocks b).stepDone x 0 true (some (0x901, x.primary))
       else b.stepDone x 3 false (some (0x903, x.primary))).dispatch := by
  simp only [tiebreakHalt, hx, hst, hu, hh, ha, hb, Bool.not_true, Bool.false_eq_true, if_false]

end

/-- A core that has become free is taken by the step that wants one. -/
def Dev.coreFor (d : Dev) (id : Nat) : Dev :=
  match d.stepAt id with
  | some x => if x.stage == .wantReplay || x.stage == .wantTie then d.takeCore x else d
  | none => d

/-- The run of a step past its limit is halted. -/
def Dev.stepLimit (d : Dev) (id : Nat) : Dev :=
  match d.stepAt id with
  | some x =>
    (match x.stage, x.under, x.tie with
     | .replay, some c, _ => d.haltReq c
     | .tie, _, some c => d.haltReq c
     | _, _, _ => d)
  | none => d

section
variable (hx : d.stepAt id = some x)
include hx

theorem Dev.coreFor_of_waiting (hst : x.stage = .wantReplay ∨ x.stage = .wantTie) : d.coreFor id = d.takeCore x := by
  unfold Dev.coreFor
  rw [hx]
  exact if_pos (by rcases hst with h | h <;> rw [h] <;> rfl)

theorem Dev.coreFor_of_primary (hst : x.stage = .primary) : d.coreFor id = d := by
  unfold Dev.coreFor
  rw [hx]
  exact if_neg (by rw [hst]; decide)

theorem Dev.stepLimit_of_primary (hst : x.stage = .primary) : d.stepLimit id = d := by simp only [Dev.stepLimit, hx, hst]

theorem Dev.stepLimit_of_replay (hst : x.stage = .replay) (hu : x.under = some c) : d.stepLimit id = d.haltReq c := by
  simp only [Dev.stepLimit, hx, hst, hu]

theorem Dev.stepLimit_of_tie (hst : x.stage = .tie) (hu : x.tie = some c) : d.stepLimit id = d.haltReq c := by
  simp only [Dev.stepLimit, hx, hst, hu]

end

/-- The tiebreak run agrees with the primary: exit code and region. -/
theorem tieFirst_iff {ok : Bool} {m n : Nat} {l k : List Nat} :
    (ok && m == n && l == k) = true ↔ ok = true ∧ m = n ∧ l = k := by simp [and_assoc]

/-- The tiebreak run agrees with the replay: exit code and digest. -/
theorem tieSecond_iff {ok rep : Bool} {m n l k : Nat} :
    (ok && rep && m == n && l == k) = true ↔ ok = true ∧ rep = true ∧ m = n ∧ l = k := by simp [and_assoc]

/-! ### The commands -/

section
variable (hl : Live s)
include hl

theorem gives_chkDoorbell_iff (hp : p < 64) : Gives (.chkDoorbell p who v) s t ↔ s.dev.chkDoorbell p who v = t := by
  simpa only [Nat.mod_eq_of_lt hp] using
    gives_iff_of_act (i := .chkDoorbell p who v) (f := fun d => d.chkDoorbell (p % 64) who v) rfl hl
theorem gives_chkStep_iff (hp : p < 64) : Gives (.chkStep p) s t ↔ chkTake false p s.dev = t := by
  simpa only [Nat.mod_eq_of_lt hp] using gives_iff_of_act (i := .chkStep p) (f := chkTake false (p % 64)) rfl hl
theorem gives_chkStepNop_iff (hp : p < 64) : Gives (.chkStepNop p) s t ↔ chkTake true p s.dev = t := by
  simpa only [Nat.mod_eq_of_lt hp] using gives_iff_of_act (i := .chkStepNop p) (f := chkTake true (p % 64)) rfl hl
theorem gives_primaryHalt_iff : Gives (.primaryHalt id) s t ↔ primaryHalt id s.dev = t := gives_iff_of_act rfl hl
theorem gives_replayHalt_iff : Gives (.replayHalt id) s t ↔ replayHalt id s.dev = t := gives_iff_of_act rfl hl
theorem gives_compareDone_iff : Gives (.compareDone id) s t ↔ compareDone id s.dev = t := gives_iff_of_act rfl hl
theorem gives_tiebreakHalt_iff : Gives (.tiebreakHalt id) s t ↔ tiebreakHalt id s.dev = t := gives_iff_of_act rfl hl

theorem gives_understudyCoreAvailable_iff : Gives (.understudyCoreAvailable id) s t ↔ s.dev.coreFor id = t := by
  refine gives_iff_of_act (f := fun d => d.coreFor id) ?_ hl
  show execUnderstudyCoreAvailable id s = _
  unfold execUnderstudyCoreAvailable Dev.coreFor
  refine congrArg (act s) (funext fun d => ?_)
  cases d.stepAt id <;> rfl

theorem gives_replayTimeout_iff : Gives (.replayTimeout id) s t ↔ s.dev.stepLimit id = t := by
  refine gives_iff_of_act (f := fun d => d.stepLimit id) ?_ hl
  show execReplayTimeout id s = _
  unfold execReplayTimeout Dev.stepLimit
  refine congrArg (act s) (funext fun d => ?_)
  cases d.stepAt id with
  | none => rfl
  | some x => obtain ⟨_, _, _, _, _, _, stage, under, tie, _⟩ := x; cases stage <;> cases under <;> cases tie <;> rfl

/-- A step that is not in the list is not moved. -/
theorem gives_of_noStep (hx : s.dev.stepAt id = none) :
    ∀ i ∈ [Instr.primaryHalt id, .understudyCoreAvailable id, .replayHalt id, .replayTimeout id, .compareDone id,
      .tiebreakHalt id], Gives i s s.dev := by
  simp only [List.forall_mem_cons, List.not_mem_nil, false_implies, implies_true, and_true]
  exact ⟨(gives_primaryHalt_iff hl).2 (by unfold primaryHalt; rw [hx]),
    (gives_understudyCoreAvailable_iff hl).2 (by unfold Dev.coreFor; rw [hx]),
    (gives_replayHalt_iff hl).2 (by unfold replayHalt; rw [hx]),
    (gives_replayTimeout_iff hl).2 (by unfold Dev.stepLimit; rw [hx]),
    (gives_compareDone_iff hl).2 (by unfold compareDone; rw [hx]),
    (gives_tiebreakHalt_iff hl).2 (by unfold tiebreakHalt; rw [hx])⟩

end

end Sys2Proof.Machine

namespace Sys2Proof.Claims
open Sys2Proof Sys2Proof.Machine

/-- Settles O47: the writer decides a doorbell, the OP, the tenant and the table a descriptor, and the stage of a step with
the cause, the exit code and the regions of its run what ends it. -/
theorem understudySteps : Obligations.UnderstudySteps := by
  intro s p v desc who x c e a b hl hp d id ix taken y z exit x' normal sel
  refine ⟨fun m hm => ?doorbell, fun hen => ⟨(gives_chkStep_iff hl hp).2 (chkTake_of_off hen),
      (gives_chkStepNop_iff hl hp).2 (chkTake_of_off hen)⟩, fun ht => ?take, fun hr hc => ?primary,
    fun hx => ⟨fun hst => ?free, fun hst => ?early⟩, fun hr hu => ?replay, fun hx hst hu => ?replayLimit,
    fun hx hst hu => ?tieLimit, fun outs stages hx hst ha hb => ?compare, fun outs stages hr hu ha hb => ?tie,
    gives_of_noStep hl⟩
  case doorbell =>
    intro t is in' ahead
    have hbell := Dev.chkDoorbell_of_read (who := who) (v := v) hm
    refine ⟨fun hi hn => (gives_chkDoorbell_iff hl hp).2 (hbell.trans (if_neg ?_)),
      fun ho => (gives_chkDoorbell_iff hl hp).2 (hbell.trans (if_pos ?_))⟩
    · show ¬(!is.1 || !in'.1) = true
      simp [hi, hn]
    · show (!is.1 || !in'.1) = true
      simpa using ho
  case take =>
    intro done entry held
    have step {e : Dev} (h : d.chkTaken taken false p y = e) : Gives (.chkStep p) s e :=
      (gives_chkStep_iff hl hp).2 ((chkTake_of_takes ht rfl rfl).trans h)
    have nop {e : Dev} (h : d.chkTaken taken true p y = e) : Gives (.chkStepNop p) s e :=
      (gives_chkStepNop_iff hl hp).2 ((chkTake_of_takes ht rfl rfl).trans h)
    exact ⟨fun hop hf => nop ((Dev.chkTaken_of_free (beq_iff_eq.2 hop) hf).trans (if_pos rfl)),
      fun hop hf hb => step ((Dev.chkTaken_of_free (beq_eq_false_iff_ne.2 hop) hf).trans
        ((if_neg Bool.false_ne_true).trans (if_pos hb))),
      fun hop hf hb => step ((Dev.chkTaken_of_free (beq_eq_false_iff_ne.2 hop) hf).trans
        ((if_neg Bool.false_ne_true).trans (if_neg (Bool.eq_false_iff.1 hb)))),
      fun hop hh => nop (Dev.chkTaken_of_held (beq_iff_eq.2 hop) hh.1 hh.2),
      fun hop hh => step (Dev.chkTaken_of_held (beq_eq_false_iff_ne.2 hop) hh.1 hh.2),
      fun hop => nop (Dev.chkTaken_of_other (by simp [hop])), fun hop => step (Dev.chkTaken_of_other (by simp [hop]))⟩
  case primary =>
    obtain ⟨hx, hst, hh⟩ := hr
    subst hc
    have halt := primaryHalt_of_halted hx hst hh
    exact ⟨fun hn => (gives_primaryHalt_iff hl).2 (halt.trans (if_pos hn)),
      fun hn he => (gives_primaryHalt_iff hl).2 (halt.trans ((if_neg (not_not.2 hn)).trans (if_pos he))),
      fun hn he hs => (gives_primaryHalt_iff hl).2 (halt.trans ((if_neg (not_not.2 hn)).trans
        ((if_neg (Bool.eq_false_iff.1 he)).trans (if_pos ((Bool.not_eq_true' _).mpr (Bool.eq_false_iff.2 hs)))))),
      fun hn he hs => (gives_primaryHalt_iff hl).2 (halt.trans ((if_neg (not_not.2 hn)).trans
        ((if_neg (Bool.eq_false_iff.1 he)).trans (if_neg fun h => Bool.false_ne_true (((Bool.not_eq_true' _).mp h).symm.trans hs)))))⟩
  case free => exact (gives_understudyCoreAvailable_iff hl).2 (Dev.coreFor_of_waiting hx hst)
  case early =>
    exact ⟨(gives_understudyCoreAvailable_iff hl).2 (Dev.coreFor_of_primary hx hst),
      (gives_replayTimeout_iff hl).2 (Dev.stepLimit_of_primary hx hst),
      (gives_compareDone_iff hl).2 (compareDone_of_other hx (by rw [hst]; decide))⟩
  case replay =>
    obtain ⟨hx, hst, hh⟩ := hr
    exact (gives_replayHalt_iff hl).2 (replayHalt_of_halted hx hst hu hh)
  case replayLimit => exact (gives_replayTimeout_iff hl).2 (Dev.stepLimit_of_replay hx hst hu)
  case tieLimit => exact (gives_replayTimeout_iff hl).2 (Dev.stepLimit_of_tie hx hst hu)
  case compare =>
    intro w same
    have done := compareDone_of_compare hx hst ha hb
    exact ⟨fun hs => (gives_compareDone_iff hl).2 (done.trans (if_pos hs)),
      fun hs ht => (gives_compareDone_iff hl).2 (done.trans ((if_neg hs).trans (if_pos ht))),
      fun hs ht => (gives_compareDone_iff hl).2 (done.trans ((if_neg hs).trans (if_neg (Bool.eq_false_iff.1 ht))))⟩
  case tie =>
    intro ok first second
    obtain ⟨hx, hst, hh⟩ := hr
    have halt := tiebreakHalt_of_halted hx hst hu hh ha hb
    exact ⟨fun h1 => (gives_tiebreakHalt_iff hl).2 (halt.trans (congrArg Dev.dispatch (if_pos (tieFirst_iff.2 h1)))),
      fun h1 h2 => (gives_tiebreakHalt_iff hl).2 (halt.trans (congrArg Dev.dispatch
        ((if_neg (mt tieFirst_iff.1 h1)).trans (if_pos (tieSecond_iff.2 h2))))),
      fun h1 h2 => (gives_tiebreakHalt_iff hl).2 (halt.trans (congrArg Dev.dispatch
        ((if_neg (mt tieFirst_iff.1 h1)).trans (if_neg (mt tieSecond_iff.1 h2)))))⟩

end Sys2Proof.Claims
end

section
/-! Rehearsal: its commands (R487), its timers (R488, R489) and the judgement of a kernel that has halted (R486). -/
namespace Sys2Proof.Machine
open Sys2Proof Sys2Proof.Claims

variable {s : State} {d e t : Dev} {c target mask : Nat} {cs es : List Nat} {r : Reh} {f : Dev → Dev}

/-! ### CHK_REH_CMD -/

theorem Dev.rehCmd_busy (hb : d.bit CHK_REH_RESULT.BUSY = true) : d.rehCmd f = d.wr CHK_REH_RESULT.CMD_LOST 1 := if_pos hb

theorem Dev.rehCmd_idle (hb : ¬d.bit CHK_REH_RESULT.BUSY = true) : d.rehCmd f = f d := if_neg hb

/-- A run on the eligible cores `es`. -/
def Dev.rehBegin (d : Dev) (mask : Nat) (es : List Nat) : Dev :=
  (es.foldl (fun d c => d.rehStart c mask true) ((d.wr CHK_REH_RESULT.CODE 0).wr CHK_REH_RESULT.BUSY 1)).rehSettle

theorem Dev.rehRun_of_none (hb : ¬d.bit CHK_REH_RESULT.BUSY = true)
    (hn : cs.filter (d.wr CHK_REH_RESULT.TARGET target).rehEligible = []) :
    d.rehRun target mask cs = (d.wr CHK_REH_RESULT.TARGET target).wr CHK_REH_RESULT.CODE 2 := by
  rw [Dev.rehRun, Dev.rehCmd_idle hb]
  simp only [hn]

theorem Dev.rehRun_of_some (hb : ¬d.bit CHK_REH_RESULT.BUSY = true)
    (hn : cs.filter (d.wr CHK_REH_RESULT.TARGET target).rehEligible = es) (hes : es ≠ []) :
    d.rehRun target mask cs = (d.wr CHK_REH_RESULT.TARGET target).rehBegin mask es := by
  rw [Dev.rehRun, Dev.rehCmd_idle hb]
  simp only [hn]
  cases es with
  | nil => exact absurd rfl hes
  | cons c es => rfl

/-! ### A kernel that has halted (R486) -/

section
variable (hr : d.rehs.find? (fun r => r.core == c) = some r)
include hr

theorem rehKernelHalt_of_running (hh : d.halted c = false) : rehKernelHalt c d = d := by
  simp only [rehKernelHalt, hr, hh, Bool.not_false, if_true]

/-- Limit, cause, exit code and digest are judged in this order. -/
theorem rehKernelHalt_of_halted {vs : List Nat} (hh : d.halted c = true) (hg : r.gone = false)
    (hv : Dev.dataOnly (sliceDa c (d.rd CHK_REH_SCRATCH.OFFSET * 4096)) (max 1 (min 256 (word32 r.entry 3 % 2 ^ 9))) d =
      (vs, e)) :
    rehKernelHalt c d =
      if r.limit then (d.rehEnd r 2 r.kernel 2 false).dispatch
      else if d.rd CORE_SEQ_STAT.HALT_CAUSE c ≠ 1 then (d.rehEnd r 2 r.kernel 3 false).dispatch
      else if d.rd CORE_SEQ_EXIT.CODE c ≠ word32 r.entry 5 % 2 ^ 16 then (d.rehEnd r 2 r.kernel 0 false).dispatch
      else if runDigest vs ≠ word32 r.entry 4 then (e.rehEnd r 2 r.kernel 1 false).dispatch
      else (Dev.rehNext r r.todo e).dispatch := by
  simp only [rehKernelHalt, hr, hh, hg, hv, Bool.not_true, Bool.false_eq_true, if_false]

end

theorem rehKernelHalt_of_none (hr : d.rehs.find? (fun r => r.core == c) = none) : rehKernelHalt c d = d := by
  simp only [rehKernelHalt, hr]

/-! ### The timers (R488, R489) -/

/-- The core that AUTO takes next. -/
def Dev.rehNextCore (d : Dev) : Option Nat :=
  ((List.range 4096).map (fun i => (d.rehLast + 1 + i) % 4096)).find? d.rehEligible

/-- AUTO takes the next eligible core, one at a time. -/
def Dev.rehAuto (d : Dev) : Dev :=
  if !d.bit CHK_REH_CTRL.AUTO || d.rehs.any (fun r => !r.cmd) then d
  else
    match d.rehNextCore with
    | some c => { d.rehStart c 0xFFFF false with rehLast := c }
    | none => d

theorem Dev.rehAuto_of_some (ha : d.bit CHK_REH_CTRL.AUTO = true) (hn : d.rehs.any (fun r => !r.cmd) = false)
    (hc : d.rehNextCore = some c) : d.rehAuto = { d.rehStart c 0xFFFF false with rehLast := c } := by
  simp only [Dev.rehAuto, ha, hn, hc, Bool.not_true, Bool.or_self, Bool.false_eq_true, if_false]

theorem Dev.rehAuto_of_off (h : d.bit CHK_REH_CTRL.AUTO = false ∨ d.rehs.any (fun r => !r.cmd) = true) : d.rehAuto = d :=
  if_pos (by rcases h with h | h <;> simp [h])

/-- LIMIT halts the core of a kernel that still runs. -/
def Dev.rehLimit (d : Dev) (c : Nat) : Dev :=
  match d.rehs.find? (fun r => r.core == c) with
  | some r =>
    if r.gone || d.halted c then d
    else Dev.haltReq { d with rehs := d.rehs.map (fun x : Reh => if x.core = c then { x with limit := true } else x) } c
  | none => d

theorem Dev.rehLimit_of_running (hr : d.rehs.find? (fun r => r.core == c) = some r) (hh : d.halted c = false)
    (hg : r.gone = false) : d.rehLimit c =
      Dev.haltReq { d with rehs := d.rehs.map (fun x : Reh => if x.core = c then { x with limit := true } else x) } c := by
  unfold Dev.rehLimit
  rw [hr]
  exact if_neg (by rw [hg, hh]; exact Bool.false_ne_true)

theorem Dev.rehLimit_of_none (hr : d.rehs.find? (fun r => r.core == c) = none) : d.rehLimit c = d := by
  unfold Dev.rehLimit
  rw [hr]

/-- A dispatch that has waited abandons the run of its core. -/
def Dev.rehHold (d : Dev) (c : Nat) : Dev :=
  match d.rehs.find? (fun r => r.core == c && !r.gone), d.steps.any (fun x => x.stage == .held && x.primary == c) with
  | some r, true => ((d.addSat CL_QUEUE_ABANDON.COUNT 1 (coreCluster c)).rehAbandon r true).dispatch
  | _, _ => d

theorem Dev.rehHold_of_waiting (hr : d.rehs.find? (fun r => r.core == c && !r.gone) = some r)
    (hw : d.steps.any (fun x => x.stage == .held && x.primary == c) = true) :
    d.rehHold c = ((d.addSat CL_QUEUE_ABANDON.COUNT 1 (coreCluster c)).rehAbandon r true).dispatch := by
  unfold Dev.rehHold
  rw [hr, hw]

theorem Dev.rehHold_of_none (hr : d.rehs.find? (fun r => r.core == c && !r.gone) = none) : d.rehHold c = d := by
  unfold Dev.rehHold
  rw [hr]

/-! ### The commands -/

section
variable (hl : Live s)
include hl

theorem gives_rehRunCore_iff : Gives (.rehRunCore target mask) s t ↔ s.dev.rehRun target mask [target % 4096] = t :=
  gives_iff_of_act (f := fun d => d.rehRunCore target mask) rfl hl
theorem gives_rehRunCluster_iff : Gives (.rehRunCluster target mask) s t ↔
    s.dev.rehRun target mask ((List.range 16).map (fun k => target / 16 % 256 * 16 + k)) = t :=
  gives_iff_of_act (f := fun d => d.rehRunCluster target mask) rfl hl
theorem gives_rehStop_iff : Gives .rehStop s t ↔
    s.dev.rehCmd (fun d => (d.rehs.foldl (fun d r => d.rehAbandon r true) d).wr CHK_REH_CTRL.AUTO 0) = t :=
  gives_iff_of_act (f := Dev.rehStop) rfl hl
theorem gives_rehNop_iff : Gives .rehNop s t ↔ s.dev.rehCmd (fun d => d) = t :=
  gives_iff_of_act (f := fun d => d.rehCmd (fun d => d)) rfl hl
theorem gives_rehKernelHalt_iff : Gives (.rehKernelHalt c) s t ↔ rehKernelHalt c s.dev = t := gives_iff_of_act rfl hl

theorem gives_rehAutoTimer_iff : Gives .rehAutoTimer s t ↔ s.dev.rehAuto = t := by
  refine gives_iff_of_act (f := Dev.rehAuto) ?_ hl
  show execRehAutoTimer s = _
  unfold execRehAutoTimer Dev.rehAuto Dev.rehNextCore
  refine congrArg (act s) (funext fun d => ?_)
  generalize List.find? _ _ = o
  cases o <;> rfl

theorem gives_rehLimitTimeout_iff : Gives (.rehLimitTimeout c) s t ↔ s.dev.rehLimit c = t := by
  refine gives_iff_of_act (f := fun d => d.rehLimit c) ?_ hl
  show execRehLimitTimeout c s = _
  unfold execRehLimitTimeout Dev.rehLimit
  refine congrArg (act s) (funext fun d => ?_)
  cases d.rehs.find? (fun r => r.core == c) <;> rfl

theorem gives_rehHoldTimeout_iff : Gives (.rehHoldTimeout c) s t ↔ s.dev.rehHold c = t := by
  refine gives_iff_of_act (f := fun d => d.rehHold c) ?_ hl
  show execRehHoldTimeout c s = _
  unfold execRehHoldTimeout Dev.rehHold
  refine congrArg (act s) (funext fun d => ?_)
  cases d.rehs.find? (fun r => r.core == c && !r.gone) <;>
    cases d.steps.any (fun x => x.stage == .held && x.primary == c) <;> rfl

/-- While BUSY a command of Rehearsal is lost. -/
theorem gives_rehLost_of_busy (hb : s.dev.bit CHK_REH_RESULT.BUSY = true) :
    ∀ i ∈ [Instr.rehRunCore target mask, .rehRunCluster target mask, .rehStop, .rehNop],
      Gives i s (s.dev.wr CHK_REH_RESULT.CMD_LOST 1) := by
  simp only [List.forall_mem_cons, List.not_mem_nil, false_implies, implies_true, and_true]
  exact ⟨(gives_rehRunCore_iff hl).2 (Dev.rehCmd_busy hb), (gives_rehRunCluster_iff hl).2 (Dev.rehCmd_busy hb),
    (gives_rehStop_iff hl).2 (Dev.rehCmd_busy hb), (gives_rehNop_iff hl).2 (Dev.rehCmd_busy hb)⟩

end

end Sys2Proof.Machine

namespace Sys2Proof.Claims
open Sys2Proof Sys2Proof.Machine

/-- Settles O48: BUSY and the eligible cores decide a command, the run of the core and its state what a timer does, and
limit, cause, exit code and digest how a kernel is judged. -/
theorem rehearsalCommands : Obligations.RehearsalCommands := by
  intro s target mask c r e hl d busy named started cluster w blocks scratch judged
  refine ⟨fun hb he => ?runCore, fun hb he => ?badCore,
    fun hb hne => (gives_rehRunCluster_iff hl).2 (Dev.rehRun_of_some hb rfl hne),
    fun hb hn => (gives_rehRunCluster_iff hl).2 (Dev.rehRun_of_none hb hn),
    fun hb => (gives_rehStop_iff hl).2 (Dev.rehCmd_idle hb), fun hb => (gives_rehNop_iff hl).2 (Dev.rehCmd_idle hb),
    fun hb => gives_rehLost_of_busy hl hb, fun ha hn hc => (gives_rehAutoTimer_iff hl).2 (Dev.rehAuto_of_some ha hn hc),
    fun ho => (gives_rehAutoTimer_iff hl).2 (Dev.rehAuto_of_off ho), fun hr hh hg => ?judge,
    fun hr hh => ⟨(gives_rehKernelHalt_iff hl).2 (rehKernelHalt_of_running hr hh),
      fun hg => (gives_rehLimitTimeout_iff hl).2 (Dev.rehLimit_of_running hr hh hg)⟩,
    fun hr => ⟨(gives_rehKernelHalt_iff hl).2 (rehKernelHalt_of_none hr),
      (gives_rehLimitTimeout_iff hl).2 (Dev.rehLimit_of_none hr)⟩,
    fun hr hw => (gives_rehHoldTimeout_iff hl).2 (Dev.rehHold_of_waiting hr hw),
    fun hr => (gives_rehHoldTimeout_iff hl).2 (Dev.rehHold_of_none hr)⟩
  case runCore =>
    exact (gives_rehRunCore_iff hl).2 (Dev.rehRun_of_some hb (List.filter_cons_of_pos he) (List.cons_ne_nil _ _))
  case badCore =>
    exact (gives_rehRunCore_iff hl).2 (Dev.rehRun_of_none hb (List.filter_cons_of_neg (Bool.eq_false_iff.1 he)))
  case judge =>
    have halt {vs : List Nat} {e : Dev} := rehKernelHalt_of_halted (vs := vs) (e := e) hr hh hg
    have off {b : Bool} (h : b = false) : ¬b = true := Bool.eq_false_iff.1 h
    exact ⟨fun hli => (gives_rehKernelHalt_iff hl).2 ((halt rfl).trans (if_pos hli)),
      fun hli hc => (gives_rehKernelHalt_iff hl).2 ((halt rfl).trans ((if_neg (off hli)).trans (if_pos hc))),
      fun hli hc hx => (gives_rehKernelHalt_iff hl).2 ((halt rfl).trans ((if_neg (off hli)).trans
        ((if_neg (not_not.2 hc)).trans (if_pos hx)))),
      fun vs hli hc hx hv => ⟨fun hd => (gives_rehKernelHalt_iff hl).2 ((halt hv).trans ((if_neg (off hli)).trans
          ((if_neg (not_not.2 hc)).trans ((if_neg (not_not.2 hx)).trans (if_pos hd))))),
        fun hd => (gives_rehKernelHalt_iff hl).2 ((halt hv).trans ((if_neg (off hli)).trans
          ((if_neg (not_not.2 hc)).trans ((if_neg (not_not.2 hx)).trans (if_neg (not_not.2 hd))))))⟩⟩

end Sys2Proof.Claims
end

section
/-! Agreement between devices: commands (R439), exchanges (R430-R432, R436) and departures (R437, R438). -/
namespace Sys2Proof.Machine
open Sys2Proof Sys2Proof.Claims

variable {s : State} {d e g t : Dev} {v dev n cause left k : Nat} {r : Rx} {f : Fft} {m : Exch} {rec' : JoinRec}
  {a : Nat → Dev → Dev}

/-! ### FAB_AGREE_CMD -/

theorem Dev.agreeCmd_busy (hb : d.bit FAB_AGREE_RESULT.BUSY = true) : d.agreeCmd v a = d.wr FAB_AGREE_RESULT.CMD_LOST 1 :=
  if_pos hb

theorem Dev.agreeCmd_idle (hb : ¬d.bit FAB_AGREE_RESULT.BUSY = true) : d.agreeCmd v a = a (v % 2 ^ 10) d := if_neg hb

/-- JOIN is refused for an incompatible peer. -/
theorem Dev.agreeJoin_of_incompatible (hb : ¬d.bit FAB_AGREE_RESULT.BUSY = true)
    (hst : d.rd FAB_PEERd.STATE 0 (v % 2 ^ 10) = 4) : d.agreeJoin v false = d.agreeResult 3 (v % 2 ^ 10) :=
  (Dev.agreeCmd_idle hb).trans (if_pos (by rw [hst]; rfl))

theorem Dev.agreeJoin_of_other (hb : ¬d.bit FAB_AGREE_RESULT.BUSY = true)
    (hst : d.rd FAB_PEERd.STATE 0 (v % 2 ^ 10) ≠ 4) : d.agreeJoin v false =
      ((d.wr FAB_AGREE_RESULT.BUSY 1).wr FAB_AGREE_RESULT.TARGET (v % 2 ^ 10)).startJoin (v % 2 ^ 10) true false false :=
  (Dev.agreeCmd_idle hb).trans (if_neg (by rw [beq_eq_false_iff_ne.2 hst]; exact Bool.false_ne_true))

/-- REJOIN takes any peer. -/
theorem Dev.agreeJoin_of_rejoin (hb : ¬d.bit FAB_AGREE_RESULT.BUSY = true) : d.agreeJoin v true =
      ((d.wr FAB_AGREE_RESULT.BUSY 1).wr FAB_AGREE_RESULT.TARGET (v % 2 ^ 10)).startJoin (v % 2 ^ 10) true true false :=
  (Dev.agreeCmd_idle hb).trans (if_neg Bool.false_ne_true)

/-! ### JOIN, JOIN_ACK and JOIN_DONE -/

section
variable {j : Nat}

theorem joinReceive_of_dropped (hr : d.rxFft r f 16 = (false, e)) : joinReceive r f d = e := by
  simp only [joinReceive, hr, Bool.not_false, if_true]

theorem joinReceive_of_piece (hr : d.rxFft r f 16 = (true, e)) (hj : e.joinPiece f = (none, g)) :
    joinReceive r f d = g := by
  simp only [joinReceive, hr, hj, Bool.not_true, Bool.false_eq_true, if_false]

/-- Of two devices that send JOIN to each other, the one with the lower ID stays initiator. -/
theorem joinReceive_of_initiator (hr : d.rxFft r f 16 = (true, e)) (hj : e.joinPiece f = (some j, g))
    (hm : FMap.find g.exchs f.srcDev = some m) (hc : m.ceded = false) (hid : g.ownDev < f.srcDev) :
    joinReceive r f d = g := by
  simp only [joinReceive, hr, hj, hm, hc, hid, Option.any_some, Bool.not_true, Bool.not_false, Bool.false_eq_true, if_false,
    decide_true, Bool.and_self, if_true]

theorem joinReceive_of_responder (hr : d.rxFft r f 16 = (true, e)) (hj : e.joinPiece f = (some j, g))
    (hm : FMap.find g.exchs f.srcDev = none) : joinReceive r f d =
      let x : Dev := { g with joinRecs := FMap.set g.joinRecs f.srcDev (joinRecOf j) }
      let y := if x.rd FAB_PEERd.STATE 0 f.srcDev = 0 then x.setPeer f.srcDev 1 0 else x
      y.sendRecord 17 f.srcDev (y.joinBytes f.srcDev y.now y.now) := by
  simp only [joinReceive, hr, hj, hm, Option.any_none, Bool.not_true, Bool.false_and, Bool.false_eq_true, if_false]

theorem joinAck_of_dropped (hr : d.rxFft r f 17 = (false, e)) : joinAck r f d = e := by
  simp only [joinAck, hr, Bool.not_false, if_true]

theorem joinAck_of_stray (hr : d.rxFft r f 17 = (true, e)) (hm : FMap.find e.exchs f.srcDev = none) : joinAck r f d = e := by
  simp only [joinAck, hr, hm, Bool.not_true, Bool.false_eq_true, if_false]

/-- θ and the outcome that the initiator sends and applies. -/
theorem joinAck_of_mine (hr : d.rxFft r f 17 = (true, e)) (hm : FMap.find e.exchs f.srcDev = some m)
    (hc : m.ceded = false) (hj : e.joinPiece f = (some j, g)) : joinAck r f d =
      let theirs := joinRecOf j
      let theta : Int := (((theirs.t2 : Int) - m.t1) - ((g.now : Int) - theirs.t3)) / 2
      let out := outcomeOf (g.rd FAB_PROTO.MAJOR) g.ownDigest (g.bit FAB_AGREE_STAT.TIME_BAD) m.after theirs theta
      let x := g.wr FAB_AGREE_THETA.NS (theta % 2 ^ 64).toNat
      let x : Dev := { x with joinRecs := FMap.set x.joinRecs f.srcDev theirs }
      let x := x.sendPlain { x.newFft 18 f.srcDev with aux := out, len := 32, payload := (theta % 2 ^ 64).toNat }
      (x.applyOutcome f.srcDev out theta theirs true m.rejoin).endJoin f.srcDev 1 := by
  simp only [joinAck, hr, hm, hc, hj, Bool.not_true, Bool.false_eq_true, if_false]

theorem joinDone_of_stray (hr : d.rxFft r f 18 = (true, e)) (hm : FMap.find e.joinRecs f.srcDev = none) :
    joinDone r f d = e := by
  simp only [joinDone, hr, hm, Bool.not_true, Bool.false_eq_true, if_false]

theorem joinDone_of_record (hr : d.rxFft r f 18 = (true, e)) (hm : FMap.find e.joinRecs f.srcDev = some rec') :
    joinDone r f d = (e.applyOutcome f.srcDev f.aux (signed 64 f.payload) rec' false true).endJoin f.srcDev 1 := by
  simp only [joinDone, hr, hm, Bool.not_true, Bool.false_eq_true, if_false]

end

/-! ### DEPARTING -/

/-- A notice of a peer that has departed already changes nothing more. -/
theorem departing_of_departed (hr : d.rxFft r f 19 = (true, e)) (hst : e.rd FAB_PEERd.STATE 0 f.srcDev = 5) :
    departing r f d = e := by
  simp only [departing, hr, hst, beq_self_eq_true, Bool.or_true, if_true]

/-- The first copy ends what depends on the peer. -/
theorem departing_of_first (hr : d.rxFft r f 19 = (true, e)) (hst : e.rd FAB_PEERd.STATE 0 f.srcDev ≠ 5) :
    departing r f d =
      let x := e.setPeer f.srcDev 5 4
      let xs := x.colls.filter (fun y => y.others.any (fun q => y.devs.getD q 1024 == f.srcDev))
      let y := xs.foldl
        (fun d y => d.collEnd y 1 ((y.others.find? (fun q => y.devs.getD q 1024 == f.srcDev)).getD 0)) x
      y.abortMany ((y.connsTo f.srcDev).map (fun k => (k.1, 9, true, 1, 0)) ++
        xs.flatMap (fun y => y.conns.map (fun c => (c, 1, true, 1, 0)))) := by
  simp only [departing, hr, beq_eq_false_iff_ne.2 hst, Bool.not_true, Bool.or_self, Bool.false_eq_true, if_false]

/-- A DEPARTING notice goes out again. -/
def Dev.departAgain (d : Dev) (dev : Nat) : Dev :=
  match d.departs.find? (fun e => e.1 == dev) with
  | none => d
  | some (_, cause, left, k) =>
    let rest := d.departs.filter (fun e => e.1 != dev)
    let d := { d with departs := if left ≤ 1 then rest else rest ++ [(dev, cause, left - 1, k + 1)] }
    d.sendDeparting dev cause k

theorem Dev.departAgain_of_none (h : d.departs.find? (fun e => e.1 == dev) = none) : d.departAgain dev = d := by
  unfold Dev.departAgain
  rw [h]

theorem Dev.departAgain_of_some (h : d.departs.find? (fun e => e.1 == dev) = some (dev, cause, left, k)) :
    d.departAgain dev =
      let rest := d.departs.filter (fun e => e.1 != dev)
      let y : Dev := { d with departs := if left ≤ 1 then rest else rest ++ [(dev, cause, left - 1, k + 1)] }
      y.sendDeparting dev cause k := by
  unfold Dev.departAgain
  rw [h]

/-! ### Timers -/

/-- JOIN is sent again, at most 8 times. -/
def Dev.joinAgain (d : Dev) (dev : Nat) : Dev :=
  match FMap.find d.exchs dev with
  | none => d
  | some x =>
    if 8 ≤ x.sends then (d.setPeer dev 0 0).endJoin dev 2
    else if x.ceded then { d with exchs := FMap.set d.exchs dev { x with sends := x.sends + 1 } }
    else d.sendJoin dev x

theorem Dev.joinAgain_of_none (h : FMap.find d.exchs dev = none) : d.joinAgain dev = d := by
  unfold Dev.joinAgain
  rw [h]

theorem Dev.joinAgain_of_last (h : FMap.find d.exchs dev = some m) (h8 : 8 ≤ m.sends) :
    d.joinAgain dev = (d.setPeer dev 0 0).endJoin dev 2 := by
  unfold Dev.joinAgain
  rw [h]
  exact if_pos h8

theorem Dev.joinAgain_of_more (h : FMap.find d.exchs dev = some m) (h8 : m.sends < 8) (hc : m.ceded = false) :
    d.joinAgain dev = d.sendJoin dev m := by
  unfold Dev.joinAgain
  rw [h]
  exact (if_neg (Nat.not_le.2 h8)).trans (if_neg (Bool.eq_false_iff.1 hc))

/-! ### The commands -/

section
variable (hl : Live s)
include hl

theorem gives_agreeJoin_iff : Gives (.agreeJoin v) s t ↔ s.dev.agreeJoin v false = t :=
  gives_iff_of_act (f := fun d => d.agreeJoin v false) rfl hl
theorem gives_agreeRejoin_iff : Gives (.agreeRejoin v) s t ↔ s.dev.agreeJoin v true = t :=
  gives_iff_of_act (f := fun d => d.agreeJoin v true) rfl hl
theorem gives_agreeLeave_iff : Gives (.agreeLeave v) s t ↔ s.dev.agreeLeave v = t :=
  gives_iff_of_act (f := fun d => d.agreeLeave v) rfl hl
theorem gives_agreeForget_iff : Gives (.agreeForget v) s t ↔ s.dev.agreeForget v = t :=
  gives_iff_of_act (f := fun d => d.agreeForget v) rfl hl
theorem gives_agreeNop_iff : Gives (.agreeNop v) s t ↔ s.dev.agreeCmd v (fun _ d => d) = t :=
  gives_iff_of_act (f := fun d => d.agreeCmd v (fun _ d => d)) rfl hl
theorem gives_join_iff : Gives (.join r f) s t ↔ joinReceive r f s.dev = t := gives_iff_of_act rfl hl
theorem gives_joinAck_iff : Gives (.joinAck r f) s t ↔ joinAck r f s.dev = t := gives_iff_of_act rfl hl
theorem gives_joinDone_iff : Gives (.joinDone r f) s t ↔ joinDone r f s.dev = t := gives_iff_of_act rfl hl
theorem gives_departing_iff : Gives (.departing r f) s t ↔ departing r f s.dev = t := gives_iff_of_act rfl hl

theorem gives_recheckTimer_iff : Gives (.recheckTimer dev) s t ↔
    (if s.dev.rechecks.contains dev then
      Dev.startJoin { s.dev with rechecks := s.dev.rechecks.filter (· != dev) } dev false false true else s.dev) = t :=
  gives_iff_of_act (f := fun d => if d.rechecks.contains dev then
    Dev.startJoin { d with rechecks := d.rechecks.filter (· != dev) } dev false false true else d) rfl hl

theorem gives_joinResendTimer_iff : Gives (.joinResendTimer dev) s t ↔ s.dev.joinAgain dev = t := by
  refine gives_iff_of_act (f := fun d => d.joinAgain dev) ?_ hl
  show execJoinResendTimer dev s = _
  unfold execJoinResendTimer Dev.joinAgain
  refine congrArg (act s) (funext fun d => ?_)
  cases FMap.find d.exchs dev <;> rfl

theorem gives_departingResend_iff : Gives (.departingResend dev) s t ↔ s.dev.departAgain dev = t := by
  refine gives_iff_of_act (f := fun d => d.departAgain dev) ?_ hl
  show execDepartingResend dev s = _
  unfold execDepartingResend Dev.departAgain
  refine congrArg (act s) (funext fun d => ?_)
  cases d.departs.find? (fun e => e.1 == dev) <;> rfl

/-- While BUSY a command is lost. -/
theorem gives_agreeLost_of_busy (hb : s.dev.bit FAB_AGREE_RESULT.BUSY = true) :
    ∀ i ∈ [Instr.agreeJoin v, .agreeRejoin v, .agreeLeave v, .agreeForget v, .agreeNop v],
      Gives i s (s.dev.wr FAB_AGREE_RESULT.CMD_LOST 1) := by
  simp only [List.forall_mem_cons, List.not_mem_nil, false_implies, implies_true, and_true]
  exact ⟨(gives_agreeJoin_iff hl).2 (Dev.agreeCmd_busy hb), (gives_agreeRejoin_iff hl).2 (Dev.agreeCmd_busy hb),
    (gives_agreeLeave_iff hl).2 (Dev.agreeCmd_busy hb), (gives_agreeForget_iff hl).2 (Dev.agreeCmd_busy hb),
    (gives_agreeNop_iff hl).2 (Dev.agreeCmd_busy hb)⟩

end

end Sys2Proof.Machine

namespace Sys2Proof.Claims
open Sys2Proof Sys2Proof.Machine

/-- Settles O45: BUSY and the peer's STATE decide a command, the running exchange and the record what a packet does, and the
exchange's count what a timer does. -/
theorem agreementExchanges : Obligations.AgreementExchanges := by
  intro s v dev r f e g hl d other peer busy taken
  exact ⟨fun hb hst => (gives_agreeJoin_iff hl).2 (Dev.agreeJoin_of_other hb hst),
    fun hb hst => (gives_agreeJoin_iff hl).2 (Dev.agreeJoin_of_incompatible hb hst),
    fun hb => (gives_agreeRejoin_iff hl).2 (Dev.agreeJoin_of_rejoin hb),
    fun hb => (gives_agreeLeave_iff hl).2 (Dev.agreeCmd_idle hb),
    fun hb => (gives_agreeForget_iff hl).2 (Dev.agreeCmd_idle hb),
    fun hb => (gives_agreeNop_iff hl).2 (Dev.agreeCmd_idle hb),
    fun hb => gives_agreeLost_of_busy hl hb,
    fun j hr hj hm => (gives_join_iff hl).2 (joinReceive_of_responder hr hj hm),
    fun j m hr hj hm hc hid => (gives_join_iff hl).2 (joinReceive_of_initiator hr hj hm hc hid),
    fun hr hj => (gives_join_iff hl).2 (joinReceive_of_piece hr hj),
    fun hr => (gives_join_iff hl).2 (joinReceive_of_dropped hr),
    fun m j hr hm hc hj => (gives_joinAck_iff hl).2 (joinAck_of_mine hr hm hc hj),
    fun hr hm => (gives_joinAck_iff hl).2 (joinAck_of_stray hr hm),
    fun hr => (gives_joinAck_iff hl).2 (joinAck_of_dropped hr),
    fun theirs hr hm => (gives_joinDone_iff hl).2 (joinDone_of_record hr hm),
    fun hr hm => (gives_joinDone_iff hl).2 (joinDone_of_stray hr hm),
    fun m hm => ⟨fun h8 => (gives_joinResendTimer_iff hl).2 (Dev.joinAgain_of_last hm h8),
      fun h8 hc => (gives_joinResendTimer_iff hl).2 (Dev.joinAgain_of_more hm h8 hc)⟩,
    fun hm => (gives_joinResendTimer_iff hl).2 (Dev.joinAgain_of_none hm),
    fun hc => (gives_recheckTimer_iff hl).2 (if_pos hc),
    fun hc => (gives_recheckTimer_iff hl).2 (if_neg (Bool.eq_false_iff.1 hc)),
    fun hr hst => (gives_departing_iff hl).2 (departing_of_first hr hst),
    fun hr hst => (gives_departing_iff hl).2 (departing_of_departed hr hst),
    fun cause left k hf => (gives_departingResend_iff hl).2 (Dev.departAgain_of_some hf),
    fun hf => (gives_departingResend_iff hl).2 (Dev.departAgain_of_none hf)⟩

end Sys2Proof.Claims
end

section
/-! Fabric ports: links (R385, R396), address resolution and flow control (R386, R387), discovery (R416), PTP (R413-R415)
and MACsec associations (R412). -/
namespace Sys2Proof.Machine
open Sys2Proof Sys2Proof.Claims

variable {s : State} {d e t : Dev} {p v n i src dom quanta : Nat} {r : Rx} {who : Requester}

/-! ### Links -/

theorem Dev.fportLinkUp_of_down (hp : p < 8) (hm : d.rd FPORT_STAT.MODE p ≠ 0) (hu : d.fportUp p = false) :
    d.fportLinkUp p = (((d.wr FPORT_STAT.LINK 2 p).notePtpPort).event 6 none).noteJoined :=
  if_neg fun h => h.elim (Nat.not_le.2 hp) fun h => h.elim hm (Bool.eq_false_iff.1 hu)

theorem Dev.fportLinkUp_of_other (h : 8 ≤ p ∨ d.rd FPORT_STAT.MODE p = 0 ∨ d.fportUp p = true) : d.fportLinkUp p = d :=
  if_pos h

theorem Dev.alignment_of_up (hu : d.fportUp p = true) : d.fportLinkDown (.alignment p) = (d.countCw p 0).fportDrop p :=
  if_pos hu
theorem Dev.alignment_of_down (hu : d.fportUp p = false) : d.fportLinkDown (.alignment p) = d :=
  if_neg (Bool.eq_false_iff.1 hu)

/-- Uncorrectable codewords take a port down when they reach FEC_LIMIT. -/
theorem Dev.codewords_of_up (hu : d.fportUp p = true) : d.fportLinkDown (.codewords p n) =
    if n < d.rd FPORT_CTRL.FEC_LIMIT p then d.countCw p n else (d.countCw p n).fportDrop p :=
  if_neg (by rw [hu]; exact Bool.false_ne_true)
theorem Dev.codewords_of_down (hu : d.fportUp p = false) : d.fportLinkDown (.codewords p n) = d :=
  if_pos (by rw [hu]; rfl)

/-! ### Address resolution -/

theorem Dev.arpRequest_of_own {a : ArpRx}
    (hr : d.rxFrame a.rx (isEth a.rx 0x0806 && a.tpa == d.portIp a.rx.port % 2 ^ 32) = (true, e)) : d.arpRequest a =
      e.portSend a.rx.port (encPrio a.rx.enc) (.frame a.rx.port none
        (.arpReply (e.replyEncap a.rx a.sha (.eth 0x0806)) (e.portMac a.rx.port) a.tpa a.sha a.spa)) := by
  simp only [Dev.arpRequest, hr, if_true]

theorem Dev.arpRequest_of_other {a : ArpRx}
    (hr : d.rxFrame a.rx (isEth a.rx 0x0806 && a.tpa == d.portIp a.rx.port % 2 ^ 32) = (false, e)) : d.arpRequest a = e := by
  simp only [Dev.arpRequest, hr, Bool.false_eq_true, if_false]

section
variable {m : SolRx} {dst hops : Nat} {bare : Bool}

theorem Dev.neighborSolicitation_of_refused (hr : d.rxFrame m.rx (d.nsOk m) = (false, e)) :
    d.neighborSolicitation m = e := by
  simp only [Dev.neighborSolicitation, hr, Bool.not_false, if_true]

/-- A solicitation is answered to its source. -/
theorem Dev.neighborSolicitation_of_source (hc : m.rx.enc.carrier = .icmp6 src dst hops bare) (hs : src ≠ 0)
    (hr : d.rxFrame m.rx (d.nsOk m) = (true, e)) : d.neighborSolicitation m =
      e.portSend m.rx.port (encPrio m.rx.enc) (.frame m.rx.port none
        (.neighborAdvert (e.replyEncap m.rx (m.lla.getD m.rx.enc.srcMac) (.icmp6 m.target src 255 true)) m.target
          (e.portMac m.rx.port) true true)) := by
  simp only [Dev.neighborSolicitation, hr, hc, hs, bne_iff_ne.2 hs, Bool.not_true, Bool.false_eq_true, if_false]

/-- One with an unspecified source is answered to all nodes. -/
theorem Dev.neighborSolicitation_of_unspecified (hc : m.rx.enc.carrier = .icmp6 0 dst hops bare)
    (hr : d.rxFrame m.rx (d.nsOk m) = (true, e)) : d.neighborSolicitation m =
      e.portSend m.rx.port (encPrio m.rx.enc) (.frame m.rx.port none
        (.neighborAdvert (e.replyEncap m.rx 0x333300000001 (.icmp6 m.target (0xFF02 * 2 ^ 112 + 1) 255 true)) m.target
          (e.portMac m.rx.port) false true)) := by
  simp only [Dev.neighborSolicitation, hr, hc, bne_self_eq_false, Bool.not_true, Bool.false_eq_true, if_false, if_true]

end

/-! ### Flow control -/

theorem Dev.pfcRelease_of_held {l : List Output} (h : FMap.find d.pfcHeld p = some l) :
    d.pfcRelease p = l.foldl (fun d o => d.portEmit p o) { d with pfcHeld := FMap.del d.pfcHeld p } := by
  unfold Dev.pfcRelease
  rw [h]

theorem Dev.pfcRelease_of_none (h : FMap.find d.pfcHeld p = none) : d.pfcRelease p = d := by
  unfold Dev.pfcRelease
  rw [h]

section
variable (hl : Live s)
include hl

theorem gives_fportLinkUp_iff : Gives (.fportLinkUp p) s t ↔ s.dev.fportLinkUp p = t :=
  gives_iff_of_act (f := fun d => d.fportLinkUp p) rfl hl
theorem gives_fportLinkDown_iff {x : PortLoss} : Gives (.fportLinkDown x) s t ↔ s.dev.fportLinkDown x = t :=
  gives_iff_of_act (f := fun d => d.fportLinkDown x) rfl hl
theorem gives_arpRequest_iff {x : ArpRx} : Gives (.arpRequest x) s t ↔ s.dev.arpRequest x = t :=
  gives_iff_of_act (f := fun d => d.arpRequest x) rfl hl
theorem gives_neighborSolicitation_iff {x : SolRx} :
    Gives (.neighborSolicitation x) s t ↔ s.dev.neighborSolicitation x = t :=
  gives_iff_of_act (f := fun d => d.neighborSolicitation x) rfl hl
theorem gives_pfcPauseExpiry_iff : Gives (.pfcPauseExpiry p) s t ↔ s.dev.pfcRelease p = t :=
  gives_iff_of_act (f := fun d => d.pfcRelease p) rfl hl

theorem gives_pfcFrame_of_dropped (hr : s.dev.rxFrame r (isEth r 0x8808) true = (false, e)) :
    Gives (.pfcFrame r quanta) s e := by
  show execPfcFrame r quanta s = _
  rw [execPfcFrame, act_running _ hl]
  simp only [hr, Bool.not_false, if_true]

section
variable (hr : s.dev.rxFrame r (isEth r 0x8808) true = (true, e))
include hr

/-- Without flow control the port does not accept a PFC frame. -/
theorem gives_pfcFrame_of_off (ho : FMap.find e.pfcOn r.port = none) :
    Gives (.pfcFrame r quanta) s (e.dropFrame r.port 6) := by
  show execPfcFrame r quanta s = _
  rw [execPfcFrame, act_running _ hl]
  simp only [hr, ho, Bool.not_true, Bool.false_eq_true, if_false]

theorem gives_pfcFrame_of_release (ho : FMap.find e.pfcOn r.port ≠ none) :
    Gives (.pfcFrame r 0) s (e.pfcRelease r.port) := by
  obtain ⟨o, ho⟩ := Option.ne_none_iff_exists'.1 ho
  show execPfcFrame r 0 s = _
  rw [execPfcFrame, act_running _ hl]
  simp only [hr, ho, Bool.not_true, Bool.false_eq_true, if_false, if_true]

/-- A pause begins with nothing held, unless one lasts. -/
theorem gives_pfcFrame_of_pause (ho : FMap.find e.pfcOn r.port ≠ none) (hq : quanta ≠ 0) :
    Gives (.pfcFrame r quanta) s
      (let x := e.wr FPORT_STAT.PFC_RX 1 r.port
       if (FMap.find x.pfcHeld r.port).isSome then x else { x with pfcHeld := FMap.set x.pfcHeld r.port [] }) := by
  obtain ⟨o, ho⟩ := Option.ne_none_iff_exists'.1 ho
  show execPfcFrame r quanta s = _
  rw [execPfcFrame, act_running _ hl]
  simp only [hr, ho, hq, Bool.not_true, Bool.false_eq_true, if_false]

end

/-! ### Discovery -/

theorem gives_lldpSendTimer_iff : Gives (.lldpSendTimer p) s t ↔
    (if s.dev.bit FPORT_LLDP.EN p then s.dev.portSend p 0 (.frame p none
      (.lldp (s.dev.portMac 0) (s.dev.portMac p) (4 * s.dev.rd FPORT_LLDP.INTERVAL p) p s.dev.ownDev)) else s.dev) = t :=
  gives_iff_of_act (f := fun d => if d.bit FPORT_LLDP.EN p then d.portSend p 0 (.frame p none
      (.lldp (d.portMac 0) (d.portMac p) (4 * d.rd FPORT_LLDP.INTERVAL p) p d.ownDev)) else d) rfl hl

theorem gives_neighborTtlExpiry_iff : Gives (.neighborTtlExpiry p) s t ↔
    (if (FMap.find s.dev.nbrTtl p).isSome then s.dev.dropNeighbor p else s.dev) = t :=
  gives_iff_of_act (f := fun d => if (FMap.find d.nbrTtl p).isSome then d.dropNeighbor p else d) rfl hl

theorem gives_lldpduReceive_iff {chSub ch chLen pSub pid pLen ttl : Nat} :
    Gives (.lldpduReceive r chSub ch chLen pSub pid pLen ttl) s t ↔
      lldpduReceive r chSub ch chLen pSub pid pLen ttl s.dev = t := gives_iff_of_act rfl hl

end

section
variable {chSub ch chLen pSub pid pLen ttl : Nat}

theorem lldpduReceive_of_dropped (hr : d.rxFrame r (isEth r 0x88CC) true = (false, e)) :
    lldpduReceive r chSub ch chLen pSub pid pLen ttl d = e := by
  simp only [lldpduReceive, hr, Bool.not_false, if_true]

theorem lldpduReceive_of_gone (hr : d.rxFrame r (isEth r 0x88CC) true = (true, e)) :
    lldpduReceive r chSub ch chLen pSub pid pLen 0 d = e.dropNeighbor r.port := by
  simp only [lldpduReceive, hr, Bool.not_true, Bool.false_eq_true, if_false, if_true]

/-- The neighbour's IDs, cut to 32 bytes, and its TTL. -/
theorem lldpduReceive_of_neighbor (hr : d.rxFrame r (isEth r 0x88CC) true = (true, e)) (ht : 0 < ttl) :
    lldpduReceive r chSub ch chLen pSub pid pLen ttl d =
      let x := ((((e.wr FPORT_NBR_STAT.VALID 1 r.port).wr FPORT_NBR_STAT.CH_SUB chSub r.port).wr FPORT_NBR_STAT.PORT_SUB pSub
        r.port).wr FPORT_NBR_STAT.CH_LEN (min 32 chLen) r.port).wr FPORT_NBR_STAT.PORT_LEN (min 32 pLen) r.port
      let y := (List.range 8).foldl (fun x n => (x.wr FPORT_NBR_CHASSIS.BYTES (ch % 256 ^ min 32 chLen / 2 ^ (32 * n)) r.port n).wr
        FPORT_NBR_PORT.BYTES (pid % 256 ^ min 32 pLen / 2 ^ (32 * n)) r.port n) x
      { y with nbrTtl := FMap.set y.nbrTtl r.port ttl } := by
  simp only [lldpduReceive, hr, ht.ne', Bool.not_true, Bool.false_eq_true, if_false]

end

/-! ### PTP -/

section
variable {t1 t2 t3 t4 : Nat} {two : Bool}
variable (hl : Live s)
include hl

section
variable (hr : s.dev.rxPtp r dom 1 = (false, e))
include hr

theorem gives_ptpSyncReceive_of_dropped : Gives (.ptpSyncReceive r src dom two t1) s e := by
  show execPtpSyncReceive r src dom two t1 s = _
  rw [execPtpSyncReceive, act_running _ hl]
  simp only [hr, Bool.not_false, Bool.true_or, if_true]

theorem gives_ptpFollowUpReceive_of_dropped : Gives (.ptpFollowUpReceive r src dom t1) s e := by
  show execPtpFollowUpReceive r src dom t1 s = _
  rw [execPtpFollowUpReceive, act_running _ hl]
  simp only [hr, Bool.false_and, Bool.false_eq_true, if_false]
  cases e.ptp.twoStep <;> rfl

theorem gives_ptpAnnounceReceive_of_dropped : Gives (.ptpAnnounceReceive r src dom) s e := by
  show execPtpAnnounceReceive r src dom s = _
  rw [execPtpAnnounceReceive, act_running _ hl]
  simp only [hr, Bool.false_and, Bool.false_eq_true, if_false]

theorem gives_ptpDelayRespReceive_of_dropped : Gives (.ptpDelayRespReceive r src dom t4) s e := by
  show execPtpDelayRespReceive r src dom t4 s = _
  rw [execPtpDelayRespReceive, act_running _ hl]
  simp only [hr, Bool.false_and, Bool.false_eq_true, if_false]
  cases e.ptp.t3 <;> cases e.ptp.sync <;> rfl

end

section
variable (hr : s.dev.rxPtp r dom 1 = (true, e))
include hr

/-! A message of another master than the one locked to changes nothing. -/

section
variable (hm : e.ptp.master ≠ some src)
include hm

theorem gives_ptpSyncReceive_of_other : Gives (.ptpSyncReceive r src dom two t1) s e := by
  show execPtpSyncReceive r src dom two t1 s = _
  rw [execPtpSyncReceive, act_running _ hl]
  simp only [hr, bne_iff_ne.2 hm, Bool.or_true, if_true]

theorem gives_ptpFollowUpReceive_of_other : Gives (.ptpFollowUpReceive r src dom t1) s e := by
  show execPtpFollowUpReceive r src dom t1 s = _
  rw [execPtpFollowUpReceive, act_running _ hl]
  simp only [hr, beq_eq_false_iff_ne.2 hm, Bool.and_false, Bool.false_eq_true, if_false]
  cases e.ptp.twoStep <;> rfl

theorem gives_ptpDelayRespReceive_of_other : Gives (.ptpDelayRespReceive r src dom t4) s e := by
  show execPtpDelayRespReceive r src dom t4 s = _
  rw [execPtpDelayRespReceive, act_running _ hl]
  simp only [hr, beq_eq_false_iff_ne.2 hm, Bool.and_false, Bool.false_eq_true, if_false]
  cases e.ptp.t3 <;> cases e.ptp.sync <;> rfl

end

section
variable (hm : e.ptp.master = some src)
include hm

theorem gives_ptpSyncReceive_of_oneStep :
    Gives (.ptpSyncReceive r src dom false t1) s (e.servo t1 (e.timeOf (r.port / 4))) := by
  show execPtpSyncReceive r src dom false t1 s = _
  rw [execPtpSyncReceive, act_running _ hl]
  simp only [hr, hm, bne_self_eq_false, Bool.not_true, Bool.or_self, Bool.false_eq_true, if_false]

theorem gives_ptpSyncReceive_of_twoStep : Gives (.ptpSyncReceive r src dom true t1) s
    { e with ptp := { e.ptp with twoStep := some (e.timeOf (r.port / 4)) } } := by
  show execPtpSyncReceive r src dom true t1 s = _
  rw [execPtpSyncReceive, act_running _ hl]
  simp only [hr, hm, bne_self_eq_false, Bool.not_true, Bool.or_self, Bool.false_eq_true, if_false, if_true]

theorem gives_ptpFollowUpReceive_of_twoStep (ht : e.ptp.twoStep = some t2) : Gives (.ptpFollowUpReceive r src dom t1) s
    (Dev.servo { e with ptp := { e.ptp with twoStep := none } } t1 t2) := by
  show execPtpFollowUpReceive r src dom t1 s = _
  rw [execPtpFollowUpReceive, act_running _ hl]
  simp only [hr, hm, ht, beq_self_eq_true, Bool.and_self, if_true]

theorem gives_ptpDelayRespReceive_of_stamps (h3 : e.ptp.t3 = some t3) (hs : e.ptp.sync = some (t1, t2)) :
    Gives (.ptpDelayRespReceive r src dom t4) s (Dev.wr { e with ptp := { e.ptp with t3 := none } } FAB_TIME_DELAY.NS
      ((((t2 : Int) - t1) + ((t4 : Int) - t3)) / 2).toNat) := by
  show execPtpDelayRespReceive r src dom t4 s = _
  rw [execPtpDelayRespReceive, act_running _ hl]
  simp only [hr, hm, h3, hs, beq_self_eq_true, Bool.and_self, if_true]

end

theorem gives_ptpFollowUpReceive_of_none (ht : e.ptp.twoStep = none) : Gives (.ptpFollowUpReceive r src dom t1) s e := by
  show execPtpFollowUpReceive r src dom t1 s = _
  rw [execPtpFollowUpReceive, act_running _ hl]
  simp only [hr, ht]

theorem gives_ptpDelayRespReceive_of_none (h : e.ptp.t3 = none ∨ e.ptp.sync = none) :
    Gives (.ptpDelayRespReceive r src dom t4) s e := by
  show execPtpDelayRespReceive r src dom t4 s = _
  rw [execPtpDelayRespReceive, act_running _ hl]
  rcases h with h | h
  · simp only [hr, h]
  · simp only [hr, h]
    cases e.ptp.t3 <;> rfl

/-- The first master heard is the one locked to. -/
theorem gives_ptpAnnounceReceive_of_first (hm : e.ptp.master = none) : Gives (.ptpAnnounceReceive r src dom) s
    (let x : Dev := { e with ptp := { e.ptp with master := some src } }
     if e.rd FAB_TIME_STAT.STATE = 0 then x.wr FAB_TIME_STAT.STATE 1 else x) := by
  show execPtpAnnounceReceive r src dom s = _
  rw [execPtpAnnounceReceive, act_running _ hl]
  simp only [hr, hm, beq_self_eq_true, Bool.and_self, if_true]
  rfl

theorem gives_ptpAnnounceReceive_of_locked (hm : e.ptp.master ≠ none) : Gives (.ptpAnnounceReceive r src dom) s e := by
  show execPtpAnnounceReceive r src dom s = _
  rw [execPtpAnnounceReceive, act_running _ hl]
  simp only [hr, beq_eq_false_iff_ne.2 hm, Bool.and_false, Bool.false_eq_true, if_false]

end

theorem gives_ptpDelayReqReceive_of_read {ok : Bool} (hr : s.dev.rxPtp r dom 2 = (ok, e)) :
    Gives (.ptpDelayReqReceive r dom) s (if ok then e.sendPtp (.delayResp (e.timeOf (r.port / 4))) else e) := by
  show execPtpDelayReqReceive r dom s = _
  rw [execPtpDelayReqReceive, act_running _ hl]
  simp only [hr]

/-! The timers of each role. -/

theorem gives_ptpSyncSendTimer_iff : Gives .ptpSyncSendTimer s t ↔
    (if s.dev.ptpRole = 2 then s.dev.sendPtp (.sync s.dev.ptpTime) else s.dev) = t :=
  gives_iff_of_act (f := fun d => if d.ptpRole = 2 then d.sendPtp (.sync d.ptpTime) else d) rfl hl
theorem gives_ptpAnnounceSendTimer_iff : Gives .ptpAnnounceSendTimer s t ↔
    (if s.dev.ptpRole = 2 then s.dev.sendPtp .announce else s.dev) = t :=
  gives_iff_of_act (f := fun d => if d.ptpRole = 2 then d.sendPtp .announce else d) rfl hl
theorem gives_ptpDelayReqSendTimer_iff : Gives .ptpDelayReqSendTimer s t ↔
    (if s.dev.ptpRole = 1 ∧ s.dev.ptpPort.isSome then
      Dev.sendPtp { s.dev with ptp := { s.dev.ptp with t3 := some s.dev.ptpTime } } .delayReq else s.dev) = t :=
  gives_iff_of_act (f := fun d => if d.ptpRole = 1 ∧ d.ptpPort.isSome then
    Dev.sendPtp { d with ptp := { d.ptp with t3 := some d.ptpTime } } .delayReq else d) rfl hl
theorem gives_ptpHoldoverTimeout_iff : Gives .ptpHoldoverTimeout s t ↔
    (if s.dev.ptpRole = 1 ∧ (s.dev.rd FAB_TIME_STAT.STATE = 1 ∨ s.dev.rd FAB_TIME_STAT.STATE = 2)
      then s.dev.wr FAB_TIME_STAT.STATE 3 else s.dev) = t :=
  gives_iff_of_act (f := fun d => if d.ptpRole = 1 ∧ (d.rd FAB_TIME_STAT.STATE = 1 ∨ d.rd FAB_TIME_STAT.STATE = 2)
    then d.wr FAB_TIME_STAT.STATE 3 else d) rfl hl
theorem gives_timeStep_iff : Gives .timeStep s t ↔ s.dev.stepTime (signed 64 (s.dev.rd FAB_TIME_STEP.NS)) = t :=
  gives_iff_of_act (f := fun d => d.stepTime (signed 64 (d.rd FAB_TIME_STEP.NS))) rfl hl

/-- Without a role no PTP timer does anything. -/
theorem gives_ptpTimer_of_noRole (h1 : s.dev.ptpRole ≠ 1) (h2 : s.dev.ptpRole ≠ 2) :
    ∀ i ∈ [Instr.ptpSyncSendTimer, .ptpAnnounceSendTimer, .ptpDelayReqSendTimer, .ptpHoldoverTimeout], Gives i s s.dev := by
  simp only [List.forall_mem_cons, List.not_mem_nil, false_implies, implies_true, and_true]
  exact ⟨(gives_ptpSyncSendTimer_iff hl).2 (if_neg h2), (gives_ptpAnnounceSendTimer_iff hl).2 (if_neg h2),
    (gives_ptpDelayReqSendTimer_iff hl).2 (if_neg fun h => h1 h.1),
    (gives_ptpHoldoverTimeout_iff hl).2 (if_neg fun h => h1 h.1)⟩

/-! ### MACsec -/

theorem gives_secTxAnWrite_iff : Gives (.secTxAnWrite p who v) s t ↔ s.dev.secCtrl (p % 8) who v = t :=
  gives_iff_of_act (f := fun d => d.secCtrl (p % 8) who v) rfl hl
theorem gives_saValidWrite_iff : Gives (.saValidWrite p who i v) s t ↔ s.dev.saValid (p % 8) who (i % 8) v = t :=
  gives_iff_of_act (f := fun d => d.saValid (p % 8) who (i % 8) v) rfl hl

end

theorem Dev.secCtrl_of_pf (h : isPf who = true) : d.secCtrl p who v =
    let an := v / 2 ^ 28 % 4
    let x := if an = d.rd FPORT_SEC_CTRL.TX_AN p then d else d.wr FPORT_SEC_STAT.PN_EXHAUST 0 p
    ((x.wr FPORT_SEC_CTRL.EN (v / 2 ^ 31) p).wr FPORT_SEC_CTRL.TX_AN an p).wr FPORT_SEC_CTRL.REPLAY_WIN v p :=
  if_neg (by rw [h]; exact Bool.false_ne_true)

theorem Dev.secCtrl_of_other (h : isPf who = false) : d.secCtrl p who v = d := if_pos (by rw [h]; rfl)

theorem Dev.saValid_of_refused (h : isPf who = false ∨ d.saLocked p i = true) : d.saValid p who i v = d :=
  if_pos (by rcases h with h | h <;> rw [h] <;> simp)

/-- VALID of an association, and the bit of FPORT_SEC_STAT that shows it. -/
def Dev.saShown (d : Dev) (p i v : Nat) : Dev :=
  let x := d.wr FPORT_SA_d_a_CTRL.VALID (if v.testBit 31 then 1 else 0) p i
  if i < 4 then x.setBit FPORT_SEC_STAT.TX_VALID i (v.testBit 31) p
  else x.setBit FPORT_SEC_STAT.RX_VALID (i - 4) (v.testBit 31) p

theorem Dev.saValid_of_pf (h : isPf who = true) (hk : d.saLocked p i = false) : d.saValid p who i v =
    let y := d.saShown p i v
    let key := (List.range 8).foldl (fun k w => k + y.rd FPORT_SA_d_a_KEY.KEY p i w * 2 ^ (32 * w)) 0
    let salt := (List.range 3).foldl (fun k w => k + y.rd FPORT_SA_d_a_SALT.SALT p i w * 2 ^ (32 * w)) 0
    if v.testBit 31 then
      { y with sak := FMap.set y.sak (p * 8 + i) (key, salt),
               secHigh := if i < 4 then y.secHigh else FMap.del y.secHigh (p * 4 + i - 4) }
    else { y with sak := FMap.del y.sak (p * 8 + i) } :=
  if_neg (by rw [h, hk]; exact Bool.false_ne_true)

end Sys2Proof.Machine

namespace Sys2Proof.Claims
open Sys2Proof Sys2Proof.Machine

/-- Settles O44: the port's state decides a link, what the receiver accepts a frame, the role and the master a PTP message,
and the writer and the association in use a MACsec write. -/
theorem portsTimeAndMacsec : Obligations.PortsTimeAndMacsec := by
  intro s p v i dom src t t4 r who e hl d counted dropped state master mine q j
  refine ⟨fun hp hm hu => (gives_fportLinkUp_iff hl).2 (Dev.fportLinkUp_of_down hp hm hu),
    fun h => (gives_fportLinkUp_iff hl).2 (Dev.fportLinkUp_of_other h),
    fun hu => ⟨(gives_fportLinkDown_iff hl).2 (Dev.alignment_of_up hu),
      fun hv => (gives_fportLinkDown_iff hl).2 ((Dev.codewords_of_up hu).trans (if_neg (Nat.not_lt.2 hv))),
      fun hv => (gives_fportLinkDown_iff hl).2 ((Dev.codewords_of_up hu).trans (if_pos hv))⟩,
    fun hu => ⟨(gives_fportLinkDown_iff hl).2 (Dev.alignment_of_down hu),
      (gives_fportLinkDown_iff hl).2 (Dev.codewords_of_down hu)⟩,
    fun spa tpa hr => (gives_arpRequest_iff hl).2 (Dev.arpRequest_of_own (a := ⟨r, src, spa, tpa⟩) hr),
    fun spa tpa hr => (gives_arpRequest_iff hl).2 (Dev.arpRequest_of_other (a := ⟨r, src, spa, tpa⟩) hr),
    gives_pfcFrame_of_dropped hl, fun target lla valid dst hops bare hc hr => ⟨fun hs => ?source, fun hs => ?unspecified⟩,
    fun n hn hr => (gives_neighborSolicitation_iff hl).2 (Dev.neighborSolicitation_of_refused (hn ▸ hr)),
    fun hr => ⟨gives_pfcFrame_of_off hl hr, fun ho hv => hv ▸ gives_pfcFrame_of_release hl hr ho,
      gives_pfcFrame_of_pause hl hr⟩,
    fun l hp => (gives_pfcPauseExpiry_iff hl).2 (Dev.pfcRelease_of_held hp),
    fun hp => (gives_pfcPauseExpiry_iff hl).2 (Dev.pfcRelease_of_none hp),
    fun hen => (gives_lldpSendTimer_iff hl).2 (if_pos hen),
    fun hen => (gives_lldpSendTimer_iff hl).2 (if_neg (Bool.eq_false_iff.1 hen)),
    fun chSub ch chLen pSub pid pLen hr => ⟨(gives_lldpduReceive_iff hl).2 (lldpduReceive_of_gone hr),
      fun ttl ht => (gives_lldpduReceive_iff hl).2 (lldpduReceive_of_neighbor hr ht)⟩,
    fun hr chSub ch chLen pSub pid pLen ttl => (gives_lldpduReceive_iff hl).2 (lldpduReceive_of_dropped hr),
    fun hn => (gives_neighborTtlExpiry_iff hl).2 (if_pos (Option.isSome_iff_ne_none.2 hn)),
    fun hn => (gives_neighborTtlExpiry_iff hl).2 (if_neg fun h => Option.isSome_iff_ne_none.1 h hn),
    fun hr => ?ptp,
    fun hr => ⟨fun two => gives_ptpSyncReceive_of_dropped hl hr, gives_ptpFollowUpReceive_of_dropped hl hr,
      gives_ptpAnnounceReceive_of_dropped hl hr, gives_ptpDelayRespReceive_of_dropped hl hr⟩,
    gives_ptpDelayReqReceive_of_read hl, gives_ptpDelayReqReceive_of_read hl, fun hrole => ?masterRole,
    fun hrole => ?slaveRole, gives_ptpTimer_of_noRole hl, (gives_timeStep_iff hl).2 rfl,
    fun hpf => ⟨(gives_secTxAnWrite_iff hl).2 (Dev.secCtrl_of_pf hpf), fun hk => ?association,
      fun hk => (gives_saValidWrite_iff hl).2 (Dev.saValid_of_refused (.inr hk))⟩,
    fun hpf => ⟨(gives_secTxAnWrite_iff hl).2 (Dev.secCtrl_of_other hpf),
      (gives_saValidWrite_iff hl).2 (Dev.saValid_of_refused (.inl hpf))⟩⟩
  case source =>
    exact (gives_neighborSolicitation_iff hl).2 (Dev.neighborSolicitation_of_source (m := ⟨r, target, lla, valid⟩) hc hs hr)
  case unspecified =>
    exact (gives_neighborSolicitation_iff hl).2
      (Dev.neighborSolicitation_of_unspecified (m := ⟨r, target, lla, valid⟩) (hs ▸ hc) hr)
  case ptp =>
    exact ⟨fun hm => ⟨gives_ptpSyncReceive_of_oneStep hl hr hm, gives_ptpSyncReceive_of_twoStep hl hr hm⟩,
      fun t2 hm ht => gives_ptpFollowUpReceive_of_twoStep hl hr hm ht, gives_ptpFollowUpReceive_of_none hl hr,
      gives_ptpDelayRespReceive_of_none hl hr,
      fun hm => ⟨fun two => gives_ptpSyncReceive_of_other hl hr hm, gives_ptpFollowUpReceive_of_other hl hr hm,
        gives_ptpDelayRespReceive_of_other hl hr hm⟩,
      gives_ptpAnnounceReceive_of_first hl hr, gives_ptpAnnounceReceive_of_locked hl hr,
      fun t1 t2 t3 hm h3 hs => gives_ptpDelayRespReceive_of_stamps hl hr hm h3 hs⟩
  case masterRole =>
    have h1 : s.dev.ptpRole ≠ 1 := fun h => absurd (hrole.symm.trans h) (by decide)
    exact ⟨(gives_ptpSyncSendTimer_iff hl).2 (if_pos hrole), (gives_ptpAnnounceSendTimer_iff hl).2 (if_pos hrole),
      (gives_ptpDelayReqSendTimer_iff hl).2 (if_neg fun h => h1 h.1),
      (gives_ptpHoldoverTimeout_iff hl).2 (if_neg fun h => h1 h.1)⟩
  case slaveRole =>
    have h2 : s.dev.ptpRole ≠ 2 := fun h => absurd (hrole.symm.trans h) (by decide)
    refine ⟨(gives_ptpSyncSendTimer_iff hl).2 (if_neg h2), (gives_ptpAnnounceSendTimer_iff hl).2 (if_neg h2),
      fun q hq => (gives_ptpDelayReqSendTimer_iff hl).2 ((if_pos ⟨hrole, Option.isSome_iff_exists.2 ⟨q, hq⟩⟩).trans ?stamp),
      fun hq => (gives_ptpDelayReqSendTimer_iff hl).2 (if_neg fun h => Option.isSome_iff_ne_none.1 h.2 hq),
      fun hst => (gives_ptpHoldoverTimeout_iff hl).2 (if_pos ⟨hrole, hst⟩),
      fun h1 h2 => (gives_ptpHoldoverTimeout_iff hl).2 (if_neg fun h => h.2.elim h1 h2)⟩
    rw [show s.dev.ptpTime = s.dev.timeOf (q / 4) by simp only [Dev.ptpTime, show s.dev.ptpPort = some q from hq]]
  case association =>
    have hw := Dev.saValid_of_pf (v := v) hpf hk
    exact ⟨fun hon => (gives_saValidWrite_iff hl).2 (hw.trans (if_neg (Bool.eq_false_iff.1 hon))),
      fun hon => (gives_saValidWrite_iff hl).2 (hw.trans (if_pos hon))⟩

end Sys2Proof.Claims
end

section
/-! Packets that the transport engine receives: sequenced ones (R393, R402, R404), acknowledgements (R405, R408), opening and
closing (R407, R409) and probes (R417). -/
namespace Sys2Proof.Machine
open Sys2Proof Sys2Proof.Claims

variable {s : State} {d e g t : Dev} {r : Rx} {f : Fft} {p : Bool}

/-! ### Sequenced packets -/

section
variable {typ : Nat} {act : Dev → (Bool × Bool) × Dev} {mark : Bool}

theorem Dev.rxSeq_of_refused (hr : d.rxConn r f typ Conn.isOpen = (false, e)) : d.rxSeq r f typ act mark = e := by
  simp only [Dev.rxSeq, hr, Bool.not_false, if_true]

section
variable (hr : d.rxConn r f typ Conn.isOpen = (true, e))
include hr

theorem Dev.rxSeq_of_outside (hp : (e.conn f.dstConn).psnRes f.psn = .outside) :
    d.rxSeq r f typ act mark = e.dropFrame r.port 1 := by
  simp only [Dev.rxSeq, hr, hp, Bool.not_true, Bool.false_eq_true, if_false]

theorem Dev.rxSeq_of_duplicate (hp : (e.conn f.dstConn).psnRes f.psn = .duplicate) :
    d.rxSeq r f typ act mark = e.sendAck f.dstConn (rxCe r) := by
  simp only [Dev.rxSeq, hr, hp, Bool.not_true, Bool.false_eq_true, if_false]

theorem Dev.rxSeq_of_accepted (hp : (e.conn f.dstConn).psnRes f.psn = .accept) (ha : act e = ((true, p), g)) :
    d.rxSeq r f typ act mark =
      g.accepted r f p (if mark then some ⟨f.psn, fftFlag f 7, fftFlag f 6, f.rda / 4096⟩ else none) := by
  simp only [Dev.rxSeq, hr, hp, ha, Bool.not_true, Bool.false_eq_true, if_false]

theorem Dev.rxSeq_of_rejected (hp : (e.conn f.dstConn).psnRes f.psn = .accept) (ha : act e = ((false, p), g)) :
    d.rxSeq r f typ act mark = g := by
  simp only [Dev.rxSeq, hr, hp, ha, Bool.not_true, Bool.not_false, Bool.false_eq_true, if_false, if_true]

end

end

/-- What READ_REQ does: the data joins this side's stream. -/
def readAct (f : Fft) (d : Dev) : (Bool × Bool) × Dev :=
  let p := d.allowed (connHalf f.dstConn) (d.conn f.dstConn).part f.rda (f.aux % 2 ^ 24 * 32) false
  if !p.1 then ((false, false), p.2.abortConn f.dstConn 5 f.rda)
  else ((true, false),
    p.2.queuePkts f.dstConn (dataPkts 3 none f.rda (f.payload % 2 ^ 48) (f.aux % 2 ^ 24 * 32) 0))

/-- What READ_RSP does: the data is placed and counts towards its READ. -/
def readRspAct (f : Fft) (d : Dev) : (Bool × Bool) × Dev :=
  let a := placeAt f true d
  if a.1.1 then (a.1, a.2.updConn f.dstConn (fun k => k.readGot f.rda f.len a.1.2)) else a

theorem readAct_of_refused
    (ha : d.allowed (connHalf f.dstConn) (d.conn f.dstConn).part f.rda (f.aux % 2 ^ 24 * 32) false = (false, g)) :
    readAct f d = ((false, false), g.abortConn f.dstConn 5 f.rda) := by
  simp only [readAct, ha, Bool.not_false, if_true]

theorem readAct_of_allowed
    (ha : d.allowed (connHalf f.dstConn) (d.conn f.dstConn).part f.rda (f.aux % 2 ^ 24 * 32) false = (true, g)) :
    readAct f d = ((true, false),
      g.queuePkts f.dstConn (dataPkts 3 none f.rda (f.payload % 2 ^ 48) (f.aux % 2 ^ 24 * 32) 0)) := by
  simp only [readAct, ha, Bool.not_true, Bool.false_eq_true, if_false]

theorem readRspAct_of_placed (ha : placeAt f true d = ((true, p), g)) :
    readRspAct f d = ((true, p), g.updConn f.dstConn (fun k => k.readGot f.rda f.len p)) := by
  simp only [readRspAct, ha, if_true]

/-- A connection that is open goes on sending. -/
def Dev.pumpOpen (d : Dev) (c : Nat) : Dev := if (d.conn c).isOpen then d.pump c else d

/-- A connection that is open completes what is done. -/
def Dev.settleOpen (d : Dev) (c : Nat) : Dev := if (d.conn c).isOpen then d.settle c else d

theorem fftReadReq_eq : fftReadReq r f d = (d.rxSeq r f 2 (readAct f) false).pumpOpen f.dstConn := rfl
theorem fftReadRsp_eq : fftReadRsp r f d = (d.rxSeq r f 3 (readRspAct f) true).settleOpen f.dstConn := rfl

/-! ### Acknowledgements -/

theorem fftAck_of_refused (hr : d.rxConn r f 5 Conn.isOpen = (false, e)) : fftAck r f d = e := by
  simp only [fftAck, hr, Bool.false_eq_true, if_false]

theorem fftAck_of_taken (hr : d.rxConn r f 5 Conn.isOpen = (true, e)) :
    fftAck r f d = (e.ceBack r f.dstConn).takeAck f.dstConn f 0 := by
  simp only [fftAck, hr, if_true]

theorem fftSack_of_refused (hr : d.rxConn r f 6 Conn.isOpen = (false, e)) : fftSack r f d = e := by
  simp only [fftSack, hr, Bool.not_false, if_true]

/-- The work request that a SACK names takes its status, and packets with REORDER accepted above them go out again. -/
theorem fftSack_of_taken (hr : d.rxConn r f 6 Conn.isOpen = (true, e)) : fftSack r f d =
    let x := e.ceBack r f.dstConn
    let named := ((x.conn f.dstConn).txq.find? (fun p => p.psn == f.psn)).bind TxPkt.wr
    let status := if fftFlag f 4 then 6 else if fftFlag f 0 then 8 else 0
    let y := (named.bind (fun i => if status = 0 then none else some i)).elim x
      (fun i => x.updConn f.dstConn (fun k => k.wrStatus i status))
    let bits := f.payload % 2 ^ 512
    let z := y.takeAck f.dstConn f bits
    let above := fun (p : Nat) => (p + 2 ^ 24 - f.aux % 2 ^ 24 - 1) % 2 ^ 24
    ((z.conn f.dstConn).txq.filter (fun p => p.sent && !p.acked &&
      decide (z.rd FAB_RETX.REORDER ≤ ((List.range 512).filter (fun b => bits.testBit b && decide (above p.psn < b))).length) &&
      decide (above p.psn < 512))).foldl (fun x p => x.sendPsn f.dstConn p.psn true) z := by
  simp only [fftSack, hr, Bool.not_true, Bool.false_eq_true, if_false]
  cases (((e.ceBack r f.dstConn).conn f.dstConn).txq.find? (fun p => p.psn == f.psn)).bind TxPkt.wr with
  | none => rfl
  | some i => cases fftFlag f 4 <;> cases fftFlag f 0 <;> rfl

/-! ### Opening and closing -/

section
variable (hr : d.rxConn r f 8 (fun k => k.st == 1 || k.st == 2) false = (true, e))
  (ho : e.peerOpens (e.conn f.dstConn) = true)
include hr ho

theorem fftOpen_of_opening (hst : (e.conn f.dstConn).st = 1) :
    fftOpen r f d = (e.goOpen f.dstConn (max (e.conn f.dstConn).epoch f.aux)).sendOpenAck f.dstConn := by
  simp only [fftOpen, hr, ho, hst, Bool.not_true, Bool.false_eq_true, if_false, if_true]

theorem fftOpen_of_newEpoch (hst : (e.conn f.dstConn).st = 2) (hep : (e.conn f.dstConn).epoch < f.aux) :
    fftOpen r f d = (e.abortConn f.dstConn 6).reopen f.dstConn f.aux := by
  simp only [fftOpen, hr, ho, hst, hep, Bool.not_true, Bool.false_eq_true, if_false, if_true, OfNat.ofNat_ne_one]

theorem fftOpen_of_sameEpoch (hst : (e.conn f.dstConn).st = 2) (hep : f.aux ≤ (e.conn f.dstConn).epoch) :
    fftOpen r f d = e.sendOpenAck f.dstConn := by
  simp only [fftOpen, hr, ho, hst, Nat.not_lt.2 hep, Bool.not_true, Bool.false_eq_true, if_false, OfNat.ofNat_ne_one]

end

section
variable (hr : d.rxConn r f 9 (fun k => k.st == 1 || k.st == 2) false = (true, e))
include hr

theorem fftOpenAck_of_opening (ho : e.peerOpens (e.conn f.dstConn) = true) (hst : (e.conn f.dstConn).st = 1) :
    fftOpenAck r f d = e.goOpen f.dstConn f.aux := by
  simp only [fftOpenAck, hr, ho, hst, Bool.not_true, Bool.false_eq_true, if_false, if_true]

theorem fftOpenAck_of_open (ho : e.peerOpens (e.conn f.dstConn) = true) (hst : (e.conn f.dstConn).st ≠ 1) :
    fftOpenAck r f d = e := by
  simp only [fftOpenAck, hr, ho, hst, Bool.not_true, Bool.false_eq_true, if_false]

theorem fftOpenAck_of_notAgreed (ho : e.peerOpens (e.conn f.dstConn) = false) :
    fftOpenAck r f d = e.dropFrame r.port 2 := by
  simp only [fftOpenAck, hr, ho, Bool.not_true, Bool.not_false, Bool.false_eq_true, if_false, if_true]

end

theorem fftClose_of_taken (hr : d.rxConn r f 10 Conn.isOpen = (true, e)) : fftClose r f d =
    let x := ((e.wrFailAll f.dstConn 1).updConn f.dstConn (fun k =>
      { k.restart 4 k.epoch k.rate with next := k.sqPi, sqCi := k.sqPi })).teEnd f.dstConn 1
    (x.colls.filter (fun y => y.uses f.dstConn)).foldl (fun d y => d.collFail y 2 (y.rankOf f.dstConn)) x := by
  simp only [fftClose, hr, Bool.not_true, Bool.false_eq_true, if_false]

theorem fftAbort_of_taken (hr : d.rxConn r f 11 Conn.isOpen = (true, e)) : fftAbort r f d =
    let cause := if f.aux % 16 = 5 then 5 else 4
    (e.poisonOpen f.dstConn).abortMany [(f.dstConn, cause, false, abortStatus cause, f.aux % 16)] := by
  simp only [fftAbort, hr, Bool.not_true, Bool.false_eq_true, if_false]

/-! ### The commands -/

section
variable (hl : Live s)
include hl

theorem gives_fftWrite_iff : Gives (.fftWrite r f) s t ↔ s.dev.rxSeq r f 1 (placeAt f false) true = t :=
  gives_iff_of_act (f := fftWrite r f) rfl hl
theorem gives_fftReadReq_iff :
    Gives (.fftReadReq r f) s t ↔ (s.dev.rxSeq r f 2 (readAct f) false).pumpOpen f.dstConn = t :=
  gives_iff_of_act (f := fftReadReq r f) rfl hl
theorem gives_fftReadRsp_iff :
    Gives (.fftReadRsp r f) s t ↔ (s.dev.rxSeq r f 3 (readRspAct f) true).settleOpen f.dstConn = t :=
  gives_iff_of_act (f := fftReadRsp r f) rfl hl
theorem gives_fftSignal_iff : Gives (.fftSignal r f) s t ↔ s.dev.rxSeq r f 4 (fun d => ((true, false), d)) false = t :=
  gives_iff_of_act (f := fun d => d.rxSeq r f 4 (fun d => ((true, false), d)) false) rfl hl
theorem gives_fftAck_iff : Gives (.fftAck r f) s t ↔ fftAck r f s.dev = t := gives_iff_of_act rfl hl
theorem gives_fftSack_iff : Gives (.fftSack r f) s t ↔ fftSack r f s.dev = t := gives_iff_of_act rfl hl
theorem gives_fftOpen_iff : Gives (.fftOpen r f) s t ↔ fftOpen r f s.dev = t := gives_iff_of_act rfl hl
theorem gives_fftOpenAck_iff : Gives (.fftOpenAck r f) s t ↔ fftOpenAck r f s.dev = t := gives_iff_of_act rfl hl
theorem gives_fftClose_iff : Gives (.fftClose r f) s t ↔ fftClose r f s.dev = t := gives_iff_of_act rfl hl
theorem gives_fftAbort_iff : Gives (.fftAbort r f) s t ↔ fftAbort r f s.dev = t := gives_iff_of_act rfl hl

/-! Probes. -/

theorem gives_fftProbe_of_taken (hr : s.dev.rxFft r f 12 = (true, e)) : Gives (.fftProbe r f) s
    (e.sendPlain { e.newFft 13 f.srcDev with srcConn := f.dstConn, dstConn := f.srcConn }) := by
  show execFftProbe r f s = _
  rw [execFftProbe, act_running _ hl]
  simp only [hr, if_true]

theorem gives_fftProbe_of_dropped (hr : s.dev.rxFft r f 12 = (false, e)) : Gives (.fftProbe r f) s e := by
  show execFftProbe r f s = _
  rw [execFftProbe, act_running _ hl]
  simp only [hr, Bool.false_eq_true, if_false]

theorem gives_fftProbeRsp_of_dropped (hr : s.dev.rxFft r f 13 = (false, e)) : Gives (.fftProbeRsp r f) s e := by
  show execFftProbeRsp r f s = _
  rw [execFftProbeRsp, act_running _ hl]
  simp only [hr, Bool.not_false, if_true]

theorem gives_fftProbeRsp_of_out {path n : Nat} (hr : s.dev.rxFft r f 13 = (true, e))
    (hp : FMap.find e.probes (f.dstConn / 4096 % 2) = some (f.srcDev, path, n)) : Gives (.fftProbeRsp r f) s
      ((Dev.wr { e with probes := FMap.del e.probes (f.dstConn / 4096 % 2) } FPORT_TE_PROBE_RTT.NS
        (min (e.now - n) (2 ^ 32 - 1)) (4 * (f.dstConn / 4096 % 2))).teResult (f.dstConn / 4096 % 2) 1 f.srcDev) := by
  show execFftProbeRsp r f s = _
  rw [execFftProbeRsp, act_running _ hl]
  simp only [hr, hp, Bool.not_true, Bool.false_eq_true, if_false, if_true]

end

end Sys2Proof.Machine

namespace Sys2Proof.Claims
open Sys2Proof Sys2Proof.Machine

/-- Settles O42: the steps of R393 refuse a packet or take it; the window, the placing, the state of the connection and its
epoch decide what a packet that they take does. -/
theorem fabricPacketsReceived : Obligations.FabricPacketsReceived := by
  intro s r f e g hl d c k seq fresh mark n pumped settled
  exact ⟨fun hr => (gives_fftWrite_iff hl).2 (Dev.rxSeq_of_refused hr),
    fun p hr hp ha => (gives_fftWrite_iff hl).2 (Dev.rxSeq_of_accepted hr hp ha),
    fun p hr hp ha => (gives_fftWrite_iff hl).2 (Dev.rxSeq_of_rejected hr hp ha),
    fun hr hp => (gives_fftWrite_iff hl).2 (Dev.rxSeq_of_duplicate hr hp),
    fun hr hp => (gives_fftWrite_iff hl).2 (Dev.rxSeq_of_outside hr hp),
    fun hr hp ha => (gives_fftReadReq_iff hl).2
      (congrArg (fun x => Dev.pumpOpen x c) (Dev.rxSeq_of_accepted hr hp (readAct_of_allowed ha))),
    fun hr hp ha => (gives_fftReadReq_iff hl).2
      (congrArg (fun x => Dev.pumpOpen x c) (Dev.rxSeq_of_rejected hr hp (readAct_of_refused ha))),
    fun p hr hp ha => (gives_fftReadRsp_iff hl).2
      (congrArg (fun x => Dev.settleOpen x c) (Dev.rxSeq_of_accepted hr hp (readRspAct_of_placed ha))),
    fun hr hp => (gives_fftSignal_iff hl).2 (Dev.rxSeq_of_accepted hr hp rfl),
    fun hr => (gives_fftSignal_iff hl).2 (Dev.rxSeq_of_refused hr),
    fun hr => (gives_fftAck_iff hl).2 (fftAck_of_taken hr), fun hr => (gives_fftAck_iff hl).2 (fftAck_of_refused hr),
    fun hr => (gives_fftSack_iff hl).2 (fftSack_of_taken hr), fun hr => (gives_fftSack_iff hl).2 (fftSack_of_refused hr),
    fun hr ho => ⟨fun hst => (gives_fftOpen_iff hl).2 (fftOpen_of_opening hr ho hst),
      fun hst hep => (gives_fftOpen_iff hl).2 (fftOpen_of_newEpoch hr ho hst hep),
      fun hst hep => (gives_fftOpen_iff hl).2 (fftOpen_of_sameEpoch hr ho hst hep)⟩,
    fun hr => ⟨fun ho hst => (gives_fftOpenAck_iff hl).2 (fftOpenAck_of_opening hr ho hst),
      fun ho hst => (gives_fftOpenAck_iff hl).2 (fftOpenAck_of_open hr ho hst),
      fun ho => (gives_fftOpenAck_iff hl).2 (fftOpenAck_of_notAgreed hr ho)⟩,
    fun hr => (gives_fftClose_iff hl).2 (fftClose_of_taken hr), fun hr => (gives_fftAbort_iff hl).2 (fftAbort_of_taken hr),
    gives_fftProbe_of_taken hl, gives_fftProbe_of_dropped hl, fun path t hr hp => gives_fftProbeRsp_of_out hl hr hp,
    gives_fftProbeRsp_of_dropped hl⟩

end Sys2Proof.Claims
end

section
/-! Why CHALLENGE is more than a change of the outstanding nonce (R599): the draw also fills MGT_DBG_NONCE. -/
namespace Sys2Proof.Machine
open Sys2Proof Sys2Proof.Claims

/-- The device after reset with `k` in the first word of MGT_DBG_NONCE. -/
def showingNonce (k : Nat) : State := { State.reset with dev := Dev.reset.wr MGT_DBG_NONCE.NONCE k }

theorem showingNonce_awake (k : Nat) : Awake (showingNonce k) := rfl

theorem busy_showingNonce (k : Nat) : (showingNonce k).dev.bit MGT_DBG_STAT.BUSY = false := by
  have hother : (showingNonce k).dev.rd MGT_DBG_STAT.BUSY = Dev.reset.rd MGT_DBG_STAT.BUSY :=
    Dev.rd_wr_ne _ _ _ _ _ _ _ _ _ _ (by decide)
  rw [Dev.bit, hother]
  rfl

theorem nonceWord_showingNonce (k : Nat) : (showingNonce k).dev.rd MGT_DBG_NONCE.NONCE = k % 2 ^ 32 := Dev.rd_wr_same ..

theorem Dev.rd_updMgmt (d : Dev) (f : Mgmt → Mgmt) (g : Fld) : (d.updMgmt f).rd g = d.rd g := rfl

/-- A draw leaves the low word of the nonce in MGT_DBG_NONCE.0, whatever stood there. -/
theorem Dev.nonceWord_drawNonce (d : Dev) : d.drawNonce.rd MGT_DBG_NONCE.NONCE = (d.draw 256).1.toNat % 2 ^ 32 := by
  rw [Dev.drawNonce, Dev.rd_updMgmt, show List.range 8 = [0, 1, 2, 3, 4, 5, 6, 7] from rfl]
  simp (disch := decide) only [List.foldl_cons, List.foldl_nil, Dev.rd_wr_ne]
  rw [Dev.rd_wr_same, Nat.mul_zero, pow_zero, Nat.div_one]
  rfl

end Sys2Proof.Machine

namespace Sys2Proof.Claims
open Sys2Proof Sys2Proof.Machine

/-- Were the stated step of CHALLENGE the model's, the first word of MGT_DBG_NONCE would keep the value it had. -/
theorem nonceWord_kept_of_fusesDebugAndTestPort (h : Obligations.FusesDebugAndTestPort) (k : Nat) :
    (showingNonce k).dev.drawNonce.rd MGT_DBG_NONCE.NONCE = k % 2 ^ 32 := by
  obtain ⟨-, -, -, hchallenge, -⟩ := h (showingNonce k) 0 0 0 0 0 true true [] [] none (by decide)
  have hidle : ¬(showingNonce k).dev.bit MGT_DBG_STAT.BUSY = true := Bool.eq_false_iff.1 (busy_showingNonce k)
  have hstep := (gives_iff_of_ctl (f := fun d => d.dbgCmd Dev.drawNonce) rfl (showingNonce_awake k)).1
    ((hchallenge (showingNonce_awake k) hidle).2 _ _ rfl)
  rw [Dev.dbgCmd, if_neg hidle] at hstep
  rw [hstep]
  exact nonceWord_showingNonce k

/-- Refutes O52: CHALLENGE also writes the nonce into MGT_DBG_NONCE (R599), which the stated step leaves as it was. The
draw is a free value, so two devices that differ in that register alone show it: both would have to keep their word, and
both get the same one. -/
theorem not_fusesDebugAndTestPort : ¬ Obligations.FusesDebugAndTestPort := by
  intro h
  have h0 := nonceWord_kept_of_fusesDebugAndTestPort h 0
  have h1 := nonceWord_kept_of_fusesDebugAndTestPort h 1
  rw [Dev.nonceWord_drawNonce] at h0 h1
  have hsame : ((showingNonce 0).dev.draw 256).1 = ((showingNonce 1).dev.draw 256).1 := rfl
  rw [hsame, h1] at h0
  exact absurd h0 (by decide)

end Sys2Proof.Claims
end

section
/-! Requests on the management bus (R583 to R588, R593 to R595) and the update engine (R589 to R591). -/
namespace Sys2Proof.Machine
open Sys2Proof Sys2Proof.Claims

variable {s : State} {d t : Dev} {i : Instr}

/-- What a command of the control block gives is what its function makes of the device. -/
theorem gives_of_exec (x : Out) {f : Dev → Dev} (hi : exec i s = x) (hx : x = ctl s f) (hd : Awake s) (h : f s.dev = t) :
    Gives i s t :=
  (gives_iff_of_ctl (hi.trans hx) hd).2 h

/-! ### The bus, MCTP control, PLDM base and monitoring -/

/-- A dynamic address is given to a target in I3C mode that has none (R583). -/
theorem Dev.takeAddr_of_free {ok : Bool} {dyn : Nat} (hm : d.bit MGT_STAT.I3C = true) (ha : d.mgmt.i3c = none) (hok : ok = true) :
    d.takeAddr ok dyn = (d.updMgmt (fun m => { m with i3c := some (dyn % 128) })).emit (.reply 16 (.ok [d.pid])) :=
  if_pos (by rw [hm, ha, hok]; rfl)

theorem Dev.takeAddr_of_taken {ok : Bool} {dyn : Nat} (h : ¬(d.bit MGT_STAT.I3C = true ∧ d.mgmt.i3c = none)) :
    d.takeAddr ok dyn = d :=
  if_neg (fun hf => h (by
    obtain ⟨⟨hm, -⟩, ha⟩ := (by simpa using hf : (d.bit MGT_STAT.I3C = true ∧ ok = true) ∧ d.mgmt.i3c = none)
    exact ⟨hm, ha⟩))

/-- The versions that are open are a drawn value, for one of the responders. -/
theorem draw_answers (proto : Nat) (h : Gives i s ((d.draw 32).2.respond proto (.ok [(d.draw 32).1.toNat]))) :
    ∃ n, Gives i s ((d.draw 32).2.respond proto (.ok [n])) := ⟨_, h⟩

/-- There are 13 records, handles 1 to 13 (R587). -/
theorem pdrs_none {id : Nat} (h : 13 < id) : pdrs[id - 1]? = none :=
  List.getElem?_eq_none (by rw [show pdrs.length = 13 from rfl]; omega)

/-! ### Answers out of a table -/

section
variable (hd : Awake s)
include hd

theorem gives_getMctpVersionSupport_of_bound {typ : Nat} (h : typ = 1 ∨ typ = 5) :
    Gives (.getMctpVersionSupport typ) s ((s.dev.draw 32).2.respond 0 (.ok [(s.dev.draw 32).1.toNat])) := by
  show execGetMctpVersionSupport typ s = _
  rw [execGetMctpVersionSupport, ctl_lit _ hd, if_neg (by omega), if_pos h]
  rfl

/-- Effecter 41 writes PWR_ENV as host software does (R588). -/
theorem gives_setNumericEffecterValue {v : Nat} : Gives (.setNumericEffecterValue 41 v) s
    ((s.dev.putField PWR_ENV.WATTS 0 0 0 (min v 2047) (2 ^ 32 - 1)).respond 1 (.ok [])) := by
  show execSetNumericEffecterValue 41 v s = _
  rw [execSetNumericEffecterValue, ctl_lit _ hd, if_pos rfl, Dev.pldm]

theorem gives_unsupportedRequest {proto : Nat} (h : proto ≠ 5) :
    Gives (.unsupportedRequest proto) s (s.dev.respond proto .unsupported) := by
  show execUnsupportedRequest proto s = _
  rw [execUnsupportedRequest, ctl_lit _ hd, if_neg h]

theorem gives_getPldmCommands {typ : Nat} {l : List Nat} (h : pldmCommands typ = some l) :
    Gives (.getPldmCommands typ) s (s.dev.respond 1 (.ok l)) := by
  show execGetPldmCommands typ s = _
  rw [execGetPldmCommands, ctl_lit _ hd, h]
  rfl

theorem gives_getPldmCommands_of_none {typ : Nat} (h : pldmCommands typ = none) :
    Gives (.getPldmCommands typ) s (s.dev.respond 1 .invalid) := by
  show execGetPldmCommands typ s = _
  rw [execGetPldmCommands, ctl_lit _ hd, h]
  rfl

theorem gives_getPdr {id : Nat} {r : List Nat} (h : pdrs[id - 1]? = some r) : Gives (.getPdr id) s (s.dev.respond 1 (.ok r)) := by
  show execGetPdr id s = _
  rw [execGetPdr, ctl_lit _ hd, h]
  rfl

theorem gives_getPdr_of_none {id : Nat} (h : pdrs[id - 1]? = none) : Gives (.getPdr id) s (s.dev.respond 1 .invalid) := by
  show execGetPdr id s = _
  rw [execGetPdr, ctl_lit _ hd, h]
  rfl

theorem gives_getSensorReading {id : Nat} {x : Option Int} (h : s.dev.sensorRead id = some x) :
    Gives (.getSensorReading id) s (s.dev.respond 1 (.reading x)) := by
  show execGetSensorReading id s = _
  rw [execGetSensorReading, ctl_lit _ hd, h]
  rfl

theorem gives_getSensorReading_of_none {id : Nat} (h : s.dev.sensorRead id = none) :
    Gives (.getSensorReading id) s (s.dev.respond 1 .invalid) := by
  show execGetSensorReading id s = _
  rw [execGetSensorReading, ctl_lit _ hd, h]
  rfl

theorem gives_getStateSensorReadings {id : Nat} {x : Option Int} (h : s.dev.stateRead id = some x) :
    Gives (.getStateSensorReadings id) s (s.dev.respond 1 (.reading x)) := by
  show execGetStateSensorReadings id s = _
  rw [execGetStateSensorReadings, ctl_lit _ hd, h]
  rfl

theorem gives_getStateSensorReadings_of_none {id : Nat} (h : s.dev.stateRead id = none) :
    Gives (.getStateSensorReadings id) s (s.dev.respond 1 .invalid) := by
  show execGetStateSensorReadings id s = _
  rw [execGetStateSensorReadings, ctl_lit _ hd, h]
  rfl

end

/-! ### Effecter 40 -/

section
variable {id st : Nat} {fails : List Nat} {verify : List Bool} {b : BootIn}

theorem setEffecter_of_other (h : id ≠ 40) : setEffecter id st fails verify b d = d.pldm .invalid := if_pos (Or.inl h)

theorem setEffecter_run : setEffecter 40 1 fails verify b d = d.pldm (.ok []) := by
  rw [setEffecter, if_neg (by decide), if_pos rfl]

theorem setEffecter_warm (hb : d.bit SEQ_RST_RESULT.BUSY = false) :
    setEffecter 40 2 fails verify b d = (d.pldm (.ok [])).warmGo 2 fails verify := by
  rw [setEffecter, if_neg (by decide), if_neg (by decide), hb, Bool.false_and, if_neg Bool.false_ne_true, if_pos rfl]

theorem setEffecter_cold (hb : d.bit SEQ_RST_RESULT.BUSY = false) :
    setEffecter 40 3 fails verify b d = (d.pldm (.ok [])).coldGo 3 verify b := by
  rw [setEffecter, if_neg (by decide), if_neg (by decide), hb, Bool.false_and, if_neg Bool.false_ne_true, if_neg (by decide)]

end

/-! ### WRITE and CANCEL -/

section
variable {f : Dev → Dev} {bs : List Byte}

theorem Dev.imgCmd_of_writing (hw : d.bit MGT_UPD_RESULT.BUSY = true) : d.imgCmd f = d.wr MGT_UPD_RESULT.CMD_LOST 1 := if_pos hw

theorem Dev.imgCmd_of_idle (hw : ¬d.bit MGT_UPD_RESULT.BUSY = true) : d.imgCmd f = f d := if_neg hw

theorem Dev.updWrite_of_notHost (hh : d.hostUpd = false) (hw : ¬d.bit MGT_UPD_RESULT.BUSY = true) :
    d.updWrite = d.wr MGT_UPD_RESULT.CODE 7 := by
  rw [Dev.updWrite, if_pos (by rw [hh]; rfl), Dev.imgCmd_of_idle hw]

/-- While the engine writes, WRITE is lost whoever owns the engine. -/
theorem Dev.updWrite_of_writing (hw : d.bit MGT_UPD_RESULT.BUSY = true) : d.updWrite = d.wr MGT_UPD_RESULT.CMD_LOST 1 := by
  rw [Dev.updWrite, Dev.imgCmd_of_writing hw, if_pos hw, Dev.imgCmd_of_writing hw, ite_self, ite_self]

section
variable (hh : d.hostUpd = true) (ho : d.rd MGT_STAT.UPD_OWNER ≠ 1) (hw : ¬d.bit MGT_UPD_RESULT.BUSY = true)
include hh ho hw

theorem Dev.updWrite_of_staged
    (hr : ((d.wr MGT_UPD_RESULT.CODE 0).stagedBytes (d.rd MGT_UPD_SRC.DA * 8) (d.rd MGT_UPD_LEN.BYTES)).1 = some bs) :
    d.updWrite =
      ((d.wr MGT_UPD_RESULT.CODE 0).stagedBytes (d.rd MGT_UPD_SRC.DA * 8) (d.rd MGT_UPD_LEN.BYTES)).2.updStart 2 bs := by
  rw [Dev.updWrite, if_neg (by rw [hh]; exact Bool.false_ne_true), if_neg ho, Dev.imgCmd_of_idle hw]
  simp only [hr]

theorem Dev.updWrite_of_notStaged
    (hr : ((d.wr MGT_UPD_RESULT.CODE 0).stagedBytes (d.rd MGT_UPD_SRC.DA * 8) (d.rd MGT_UPD_LEN.BYTES)).1 = none) :
    d.updWrite = ((((d.wr MGT_UPD_RESULT.CODE 0).stagedBytes (d.rd MGT_UPD_SRC.DA * 8)
      (d.rd MGT_UPD_LEN.BYTES)).2.updStart 2 []).updStop 0).wr MGT_UPD_RESULT.CODE 3 := by
  rw [Dev.updWrite, if_neg (by rw [hh]; exact Bool.false_ne_true), if_neg ho, Dev.imgCmd_of_idle hw]
  simp only [hr]

end

theorem Dev.updCancel_of_host (hw : d.bit MGT_UPD_RESULT.BUSY = true) (ho : d.rd MGT_STAT.UPD_OWNER = 2) :
    d.updCancel = (d.updStop 0).wr MGT_UPD_RESULT.CODE 6 := by
  rw [Dev.updCancel, hw, Bool.not_true, if_neg Bool.false_ne_true, if_pos ho]

theorem Dev.updCancel_of_other (hw : d.bit MGT_UPD_RESULT.BUSY = true) (ho : d.rd MGT_STAT.UPD_OWNER ≠ 2) :
    d.updCancel = d.wr MGT_UPD_RESULT.CMD_LOST 1 := by
  rw [Dev.updCancel, hw, Bool.not_true, if_neg Bool.false_ne_true, if_neg ho]

theorem Dev.updCancel_of_idle (hw : ¬d.bit MGT_UPD_RESULT.BUSY = true) : d.updCancel = d :=
  if_pos (by rw [Bool.eq_false_iff.2 hw]; rfl)

/-! ### The PLDM update (R590) -/

theorem Dev.updStep_of_mem {stages : List UpdStage} (h : d.mgmt.upd.stage ∈ stages) :
    d.updStep stages f = (f d).respond 1 (.ok []) := if_pos (List.contains_iff_mem.2 h)

theorem Dev.updStep_of_notMem {stages : List UpdStage} (h : d.mgmt.upd.stage ∉ stages) :
    d.updStep stages f = d.respond 1 .badState := if_neg (fun hc => h (List.contains_iff_mem.1 hc))

/-- Outside IDLE an update agent has the engine. -/
theorem UpdStage.mem_of_ne_idle {x : UpdStage} (h : x ≠ .idle) :
    x ∈ [UpdStage.learn, .ready, .download, .verify, .apply] := by
  cases x with
  | idle => exact absurd rfl h
  | learn => decide
  | ready => decide
  | download => decide
  | verify => decide
  | apply => decide

/-- UpdateComponent erases the target copy and asks for the first piece. -/
theorem gives_updateComponent {size : Nat} (hd : Awake s) (hs : s.dev.mgmt.upd.stage = .ready) (hl : size ≤ 2 ^ 20) :
    Gives (.updateComponent 0x0352 size) s
      (((((s.dev.updStart 1 []).setStage .download).updUpd (fun u => { u with size := size })).respond 1 (.ok [])).askData) := by
  show execUpdateComponent 0x0352 size s = _
  rw [execUpdateComponent, ctl_lit _ hd, if_neg (by omega), if_neg (not_not.2 hs), Dev.pldm]

theorem gives_updateComponent_of_notReady {size : Nat} (hd : Awake s) (hs : s.dev.mgmt.upd.stage ≠ .ready)
    (hl : size ≤ 2 ^ 20) :
    Gives (.updateComponent 0x0352 size) s (s.dev.respond 1 .badState) := by
  show execUpdateComponent 0x0352 size s = _
  rw [execUpdateComponent, ctl_lit _ hd, if_neg (by omega), if_pos hs, Dev.pldm]

theorem UpdStage.notMem_of_idle {x : UpdStage} (h : x = .idle) : x ∉ [UpdStage.learn, .ready, .download, .verify, .apply] := by
  rw [h]
  decide

theorem gives_cancelUpdateComponent (hd : Awake s) (hs : s.dev.mgmt.upd.stage ∈ [UpdStage.download, .verify, .apply]) :
    Gives .cancelUpdateComponent s (((s.dev.updStop 1).setStage .ready).respond 1 (.ok [])) :=
  gives_of_exec (execCancelUpdateComponent s) rfl rfl hd
    (Dev.updStep_of_mem hs)

theorem gives_cancelUpdateComponent_of_notMem (hd : Awake s)
    (hs : s.dev.mgmt.upd.stage ∉ [UpdStage.download, .verify, .apply]) :
    Gives .cancelUpdateComponent s (s.dev.respond 1 .badState) :=
  gives_of_exec (execCancelUpdateComponent s) rfl rfl hd
    (Dev.updStep_of_notMem hs)

theorem gives_cancelUpdate (hd : Awake s) (hs : s.dev.mgmt.upd.stage ≠ .idle) :
    Gives .cancelUpdate s (s.dev.updLeave.respond 1 (.ok [])) :=
  gives_of_exec (execCancelUpdate s) rfl rfl hd
    (Dev.updStep_of_mem (UpdStage.mem_of_ne_idle hs))

theorem gives_cancelUpdate_of_idle (hd : Awake s) (hs : s.dev.mgmt.upd.stage = .idle) :
    Gives .cancelUpdate s (s.dev.respond 1 .badState) :=
  gives_of_exec (execCancelUpdate s) rfl rfl hd
    (Dev.updStep_of_notMem (UpdStage.notMem_of_idle hs))

theorem firmwareData_of_download {data : List Byte} (hs : d.mgmt.upd.stage = .download) (hj : d.mgmt.upd.job = some bs) :
    firmwareData data d = (d.updUpd (fun u =>
      { u with job := some (bs ++ (data.take 1024).take (d.mgmt.upd.size - bs.length)) })).askData := by
  simp only [firmwareData, hs, hj]

section
variable (hd : Awake s) (hs : s.dev.mgmt.upd.stage = .download) (hj : s.dev.mgmt.upd.job = some bs)
include hd hs hj

/-- With every byte here, TransferComplete is sent. -/
theorem gives_transferComplete_of_whole (hl : s.dev.mgmt.upd.size ≤ bs.length) :
    Gives .transferComplete s ((s.dev.setStage .verify).respond 1 (.request 0x16 0)) := by
  show execTransferComplete s = _
  rw [execTransferComplete, ctl_lit _ hd]
  simp only [hs, hj, if_pos hl]
  rfl

theorem gives_transferComplete_of_short (hl : bs.length < s.dev.mgmt.upd.size) : Gives .transferComplete s s.dev := by
  show execTransferComplete s = _
  rw [execTransferComplete, ctl_lit _ hd]
  simp only [hs, hj, if_neg (Nat.not_le.2 hl)]

end

section
variable {code : Nat} (hd : Awake s) (hs : s.dev.mgmt.upd.stage = .verify)
include hd hs

theorem gives_verifyComplete_of_pass (hc : s.dev.mgmt.upd.check = some (code, true)) :
    Gives .verifyComplete s ((s.dev.setStage .apply).respond 1 (.request 0x17 0)) := by
  show execVerifyComplete s = _
  rw [execVerifyComplete, ctl_lit _ hd]
  simp only [hs, hc, if_true]
  rfl

theorem gives_verifyComplete_of_fail (hc : s.dev.mgmt.upd.check = some (code, false)) :
    Gives .verifyComplete s (s.dev.respond 1 (.request 0x17 code)) := by
  show execVerifyComplete s = _
  rw [execVerifyComplete, ctl_lit _ hd]
  simp only [hs, hc, Bool.false_eq_true, if_false]
  rfl

end

end

/-! ### A copy that was written (R589, R591) -/

/-- The device whose target copy holds the bytes. -/
def Dev.programmed (d : Dev) (bs : List Byte) : Dev := { d with flash := FMap.set d.flash d.targetCopy bs }

/-- What the checks find of the bytes. -/
def Dev.foundBy (d : Dev) (bs : List Byte) : Nat := checkCopy bs true d.part.keys d.rbInForce

/-- The copy is valid and newer than what runs. -/
def Dev.passes (d : Dev) (bs : List Byte) : Bool :=
  d.foundBy bs == 1 && (d.bit SEQ_STAT.RECOVERY || decide (d.rd SEQ_IMG.SERIAL < imgSerial bs))

/-- What the host finds once the copy `bs` is checked: `pass` says whether it waits for the next cold reset. -/
def Dev.copyChecked (d : Dev) (bs : List Byte) (pass : Bool) : Dev :=
  (((d.updStop 0).wr MGT_UPD_RESULT.CHECK (d.foundBy bs)).wr MGT_UPD_RESULT.CODE (if pass then 1 else 4)).updUpd
    (fun u => { u with check := some (d.foundBy bs, pass), next := if pass then some (imgSerial bs) else u.next })

section
variable {verify : List Bool} {bs : List Byte}

theorem updateDone_of_noJob {ok : Bool} (hj : d.mgmt.upd.job = none) : updateDone ok verify d = d := by
  simp only [updateDone, hj]

section
variable (hj : d.mgmt.upd.job = some bs) (ho : d.rd MGT_STAT.UPD_OWNER = 2)
include hj ho

theorem updateDone_of_host : updateDone true verify d =
    if (d.programmed bs).passes bs then
      (((d.programmed bs).copyChecked bs ((d.programmed bs).passes bs)).wearAdd 7 1).writeWear verify
    else (d.programmed bs).copyChecked bs ((d.programmed bs).passes bs) := by
  simp only [updateDone, hj, ho, beq_self_eq_true, Bool.not_true, Bool.false_and, Bool.false_eq_true, if_false, if_true,
    Bool.true_and]
  rfl

theorem updateDone_of_fail (hp : (d.programmed bs).passes bs = false) :
    updateDone true verify d = (d.programmed bs).copyChecked bs false := by
  rw [updateDone_of_host hj ho, hp, if_neg Bool.false_ne_true]

theorem updateDone_of_pass (hp : (d.programmed bs).passes bs = true) :
    updateDone true verify d = (((d.programmed bs).copyChecked bs true).wearAdd 7 1).writeWear verify := by
  rw [updateDone_of_host hj ho, hp, if_pos rfl]

end

end

/-! ### SPDM (R593 to R595, R603) -/

section
variable {f : Dev → Answer × Dev} {a : Answer}

theorem Dev.spdm_of_erasing (he : d.mgmt.erasing = true) : d.spdm f = d.respond 5 .busy := if_pos he

theorem Dev.spdm_of_idle (he : d.mgmt.erasing = false) : d.spdm f = (f d).2.respond 5 (f d).1 :=
  if_neg (by rw [he]; exact Bool.false_ne_true)

/-- A request that changes nothing is answered, or Busy while an erase runs. -/
theorem gives_spdm (x : Out) (hi : exec i s = x) (hx : x = ctl s (fun d => d.spdm f)) (hd : Awake s) (ha : f s.dev = (a, s.dev)) :
    (s.dev.mgmt.erasing = false → Gives i s (s.dev.respond 5 a)) ∧
      (s.dev.mgmt.erasing = true → Gives i s (s.dev.respond 5 .busy)) :=
  ⟨fun he => gives_of_exec x hi hx hd (by rw [Dev.spdm_of_idle he, ha]),
    fun he => gives_of_exec x hi hx hd (Dev.spdm_of_erasing he)⟩

theorem Dev.signReply_of_erased {data : List Nat} (hk : d.mgmt.keyErased = true) : d.signReply data = (.unexpected, d) := if_pos hk

/-- While the attestation key stands, the challenge of slot 0 is signed with a drawn value. -/
theorem gives_spdmChallenge (hd : Awake s) (he : s.dev.mgmt.erasing = false) (hk : s.dev.mgmt.keyErased = false) :
    Gives (.spdmChallenge 0) s
      ((s.dev.draw 768).2.respond 5 (.ok [s.dev.chainDigest, (s.dev.draw 768).1.toNat])) := by
  show execSpdmChallenge 0 s = _
  rw [execSpdmChallenge, ctl_lit _ hd, Dev.spdm_of_idle he, if_neg (not_not.2 rfl), Dev.signReply, if_neg (by rw [hk]; exact Bool.false_ne_true)]
  rfl

theorem getMeasurements_of_beyond {index : Nat} {sign : Bool} (h5 : 5 < index) (h255 : index ≠ 255) :
    getMeasurements index sign d = (.invalid, d) := by
  rw [getMeasurements, if_neg (by omega), if_pos ⟨h5, h255⟩]

end

end Sys2Proof.Machine

namespace Sys2Proof.Claims
open Sys2Proof Sys2Proof.Machine

/-- Settles O51: each request by what its responder makes of the device, and the update engine stage by stage. -/
theorem managementRequests : Obligations.ManagementRequests := by
  intro s dyn eid typ id v off len size fails verify b data bs hd
  exact ⟨fun ⟨hm, ha⟩ => ⟨gives_of_exec (execI3cEntdaa dyn s) rfl rfl hd (Dev.takeAddr_of_free hm ha rfl),
      gives_of_exec (execI3cSetdasa s.dev.busAddr dyn s) rfl rfl hd (Dev.takeAddr_of_free hm ha (beq_self_eq_true _))⟩,
    fun h => ⟨gives_of_exec (execI3cEntdaa dyn s) rfl rfl hd (Dev.takeAddr_of_taken h),
      fun a => gives_of_exec (execI3cSetdasa a dyn s) rfl rfl hd (Dev.takeAddr_of_taken h)⟩,
    fun h0 h255 => ⟨gives_of_exec (execSetEndpointId eid s) rfl rfl hd (if_neg (not_or.2 ⟨h0.ne', Nat.not_le.2 h255⟩)),
      gives_of_exec (execSetTid eid s) rfl rfl hd (if_neg (not_or.2 ⟨h0.ne', Nat.not_le.2 h255⟩))⟩,
    fun h => ⟨gives_of_exec (execSetEndpointId eid s) rfl rfl hd (if_pos h),
      gives_of_exec (execSetTid eid s) rfl rfl hd (if_pos h)⟩,
    gives_of_exec (execGetEndpointId s) rfl rfl hd rfl, gives_of_exec (execGetEndpointUuid s) rfl rfl hd rfl,
    gives_of_exec (execGetMctpVersionSupport 0 s) rfl rfl hd (if_pos (Or.inl rfl)),
    gives_of_exec (execGetMctpVersionSupport 255 s) rfl rfl hd (if_pos (Or.inr rfl)),
    fun h => draw_answers 0 (gives_getMctpVersionSupport_of_bound hd h),
    gives_of_exec (execGetMessageTypeSupport s) rfl rfl hd rfl,
    gives_unsupportedRequest hd (by decide), gives_unsupportedRequest hd (by decide),
    gives_spdm (execUnsupportedRequest 5 s) rfl rfl hd rfl,
    gives_of_exec (execGetTid s) rfl rfl hd rfl, gives_of_exec (execGetPldmTypes s) rfl rfl hd rfl,
    fun h => ⟨draw_answers 1 (gives_of_exec (execGetPldmVersion typ s) rfl rfl hd (if_pos h)),
      fun l hl => gives_getPldmCommands hd hl⟩,
    gives_getPldmCommands_of_none hd rfl, gives_of_exec (execGetPdrRepositoryInfo s) rfl rfl hd rfl,
    fun r hr => gives_getPdr hd hr, fun h => gives_getPdr_of_none hd (pdrs_none h),
    fun x hx => gives_getSensorReading hd hx, fun h => gives_getSensorReading_of_none hd h,
    fun x hx => gives_getStateSensorReadings hd hx, fun h => gives_getStateSensorReadings_of_none hd h,
    gives_of_exec (execSetStateEffecterStates 40 1 fails verify b s) rfl rfl hd (setEffecter_run ..),
    fun h => ⟨gives_of_exec (execSetStateEffecterStates id v fails verify b s) rfl rfl hd (setEffecter_of_other h),
      gives_of_exec (execGetStateEffecterStates id s) rfl rfl hd (congrArg s.dev.pldm (if_neg h))⟩,
    fun hb => ⟨gives_of_exec (execSetStateEffecterStates 40 2 fails verify b s) rfl rfl hd (setEffecter_warm hb),
      gives_of_exec (execSetStateEffecterStates 40 3 fails verify b s) rfl rfl hd (setEffecter_cold hb)⟩,
    gives_of_exec (execGetStateEffecterStates 40 s) rfl rfl hd (congrArg s.dev.pldm (if_pos rfl)),
    gives_setNumericEffecterValue hd,
    gives_of_exec (execGetNumericEffecterValue 41 s) rfl rfl hd (congrArg s.dev.pldm (if_pos rfl)),
    fun h => ⟨gives_of_exec (execSetNumericEffecterValue id v s) rfl rfl hd (if_neg h),
      gives_of_exec (execGetNumericEffecterValue id s) rfl rfl hd (congrArg s.dev.pldm (if_neg h))⟩,
    fun hh ho hw => ⟨fun l hr => gives_of_exec (execUpdWrite s) rfl rfl hd (Dev.updWrite_of_staged hh ho hw hr),
      fun hr => gives_of_exec (execUpdWrite s) rfl rfl hd (Dev.updWrite_of_notStaged hh ho hw hr)⟩,
    fun hh hw => gives_of_exec (execUpdWrite s) rfl rfl hd (Dev.updWrite_of_notHost hh hw),
    fun hw => ⟨gives_of_exec (execUpdWrite s) rfl rfl hd (Dev.updWrite_of_writing hw),
      gives_of_exec (execUpdNop s) rfl rfl hd (if_pos hw),
      fun ho => gives_of_exec (execUpdCancel s) rfl rfl hd (Dev.updCancel_of_host hw ho),
      fun ho => gives_of_exec (execUpdCancel s) rfl rfl hd (Dev.updCancel_of_other hw ho)⟩,
    fun hw => ⟨gives_of_exec (execUpdCancel s) rfl rfl hd (Dev.updCancel_of_idle hw),
      gives_of_exec (execUpdNop s) rfl rfl hd (if_neg hw)⟩,
    gives_of_exec (execQueryDeviceIdentifiers s) rfl rfl hd rfl, gives_of_exec (execGetFirmwareParameters s) rfl rfl hd rfl,
    fun ho hs => gives_of_exec (execRequestUpdate s) rfl rfl hd (if_neg (not_or.2 ⟨not_not.2 ho, not_not.2 hs⟩)),
    fun h => gives_of_exec (execRequestUpdate s) rfl rfl hd (if_pos h),
    fun h => gives_of_exec (execPassComponentTable s) rfl rfl hd (Dev.updStep_of_mem (List.mem_pair.2 h)),
    fun hs hl => gives_updateComponent hd hs hl,
    fun hl hs => ⟨gives_updateComponent_of_notReady hd hs hl,
      gives_of_exec (execActivateFirmware s) rfl rfl hd (Dev.updStep_of_notMem (mt List.mem_singleton.1 hs))⟩,
    fun hs hj => ⟨gives_of_exec (execFirmwareDataReceive data s) rfl rfl hd (firmwareData_of_download hs hj),
      fun hl => gives_transferComplete_of_whole hd hs hj hl,
      fun hl => gives_transferComplete_of_short hd hs hj hl⟩,
    fun hs code => ⟨fun hc => gives_verifyComplete_of_pass hd hs hc, fun hc => gives_verifyComplete_of_fail hd hs hc⟩,
    fun hs => gives_of_exec (execApplyComplete s) rfl rfl hd (if_pos hs),
    fun hs => gives_of_exec (execApplyComplete s) rfl rfl hd (if_neg hs),
    fun hs => gives_of_exec (execActivateFirmware s) rfl rfl hd (Dev.updStep_of_mem (List.mem_singleton.2 hs)),
    gives_of_exec (execGetStatus s) rfl rfl hd rfl,
    fun hs => gives_cancelUpdateComponent hd hs, fun hs => gives_cancelUpdateComponent_of_notMem hd hs,
    fun hs => gives_cancelUpdate hd hs,
    fun hs => gives_cancelUpdate_of_idle hd hs,
    fun hj => gives_of_exec (execUpdateDone true verify s) rfl rfl hd (updateDone_of_noJob hj),
    fun hj ho => ⟨fun hp => gives_of_exec (execUpdateDone true verify s) rfl rfl hd
        (updateDone_of_fail hj ho (Bool.eq_false_iff.2 hp)),
      fun hp => gives_of_exec (execUpdateDone true verify s) rfl rfl hd (updateDone_of_pass hj ho hp)⟩,
    gives_spdm (execGetVersion s) rfl rfl hd rfl, gives_spdm (execGetCapabilities s) rfl rfl hd rfl,
    gives_spdm (execNegotiateAlgorithms 0x80 0x02 s) rfl rfl hd rfl, gives_spdm (execGetDigests s) rfl rfl hd rfl,
    fun hoff => gives_spdm (execGetCertificate 0 off len s) rfl rfl hd (if_neg (by omega)),
    fun hid => ⟨gives_spdm (execGetCertificate id off len s) rfl rfl hd (if_pos (Or.inl hid)),
      gives_spdm (execSpdmChallenge id s) rfl rfl hd (if_pos hid)⟩,
    fun he hk => ⟨_, gives_spdmChallenge hd he hk⟩,
    fun hk => ⟨gives_spdm (execSpdmChallenge 0 s) rfl rfl hd (Dev.signReply_of_erased hk),
      gives_spdm (execGetMeasurements 0 true s) rfl rfl hd (Dev.signReply_of_erased hk)⟩,
    gives_spdm (execGetMeasurements 0 false s) rfl rfl hd rfl,
    fun h5 h255 => gives_spdm (execGetMeasurements id false s) rfl rfl hd (getMeasurements_of_beyond h5 h255),
    gives_spdm (execGetMeasurements 5 false s) rfl rfl hd rfl⟩

end Sys2Proof.Claims
end

section
/-! Register fields of one unit: a write of one leaves those at other places alone (R11, R38). -/
namespace Sys2Proof.Machine
open Sys2Proof

variable (d : Dev) {f g : Fld}

/-- Two fields of one scope that stand at different places of a unit's window. -/
def Fld.apart (g f : Fld) : Bool := g.reg.scope == f.reg.scope && g.reg.off * 16 + g.lo != f.reg.off * 16 + f.lo

theorem Fld.key_ne_of_apart (h : g.apart f = true) (u : Nat) : g.key u 0 0 ≠ f.key u 0 0 := by
  simp only [Fld.apart, Bool.and_eq_true, beq_iff_eq, bne_iff_ne, ne_eq] at h
  obtain ⟨hscope, hplace⟩ := h
  simp only [Fld.key, Reg.addr, hscope]
  omega

theorem Dev.rd_wr_apart (h : g.apart f = true) (v u : Nat) : (d.wr f v u).rd g u = d.rd g u :=
  Dev.rd_wr_ne d f g v u 0 0 u 0 0 (Fld.key_ne_of_apart h u)

theorem Dev.rd_add_apart (h : g.apart f = true) (v u : Nat) : (d.add f v u).rd g u = d.rd g u := d.rd_wr_apart h _ u

theorem Dev.rd_advance_apart (h : g.apart f = true) (u : Nat) : (d.advance f u).rd g u = d.rd g u :=
  (Dev.rd_add_apart _ h _ u).trans (d.rd_draw g u 0 0 64)

/-- The word at a core's pc stays when a field beside PC moves. -/
theorem Dev.instr_advance (h : CORE_SEQ_PC.PC.apart f = true) (c : Nat) : (d.advance f c).instr c = d.instr c := by
  simp only [Dev.instr, Dev.pc, d.rd_advance_apart h]
  rfl

theorem Dev.bit_eq_true_iff (f : Fld) (u i j : Nat) : d.bit f u i j = true ↔ d.rd f u i j ≠ 0 := bne_iff_ne

theorem Dev.bit_eq_false_iff (f : Fld) (u i j : Nat) : d.bit f u i j = false ↔ d.rd f u i j = 0 := by simp [Dev.bit]

end Sys2Proof.Machine
end


section
/-! Scalar arithmetic (R71, R83, R84, R87, R88): the checks of the two operand forms, and the value of each function in the
terms of the spec. -/
namespace Sys2Proof.Machine
open Sys2Proof Sys2Proof.Claims

variable {s : State} {d t : Dev} {w a b v : W64} {c fn : Nat} {i : Instr}

/-! ### Checks and issue -/

theorem Dev.checked_of_ok {ok : Bool} (h : ok = true) (f : Dev → Dev) : d.checked c w ok f = f d := if_pos h

/-- An instruction that may issue is executed by a row that takes its word. -/
theorem gives_iff_of_row {p : W64 → Bool} {f : Dev → W64 → Dev} (hi : exec i s = act s (fun d => d.issue c p f))
    (hl : Live s) (hcan : s.dev.canIssue c = true) (hp : p (s.dev.instr c) = true)
    (hfree : s.dev.interlocked c (s.dev.instr c) = false) : Gives i s t ↔ f s.dev (s.dev.instr c) = t := by
  rw [gives_iff_of_act hi hl, s.dev.issue_eq c p f hcan hp hfree]

/-- Bits that are zero from bit 0 on are zero from bit 32 on. -/
theorem bits_37_32_of_bits_37_0 (h : W64.bits w 37 0 = 0) : W64.bits w 37 32 = 0 := by
  simp only [W64.bits] at h ⊢; omega

/-- What the functions of R88 ask for beyond the two operand forms: no second operand. -/
def OneOperand (w : W64) (fn : Nat) : Prop := 21 ≤ fn → (opOf w = 1 → rbOf w = 0) ∧ (opOf w = 2 → immOf w = 0)

theorem oneOperand_of_lt (h : fn < 21) : OneOperand w fn := fun h' => absurd h (Nat.not_lt.2 h')

theorem aluOk_of_arith (h : Arith s c fn a b) (h1 : OneOperand (s.dev.instr c) fn) : aluOk (s.dev.instr c) = true := by
  obtain ⟨-, -, rfl, -, -, ⟨hop, hlow, -⟩ | ⟨hop, hrb, hhigh, -⟩⟩ := h
  · have hrb : fnOf (s.dev.instr c) < 21 ∨ rbOf (s.dev.instr c) = 0 :=
      (Nat.lt_or_ge _ 21).imp_right (fun h => (h1 h).1 hop)
    simpa [aluOk, regsOk, formatAOk, hop, hlow, bits_37_32_of_bits_37_0 hlow] using hrb
  · have himm : fnOf (s.dev.instr c) < 21 ∨ immOf (s.dev.instr c) = 0 :=
      (Nat.lt_or_ge _ 21).imp_right (fun h => (h1 h).2 hop)
    simpa [aluOk, regsOk, hop, hrb, hhigh] using himm

theorem isAlu_of_arith (h : Arith s c fn a b) : isAlu fn (s.dev.instr c) = true := by
  obtain ⟨-, -, hfn, -, -, ⟨hop, -⟩ | ⟨hop, -⟩⟩ := h <;> simp [isAlu, hop, hfn]

/-- The second operand as its form gives it. -/
theorem operand_of_arith (h : Arith s c fn a b) :
    (if opOf (s.dev.instr c) = 1 then s.dev.sreg c (rbOf (s.dev.instr c)) else simm32 (s.dev.instr c)) = b := by
  obtain ⟨-, -, -, -, -, ⟨hop, -, rfl⟩ | ⟨hop, -, -, rfl⟩⟩ := h
  · exact if_pos hop
  · exact if_neg (by omega)

/-- An arithmetic instruction that passes its checks writes the value of its function to rd and retires. -/
theorem aluStep_of_arith (h : Arith s c fn a b) (h1 : OneOperand (s.dev.instr c) fn) :
    aluStep fn c s.dev = writeRd s.dev c (aluFn fn a b) := by
  have hrow := isAlu_of_arith h
  have hok := aluOk_of_arith h h1
  have hb := operand_of_arith h
  obtain ⟨-, hcan, -, hfree, ha, -⟩ := h
  rw [aluStep, s.dev.issue_eq c _ _ hcan hrow hfree, Dev.checked_of_ok hok]
  simp only [hb, ← ha, writeRd]

theorem gives_alu1 (hi : exec i s = act s (aluStep fn c)) (h : Arith s c fn a b) (h1 : OneOperand (s.dev.instr c) fn)
    (hv : aluFn fn a b = v) : Gives i s (writeRd s.dev c v) :=
  (gives_iff_of_act hi h.1).2 (hv ▸ aluStep_of_arith h h1)

/-- The same for the functions of R87, which take both operands. -/
theorem gives_alu (hi : exec i s = act s (aluStep fn c)) (hfn : fn < 21) (hv : aluFn fn a b = v) (h : Arith s c fn a b) :
    Gives i s (writeRd s.dev c v) := gives_alu1 hi h (oneOperand_of_lt hfn) hv

/-! ### Comparisons and divisions (R71, R87) -/

theorem ite_slt {α : Type} (a b : W64) (x y : α) : (if a.slt b then x else y) = if a.toInt < b.toInt then x else y := by
  simp [BitVec.slt]

theorem ite_ult {α : Type} (a b : W64) (x y : α) : (if a.ult b then x else y) = if a.toNat < b.toNat then x else y := by
  simp [BitVec.ult]

section
variable (h : b ≠ 0)
include h

theorem sdiv64_of_ne_zero : sdiv64 a b = BitVec.ofInt 64 (a.toInt.tdiv b.toInt) := if_neg h
theorem udiv64_of_ne_zero : udiv64 a b = BitVec.ofNat 64 (a.toNat / b.toNat) := if_neg h
theorem srem64_of_ne_zero : srem64 a b = BitVec.ofInt 64 (a.toInt.tmod b.toInt) := if_neg h
theorem urem64_of_ne_zero : urem64 a b = BitVec.ofNat 64 (a.toNat % b.toNat) := if_neg h

end

/-! ### Counts (R88) -/

/-- The number of leading zeros. -/
def leadingZeros (a : W64) : Nat := if a = 0 then 64 else 63 - Nat.log2 a.toNat

theorem clz64_eq (a : W64) : clz64 a = BitVec.ofNat 64 (leadingZeros a) := by
  unfold clz64 leadingZeros; split <;> rfl

/-- A number with `n` leading zeros lies below 2^(64 - n), and its highest bit stands right below that bound. -/
theorem leadingZeros_bounds (a : W64) : leadingZeros a ≤ 64 ∧ a.toNat < 2 ^ (64 - leadingZeros a) ∧
    (leadingZeros a < 64 → 2 ^ (63 - leadingZeros a) ≤ a.toNat) := by
  unfold leadingZeros
  by_cases ha : a = 0
  · simp [ha]
  · have hne : a.toNat ≠ 0 := fun h => ha (BitVec.eq_of_toNat_eq h)
    have hlog : Nat.log2 a.toNat < 64 := (Nat.log2_lt hne).2 a.isLt
    have hhigh : 63 - (63 - Nat.log2 a.toNat) = Nat.log2 a.toNat := by omega
    have hbound : 64 - (63 - Nat.log2 a.toNat) = Nat.log2 a.toNat + 1 := by omega
    rw [if_neg ha, hhigh, hbound]
    exact ⟨by omega, Nat.lt_log2_self, fun _ => Nat.log2_self_le hne⟩

theorem popc64_eq (a : W64) : popc64 a = BitVec.ofNat 64 ((List.range 64).countP (fun i => a.getLsbD i)) := by
  rw [popc64, List.countP_eq_length_filter]

/-- LIW past its check writes the sign-extended IMM48 and retires. -/
theorem gives_liw (hl : Live s) (hcan : s.dev.canIssue c = true) (hop : opOf (s.dev.instr c) = 3)
    (hra : raOf (s.dev.instr c) = 0) (hfree : s.dev.interlocked c (s.dev.instr c) = false) :
    Gives (.liw c) s (writeRd s.dev c (simm48 (s.dev.instr c))) := by
  refine (gives_iff_of_row (p := fun w => opOf w == 3) rfl hl hcan (beq_iff_eq.2 hop) hfree).2 ?_
  exact Dev.checked_of_ok (beq_iff_eq.2 hra) _

end Sys2Proof.Machine

namespace Sys2Proof.Claims
open Sys2Proof Sys2Proof.Machine

/-- Settles O1: every function is one step with its number as argument, and R71 decides the divisions. -/
theorem computingInstructions : Obligations.ComputingInstructions := by
  refine ⟨fun s c a b => ?bitwise, fun s c a b => ?others⟩
  case bitwise =>
    exact ⟨gives_alu rfl (by decide) rfl, gives_alu rfl (by decide) rfl, gives_alu rfl (by decide) rfl,
      gives_alu rfl (by decide) rfl, gives_alu rfl (by decide) rfl, gives_alu rfl (by decide) rfl,
      gives_alu rfl (by decide) rfl, gives_alu rfl (by decide) rfl⟩
  case others =>
    have hslt {x y : W64} := ite_slt a b x y
    have hult {x y : W64} := ite_ult a b x y
    have hdiv (h : Arith s c 17 a b) (hb : b ≠ 0) := gives_alu (i := .div c) rfl (by decide) (sdiv64_of_ne_zero hb) h
    have hdivu (h : Arith s c 18 a b) (hb : b ≠ 0) := gives_alu (i := .divu c) rfl (by decide) (udiv64_of_ne_zero hb) h
    have hrem (h : Arith s c 19 a b) (hb : b ≠ 0) := gives_alu (i := .rem c) rfl (by decide) (srem64_of_ne_zero hb) h
    have hremu (h : Arith s c 20 a b) (hb : b ≠ 0) := gives_alu (i := .remu c) rfl (by decide) (urem64_of_ne_zero hb) h
    exact ⟨gives_alu rfl (by decide) hslt, gives_alu rfl (by decide) hult, gives_alu rfl (by decide) hslt,
      gives_alu rfl (by decide) hslt, gives_alu rfl (by decide) hult, gives_alu rfl (by decide) hult,
      gives_alu rfl (by decide) rfl, gives_alu rfl (by decide) rfl, gives_alu rfl (by decide) rfl,
      hdiv, hdivu, hrem, hremu, gives_alu rfl (by decide) rfl, gives_alu rfl (by decide) rfl, gives_alu rfl (by decide) rfl,
      gives_alu rfl (by decide) rfl, gives_alu rfl (by decide) (by decide), gives_alu rfl (by decide) (by decide)⟩

/-- Settles O2: the leading zeros are counted from the logarithm, the set bits one by one. -/
theorem countsOfBits : Obligations.CountsOfBits := by
  intro s c a w
  refine ⟨fun h hrb himm => ?clz, fun h hrb himm => gives_alu1 rfl h (fun _ => ⟨hrb, himm⟩) (popc64_eq a),
    fun hl hcan hop hra hfree => gives_liw hl hcan hop hra hfree⟩
  case clz =>
    obtain ⟨hle, hlt, hge⟩ := leadingZeros_bounds a
    exact ⟨leadingZeros a, hle, hlt, hge, gives_alu1 rfl h (fun _ => ⟨hrb, himm⟩) (clz64_eq a)⟩

end Sys2Proof.Claims
end

section
/-! Loads and stores (R74, R89, R90), branches, jumps and loops (R92-R95), descriptors (R99) and system instructions
(R84, R106, R107, R110, R111): each past its checks. -/
namespace Sys2Proof.Machine
open Sys2Proof Sys2Proof.Claims

variable {s : State} {d t : Dev} {w a : W64} {c n fn op : Nat} {i : Instr}

/-- An instruction that may issue and passes its checks gives the change of its row. -/
theorem gives_iff_of_checked {ok : Dev → W64 → Bool} {f : Dev → W64 → Dev → Dev}
    (hi : exec i s = act s (fun d => d.issue c (isOpFn op fn) (fun d w => d.checked c w (ok d w) (f d w))))
    (h : Issues s c op fn) (hok : ok s.dev (s.dev.instr c) = true) :
    Gives i s t ↔ f s.dev (s.dev.instr c) s.dev = t := by
  rw [gives_iff_of_issues hi h, Dev.checked_of_ok hok]

section
variable {rd ra rb : Bool} (hu : Unused w rd ra rb)
include hu

/-! The field checks of the formats, over the registers that an instruction uses. -/

theorem fields_imm_ok (himm : immOf w = 0) : (regsOk w rd ra rb && immOf w == 0) = true := by
  simp [regsOk_iff_unused.2 hu, himm]

theorem fields_formatB_ok (hlow : W64.bits w 37 11 = 0) : (regsOk w rd ra rb && formatBOk w) = true := by
  simp [regsOk_iff_unused.2 hu, formatBOk, hlow]

theorem fields_formatA_ok (hlow : W64.bits w 37 0 = 0) : (regsOk w rd ra rb && W64.bits w 37 0 == 0) = true := by
  simp [regsOk_iff_unused.2 hu, hlow]

end

/-! ### Local accesses (R74) -/

theorem localAccess_addr (h : LocalAccess s c n a) :
    s.dev.sreg c (raOf (s.dev.instr c)) + simm32 (s.dev.instr c) = a := h.1.symm

theorem scalarCheck_of_access (h : LocalAccess s c n a) : scalarCheck a n = none := by
  obtain ⟨-, hal, hlt, hspan⟩ := h
  simpa [scalarCheck, hal, hspan] using hlt

/-- A load past its checks: it counts the corrected words, writes rd and retires. -/
theorem gives_load {ext : Nat → W64} (hi : exec i s = act s (loadStep fn n ext c)) (h : Issues s c 5 fn)
    (hu : Unused (s.dev.instr c) true true false) (ha : LocalAccess s c n a) (hbad : s.dev.lbad c a.toNat n = false) :
    Gives i s (((s.dev.countLce c a.toNat n).setS c (rdOf (s.dev.instr c)) (ext (s.dev.lrd c a.toNat n))).retire c) := by
  refine (gives_iff_of_checked hi h (regsOk_iff_unused.2 hu)).2 ?_
  simp only [localAccess_addr ha, scalarCheck_of_access ha, hbad, Bool.false_eq_true, if_false]

section
variable (hi : exec i s = act s (storeStep fn n c)) (h : Issues s c 6 fn) (hu : Unused (s.dev.instr c) false true true)
  (ha : LocalAccess s c n a)
include hi h hu ha

/-- A store narrower than a word reads the word first. -/
theorem gives_store_part (hn : n < 4) (hbad : s.dev.lbad c a.toNat n = false) :
    Gives i s ((s.dev.lwrPart c a.toNat n (s.dev.sreg c (rbOf (s.dev.instr c))).toNat).retire c) := by
  refine (gives_iff_of_checked hi h (regsOk_iff_unused.2 hu)).2 ?_
  simp only [localAccess_addr ha, scalarCheck_of_access ha, hbad, Bool.and_false, Bool.false_eq_true, if_false, if_pos hn]

theorem gives_store_whole (hn : 4 ≤ n) :
    Gives i s ((s.dev.lwr c a.toNat n (s.dev.sreg c (rbOf (s.dev.instr c))).toNat).retire c) := by
  refine (gives_iff_of_checked hi h (regsOk_iff_unused.2 hu)).2 ?_
  simp only [localAccess_addr ha, scalarCheck_of_access ha, decide_eq_false (Nat.not_lt.2 hn), Bool.false_and,
    Bool.false_eq_true, if_false, if_neg (Nat.not_lt.2 hn)]

end

/-! ### Branches and jumps (R92, R93) -/

/-- A branch with condition `p` redirects pc or retires. -/
theorem gives_branch {p : Prop} [Decidable p] (hi : exec i s = act s (branchStep fn c)) (h : Issues s c 8 fn)
    (hu : Unused (s.dev.instr c) false true true) (hlow : W64.bits (s.dev.instr c) 37 11 = 0)
    (hp : brCond fn (s.dev.sreg c (raOf (s.dev.instr c))) (s.dev.sreg c (rbOf (s.dev.instr c))) = true ↔ p) :
    Gives i s (if p then s.dev.retireTo c (targetOf (s.dev.instr c)) else s.dev.retire c) := by
  refine (gives_iff_of_checked hi h (fields_formatB_ok hu hlow)).2 ?_
  simp only [hp]

theorem brCond_ge_iff (a b : W64) : brCond 3 a b = true ↔ b.toInt ≤ a.toInt := by simp [brCond, BitVec.slt]
theorem brCond_geu_iff (a b : W64) : brCond 5 a b = true ↔ b.toNat ≤ a.toNat := by simp [brCond, BitVec.ult]
theorem brCond_lt_iff (a b : W64) : brCond 2 a b = true ↔ a.toInt < b.toInt := by simp [brCond, BitVec.slt]
theorem brCond_ltu_iff (a b : W64) : brCond 4 a b = true ↔ a.toNat < b.toNat := by simp [brCond, BitVec.ult]
theorem brCond_eq_iff (a b : W64) : brCond 0 a b = true ↔ a = b := beq_iff_eq
theorem brCond_ne_iff (a b : W64) : brCond 1 a b = true ↔ a ≠ b := bne_iff_ne

theorem gives_jal (h : Issues s c 9 0) (hu : Unused (s.dev.instr c) true false false)
    (hlow : W64.bits (s.dev.instr c) 37 11 = 0) :
    Gives (.jal c) s ((s.dev.setS c (rdOf (s.dev.instr c)) (BitVec.ofNat 64 (s.dev.pc c + 1))).retireTo c
      (targetOf (s.dev.instr c))) :=
  (gives_iff_of_checked rfl h (fields_formatB_ok hu hlow)).2 rfl

theorem gives_jr_iff (h : Issues s c 10 0) (hu : Unused (s.dev.instr c) false true false)
    (hlow : W64.bits (s.dev.instr c) 37 0 = 0) : Gives (.jr c) s t ↔
      (if 2048 ≤ (s.dev.sreg c (raOf (s.dev.instr c))).toNat then s.dev.trap c 6 (s.dev.sreg c (raOf (s.dev.instr c))).toNat
        else s.dev.retireTo c (s.dev.sreg c (raOf (s.dev.instr c))).toNat) = t :=
  gives_iff_of_checked (f := fun _ w d => if 2048 ≤ (d.sreg c (raOf w)).toNat then d.trap c 6 (d.sreg c (raOf w)).toNat
    else d.retireTo c (d.sreg c (raOf w)).toNat) rfl h (fields_formatA_ok hu hlow)

/-! ### LOOP (R94) -/

theorem gives_loop_iff (h : Issues s c 11 0) (hu : Unused (s.dev.instr c) false true false)
    (hlow : W64.bits (s.dev.instr c) 37 11 = 0) : Gives (.loop c) s t ↔ loopStep c s.dev (s.dev.instr c) = t :=
  gives_iff_of_checked (f := fun _ w d => loopStep c d w) rfl h (fields_formatB_ok hu hlow)

/-- LOOP with a body behind it that the loop around it holds. -/
theorem loopStep_of_nested (hpc : d.pc c < targetOf w) (hin : ∀ l ∈ (d.core c).loops.head?, targetOf w ≤ l.fin) :
    loopStep c d w =
      if d.sreg c (raOf w) = 0 then (d.add CORE_SEQ_RETIRED.RETIRED 1 c).wr CORE_SEQ_PC.PC (targetOf w + 1) c
      else if (d.core c).loops.length = 4 then d.trap c 7 0
      else ((d.updCore c (fun k => { k with loops := 
          { start := d.pc c + 1, fin := targetOf w, left := (d.sreg c (raOf w)).toNat } :: (d.core c).loops })).add
          CORE_SEQ_RETIRED.RETIRED 1 c).wr CORE_SEQ_PC.PC (d.pc c + 1) c := by
  have hfit : ((d.core c).loops.head?.any fun l => decide (l.fin < targetOf w)) = false := by
    cases hs : (d.core c).loops.head? with
    | none => rfl
    | some l => simpa using hin l hs
  have hzero : (d.sreg c (raOf w)).toNat = 0 ↔ d.sreg c (raOf w) = 0 := BitVec.toNat_eq_nat.trans (by simp)
  simp only [loopStep, if_neg (Nat.not_le.2 hpc), hfit, Bool.false_eq_true, if_false, hzero]
  rfl

/-! ### Descriptors (R99) -/

section
variable {rd ra : Bool} (hu : Unused w rd ra true) (hn : rbOf w < 16)
include hu hn

theorem descFields_ok : (regsOk w rd ra true && descOk w) = true := by simp [regsOk_iff_unused.2 hu, descOk, hn]

theorem descFields_word_ok (hk : immOf w < 8) : (regsOk w rd ra true && descOk w && immBelow w 3) = true := by
  simp [descFields_ok hu hn, immBelow, hk]

end

theorem gives_dld (h : Issues s c 12 0) (hu : Unused (s.dev.instr c) false true true) (hn : rbOf (s.dev.instr c) < 16)
    (ha : LocalAccess s c 32 a) (hbad : s.dev.lbad c a.toNat 32 = false) :
    Gives (.dld c) s (((s.dev.countLce c a.toNat 32).setDesc c (rbOf (s.dev.instr c)) (s.dev.lrd c a.toNat 32)).retire c) := by
  refine (gives_iff_of_checked rfl h (descFields_ok hu hn)).2 ?_
  simp only [descAddr, localAccess_addr ha, scalarCheck_of_access ha, hbad, Bool.false_eq_true, if_false]

theorem gives_dst (h : Issues s c 12 1) (hu : Unused (s.dev.instr c) false true true) (hn : rbOf (s.dev.instr c) < 16)
    (ha : LocalAccess s c 32 a) :
    Gives (.dst c) s ((s.dev.lwr c a.toNat 32 (s.dev.descBits c (rbOf (s.dev.instr c)))).retire c) := by
  refine (gives_iff_of_checked rfl h (descFields_ok hu hn)).2 ?_
  simp only [descAddr, localAccess_addr ha, scalarCheck_of_access ha]

/-- BASE holds 20 bits of what is written to it. -/
theorem setBase_congr {v x y : Nat} (h : x % 2 ^ 20 = y % 2 ^ 20) : setBase v x = setBase v y := by
  simp only [setBase, h]

theorem daddbBase_of_no_ring {e : Desc} (x : W64) (h : e.ring = 0) :
    daddbBase e x % 2 ^ 20 = (e.base + x.toNat) % 2 ^ 20 := by
  simp [daddbBase, h]

theorem daddbBase_of_ring {e : Desc} (x : W64) (h : e.ring ≠ 0) :
    daddbBase e x = e.base / e.ring * e.ring + (e.base + x.toNat) % 2 ^ 20 % e.ring := if_neg h

/-- DADDB writes the 20 bits of its new BASE. -/
theorem gives_daddb {y : Nat} (h : Issues s c 12 3) (hu : Unused (s.dev.instr c) false true true)
    (hn : rbOf (s.dev.instr c) < 16)
    (hy : daddbBase (s.dev.desc c (rbOf (s.dev.instr c))) (descAddr s.dev c (s.dev.instr c)) % 2 ^ 20 = y % 2 ^ 20) :
    Gives (.daddb c) s ((s.dev.setDesc c (rbOf (s.dev.instr c))
      (setBase (s.dev.descBits c (rbOf (s.dev.instr c))) y)).retire c) := by
  refine (gives_iff_of_checked rfl h (descFields_ok hu hn)).2 ?_
  simp only [setBase_congr hy]

/-! ### System instructions (R84, R85, R106, R107, R110, R111) -/

theorem gives_tret_iff (h : Issues s c 0x1C 3) (hu : Unused (s.dev.instr c) false false false) : Gives (.tret c) s t ↔
    s.dev.checked c (s.dev.instr c) (s.dev.bit CORE_SEQ_STAT.IN_TRAP c) (fun d =>
      ((d.updCore c (fun k => { k with loops := k.shadowLoops, shadowLoops := [] })).wr CORE_SEQ_STAT.IN_TRAP 0 c).retireTo c
        ((d.rd CORE_SEQ_TPC.TPC c + immOf (s.dev.instr c) % 2) % 2048)) = t := by
  rw [gives_iff_of_issues rfl h, regsOk_iff_unused.2 hu, Bool.true_and]

/-- RDSYS of a defined selector writes the value that the selector names, of the device that this value leaves. -/
theorem gives_rdsys (h : Issues s c 0x1C 4) (hu : Unused (s.dev.instr c) true false false) {sel : Nat}
    (hsel : immOf (s.dev.instr c) % 16 = sel) (h6 : sel < 6) {v : W64} {e : Dev} (hv : sysValue s.dev c sel = (v, e)) :
    Gives (.rdsys c) s ((e.setS c (rdOf (s.dev.instr c)) v).retire c) := by
  refine (gives_iff_of_checked rfl h (by simp [regsOk_iff_unused.2 hu, hsel, h6])).2 ?_
  simp only [hsel, hv]

theorem sysValue_partition {p : Option Nat} (h : d.corePart c = p) :
    sysValue d c 5 = ((p.map (BitVec.ofNat 64)).getD (BitVec.allOnes 64), d) := by
  subst h
  simp only [sysValue, Dev.corePart]
  cases d.partOf (coreCluster c) <;> rfl

/-- An opcode or function that no chapter defines traps ILLEGAL. -/
theorem gives_illegal (h : Issues s c op fn) (hf : fnLegal op fn = false) :
    Gives (.illegal c) s (s.dev.trap c 1 (s.dev.instr c).toNat) := by
  obtain ⟨hl, hcan, rfl, rfl, hfree⟩ := h
  exact (gives_iff_of_row rfl hl hcan (by rw [hf]; rfl) hfree).2 rfl

/-- The reserved codes of the core's own classes. -/
theorem fnLegal_reserved (h : op = 0 ∨ op = 4 ∨ op = 13 ∨ (op = 0x18 ∧ fn ≠ 0) ∨ (op = 0x1C ∧ 6 ≤ fn)) :
    fnLegal op fn = false := by
  obtain rfl | rfl | rfl | ⟨rfl, h⟩ | ⟨rfl, h⟩ := h
  · rfl
  · rfl
  · rfl
  · simpa [fnLegal, fnDefined] using h
  · simpa [fnLegal, fnDefined] using h

theorem gives_ifetchUe (hl : Live s) (hcan : s.dev.canIssue c = true) :
    Gives (.ifetchUe c) s ((s.dev.err 2 5 (unitCore c 0 0) 0).trap c 2 (s.dev.pc c)) :=
  (gives_iff_of_act rfl hl).2 (if_pos hcan)

end Sys2Proof.Machine

namespace Sys2Proof.Claims
open Sys2Proof Sys2Proof.Machine

/-- Settles O3: each width is the one load or the one store with its number of bytes and its extension. -/
theorem loadsAndStores : Obligations.LoadsAndStores := by
  intro s c a d w load store loaded v part stored
  have hload {fn n : Nat} {ext : Nat → W64} {i : Instr} (hi : exec i s = act s (loadStep fn n ext c)) :
      load fn n → Gives i s (loaded n (ext (d.lrd c a.toNat n))) :=
    fun ⟨h, hu, ha, hbad⟩ => gives_load hi h hu ha hbad
  have hpart {fn n : Nat} {i : Instr} (hn : n < 4) (hi : exec i s = act s (storeStep fn n c)) :
      store fn n → Gives i s (part n) :=
    fun ⟨h, hu, ha, hbad⟩ => gives_store_part hi h hu ha hn (hbad hn)
  have hwhole {fn n : Nat} {i : Instr} (hn : 4 ≤ n) (hi : exec i s = act s (storeStep fn n c)) :
      store fn n → Gives i s (stored n) :=
    fun ⟨h, hu, ha, _⟩ => gives_store_whole hi h hu ha hn
  exact ⟨hload (ext := zext) rfl, hload (ext := sext 8) rfl, hload (ext := zext) rfl, hload (ext := sext 16) rfl,
    hload (ext := zext) rfl, hload (ext := sext 32) rfl, hload (ext := zext) rfl,
    hpart (by decide) rfl, hpart (by decide) rfl, hwhole (by decide) rfl, hwhole (by decide) rfl⟩

/-- Settles O4: a branch turns on its condition, JR on the range of its target, LOOP on its count and on the depth of the
loop stack. -/
theorem branchesAndJumps : Obligations.BranchesAndJumps := by
  intro s c d w a b t stack br go loop
  have hbr {fn : Nat} {p : Prop} [Decidable p] {i : Instr} (hi : exec i s = act s (branchStep fn c))
      (hp : brCond fn a b = true ↔ p) : br fn → Gives i s (go p) := fun ⟨h, hu, hlow⟩ => gives_branch hi h hu hlow hp
  have hloop {t' : Dev} : loop → (Gives (.loop c) s t' ↔ _) := fun ⟨h, hu, hlow, hpc, hin⟩ =>
    (gives_loop_iff (t := t') h hu hlow).trans (by rw [loopStep_of_nested hpc hin])
  refine ⟨hbr rfl (brCond_eq_iff a b), hbr rfl (brCond_ne_iff a b), hbr rfl (brCond_lt_iff a b), hbr rfl (brCond_ge_iff a b),
    hbr rfl (brCond_ltu_iff a b), hbr rfl (brCond_geu_iff a b), gives_jal, ?jr, ?far, ?skip, ?push, ?deep⟩
  case jr => exact fun h hu hlow hlt => (gives_jr_iff h hu hlow).2 (if_neg (Nat.not_le.2 hlt))
  case far => exact fun h hu hlow hle => (gives_jr_iff h hu hlow).2 (if_pos hle)
  case skip => exact fun h h0 => (hloop h).2 (if_pos h0)
  case push => exact fun h h0 h4 => (hloop h).2 ((if_neg h0).trans (if_neg h4))
  case deep => exact fun h h0 h4 => (hloop h).2 ((if_neg h0).trans (if_pos h4))

/-- Settles O5: each instruction past the checks of its fields, and BASE by the 20 bits that it holds. -/
theorem descriptorInstructions : Obligations.DescriptorInstructions := by
  intro s c a d w n v e x ok based
  refine ⟨fun ⟨h, hu, hn⟩ ha hbad => gives_dld h hu hn ha hbad, fun ⟨h, hu, hn⟩ ha => gives_dst h hu hn ha,
    fun ⟨h, hu, hn⟩ => (gives_iff_of_checked rfl h (descFields_ok hu hn)).2 rfl, fun ⟨h, hu, hn⟩ hring => gives_daddb h hu hn (daddbBase_of_no_ring _ hring),
    fun ⟨h, hu, hn⟩ hring => gives_daddb h hu hn (congrArg (· % 2 ^ 20) (daddbBase_of_ring _ hring)),
    fun ⟨h, hu, hn⟩ hk => (gives_iff_of_checked rfl h (descFields_word_ok hu hn hk)).2 rfl,
    fun ⟨h, hu, hn⟩ hk => (gives_iff_of_checked rfl h (descFields_word_ok hu hn hk)).2 rfl⟩

/-- Settles O6: each instruction past the checks of its fields; TRET asks for IN_TRAP, RDSYS for a defined selector. -/
theorem systemInstructions : Obligations.SystemInstructions := by
  intro s c d w pc
  refine ⟨fun h hu himm => (gives_iff_of_checked rfl h (fields_imm_ok hu himm)).2 rfl,
    fun h hu => (gives_iff_of_checked rfl h (regsOk_iff_unused.2 hu)).2 rfl,
    fun h hu => (gives_iff_of_checked rfl h (regsOk_iff_unused.2 hu)).2 rfl,
    fun h hu hin => (gives_tret_iff h hu).2 (Dev.checked_of_ok ((Dev.bit_eq_true_iff _ _ _ _ _).2 hin) _),
    fun h hu hin => (gives_tret_iff h hu).2 ?notInTrap, fun h hu => ?rdsys,
    fun h hu himm => (gives_iff_of_checked rfl h (fields_imm_ok hu himm)).2 rfl,
    fun op fn h hop => gives_illegal h (fnLegal_reserved hop), gives_ifetchUe⟩
  case notInTrap =>
    rw [(Dev.bit_eq_false_iff _ _ _ _ _).2 hin]
    rfl
  case rdsys =>
    refine ⟨fun hsel => ?cycles, fun hsel => gives_rdsys h hu hsel (by decide) rfl,
      fun hsel => gives_rdsys h hu hsel (by decide) rfl, fun hsel => gives_rdsys h hu hsel (by decide) rfl,
      fun hsel => gives_rdsys h hu hsel (by decide) rfl,
      fun p hsel hp => gives_rdsys h hu hsel (by decide) (sysValue_partition hp),
      fun hsel hp => gives_rdsys h hu hsel (by decide) (sysValue_partition hp)⟩
    case cycles =>
      have hrd := gives_rdsys h hu hsel (by decide) rfl
      rwa [← s.dev.instr_advance (f := CORE_SEQ_CYCLES.CYCLES) (by decide) c] at hrd

end Sys2Proof.Claims
end

section
/-! The sequencer's own steps: taking a trap (R109), the frame of writing rd and retiring (R70, R95), the start of a load and
of a program (R78). -/
namespace Sys2Proof.Machine
open Sys2Proof Sys2Proof.Claims

variable (d : Dev) {f g : Fld} {c c' : Nat}

/-! ### What an operation leaves alone -/

theorem Dev.setS_beside_cores (c r : Nat) (v : W64) : (d.setS c r v).mem = d.mem ∧ (d.setS c r v).lmem = d.lmem ∧
    (d.setS c r v).lue = d.lue ∧ (d.setS c r v).out = d.out ∧ (d.setS c r v).imem = d.imem := by
  unfold Dev.setS; split <;> exact ⟨rfl, rfl, rfl, rfl, rfl⟩

/-- Cores, device memory and local memories of `e` are those of `d`. -/
structure Dev.SameCells (d e : Dev) : Prop where
  cores : e.cores = d.cores
  mem : e.mem = d.mem
  lmem : e.lmem = d.lmem

theorem Dev.SameCells.refl : d.SameCells d := ⟨rfl, rfl, rfl⟩

theorem Dev.SameCells.wr {d e : Dev} (h : d.SameCells e) (f : Fld) (v u i j : Nat) : d.SameCells (e.wr f v u i j) :=
  ⟨h.cores, h.mem, h.lmem⟩

theorem Dev.SameCells.foldl {α : Type} {d e : Dev} {g : Dev → α → Dev} (hg : ∀ e x, d.SameCells e → d.SameCells (g e x))
    (h : d.SameCells e) (l : List α) : d.SameCells (l.foldl g e) := by
  induction l generalizing e with
  | nil => exact h
  | cons x l ih => exact ih (hg e x h)

/-- A field that each step of a fold keeps is kept by the fold. -/
theorem Dev.rd_foldl_of_kept {α : Type} {g : Dev → α → Dev} {F : Fld} {u : Nat} {l : List α}
    (hg : ∀ e, ∀ x ∈ l, (g e x).rd F u = e.rd F u) : (l.foldl g d).rd F u = d.rd F u := by
  induction l generalizing d with
  | nil => rfl
  | cons x l ih =>
    exact (ih (g d x) (fun e y hy => hg e y (List.mem_cons_of_mem x hy))).trans (hg d x List.mem_cons_self)

theorem Dev.rd_wr_of_lt {v : Nat} (h : v < 2 ^ f.width) (u : Nat) : (d.wr f v u).rd f u = v :=
  (d.rd_wr_same f v u 0 0).trans (Nat.mod_eq_of_lt h)

/-! ### Taking a trap (R109) -/

/-- The device in which core `c` has entered its trap handler. -/
def Dev.trapTaken (d : Dev) (c cause tval : Nat) (imprecise : Bool) : Dev :=
  let e := ((d.wr CORE_SEQ_TCAUSE.CAUSE cause c).wr CORE_SEQ_TCAUSE.IMPRECISE (if imprecise then 1 else 0) c).wr
    CORE_SEQ_TVAL.TVAL tval c
  ((((e.wr CORE_SEQ_TPC.TPC (d.pc c) c).updCore c (fun k => { k with shadowLoops := k.loops, loops := [] })).wr
    CORE_SEQ_STAT.IN_TRAP 1 c).wr CORE_SEQ_STAT.SLEEPING 0 c).wr CORE_SEQ_PC.PC (d.rd CORE_SEQ_TVEC.INDEX c) c

section
variable (c : Nat) (cause tval : Nat) (imprecise : Bool)

theorem Dev.trap_of_inTrap (h : d.rd CORE_SEQ_STAT.IN_TRAP c ≠ 0) : d.trap c cause tval imprecise = d.beginHaltRec c 4 :=
  if_pos ((d.bit_eq_true_iff _ c 0 0).2 h)

variable (hin : d.rd CORE_SEQ_STAT.IN_TRAP c = 0)
include hin

theorem Dev.trap_of_noVector (h : d.rd CORE_SEQ_TVEC.VALID c = 0) : d.trap c cause tval imprecise = d.beginHaltRec c 3 := by
  simp [Dev.trap, Dev.bit, hin, h]

theorem Dev.trap_of_vector (h : d.rd CORE_SEQ_TVEC.VALID c ≠ 0) :
    d.trap c cause tval imprecise = d.trapTaken c cause tval imprecise := by
  simp only [Dev.trap, (d.bit_eq_false_iff _ c 0 0).2 hin, (d.bit_eq_true_iff _ c 0 0).2 h, Bool.not_true,
    Bool.false_eq_true, if_false]
  simp (disch := decide) only [Dev.trapTaken, Dev.sleep, Dev.pc, Dev.rd_wr_apart, Dev.rd_updCore, Bool.false_eq_true,
    if_false]

end

/-- The registers of a trap, in the handler: each is written once and beside the others. -/
theorem Dev.rd_trapTaken {cause tval : Nat} (imprecise : Bool) (hcause : cause < 32) (htval : tval < 2 ^ 64)
    (hpc : d.pc c < 2048) (hindex : d.rd CORE_SEQ_TVEC.INDEX c < 2048) :
    let t := d.trapTaken c cause tval imprecise
    t.rd CORE_SEQ_TCAUSE.CAUSE c = cause ∧ t.rd CORE_SEQ_TVAL.TVAL c = tval ∧
      t.rd CORE_SEQ_TCAUSE.IMPRECISE c = (if imprecise then 1 else 0) ∧ t.rd CORE_SEQ_TPC.TPC c = d.pc c ∧
      t.rd CORE_SEQ_STAT.IN_TRAP c = 1 ∧ t.rd CORE_SEQ_PC.PC c = d.rd CORE_SEQ_TVEC.INDEX c := by
  simp (disch := decide) only [Dev.trapTaken, Dev.rd_wr_apart, Dev.rd_updCore]
  refine ⟨Dev.rd_wr_of_lt _ hcause c, Dev.rd_wr_of_lt _ htval c, Dev.rd_wr_of_lt _ ?_ c, Dev.rd_wr_of_lt _ hpc c,
    Dev.rd_wr_of_lt _ (by decide) c, Dev.rd_wr_of_lt _ hindex c⟩
  cases imprecise <;> decide

/-- Of the cores only the loop stacks of the one move. -/
theorem Dev.core_trapTaken (c c' cause tval : Nat) (imprecise : Bool) : (d.trapTaken c cause tval imprecise).core c' =
    (d.updCore c (fun k => { k with shadowLoops := k.loops, loops := [] })).core c' := rfl

theorem Dev.core_trapTaken_same (cause tval : Nat) (imprecise : Bool) : (d.trapTaken c cause tval imprecise).core c =
    { d.core c with loops := [], shadowLoops := (d.core c).loops } :=
  (d.core_trapTaken c c cause tval imprecise).trans (d.core_updCore_same c _)

theorem Dev.core_trapTaken_ne (cause tval : Nat) (imprecise : Bool) (h : c' ≠ c) :
    (d.trapTaken c cause tval imprecise).core c' = d.core c' :=
  (d.core_trapTaken c c' cause tval imprecise).trans (d.core_updCore_ne _ h)

/-! ### Retirement (R95) -/

theorem Dev.core_retire_same : (d.retire c).core c = { d.core c with loops := (loopNext (d.pc c) (d.core c).loops).2 } := by
  simp [Dev.retire, Dev.sleep, Dev.add]

theorem Dev.core_retire_ne (h : c' ≠ c) : (d.retire c).core c' = d.core c' := by
  simp [Dev.retire, Dev.sleep, Dev.add, Dev.core_updCore_ne _ _ h]

theorem Dev.rd_retire_of_key {u i j : Nat}
    (h : g.key u i j ∉ [CORE_SEQ_PC.PC.key c 0 0, CORE_SEQ_RETIRED.RETIRED.key c 0 0, CORE_SEQ_STAT.SLEEPING.key c 0 0]) :
    (d.retire c).rd g u i j = d.rd g u i j := by
  simp only [List.mem_cons, List.not_mem_nil, or_false, not_or] at h
  obtain ⟨hpc, hretired, hsleeping⟩ := h
  simp only [Dev.retire, Dev.sleep, Dev.add, Dev.rd_wr_ne _ _ _ _ _ _ _ _ _ _ hpc, Dev.rd_wr_ne _ _ _ _ _ _ _ _ _ _ hretired,
    Dev.rd_wr_ne _ _ _ _ _ _ _ _ _ _ hsleeping, Dev.rd_updCore]

/-- Scalar registers are read from the core's own entry. -/
theorem Dev.sreg_congr {d e : Dev} (h : (e.core c).s = (d.core c).s) (r : Nat) : e.sreg c r = d.sreg c r := by
  simp only [Dev.sreg, h]

@[simp] theorem Dev.sreg_retire (c r : Nat) : (d.retire c).sreg c r = d.sreg c r := Dev.sreg_congr (by rw [d.core_retire_same]) r

theorem Dev.core_setS_ne (r : Nat) (v : W64) (h : c' ≠ c) : (d.setS c r v).core c' = d.core c' := by
  unfold Dev.setS
  split
  · rfl
  · exact d.core_updCore_ne _ h

theorem Dev.desc_setS (c r : Nat) (v : W64) : ((d.setS c r v).core c).desc = (d.core c).desc := by
  unfold Dev.setS; split <;> simp

/-! ### The start of a load (R78, R331) -/

/-- A new tenant: the load is for another one than the previous program. -/
def Dev.newTenant (d : Dev) (c : Nat) : Bool := (d.core c).prevTenant != some (d.rd CORE_SEQ_TENANT.TENANT c)

/-- The local memories that a load leaves: cleared for a new tenant. -/
def Dev.loadCleared (d : Dev) (c : Nat) : Dev := if d.newTenant c then d.clearLocal c else d

/-- The core's entry when a load begins. -/
def Dev.loadCore (d : Dev) (c : Nat) (k : CoreSt) : CoreSt :=
  { k with prevTenant := some (d.rd CORE_SEQ_TENANT.TENANT c), recvq := if d.newTenant c then [] else k.recvq, dma := [],
           mcks := ⟨false, false, 0, 0⟩, halting := none, wait := .run, traps := [] }

/-- Beside the registers a load clears local memory and starts the core's entry anew. -/
theorem Dev.beginLoad_sameCells (c : Nat) : ((d.loadCleared c).updCore c (d.loadCore c)).SameCells (d.beginLoad c false) := by
  have hupd {e e' : Dev} (h : e.SameCells e') : (e.updCore c (d.loadCore c)).SameCells (e'.updCore c (d.loadCore c)) :=
    ⟨by simp only [Dev.updCore, h.cores], h.mem, h.lmem⟩
  have hcleared : (d.loadCleared c).SameCells
      (if d.newTenant c || false then (d.wr CORE_SEQ_STAT.STATE 1 c).clearLocal c else d.wr CORE_SEQ_STAT.STATE 1 c) := by
    unfold Dev.loadCleared; cases d.newTenant c <;> exact ⟨rfl, rfl, rfl⟩
  refine hupd (Dev.SameCells.foldl (fun e n he => he.wr _ _ _ _ _) (Dev.SameCells.foldl (fun e f he => he.wr _ _ _ _ _) ?_ _) _)
  exact iteInduction (motive := (d.loadCleared c).SameCells) (fun _ => hcleared.wr _ _ _ _ _) (fun _ => hcleared)

theorem Dev.loadCleared_of_new (h : d.newTenant c = true) : d.loadCleared c = d.clearLocal c := if_pos h
theorem Dev.loadCleared_of_same (h : d.newTenant c = false) : d.loadCleared c = d := if_neg (Bool.eq_false_iff.1 h)

theorem Dev.core_beginLoad (c : Nat) : (d.beginLoad c false).core c = d.loadCore c (d.core c) := by
  have hcleared : (d.loadCleared c).cores = d.cores := by unfold Dev.loadCleared; split <;> rfl
  rw [Dev.core, (d.beginLoad_sameCells c).cores]
  exact ((d.loadCleared c).core_updCore_same c (d.loadCore c)).trans (by simp only [Dev.core, hcleared])

theorem Dev.mem_beginLoad (c : Nat) : (d.beginLoad c false).mem = d.mem := by
  rw [(d.beginLoad_sameCells c).mem, Dev.updCore_mem]
  unfold Dev.loadCleared; split <;> rfl

theorem Dev.lmem_beginLoad (c : Nat) : (d.beginLoad c false).lmem = (d.loadCleared c).lmem := (d.beginLoad_sameCells c).lmem

theorem state_apart_counters : ∀ f ∈ startCounters, CORE_SEQ_STAT.STATE.apart f = true := by decide

theorem state_key_ne_bytes (c n : Nat) : CORE_SEQ_STAT.STATE.key c 0 0 ≠ CORE_DMA_CHn_BYTES.BYTES.key c n 0 := by
  simp only [Fld.key, Reg.addr, CORE_SEQ_STAT.STATE, CORE_SEQ_STAT, CORE_DMA_CHn_BYTES.BYTES, CORE_DMA_CHn_BYTES]
  omega

/-- STATE is LOADING: what a load writes else stands beside it. -/
theorem Dev.rd_state_beginLoad (c : Nat) : (d.beginLoad c false).rd CORE_SEQ_STAT.STATE c = 1 := by
  have hstate : (d.wr CORE_SEQ_STAT.STATE 1 c).rd CORE_SEQ_STAT.STATE c = 1 := d.rd_wr_of_lt (by decide) c
  unfold Dev.beginLoad
  dsimp only
  rw [Dev.rd_updCore,
    Dev.rd_foldl_of_kept _ (fun e n _ => e.rd_wr_ne _ _ _ _ _ _ _ _ _ (state_key_ne_bytes c n)),
    Dev.rd_foldl_of_kept _ (fun e f hf => e.rd_wr_apart (state_apart_counters f hf) 0 c)]
  have hcleared {b : Bool} : (if b then (d.wr CORE_SEQ_STAT.STATE 1 c).clearLocal c
      else d.wr CORE_SEQ_STAT.STATE 1 c).rd CORE_SEQ_STAT.STATE c = 1 := by cases b <;> exact hstate
  exact iteInduction (motive := fun e : Dev => e.rd CORE_SEQ_STAT.STATE c = 1)
    (fun _ => (Dev.rd_wr_apart _ (by decide) 1 c).trans hcleared) (fun _ => hcleared)

/-! ### Local memories when one of them is cleared -/

theorem FMap.get_filter_key {α : Type} (m : FMap α) (p : Nat → Bool) (x : α) (k : Nat) :
    FMap.get (m.filter (fun e => p e.1)) x k = if p k then FMap.get m x k else x := by
  have hfind : FMap.find (m.filter (fun e => p e.1)) k = if p k then FMap.find m k else none := by
    induction m with
    | nil => simp
    | cons e m ih =>
      obtain ⟨k', v⟩ := e
      by_cases hk : k' = k
      · subst hk
        by_cases hp : p k' <;> simp [FMap.find, hp] at ih ⊢
        exact ih
      · by_cases hp : p k' <;> simpa [List.filter_cons, FMap.find, hp, hk] using ih
  unfold FMap.get
  rw [hfind]
  split <;> rfl

/-- Every byte of the core's local memories reads zero once they are cleared. -/
theorem Dev.lrd_clearLocal_same {a n : Nat} (h : a + n ≤ 2 ^ 20) : (d.clearLocal c).lrd c a n = 0 := by
  rw [Dev.lrd_eq_mrd]
  refine (Dev.mrd_congr (e := { d with mem := [] }) _ _ fun x hlo hhi => ?_).trans (Dev.mrd_of_mem_nil rfl _ _)
  have hx : x / 0x100000 = c := by unfold lkey at hlo hhi; omega
  exact (FMap.get_filter_key d.lmem (fun k => k / 0x100000 != c) 0 x).trans (if_neg (by simp [hx]))

theorem Dev.lrd_clearLocal_ne {a n : Nat} (hc : c' ≠ c) (h : a + n ≤ 2 ^ 20) : (d.clearLocal c).lrd c' a n = d.lrd c' a n := by
  rw [Dev.lrd_eq_mrd, Dev.lrd_eq_mrd]
  refine Dev.mrd_congr _ _ fun x hlo hhi => ?_
  have hx : x / 0x100000 ≠ c := by unfold lkey at hlo hhi; omega
  exact (FMap.get_filter_key d.lmem (fun k => k / 0x100000 != c) 0 x).trans (if_pos (by simp [hx]))

theorem Dev.lrd_congr {d e : Dev} (h : e.lmem = d.lmem) (c a n : Nat) : e.lrd c a n = d.lrd c a n := by
  rw [Dev.lrd_eq_mrd, Dev.lrd_eq_mrd]
  exact Dev.mrd_of_mem_eq h _ _

/-! ### The start of a program (R78) -/

/-- The core's entry when its program begins: the arguments, and nothing else. -/
theorem Dev.core_beginProgram_same : (d.beginProgram c).core c =
    { d.core c with
      s := [(1, BitVec.ofNat 64 (d.rd CORE_SEQ_ARGn.VALUE c 0)), (2, BitVec.ofNat 64 (d.rd CORE_SEQ_ARGn.VALUE c 1)),
        (3, BitVec.ofNat 64 (d.rd CORE_SEQ_ARGn.VALUE c 2)), (4, BitVec.ofNat 64 (d.rd CORE_SEQ_ARGn.VALUE c 3))],
      desc := [], loops := [] } := by
  simp [Dev.beginProgram]

theorem Dev.core_beginProgram_ne (h : c' ≠ c) : (d.beginProgram c).core c' = d.core c' := by
  simp [Dev.beginProgram, Dev.core_updCore_ne _ _ h]

theorem Dev.sreg_beginProgram_arg {i : Nat} (hi : i < 4) :
    (d.beginProgram c).sreg c (i + 1) = BitVec.ofNat 64 (d.rd CORE_SEQ_ARGn.VALUE c i) := by
  unfold Dev.sreg
  rw [d.core_beginProgram_same]
  match i, hi with
  | 0, _ | 1, _ | 2, _ | 3, _ => rfl

theorem Dev.sreg_beginProgram_other {r : Nat} (h : r = 0 ∨ 5 ≤ r) : (d.beginProgram c).sreg c r = 0 := by
  obtain rfl | h := h
  · rfl
  · have hne (k : Nat) (hk : k < 5) : k ≠ r := by omega
    unfold Dev.sreg
    rw [d.core_beginProgram_same]
    simp [FMap.get, FMap.find, hne 1, hne 2, hne 3, hne 4]

end Sys2Proof.Machine

namespace Sys2Proof.Claims
open Sys2Proof Sys2Proof.Machine

/-- Settles O7: IN_TRAP and the vector decide, and the handler's registers stand beside one another. -/
theorem takingATrap : Obligations.TakingATrap := by
  intro d c cause tval imprecise t
  refine ⟨d.trap_of_inTrap c cause tval imprecise, fun hin => d.trap_of_noVector c cause tval imprecise hin,
    fun hin hvec hcause htval hpc hindex => ?taken⟩
  case taken =>
    have ht : t = d.trapTaken c cause tval imprecise := d.trap_of_vector c cause tval imprecise hin hvec
    rw [ht]
    obtain ⟨h1, h2, h3, h4, h5, h6⟩ := d.rd_trapTaken imprecise hcause htval hpc hindex
    have hcore := d.core_trapTaken_same (c := c) cause tval imprecise
    exact ⟨h1, h2, h3, h4, hcore, h5, h6, Dev.sreg_congr (by rw [hcore]), fun n => by simp only [Dev.descBits, hcore],
      fun c' h => d.core_trapTaken_ne cause tval imprecise h, rfl, rfl⟩

/-- Settles O9: the write of rd moves the cores alone, retirement the core's loops and three fields. -/
theorem writingRdTouchesNothingElse : Obligations.WritingRdTouchesNothingElse := by
  intro d c v r t
  obtain ⟨hmem, hlmem, hlue, hout, himem⟩ := d.setS_beside_cores c r v
  refine ⟨fun hr => (Dev.sreg_retire _ c r).trans (d.sreg_setS_same c r v hr), rfl,
    fun r' hr => (Dev.sreg_retire _ c r').trans (d.sreg_setS_ne c r r' v hr),
    fun c' hc => (Dev.core_retire_ne _ hc).trans (d.core_setS_ne r v hc), ?desc,
    hmem, hlmem, hlue, hout, himem, fun f u i j hkey => (Dev.rd_retire_of_key _ hkey).trans (d.rd_setS f u i j c r v)⟩
  case desc => exact (congrArg CoreSt.desc (Dev.core_retire_same _)).trans (d.desc_setS c r v)

/-- Settles O11: the core's entry is written whole, and the sequencer's fields stand beside one another. -/
theorem aProgramBegins : Obligations.AProgramBegins := by
  intro d c t
  have hcore := d.core_beginProgram_same (c := c)
  have hregs : t.rd CORE_SEQ_STAT.IN_TRAP c = 0 ∧ t.rd CORE_SEQ_RETIRED.RETIRED c = 0 ∧ t.rd CORE_SEQ_STAT.STATE c = 2 ∧
      (d.rd CORE_SEQ_ENTRY.INDEX c < 2048 → t.rd CORE_SEQ_PC.PC c = d.rd CORE_SEQ_ENTRY.INDEX c) := by
    simp (disch := decide) only [t, Dev.beginProgram, Dev.rd_wr_apart, Dev.rd_updCore]
    exact ⟨Dev.rd_wr_of_lt _ (by decide) c, Dev.rd_wr_of_lt _ (by decide) c, Dev.rd_wr_of_lt _ (by decide) c,
      fun h => Dev.rd_wr_of_lt _ h c⟩
  obtain ⟨hin, hretired, hstate, hpc⟩ := hregs
  exact ⟨fun i hi => d.sreg_beginProgram_arg hi, fun r hr => d.sreg_beginProgram_other hr,
    fun n => by simp [t, Dev.descBits, hcore], by rw [hcore], hin, hretired, hstate, hpc, rfl, rfl, rfl,
    fun c' hc => d.core_beginProgram_ne hc⟩

/-- Settles O12: beside the registers a load writes the core's entry, and clears its local memories for a new tenant. -/
theorem aNewTenantFindsNothing : Obligations.ANewTenantFindsNothing := by
  intro d c t
  have hcore : t.core c = d.loadCore c (d.core c) := d.core_beginLoad c
  refine ⟨d.rd_state_beginLoad c, by rw [hcore]; rfl, by rw [hcore]; rfl, by rw [hcore]; rfl, fun hnew => ?new,
    fun hsame => ?same, by rw [hcore]; rfl, d.mem_beginLoad c⟩
  case new =>
    have hnew : d.newTenant c = true := bne_iff_ne.2 hnew
    have hl (c' a n : Nat) : t.lrd c' a n = (d.clearLocal c).lrd c' a n :=
      Dev.lrd_congr ((d.lmem_beginLoad c).trans (by rw [d.loadCleared_of_new hnew])) c' a n
    exact ⟨fun a n h => (hl c a n).trans (d.lrd_clearLocal_same h), by rw [hcore]; exact if_pos hnew,
      fun c' a n hc h => (hl c' a n).trans (d.lrd_clearLocal_ne hc h)⟩
  case same =>
    have hsame : d.newTenant c = false := by simp [Dev.newTenant, hsame]
    exact ⟨(d.lmem_beginLoad c).trans (by rw [d.loadCleared_of_same hsame]),
      by rw [hcore]; exact if_neg (Bool.eq_false_iff.1 hsame)⟩

end Sys2Proof.Claims
end

section
/-! FENCE (R105), the register space of a core (R26, R91, R374) and messages (R101, R102, R329, R330): each instruction past its
checks, and each event by the state that it finds. -/
namespace Sys2Proof.Machine
open Sys2Proof Sys2Proof.Claims

variable {s : State} {d e t : Dev} {w : W64} {c n fn : Nat} {i : Instr}

/-! ### FENCE (R105) -/

theorem fields_imm_lt_ok {rd ra rb : Bool} {k : Nat} (hu : Unused w rd ra rb) (himm : immOf w < 2 ^ k) :
    (regsOk w rd ra rb && immBelow w k) = true := by
  simp [regsOk_iff_unused.2 hu, immBelow, himm]

theorem gives_fence_iff (h : Issues s c 0x18 0) (hu : Unused (s.dev.instr c) false false false)
    (himm : immOf (s.dev.instr c) < 128) : Gives (.fence c) s t ↔
      (if (s.dev.core c).fenced (immOf (s.dev.instr c)) then s.dev.fenceEnd c (immOf (s.dev.instr c))
        else s.dev.setWait c (.fence (immOf (s.dev.instr c)))) = t :=
  gives_iff_of_checked (f := fun _ w d => if (d.core c).fenced (immOf w) then d.fenceEnd c (immOf w)
    else d.setWait c (.fence (immOf w))) rfl h (fields_imm_lt_ok (k := 7) hu himm)

theorem gives_fenceRelease_iff {mask : Nat} (hl : Live s) (hw : (s.dev.core c).wait = .fence mask) :
    Gives (.fenceRelease c) s t ↔
      (if (s.dev.core c).fenced mask then (s.dev.fenceEnd c mask).endWait c else s.dev) = t := by
  have hx : exec (.fenceRelease c) s = execFenceRelease c s := rfl
  rw [Gives, hx, execFenceRelease, act_running _ hl]
  simp [hw]

/-! ### Register space: the issue of an access (R26, R91) -/

section
variable {wr : Bool} {a : Nat} (hi : exec i s = act s (regIssue fn n wr c)) (h : Issues s c 7 fn)
  (hu : Unused (s.dev.instr c) (!wr) true wr)
  (ha : (s.dev.sreg c (raOf (s.dev.instr c)) + simm32 (s.dev.instr c)).toNat = a)
include hi h hu ha

/-- At an aligned register DA the access goes out under the bank of its issue. -/
theorem gives_regIssue_of_register {da : Nat} (hda : daOf a = some da) (hreg : 2 ^ 47 ≤ da) (hal : da % n = 0) :
    Gives i s (s.dev.setWait c (.reg wr (n == 8) da (s.dev.sreg c (rbOf (s.dev.instr c))).toNat (rdOf (s.dev.instr c))
      (s.dev.epochBank (coreHalf c)))) := by
  refine (gives_iff_of_checked hi h (regsOk_iff_unused.2 hu)).2 ?_
  simp only [ha, hda]
  exact if_neg (by omega)

/-- Elsewhere it traps, with a record where the value names no DA. -/
theorem gives_regIssue_of_fault (hbad : ∀ da, daOf a = some da → da < 2 ^ 47 ∨ da % n ≠ 0) :
    Gives i s ((if daOf a = none ∧ a % n = 0 then s.dev.err 3 (if wr then 2 else 1) (unitCore c 0 0) a else s.dev).trap c 8 a) := by
  refine (gives_iff_of_checked hi h (regsOk_iff_unused.2 hu)).2 ?_
  cases hda : daOf a with
  | none => simp only [ha, hda, true_and]
  | some da =>
    simp only [ha, hda, reduceCtorEq, false_and, if_false]
    exact if_pos (hbad da hda)

end

/-! ### Register space: the access completes (R91) -/

section
variable {wr wide : Bool} {da val rd b : Nat} {m : Option Nat} (hw : (d.core c).wait = .reg wr wide da val rd b)
  (ha : d.regAccess (.core c) da (if wide then 8 else 4) (if wr then some val else none) (some b) = (m, e))
include hw ha

/-- The core waits for its access still: it takes the answer. -/
theorem regComplete_of_waiting {wr' wide' : Bool} {da' val' rd' b' : Nat} (hw' : (e.core c).wait = .reg wr' wide' da' val' rd' b') :
    regComplete c d = match m with
      | none => e.endWaitTrap c 8 da
      | some v => ((if wr then e else e.setS c rd (BitVec.ofNat 64 v)).retire c).endWait c := by
  simp only [regComplete, hw, ha, hw']
  cases m <;> rfl

/-- The access itself ended the wait. -/
theorem regComplete_of_ended (hw' : (e.core c).wait = .run) : regComplete c d = e := by
  simp only [regComplete, hw, ha, hw']

end

theorem regComplete_of_run (hw : (d.core c).wait = .run) : regComplete c d = d := by simp only [regComplete, hw]

theorem gives_regAccessComplete_iff (hl : Live s) : Gives (.regAccessComplete c) s t ↔ regComplete c s.dev = t :=
  gives_iff_of_act rfl hl

/-! ### MSEND (R101) -/

/-- Number of payload bytes of a MSEND. -/
def msgLen (w : W64) : Nat := (W64.bits w 12 8 + 1) * 8

/-- The message that a MSEND queues. -/
def msgSent (d : Dev) (c : Nat) (w : W64) : Msg :=
  { dst := (d.sreg c (raOf w)).toNat, src := c, tenant := d.rd CORE_SEQ_TENANT.TENANT c, tag := W64.bits w 7 0,
    len := msgLen w, data := bytesOf (d.lrd c (d.sreg c (rbOf w)).toNat (msgLen w)) (msgLen w), phase := .queued, tries := 0,
    pcIdx := d.pc c }

/-- The device after the MSEND at the head of core `c` has queued its message and retired. -/
def msgQueued (d : Dev) (c : Nat) : Dev :=
  ((d.countLce c (d.sreg c (rbOf (d.instr c))).toNat (msgLen (d.instr c))).updCore c
    (fun k => { k with sendq := k.sendq ++ [msgSent d c (d.instr c)] })).retire c

/-- The MSEND at the head of core `c` may issue and passes its checks. -/
structure SendReady (s : State) (c : Nat) : Prop where
  issues : Issues s c 0x10 0
  fields : Unused (s.dev.instr c) false true true
  imm : immOf (s.dev.instr c) < 2 ^ 13
  aligned : (s.dev.sreg c (rbOf (s.dev.instr c))).toNat % 8 = 0
  below : (s.dev.sreg c (rbOf (s.dev.instr c))).toNat < 2 ^ 20
  inside : spanOk (s.dev.sreg c (rbOf (s.dev.instr c))).toNat (msgLen (s.dev.instr c)) = true
  dest : (s.dev.sreg c (raOf (s.dev.instr c))).toNat < 4096
  good : s.dev.lbad c (s.dev.sreg c (rbOf (s.dev.instr c))).toNat (msgLen (s.dev.instr c)) = false

/-- Past its checks a MSEND waits for a slot, and fails at once where its receiver is in another partition. -/
theorem SendReady.gives_iff (h : SendReady s c) : Gives (.msend c) s t ↔
    (if 8 ≤ (s.dev.core c).sendq.length then s.dev
     else if ((msgQueued s.dev c).corePart c).isNone ∨
       (msgQueued s.dev c).corePart c ≠ (msgQueued s.dev c).corePart (s.dev.sreg c (raOf (s.dev.instr c))).toNat
     then (msgQueued s.dev c).msgFail c (s.dev.core c).sendq.length 2 else msgQueued s.dev c) = t := by
  have hinside := h.inside
  have hgood := h.good
  unfold msgLen at hinside hgood
  rw [gives_iff_of_act (i := .msend c) (f := msendStep c) rfl h.issues.1, msendStep, Dev.issue_of_issues h.issues,
    Dev.checked_of_ok (fields_imm_lt_ok h.fields h.imm)]
  simp only [h.aligned, Nat.not_le.2 h.below, hinside, Nat.not_le.2 h.dest, hgood, ne_eq, not_true_eq_false, if_false,
    Bool.true_eq_false, Bool.false_eq_true, or_self]
  rfl

/-! ### MRECV and MPOLL (R102) -/

/-- The message at the front of core `c`'s receive queue is taken to local address `a`, and the header to `rd`. -/
def Dev.msgTaken (d : Dev) (c rd a : Nat) (m : Msg) (rest : List Msg) : Dev :=
  (((d.lwr c a m.len (m.data.foldr (fun x y => x.toNat + 256 * y) 0)).updCore c
    (fun k => { k with recvq := rest })).setS c rd (BitVec.ofNat 64 m.header)).retire c

section
variable {a : Nat} (hi : exec i s = act s (recvStep fn c)) (h : Issues s c 0x10 fn)
  (hu : Unused (s.dev.instr c) true true false) (himm : immOf (s.dev.instr c) = 0)
  (ha : (s.dev.sreg c (raOf (s.dev.instr c))).toNat = a) (hal : a % 8 = 0)
include hi h hu himm ha hal

theorem gives_recv_of_cons {m : Msg} {rest : List Msg} (hq : (s.dev.core c).recvq = m :: rest) (hlt : a < 2 ^ 20)
    (hspan : spanOk a m.len = true) : Gives i s (s.dev.msgTaken c (rdOf (s.dev.instr c)) a m rest) := by
  refine (gives_iff_of_checked hi h (fields_imm_ok hu himm)).2 ?_
  simp only [ha, hal, hq, hspan, Nat.not_le.2 hlt, ne_eq, not_true_eq_false, if_false, Bool.true_eq_false, or_self]
  rfl

theorem gives_recv_of_nil (hq : (s.dev.core c).recvq = []) :
    Gives i s (if fn = 1 then s.dev.sleep c true
      else writeRd s.dev c (BitVec.allOnes 64)) := by
  refine (gives_iff_of_checked hi h (fields_imm_ok hu himm)).2 ?_
  simp only [ha, hal, hq, ne_eq, not_true_eq_false, if_false]
  rfl

end

/-! ### Delivery and its answers (R329, R330) -/

section
variable {j : Nat} {m : Msg} (hm : (d.core c).sendq[j]? = some m)
include hm

theorem Dev.msgAt_of_phase {p : MsgPhase} (hp : m.phase = p) (f : Msg → Dev → Dev) : d.msgAt c j p f = f m d := by
  simp [Dev.msgAt, hm, hp]

/-- The message is the first to its receiver, and a route is left: the receiver answers. -/
theorem msgArrive_of_first (hp : m.phase = .queued) (hfirst : ((d.core c).sendq.take j).any (fun e => e.dst == m.dst) = false)
    (hroute : d.meshLost (coreCluster c) (coreCluster m.dst) = false) {dst : Nat}
    (hdst : d.seenAt (coreHalf c) (coreCluster m.dst) * 16 + m.dst % 16 = dst) :
    msgArrive c j false d =
      if !d.coreEnabled dst then d.setMsg c j (.failing 1) m.tries
      else if 32 ≤ (d.core dst).recvq.length || d.coreCurtained dst then d.setMsg c j .nacked m.tries
      else if d.rd CORE_SEQ_TENANT.TENANT dst ≠ m.tenant then d.setMsg c j (.failing 3) m.tries
      else ((d.updCore dst (fun k => { k with recvq := k.recvq ++ [m] })).add CORE_MSG_RCVD.COUNT 1 dst).setMsg c j
        .acked m.tries := by
  simp only [msgArrive, hm, hp, hfirst, hroute, hdst, bne_self_eq_false, Bool.or_self, Bool.false_eq_true, if_false]

end

/-- An event of a message at its phase gives the change of the row. -/
theorem gives_of_msgAt {j : Nat} {m : Msg} {p : MsgPhase} {f : Msg → Dev → Dev}
    (hi : exec i s = act s (fun d => d.msgAt c j p f)) (hl : Live s) (hm : (s.dev.core c).sendq[j]? = some m)
    (hp : m.phase = p) (ht : f m s.dev = t) : Gives i s t :=
  (gives_iff_of_act hi hl).2 ((Dev.msgAt_of_phase hm hp f).trans ht)

theorem gives_msgFailReply {j cause : Nat} {m : Msg} (hl : Live s) (hm : (s.dev.core c).sendq[j]? = some m)
    (hp : m.phase = .failing cause) : Gives (.msgFailReply c j) s (s.dev.msgFail c j cause) := by
  have hx : exec (.msgFailReply c j) s = execMsgFailReply c j s := rfl
  rw [Gives, hx, execMsgFailReply, act_running _ hl]
  simp only [hm, hp]

theorem gives_msgArrive_iff {j : Nat} {ue : Bool} (hl : Live s) : Gives (.msgArrive c j ue) s t ↔ msgArrive c j ue s.dev = t :=
  gives_iff_of_act rfl hl

end Sys2Proof.Machine

namespace Sys2Proof.Claims
open Sys2Proof Sys2Proof.Machine

/-- Settles O13: FENCE turns on its classes, an access on the DA that its value names and on the answer that returns. -/
theorem fenceAndRegisterSpace : Obligations.FenceAndRegisterSpace := by
  intro s c d w a at_
  have hat {fn n : Nat} {wr : Bool} {i : Instr} (hi : exec i s = act s (regIssue fn n wr c)) : at_ fn n wr i :=
    ⟨fun h hu da hda hreg hal => gives_regIssue_of_register hi h hu rfl hda hreg hal,
      fun h hu hbad => gives_regIssue_of_fault hi h hu rfl hbad⟩
  refine ⟨fun h hu himm => ⟨fun hf => (gives_fence_iff h hu himm).2 (if_pos hf),
      fun hf => (gives_fence_iff h hu himm).2 (if_neg (Bool.eq_false_iff.1 hf))⟩,
    fun mask hl hw => ⟨fun hf => (gives_fenceRelease_iff hl hw).2 (if_pos hf),
      fun hf => (gives_fenceRelease_iff hl hw).2 (if_neg (Bool.eq_false_iff.1 hf))⟩,
    hat rfl, hat rfl, hat rfl, hat rfl, fun wr wide da val rd b e m hl hw ha => ⟨?waiting, ?ended⟩,
    fun hl hw => (gives_regAccessComplete_iff hl).2 (regComplete_of_run hw)⟩
  case waiting =>
    intro wr' wide' da' val' rd' b' hw'
    have hdone := regComplete_of_waiting hw ha hw'
    refine ⟨?_, ?_, ?_⟩
    · rintro rfl
      exact (gives_regAccessComplete_iff hl).2 hdone
    · rintro v rfl rfl
      exact (gives_regAccessComplete_iff hl).2 hdone
    · rintro v rfl rfl
      exact (gives_regAccessComplete_iff hl).2 hdone
  case ended => exact fun hw' => (gives_regAccessComplete_iff hl).2 (regComplete_of_ended hw ha hw')

/-- Settles O14: the queues decide what an instruction does, the receiver what becomes of a message, and the phase that the
answer gave it what follows. -/
theorem messages : Obligations.Messages := by
  intro s c i d w a b n msg queued send recv taken
  have hready (h : send) : SendReady s c := by
    obtain ⟨hissues, hu, himm, hal, hlt, hspan, hdst, hgood⟩ := h
    exact ⟨hissues, hu, himm, hal, hlt, hspan, hdst, hgood⟩
  refine ⟨fun h hroom hpart => ?sent, fun h hfull => (hready h).gives_iff.2 (if_pos hfull),
    fun m rest ⟨h, hu, himm, hal⟩ hq hlt hspan => gives_recv_of_cons rfl h hu himm rfl hal hq hlt hspan,
    fun ⟨h, hu, himm, hal⟩ hq => gives_recv_of_nil rfl h hu himm rfl hal hq,
    fun m rest ⟨h, hu, himm, hal⟩ hq hlt hspan => gives_recv_of_cons rfl h hu himm rfl hal hq hlt hspan,
    fun ⟨h, hu, himm, hal⟩ hq => gives_recv_of_nil rfl h hu himm rfl hal hq, fun m hl hm => ?delivery⟩
  case sent =>
    obtain ⟨p, hc, ha⟩ := hpart
    have hsame : ¬(((msgQueued d c).corePart c).isNone = true ∨ (msgQueued d c).corePart c ≠ (msgQueued d c).corePart a) := by
      rw [show (msgQueued d c).corePart c = some p from hc, show (msgQueued d c).corePart a = some p from ha]
      simp
    exact (hready h).gives_iff.2 ((if_neg (Nat.not_le.2 hroom)).trans (if_neg hsame))
  case delivery =>
    intro dst first
    have harrive (h : first) := msgArrive_of_first hm h.1 h.2.1 h.2.2 (dst := dst) rfl
    refine ⟨fun h hen hroom hcur hten => (gives_msgArrive_iff hl).2 ((harrive h).trans ?_),
      fun h hen hfull => (gives_msgArrive_iff hl).2 ((harrive h).trans ?_),
      fun h hen => (gives_msgArrive_iff hl).2 ((harrive h).trans ?_), fun hp => ?ack, fun hp => ?nack, fun hp hlt => ?again,
      fun hp hle => ?timeout, fun cause hp => gives_msgFailReply hl hm hp⟩
    · simp [hen, Nat.not_le.2 hroom, hcur, hten]
    · simp [hen, hfull]
    · simp [hen]
    case ack => refine gives_of_msgAt rfl hl hm hp ?_; rfl
    case nack => refine gives_of_msgAt rfl hl hm hp ?_; rfl
    case again => refine gives_of_msgAt rfl hl hm hp ?_; exact if_neg (Nat.not_le.2 hlt)
    case timeout => refine gives_of_msgAt rfl hl hm hp ?_; exact if_pos hle

end Sys2Proof.Claims
end

section
/-! Slice DMA (R103, R104, R316-R327): instructions past their checks, commands of the host, the start of a descriptor, and the
response that moves a chunk. -/
namespace Sys2Proof.Machine
open Sys2Proof Sys2Proof.Claims

variable {s : State} {d t : Dev} {w : W64} {c ch : Nat} {i : Instr}

/-! ### DMAQ (R319) -/

/-- The DMAQ at the head of core `c` passes its checks with a chain of `b` descriptors at `a`. -/
structure ChainReady (s : State) (c a b : Nat) : Prop where
  issues : Issues s c 0x14 0
  fields : Unused (s.dev.instr c) true true true
  imm : immOf (s.dev.instr c) < 8
  at_ : (s.dev.sreg c (raOf (s.dev.instr c))).toNat = a
  length : (s.dev.sreg c (rbOf (s.dev.instr c))).toNat = b
  some : 1 ≤ b
  most : b ≤ 64
  aligned : a % 32 = 0
  below : a < 2 ^ 20
  inside : spanOk a (32 * b) = true

/-- Past its checks a DMAQ queues its chain and answers 1, or answers 0 where the channel does not accept it. -/
theorem ChainReady.gives_iff {a b : Nat} (h : ChainReady s c a b) : Gives (.dmaq c) s t ↔
    (if (s.dev.ch c (immOf (s.dev.instr c) % 8)).accepts b then
      (((s.dev.countLce c a (32 * b)).pushDma c (immOf (s.dev.instr c) % 8) (s.dev.chain c a b)).setS c
        (rdOf (s.dev.instr c)) 1).retire c
    else writeRd s.dev c 0) = t := by
  have hsome : b ≠ 0 := Nat.one_le_iff_ne_zero.1 h.some
  rw [gives_iff_of_act (i := .dmaq c) (f := dmaqStep c) rfl h.issues.1, dmaqStep, Dev.issue_of_issues h.issues,
    Dev.checked_of_ok (fields_imm_lt_ok (k := 3) h.fields h.imm)]
  simp only [h.at_, h.length, hsome, Nat.not_lt.2 h.most, h.aligned, Nat.not_le.2 h.below, h.inside, bne_self_eq_false,
    Bool.false_eq_true, Bool.true_eq_false, or_self, if_false]
  rfl

theorem DmaCh.accepts_iff (k : DmaCh) (m : Nat) : k.accepts m = true ↔ k.halted = false ∧ k.q.length + m ≤ 64 := by
  simp [DmaCh.accepts]

/-! ### DMAC (R104) -/

/-- The DMAC at the head of core `c` passes its checks with the DA value `a` and the local address `b`. -/
structure CopyReady (s : State) (c a b : Nat) : Prop where
  issues : Issues s c 0x14 1
  fields : Unused (s.dev.instr c) true true true
  reserved : W64.bits (s.dev.instr c) 27 13 = 0
  from_ : (s.dev.sreg c (raOf (s.dev.instr c))).toNat = a
  at_ : (s.dev.sreg c (rbOf (s.dev.instr c))).toNat = b
  alignedDa : a % 32 = 0
  aligned : b % 32 = 0
  below : b < 2 ^ 20
  inside : spanOk b (32 * (W64.bits (s.dev.instr c) 12 0 + 1)) = true

/-- The cue that a DMAC names in rd. -/
def dmacCue (d : Dev) (c : Nat) (w : W64) : Option Nat :=
  if rdOf w = 0 ∨ 2 ^ 14 ≤ (d.sreg c (rdOf w)).toNat then none else some (d.sreg c (rdOf w)).toNat

/-- Past its checks a DMAC is lost on a halted channel, waits on a full one, and queues its COPY otherwise. -/
theorem CopyReady.gives_iff {a b : Nat} (h : CopyReady s c a b) :
    let w := s.dev.instr c
    Gives (.dmac c) s t ↔
      (if (s.dev.ch c (W64.bits w 30 28)).halted then
        (s.dev.updCh c (W64.bits w 30 28) (fun k => { k with lost := true })).retire c
      else if 64 ≤ (s.dev.ch c (W64.bits w 30 28)).q.length then s.dev
      else (s.dev.pushDma c (W64.bits w 30 28)
        [{ raw := dmacRaw (W64.bits w 31 31) ((daOf a).getD 0) b (W64.bits w 12 0 + 1) (dmacCue s.dev c w), ue := none,
           badDa := if (daOf a).isNone then some a else none, kv := none }]).retire c) = t := by
  have hok : (regsOk (s.dev.instr c) true true true && W64.bits (s.dev.instr c) 27 13 == 0) = true := by
    simp [regsOk_iff_unused.2 h.fields, h.reserved]
  intro w
  rw [gives_iff_of_act (i := .dmac c) (f := dmacStep c) rfl h.issues.1, dmacStep, Dev.issue_of_issues h.issues,
    Dev.checked_of_ok hok]
  simp only [h.from_, h.at_, h.alignedDa, h.aligned, Nat.not_le.2 h.below, h.inside, bne_self_eq_false, Bool.false_eq_true,
    Bool.true_eq_false, or_self, if_false]
  rfl

/-! ### DMAW, DMAS and DMAR (R103, R327) -/

theorem DmaCh.quiet_iff (k : DmaCh) : k.quiet = true ↔ k.q = [] ∨ k.halted = true := by simp [DmaCh.quiet]

theorem gives_dmaw_iff (h : Issues s c 0x14 2) (hu : Unused (s.dev.instr c) true false false)
    (himm : immOf (s.dev.instr c) < 8) : Gives (.dmaw c) s t ↔
      (if (s.dev.ch c (immOf (s.dev.instr c) % 8)).quiet then
        writeRd s.dev c (BitVec.ofNat 64 (s.dev.ch c (immOf (s.dev.instr c) % 8)).status)
      else s.dev.sleep c true) = t :=
  gives_iff_of_checked (f := fun _ w d => if (d.ch c (immOf w % 8)).quiet then
    (d.setS c (rdOf w) (BitVec.ofNat 64 (d.ch c (immOf w % 8)).status)).retire c else d.sleep c true) rfl h
    (fields_imm_lt_ok (k := 3) hu himm)

theorem gives_dmas (h : Issues s c 0x14 3) (hu : Unused (s.dev.instr c) true false false)
    (himm : immOf (s.dev.instr c) < 8) :
    Gives (.dmas c) s (writeRd s.dev c (BitVec.ofNat 64 (s.dev.ch c (immOf (s.dev.instr c) % 8)).status)) :=
  (gives_iff_of_checked rfl h (fields_imm_lt_ok (k := 3) hu himm)).2 rfl

theorem gives_dmar_iff (h : Issues s c 0x14 4) (hu : Unused (s.dev.instr c) false false false)
    (himm : immOf (s.dev.instr c) < 16) : Gives (.dmar c) s t ↔
      (s.dev.dmaResume c (immOf (s.dev.instr c) % 8) (immOf (s.dev.instr c) / 8 == 1)).retire c = t :=
  gives_iff_of_checked (f := fun _ w d => (d.dmaResume c (immOf w % 8) (immOf w / 8 == 1)).retire c) rfl h
    (fields_imm_lt_ok (k := 4) hu himm)

/-- A halted channel starts anew, with its queue or without. -/
def DmaCh.again (k : DmaCh) (keep : Bool) : DmaCh :=
  { k with q := if keep then k.q else [], begun := false, pos := 0, cause := 0, lost := false, poison := false,
           halted := false }

theorem Dev.dmaResume_of_halted (h : (d.ch c ch).halted = true) (keep : Bool) :
    d.dmaResume c ch (!keep) = d.updCh c ch (fun k => k.again keep) := by
  cases keep <;> exact if_pos h

theorem Dev.dmaResume_of_running (h : (d.ch c ch).halted = false) (discard : Bool) : d.dmaResume c ch discard = d :=
  if_neg (Bool.eq_false_iff.1 h)

/-- Of four bits with three for the channel, the fourth says DISCARD. -/
theorem discard_bit {v : Nat} (h : v < 16) : (v / 8 == 1) = !decide (v < 8) := by
  by_cases hv : v < 8
  · have h0 : v / 8 = 0 := by omega
    simp [h0, hv]
  · have h1 : v / 8 = 1 := by omega
    simp [h1, hv]

/-! ### Commands of the host (R327, R328, R527) -/

theorem Dev.coreReg_open (h : d.coreCurtained c = false) (f : Dev → Dev) : d.coreReg c f = f d :=
  if_neg (Bool.eq_false_iff.1 h)

theorem Dev.coreReg_curtained (h : d.coreCurtained c = true) (f : Dev → Dev) : d.coreReg c f = d.wr SEQ_STAT.ACCESS_LOST 1 :=
  if_pos h

theorem gives_dmaChanRestart_iff (hl : Live s) : Gives (.dmaChanRestart c ch) s t ↔
    s.dev.coreReg c (fun d => d.dmaResume c ch false) = t :=
  gives_iff_of_act (f := fun d => d.coreReg c (fun d => d.dmaResume c ch false)) rfl hl

theorem gives_dmaChanDiscard_iff (hl : Live s) : Gives (.dmaChanDiscard c ch) s t ↔
    s.dev.coreReg c (fun d => d.dmaResume c ch true) = t :=
  gives_iff_of_act (f := fun d => d.coreReg c (fun d => d.dmaResume c ch true)) rfl hl

theorem gives_dmaChanNop_iff (hl : Live s) : Gives (.dmaChanNop c ch) s t ↔ s.dev.coreReg c (fun d => d) = t :=
  gives_iff_of_act rfl hl

/-! ### A descriptor begins (R318, R319) -/

section
variable {ent : DmaEnt} {rest : List DmaEnt} (hq : (d.ch c ch).q = ent :: rest) (hhalted : (d.ch c ch).halted = false)
include hq hhalted

section
variable {kindOk : Nat → Bool} {kind : Nat} (f : DmaDesc → Dev → Dev) (hkv : ent.kv = none)
  (hbegun : (d.ch c ch).begun = false) (hue : ent.ue = none) (hda : ent.badDa = none)
  (hkind : (DmaDesc.ofRaw ent.raw).kind = kind) (hok : kindOk kind = true)
include hkv hbegun hue hda hkind hok

/-- A fresh descriptor of a row's kind is checked: its fields first, then its local side. -/
theorem Dev.dmaBegin_of_fresh : d.dmaBegin c ch kindOk f =
    if (DmaDesc.ofRaw ent.raw).bad then d.dmaHalt c ch 7 0
    else if !(DmaDesc.ofRaw ent.raw).localOk then d.dmaHalt c ch 8 (DmaDesc.ofRaw ent.raw).localFault
    else f (DmaDesc.ofRaw ent.raw) (d.updCh c ch (fun k => { k with begun := true, pos := 0, snap := [] })) := by
  simp only [Dev.dmaBegin, hq, hhalted, hkv, hbegun, hue, hda, hkind, hok, Option.isSome_none, Bool.not_true, Bool.or_self,
    Bool.false_eq_true, if_false]

theorem Dev.dmaBegin_of_good (hbad : (DmaDesc.ofRaw ent.raw).bad = false) (hlocal : (DmaDesc.ofRaw ent.raw).localOk = true) :
    d.dmaBegin c ch kindOk f =
      f (DmaDesc.ofRaw ent.raw) (d.updCh c ch (fun k => { k with begun := true, pos := 0, snap := [] })) := by
  rw [Dev.dmaBegin_of_fresh hq hhalted f hkv hbegun hue hda hkind hok, hbad, hlocal]
  rfl

theorem Dev.dmaBegin_of_bad (hbad : (DmaDesc.ofRaw ent.raw).bad = true) :
    d.dmaBegin c ch kindOk f = d.dmaHalt c ch 7 0 :=
  (Dev.dmaBegin_of_fresh hq hhalted f hkv hbegun hue hda hkind hok).trans (if_pos hbad)

theorem Dev.dmaBegin_of_outside (hbad : (DmaDesc.ofRaw ent.raw).bad = false)
    (hlocal : (DmaDesc.ofRaw ent.raw).localOk = false) :
    d.dmaBegin c ch kindOk f = d.dmaHalt c ch 8 (DmaDesc.ofRaw ent.raw).localFault := by
  rw [Dev.dmaBegin_of_fresh hq hhalted f hkv hbegun hue hda hkind hok, hbad, hlocal]
  rfl

end

/-! ### A response (R320, R326) -/

/-- The device after the next chunk of the current descriptor has moved and been counted. -/
def Dev.dmaMoved (d : Dev) (c ch : Nat) (ent : DmaEnt) : Dev :=
  let r := d.dmaChunk c ch (DmaDesc.ofRaw ent.raw) (d.ch c ch).pos
  (r.dev.add CORE_DMA_CHn_BYTES.BYTES r.done c ch).updCh c ch (fun k => { k with pos := k.pos + r.done })

/-- A response whose chunk raises no fault completes the descriptor with its last byte and otherwise goes on. -/
theorem dmaResponse_of_good (hbegun : (d.ch c ch).begun = true)
    (hgood : (d.dmaChunk c ch (DmaDesc.ofRaw ent.raw) (d.ch c ch).pos).halt = none) :
    let e := DmaDesc.ofRaw ent.raw
    dmaResponse c ch d =
      if (d.ch c ch).pos + (d.dmaChunk c ch e (d.ch c ch).pos).done = e.total then (d.dmaMoved c ch ent).dmaComplete c ch e.cue
      else d.dmaMoved c ch ent := by
  simp only [dmaResponse, hq, hhalted, hbegun, hgood, Bool.not_true, Bool.or_self, Bool.false_eq_true, if_false, Dev.dmaMoved]

/-- A response whose chunk raises a fault stops the channel behind the bytes it moved. -/
theorem dmaResponse_of_fault {h : Nat × Nat × Nat × Option Nat} (hbegun : (d.ch c ch).begun = true)
    (hfault : (d.dmaChunk c ch (DmaDesc.ofRaw ent.raw) (d.ch c ch).pos).halt = some h) :
    dmaResponse c ch d = (d.dmaMoved c ch ent).dmaStop c ch
      ((d.ch c ch).pos + (DmaDesc.ofRaw ent.raw).chunkLen (d.ch c ch).pos) h := by
  simp only [dmaResponse, hq, hhalted, hbegun, hfault, Bool.not_true, Bool.or_self, Bool.false_eq_true, if_false, Dev.dmaMoved]

end

/-- MARK touches no local byte. -/
theorem DmaDesc.localOk_of_mark {e : DmaDesc} (h : e.kind = 2) : e.localOk = true := if_pos (.inl h)

theorem gives_dmaCopy_iff (hl : Live s) : Gives (.dmaCopy c ch) s t ↔
    s.dev.dmaBegin c ch (fun k => k == 0 || decide (2 < k)) (fun _ d => d) = t :=
  gives_iff_of_act (f := fun d => d.dmaBegin c ch (fun k => k == 0 || decide (2 < k)) (fun _ d => d)) rfl hl

theorem gives_dmaFill_iff (hl : Live s) : Gives (.dmaFill c ch) s t ↔
    s.dev.dmaBegin c ch (fun k => k == 1) (fun _ d => d) = t :=
  gives_iff_of_act (f := fun d => d.dmaBegin c ch (fun k => k == 1) (fun _ d => d)) rfl hl

theorem gives_dmaMark_iff (hl : Live s) : Gives (.dmaMark c ch) s t ↔
    s.dev.dmaBegin c ch (fun k => k == 2) (fun e d => d.dmaComplete c ch e.cue) = t :=
  gives_iff_of_act (f := fun d => d.dmaBegin c ch (fun k => k == 2) (fun e d => d.dmaComplete c ch e.cue)) rfl hl

theorem gives_dmaResponse_iff (hl : Live s) : Gives (.dmaResponse c ch) s t ↔ dmaResponse c ch s.dev = t :=
  gives_iff_of_act rfl hl

end Sys2Proof.Machine

namespace Sys2Proof.Claims
open Sys2Proof Sys2Proof.Machine

/-- Settles O15: the channel's queue and HALTED decide an instruction, the checks of R318 the start of a descriptor, and the
chunk what a response does. -/
theorem dmaCommands : Obligations.DmaCommands := by
  refine ⟨fun s c ch => ?instructions, fun s c ch ent rest hl hq hhalted hkv => ?descriptors⟩
  case instructions =>
    intro d w a b n queue m units copy cue again
    have hchain (h : queue) : ChainReady s c a b := by
      obtain ⟨hissues, hu, himm, hsome, hmost, hal, hlt, hspan⟩ := h
      exact ⟨hissues, hu, himm, rfl, rfl, hsome, hmost, hal, hlt, hspan⟩
    have hcopy (h : copy) : CopyReady s c a b := by
      obtain ⟨hissues, hu, hrsvd, halDa, hal, hlt, hspan⟩ := h
      exact ⟨hissues, hu, hrsvd, rfl, rfl, halDa, hal, hlt, hspan⟩
    refine ⟨fun h hhalted hroom => (hchain h).gives_iff.2 (if_pos ((DmaCh.accepts_iff _ _).2 ⟨hhalted, hroom⟩)),
      fun h hrefused => (hchain h).gives_iff.2 (if_neg ?refused), fun da h hda hhalted hroom => (hcopy h).gives_iff.2 ?copied,
      fun h hhalted => (hcopy h).gives_iff.2 (if_pos hhalted), fun h hu himm => ⟨fun hquiet => ?quiet, fun hq hhalted => ?busy⟩,
      gives_dmas, fun h hu himm => ⟨fun hhalted => (gives_dmar_iff h hu himm).2 ?running,
        fun hhalted => (gives_dmar_iff h hu himm).2 ?resumed⟩,
      fun hl ho hhalted =>
        ⟨(gives_dmaChanRestart_iff hl).2 ((Dev.coreReg_open ho _).trans (Dev.dmaResume_of_halted hhalted true)),
          (gives_dmaChanDiscard_iff hl).2 ((Dev.coreReg_open ho _).trans (Dev.dmaResume_of_halted hhalted false))⟩,
      fun hl ho hhalted =>
        ⟨(gives_dmaChanRestart_iff hl).2 ((Dev.coreReg_open ho _).trans (Dev.dmaResume_of_running hhalted _)),
          (gives_dmaChanDiscard_iff hl).2 ((Dev.coreReg_open ho _).trans (Dev.dmaResume_of_running hhalted _))⟩,
      fun hl ho => (gives_dmaChanNop_iff hl).2 (Dev.coreReg_open ho _), fun hl hc => ?curtained⟩
    case refused =>
      rw [DmaCh.accepts_iff]
      rintro ⟨hrunning, hroom⟩
      rcases hrefused with hhalted | hfull
      · exact Bool.false_ne_true (hrunning.symm.trans hhalted)
      · exact absurd hroom (Nat.not_le.2 hfull)
    case copied =>
      refine (if_neg (Bool.eq_false_iff.1 hhalted)).trans ((if_neg (Nat.not_le.2 hroom)).trans ?_)
      rw [hda]
      rfl
    case quiet => exact (gives_dmaw_iff h hu himm).2 (if_pos ((DmaCh.quiet_iff _).2 hquiet))
    case busy =>
      refine (gives_dmaw_iff h hu himm).2 (if_neg fun hquiet => ?_)
      exact ((DmaCh.quiet_iff _).1 hquiet).elim hq (Bool.eq_false_iff.1 hhalted)
    case running => rw [Dev.dmaResume_of_running hhalted]
    case resumed =>
      rw [discard_bit himm, Dev.dmaResume_of_halted hhalted]
      rfl
    case curtained =>
      simp only [List.forall_mem_cons, List.not_mem_nil, false_implies, implies_true, and_true]
      exact ⟨(gives_dmaChanRestart_iff hl).2 (Dev.coreReg_curtained hc _),
        (gives_dmaChanDiscard_iff hl).2 (Dev.coreReg_curtained hc _), (gives_dmaChanNop_iff hl).2 (Dev.coreReg_curtained hc _)⟩
  case descriptors =>
    intro d k e started fresh r moved
    refine ⟨fun ⟨hbegun, hue, hda⟩ hbad hlocal hkind => (gives_dmaCopy_iff hl).2
        (Dev.dmaBegin_of_good hq hhalted _ hkv hbegun hue hda hkind rfl hbad hlocal),
      fun ⟨hbegun, hue, hda⟩ hbad hlocal hkind => (gives_dmaFill_iff hl).2
        (Dev.dmaBegin_of_good hq hhalted _ hkv hbegun hue hda hkind rfl hbad hlocal),
      fun ⟨hbegun, hue, hda⟩ hbad hkind => (gives_dmaMark_iff hl).2
        (Dev.dmaBegin_of_good hq hhalted _ hkv hbegun hue hda hkind rfl hbad (DmaDesc.localOk_of_mark hkind)),
      fun ⟨hbegun, hue, hda⟩ hbad hkind => (gives_dmaCopy_iff hl).2
        (Dev.dmaBegin_of_bad hq hhalted _ hkv hbegun hue hda hkind rfl hbad),
      fun ⟨hbegun, hue, hda⟩ hbad hlocal hkind => (gives_dmaFill_iff hl).2
        (Dev.dmaBegin_of_outside hq hhalted _ hkv hbegun hue hda hkind rfl hbad hlocal),
      fun hbegun hgood hend => (gives_dmaResponse_iff hl).2 ((dmaResponse_of_good hq hhalted hbegun hgood).trans (if_pos hend)),
      fun hbegun hgood hend => (gives_dmaResponse_iff hl).2 ((dmaResponse_of_good hq hhalted hbegun hgood).trans (if_neg hend)),
      fun cause addr op unit hbegun hfault => (gives_dmaResponse_iff hl).2 (dmaResponse_of_fault hq hhalted hbegun hfault)⟩

end Sys2Proof.Claims
end

section
/-! Walks (R98, R206-R208): the issue of KVLD by its checks, and the segments of its walk. -/
namespace Sys2Proof.Machine
open Sys2Proof Sys2Proof.Claims

variable {s : State} {d e f t : Dev} {w : W64} {c ch : Nat}

/-! ### KVLD (R98, R206, R207) -/

/-- Destination, channel, context number and walk word that a KVLD names. -/
def kvDst (d : Dev) (c : Nat) (w : W64) : Desc := d.desc c (W64.bits w 27 24)
def kvCh (w : W64) : Nat := W64.bits w 30 28
def kvCtx (d : Dev) (c : Nat) (w : W64) : Nat := (d.sreg c (raOf w)).toNat
def kvWalk (d : Dev) (c : Nat) (w : W64) : Nat := (d.sreg c (rbOf w)).toNat

/-- A walk that is refused writes 0 and raises its fault code. -/
def Dev.kvFault (d : Dev) (c : Nat) (w : W64) (code pc : Nat) : Dev := ((d.setS c (rdOf w) 0).retire c).unitFault c code pc

/-- The segments of a walk over the context record `rec` of partition `p`, `tok` tokens to a page. -/
def Dev.kvSegments (e : Dev) (w : W64) (dst : Desc) (walk p rec tok : Nat) : List KvSeg :=
  kvSegs (fun entry first rows r0 =>
    { entry := (ctxList rec + 4 * entry) % 2 ^ 48, first := first, rows := rows, rowLog2 := ctxRowLog2 rec,
      vRows := W64.bits w 31 31 == 1, pageSize := e.pageSize p, base := dst.base, ring := dst.ring, r0 := r0,
      cue := if walk / 2 ^ 63 = 1 then some (walk / 2 ^ 48 % 2 ^ 14) else none })
    tok (walk / 2 ^ 32 % 2 ^ 16) (walk % 2 ^ 32) (walk / 2 ^ 32 % 2 ^ 16) 0

/-- A walk is queued where the channel takes all of its segments, and answers 1, or 0. -/
def Dev.kvQueue (e : Dev) (c : Nat) (w : W64) (segs : List KvSeg) : Dev :=
  if (e.ch c (kvCh w)).accepts segs.length then
    ((e.pushDma c (kvCh w) (segs.map (fun x => { raw := 0, ue := none, badDa := none, kv := some x }))).setS c
      (rdOf w) 1).retire c
  else (e.setS c (rdOf w) 0).retire c

/-- The walk lies in the context's pages, and whole rows of it in the destination's ring. -/
def WalkFits (dst : Desc) (walk rec tok : Nat) : Prop :=
  walk / 2 ^ 32 % 2 ^ 16 ≠ 0 ∧ walk % 2 ^ 32 + walk / 2 ^ 32 % 2 ^ 16 ≤ ctxNpages rec * tok ∧
    2 ^ ctxRowLog2 rec ≤ dst.ring ∧ dst.ring % 2 ^ ctxRowLog2 rec = 0

theorem walkFits_iff {dst : Desc} {walk rec tok : Nat} : WalkFits dst walk rec tok ↔
    ¬(walk / 2 ^ 32 % 2 ^ 16 = 0 ∨ ctxNpages rec * tok < walk % 2 ^ 32 + walk / 2 ^ 32 % 2 ^ 16 ∨
      dst.ring < 2 ^ ctxRowLog2 rec ∨ dst.ring % 2 ^ ctxRowLog2 rec ≠ 0) := by
  simp only [WalkFits, not_or, Nat.not_lt, ne_eq, not_not]

/-- The KVLD at the head of core `c` may issue, and the fields that it does not use are zero. -/
structure KvldFields (s : State) (c : Nat) : Prop where
  issues : Issues s c 0x31 0
  high : W64.bits (s.dev.instr c) 37 32 = 0
  low : W64.bits (s.dev.instr c) 23 0 = 0

theorem KvldFields.ok (h : KvldFields s c) :
    (W64.bits (s.dev.instr c) 37 32 == 0 && W64.bits (s.dev.instr c) 23 0 == 0) = true := by simp [h.high, h.low]

/-- A KVLD on a context that opened in device `e`: its state and the walk decide. -/
def Dev.kvOpened (e : Dev) (c : Nat) (w : W64) (dst : Desc) (walk pc p rec : Nat) : Dev :=
  if ctxState rec ≠ 1 ∧ ctxState rec ≠ 2 then e.kvFault c w 0x403 pc
  else match ctxT rec (e.pageSize p) with
    | none => e.kvFault c w 0x404 pc
    | some tok =>
      if walk / 2 ^ 32 % 2 ^ 16 = 0 ∨ ctxNpages rec * tok < walk % 2 ^ 32 + walk / 2 ^ 32 % 2 ^ 16 ∨
        dst.ring < 2 ^ ctxRowLog2 rec ∨ dst.ring % 2 ^ ctxRowLog2 rec ≠ 0 then e.kvFault c w 0x404 pc
      else e.kvQueue c w (e.kvSegments w dst walk p rec tok)

/-- A KVLD past its fields: the checks of R98, the number and the reserved bit, then the context. -/
theorem KvldFields.gives_iff (h : KvldFields s c) : Gives (.kvld c) s t ↔
    (match descTrap (s.dev.instr c) [kvDst s.dev c (s.dev.instr c)] with
    | some (cause, tval) => s.dev.trap c cause tval
    | none =>
      if 2 ^ 15 ≤ kvCtx s.dev c (s.dev.instr c) ∨ kvWalk s.dev c (s.dev.instr c) / 2 ^ 62 % 2 = 1 then
        s.dev.kvFault c (s.dev.instr c) 0x404 (s.dev.pc c)
      else match s.dev.ctxOpen c (kvCtx s.dev c (s.dev.instr c)) with
        | (.inr o, e) => e.kvFault c (s.dev.instr c) o.fault (s.dev.pc c)
        | (.inl (p, _, rec), e) => e.kvOpened c (s.dev.instr c) (kvDst s.dev c (s.dev.instr c))
            (kvWalk s.dev c (s.dev.instr c)) (s.dev.pc c) p rec) = t := by
  rw [gives_iff_of_act (i := .kvld c) (f := kvldStep c) rfl h.issues.1, kvldStep, Dev.issue_of_issues h.issues,
    Dev.checked_of_ok h.ok]
  rfl

theorem KvldFields.gives_trap (h : KvldFields s c) {cause tval : Nat}
    (hd : descTrap (s.dev.instr c) [kvDst s.dev c (s.dev.instr c)] = some (cause, tval)) :
    Gives (.kvld c) s (s.dev.trap c cause tval) := by
  rw [h.gives_iff, hd]

section
variable (h : KvldFields s c) (hd : descTrap (s.dev.instr c) [kvDst s.dev c (s.dev.instr c)] = none)
include h hd

theorem gives_kvld_of_number (hra : 2 ^ 15 ≤ kvCtx s.dev c (s.dev.instr c)) :
    Gives (.kvld c) s (s.dev.kvFault c (s.dev.instr c) 0x404 (s.dev.pc c)) := by
  rw [h.gives_iff, hd]
  exact if_pos (.inl hra)

/-! A context number in range, and a walk word without its reserved bit. -/
variable (hra : kvCtx s.dev c (s.dev.instr c) < 2 ^ 15) (hbit : kvWalk s.dev c (s.dev.instr c) / 2 ^ 62 % 2 = 0)
include hra hbit

theorem gives_kvld_of_not_opened {o : SeqOut} (ho : s.dev.ctxOpen c (kvCtx s.dev c (s.dev.instr c)) = (.inr o, e)) :
    Gives (.kvld c) s (e.kvFault c (s.dev.instr c) o.fault (s.dev.pc c)) := by
  rw [h.gives_iff, hd]
  simp only [Nat.not_le.2 hra, hbit, ho, Nat.zero_ne_one, or_self, if_false]

variable {p da rec : Nat} (ho : s.dev.ctxOpen c (kvCtx s.dev c (s.dev.instr c)) = (.inl (p, da, rec), e))
include ho

theorem gives_kvld_iff_of_opened : Gives (.kvld c) s t ↔
    e.kvOpened c (s.dev.instr c) (kvDst s.dev c (s.dev.instr c)) (kvWalk s.dev c (s.dev.instr c)) (s.dev.pc c) p rec = t := by
  rw [h.gives_iff, hd]
  simp only [Nat.not_le.2 hra, hbit, ho, Nat.zero_ne_one, or_self, if_false]

end

section
variable {dst : Desc} {walk pc p rec tok : Nat}

theorem Dev.kvOpened_of_state (h1 : ctxState rec ≠ 1) (h2 : ctxState rec ≠ 2) :
    e.kvOpened c w dst walk pc p rec = e.kvFault c w 0x403 pc := if_pos ⟨h1, h2⟩

/-! A context that may be read, with `tok` tokens to a page. -/
variable (hst : ctxState rec = 1 ∨ ctxState rec = 2) (htok : ctxT rec (e.pageSize p) = some tok)
include hst htok

theorem Dev.kvOpened_of_not_fits (hfits : ¬WalkFits dst walk rec tok) :
    e.kvOpened c w dst walk pc p rec = e.kvFault c w 0x404 pc := by
  rw [walkFits_iff, not_not] at hfits
  rw [Dev.kvOpened, if_neg fun hn => hst.elim hn.1 hn.2, htok]
  exact if_pos hfits

theorem Dev.kvOpened_of_fits (hfits : WalkFits dst walk rec tok) :
    e.kvOpened c w dst walk pc p rec = e.kvQueue c w (e.kvSegments w dst walk p rec tok) := by
  rw [Dev.kvOpened, if_neg fun hn => hst.elim hn.1 hn.2, htok]
  exact if_neg (walkFits_iff.1 hfits)

end

/-! ### A segment runs (R208) -/

theorem kvldSegment_of_nil (hq : (d.ch c ch).q = []) : kvldSegment c ch d = d := by simp only [kvldSegment, hq]

section
variable {ent : DmaEnt} {rest : List DmaEnt} {x : KvSeg} {v : MRes} {r : ChunkRes}
  (hq : (d.ch c ch).q = ent :: rest) (hkv : ent.kv = some x) (hhalted : (d.ch c ch).halted = false)
  (hal : x.base % 32 = 0) (hring : inSeg x.base ((x.base / x.ring * x.ring : Nat) : Int) x.ring = true)
  (hentry : d.dmaRefused c (x.entry : Int) false = (none, e)) (hread : e.cachedRead x.entry 4 none = (v, f))
  (hue : v.ue = false)
  (hcopy : Dev.kvCopy c x (pageDa v.val x.pageSize + (if x.vRows then x.pageSize / 2 else 0) + x.first * 2 ^ x.rowLog2)
    (x.rows * 2 ^ x.rowLog2 / 32 + 1) 0 (x.rows * 2 ^ x.rowLog2) f = r)
include hq hkv hhalted hal hring hentry hread hue hcopy

/-- A segment whose ring, list entry and rows are good counts the bytes it copied and completes. -/
theorem kvldSegment_of_good (hgood : r.halt = none) :
    kvldSegment c ch d = (r.dev.add CORE_DMA_CHn_BYTES.BYTES r.done c ch).dmaComplete c ch x.cue := by
  simp only [kvldSegment, hq, hkv, hhalted, hal, hring, hentry, hread, hue, hcopy, hgood, Bool.not_true, Bool.false_eq_true,
    ne_eq, not_true_eq_false, if_false]

/-- A segment with a fault among its rows counts the bytes it copied and halts the channel. -/
theorem kvldSegment_of_fault {h : Nat × Nat × Nat × Option Nat} (hfault : r.halt = some h) :
    kvldSegment c ch d = (r.dev.add CORE_DMA_CHn_BYTES.BYTES r.done c ch).dmaHalt c ch h.1 h.2.1 h.2.2.2 h.2.2.1 := by
  simp only [kvldSegment, hq, hkv, hhalted, hal, hring, hentry, hread, hue, hcopy, hfault, Bool.not_true, Bool.false_eq_true,
    ne_eq, not_true_eq_false, if_false]

end

theorem gives_kvldSegment_iff (hl : Live s) : Gives (.kvldSegment c ch) s t ↔ kvldSegment c ch s.dev = t :=
  gives_iff_of_act rfl hl

end Sys2Proof.Machine
end

section
/-! The home cache (R39, R284, R286, R287, R305, R527): cached accesses by what they find, fills, and the cache commands. -/
namespace Sys2Proof.Machine
open Sys2Proof Sys2Proof.Claims

variable {s : State} {d e t : Dev} {who : Requester} {da n g k : Nat} {wr hint : Option Nat} {i : Instr}

/-! ### Cached accesses (R286, R287) -/

/-- A read is answered with its data. -/
def Dev.answerRead (r : MRes × Dev) (who : Requester) (da n : Nat) : Dev :=
  r.2.emit (.memData who da n r.1.val r.1.ue r.1.poison)

/-- The access waits for the fill of its line. -/
def Dev.awaitFill (d : Dev) (who : Requester) (da n : Nat) (wr hint : Option Nat) : Dev :=
  (d.hintAt da hint).2.updCache (daCore da / 16) (fun x =>
    { x with fills := x.fills ++ [{ who := who, da := da, bytes := n, wr := wr, cls := (d.hintAt da hint).1.1,
                                    win := (d.hintAt da hint).1.2 }] })

section
variable {ok : Bool} (hp : d.protWho who da wr.isSome = (ok, e))
include hp

theorem cacheAccess_of_refused {cls err flip : Nat} (hr : (if ok then e.daRefused da else some 3) = some cls) :
    cacheAccess who da n wr hint err flip d =
      (e.err cls (if wr.isSome then 2 else 1) (reqUnit who) da).emit (.errCompletion who da) := by
  simp only [cacheAccess, hp, hr]

variable (hn : n ≤ 128 - da % 128) (hok : ok = true) (hr : e.daRefused da = none)
include hn hok hr

/-- An access that is allowed waits, or is served. -/
theorem cacheAccess_of_allowed {err flip : Nat} : cacheAccess who da n wr hint err flip d =
    if e.cacheOn (daCore da / 16) && ((e.cache (daCore da / 16)).waits da ||
      ((e.findLine (daCore da / 16) (daCore da % 16) (lineIdx da)).isNone &&
        (!(wr.isSome && n == 128) || e.adderHas (daCore da) (da / 128)))) then e.awaitFill who da n wr hint
    else match wr with
      | some v => e.cacheWrite da n v hint err flip
      | none => Dev.answerRead (e.cacheRead da n hint err flip) who da n := by
  simp only [cacheAccess, hp, hok, if_true, hr, Nat.min_eq_left hn]
  cases wr <;> rfl

/-- The cache is off, or the line is present and nothing waits for it: the access is served. -/
theorem cacheAccess_of_present {err flip : Nat} (h : e.cacheOn (daCore da / 16) = false ∨
      ((e.cache (daCore da / 16)).waits da = false ∧
        (e.findLine (daCore da / 16) (daCore da % 16) (lineIdx da)).isSome = true)) :
    cacheAccess who da n wr hint err flip d = match wr with
      | some v => e.cacheWrite da n v hint err flip
      | none => Dev.answerRead (e.cacheRead da n hint err flip) who da n := by
  rw [cacheAccess_of_allowed hp hn hok hr]
  refine if_neg ?_
  obtain hoff | ⟨hwaits, hline⟩ := h
  · simp [hoff]
  · simp [hwaits, Option.isSome_iff_ne_none.1 hline]

/-- A miss waits, but for a write of the whole line. -/
theorem cacheAccess_of_miss {err flip : Nat} (hon : e.cacheOn (daCore da / 16) = true)
    (hline : (e.findLine (daCore da / 16) (daCore da % 16) (lineIdx da)).isNone = true) (hpart : wr = none ∨ n ≠ 128) :
    cacheAccess who da n wr hint err flip d = e.awaitFill who da n wr hint := by
  have hwhole : (wr.isSome && n == 128) = false := by
    obtain rfl | hne := hpart
    · rfl
    · simp [hne]
  rw [cacheAccess_of_allowed hp hn hok hr]
  exact if_pos (by simp only [hon, hline, hwhole, Bool.not_false, Bool.true_or, Bool.and_self, Bool.or_true])

end

theorem gives_cacheRead_iff {err flip : Nat} (hl : Live s) : Gives (.cacheRead who da n hint err flip) s t ↔
    cacheAccess who da n none hint err flip s.dev = t := gives_iff_of_act rfl hl

theorem gives_cacheWrite_iff {v err flip : Nat} (hl : Live s) : Gives (.cacheWrite who da n v hint err flip) s t ↔
    cacheAccess who da n (some v) hint err flip s.dev = t := gives_iff_of_act rfl hl

/-! ### Fills (R286, R298) -/

section
variable {x : Fill} (hx : (d.cache g).fills[k]? = some x)
include hx

/-- A fill behind an earlier one of its line, or behind the adder, waits on; another serves its access. -/
theorem cacheFillDone_of_some : cacheFillDone g k d =
    if ((d.cache g).fills.take k).any (fun e => e.da / 128 == x.da / 128) || d.adderHas (daCore x.da) (x.da / 128) then d
    else (d.updCache g (fun c => { c with fills := delNth c.fills k })).fillServe x := by
  simp only [cacheFillDone, hx]

theorem cacheFillDone_of_behind (h : ((d.cache g).fills.take k).any (fun e => e.da / 128 == x.da / 128) = true ∨
    d.adderHas (daCore x.da) (x.da / 128) = true) : cacheFillDone g k d = d :=
  (cacheFillDone_of_some hx).trans (if_pos (Bool.or_eq_true_iff.2 h))

theorem cacheFillDone_of_first (h1 : ((d.cache g).fills.take k).any (fun e => e.da / 128 == x.da / 128) = false)
    (h2 : d.adderHas (daCore x.da) (x.da / 128) = false) :
    cacheFillDone g k d = (d.updCache g (fun c => { c with fills := delNth c.fills k })).fillServe x :=
  (cacheFillDone_of_some hx).trans (if_neg (by rw [h1, h2]; exact Bool.false_ne_true))

end

theorem Dev.fillServe_of_write {x : Fill} {v : Nat} (h : x.wr = some v) :
    d.fillServe x = d.cacheWriteAs x.da x.bytes v (x.cls, x.win) := by simp only [Dev.fillServe, h]

theorem Dev.fillServe_of_read {x : Fill} (h : x.wr = none) :
    d.fillServe x = Dev.answerRead (d.cacheReadAs x.da x.bytes (x.cls, x.win)) x.who x.da x.bytes := by
  simp only [Dev.fillServe, h, Dev.answerRead]

theorem gives_cacheFillDone_iff (hl : Live s) : Gives (.cacheFillDone g k) s t ↔ cacheFillDone g k s.dev = t :=
  gives_iff_of_act rfl hl

/-! ### Commands (R305) -/

theorem Dev.cacheCmd_busy (hb : d.bit CL_CACHE_STAT.BUSY g = true) (f : Dev → Dev) :
    d.cacheCmd g f = d.wr CL_CACHE_STAT.CMD_LOST 1 g := if_pos hb

theorem Dev.cacheCmd_idle (hb : d.bit CL_CACHE_STAT.BUSY g = false) (f : Dev → Dev) :
    d.cacheCmd g f = f (d.wr CL_CACHE_STAT.BUSY 1 g) := if_neg (Bool.eq_false_iff.1 hb)

theorem Dev.cacheNop_busy (hb : d.bit CL_CACHE_STAT.BUSY g = true) : d.cacheNop g = d.wr CL_CACHE_STAT.CMD_LOST 1 g := if_pos hb

theorem Dev.cacheNop_idle (hb : d.bit CL_CACHE_STAT.BUSY g = false) : d.cacheNop g = d := if_neg (Bool.eq_false_iff.1 hb)

theorem Dev.preload_of_valid (hb : d.bit CL_CACHE_STAT.BUSY g = false)
    (hv : (d.wr CL_CACHE_STAT.BUSY 1 g).bit CL_CACHE_HINTWIN_CTRL.VALID g k = true) :
    let busy := d.wr CL_CACHE_STAT.BUSY 1 g
    d.preload g k = (List.range 16).foldl (fun d x => if (d.rd CL_CACHE_HINTWIN_CTRL.SLICES g k).testBit x then
      (List.range (busy.rd CL_CACHE_HINTWIN_LIMIT.OFFSET g k + 1 - busy.rd CL_CACHE_HINTWIN_BASE.OFFSET g k)).foldl
        (fun d i => d.preloadLine g x (busy.rd CL_CACHE_HINTWIN_BASE.OFFSET g k + i) k) d else d) busy :=
  (Dev.cacheCmd_idle hb _).trans (if_pos hv)

theorem Dev.preload_of_invalid (hb : d.bit CL_CACHE_STAT.BUSY g = false)
    (hv : (d.wr CL_CACHE_STAT.BUSY 1 g).bit CL_CACHE_HINTWIN_CTRL.VALID g k = false) :
    d.preload g k = d.wr CL_CACHE_STAT.BUSY 1 g :=
  (Dev.cacheCmd_idle hb _).trans (if_neg (Bool.eq_false_iff.1 hv))

/-- What each command of CL_CACHE_CMD does where the registers of its cluster are open. -/
noncomputable def cacheCmdRows (g k : Nat) : List (Instr × (Dev → Dev)) :=
  [(.wbAll g, fun d => d.wbAll g), (.wbSlice g k, fun d => d.wbSliceCmd g k), (.unpin g k, fun d => d.unpinCmd g k),
    (.preload g k, fun d => d.preload g k), (.cacheCmdNop g, fun d => d.cacheNop g)]

theorem exec_cacheCmdRows : ∀ r ∈ cacheCmdRows g k, exec r.1 s = act s (fun d => d.clusterReg g r.2) := by
  simp only [cacheCmdRows, List.forall_mem_cons, List.not_mem_nil, false_implies, implies_true, and_true]
  and_intros <;> rfl

/-- While BUSY every command is lost. -/
theorem cacheCmdRows_busy (hb : d.bit CL_CACHE_STAT.BUSY g = true) :
    ∀ r ∈ cacheCmdRows g k, r.2 d = d.wr CL_CACHE_STAT.CMD_LOST 1 g := by
  simp only [cacheCmdRows, List.forall_mem_cons, List.not_mem_nil, false_implies, implies_true, and_true]
  exact ⟨Dev.cacheCmd_busy hb _, Dev.cacheCmd_busy hb _, Dev.cacheCmd_busy hb _, Dev.cacheCmd_busy hb _,
    Dev.cacheNop_busy hb⟩

theorem forall_cacheCmds_iff {P : Instr → Prop} :
    (∀ i ∈ [Instr.wbAll g, .wbSlice g k, .unpin g k, .preload g k, .cacheCmdNop g], P i) ↔ ∀ r ∈ cacheCmdRows g k, P r.1 := by
  simp only [cacheCmdRows, List.forall_mem_cons, List.not_mem_nil, false_implies, implies_true, and_true]

theorem gives_cacheCmd_iff {f : Dev → Dev} (hi : (i, f) ∈ cacheCmdRows g k) (hl : Live s) :
    Gives i s t ↔ s.dev.clusterReg g f = t := gives_iff_of_act (exec_cacheCmdRows _ hi) hl

theorem gives_cacheCmd_of_open {f : Dev → Dev} (hi : (i, f) ∈ cacheCmdRows g k) (hl : Live s) (ho : s.dev.clusterOpen g)
    (ht : f s.dev = t) : Gives i s t :=
  (gives_cacheCmd_iff hi hl).2 ((Dev.clusterReg_open ho f).trans ht)

end Sys2Proof.Machine

namespace Sys2Proof.Claims
open Sys2Proof Sys2Proof.Machine

/-- Settles O33: the checks of R98 and R207 decide a KVLD, the line and its waiters a cached access, and BUSY and the state of
the cluster a command. -/
theorem cacheWork : Obligations.CacheWork := by
  refine ⟨fun s c ch => ?walks, fun s who da n v g k hint hl hn => ?cache⟩
  case walks =>
    intro d w ra walk n dst fields ready fault
    have hfields (h : fields) : KvldFields s c := by
      obtain ⟨hissues, hhigh, hlow⟩ := h
      exact ⟨hissues, hhigh, hlow⟩
    refine ⟨fun cause tval h hd => (hfields h).gives_trap hd, fun ⟨h, hd⟩ hra => gives_kvld_of_number (hfields h) hd hra,
      fun o e ⟨h, hd⟩ hra hbit ho => gives_kvld_of_not_opened (hfields h) hd hra hbit ho,
      fun p da rec e t ⟨h, hd⟩ hra hbit ho => ?opened,
      fun ent rest x e v f r hl hq hkv hhalted hal hring hentry hread hue => ?segment,
      fun hl hq => (gives_kvldSegment_iff hl).2 (kvldSegment_of_nil hq)⟩
    case opened =>
      have hopened {t' : Dev} := gives_kvld_iff_of_opened (t := t') (hfields h) hd hra hbit ho
      exact ⟨fun h1 h2 => hopened.2 (Dev.kvOpened_of_state h1 h2),
        fun hst htok hfits => hopened.2 (Dev.kvOpened_of_not_fits hst htok hfits), fun hst htok hfits =>
        ⟨fun hroom => hopened.2 ((Dev.kvOpened_of_fits hst htok hfits).trans (if_pos hroom)),
          fun hfull => hopened.2 ((Dev.kvOpened_of_fits hst htok hfits).trans (if_neg (Bool.eq_false_iff.1 hfull)))⟩⟩
    case segment =>
      intro bytes hcopy e
      exact ⟨fun hgood => (gives_kvldSegment_iff hl).2
          (kvldSegment_of_good hq hkv hhalted hal hring hentry hread hue hcopy hgood),
        fun cause a op u hfault => (gives_kvldSegment_iff hl).2
          (kvldSegment_of_fault hq hkv hhalted hal hring hentry hread hue hcopy hfault)⟩
  case cache =>
    intro d h present misses waits refused served open' idle rows busy
    refine ⟨fun e hp hr hpres => (gives_cacheRead_iff hl).2 (cacheAccess_of_present (wr := none) hp hn rfl hr hpres),
      fun e hp hr ⟨hon, hline⟩ => (gives_cacheRead_iff hl).2 (cacheAccess_of_miss (wr := none) hp hn rfl hr hon hline (.inl rfl)),
      fun e cls hp hr => (gives_cacheRead_iff hl).2 (cacheAccess_of_refused (wr := none) hp hr),
      fun e hp => (gives_cacheWrite_iff hl).2 (cacheAccess_of_refused (wr := some v) hp rfl),
      fun e hp hr hpres => (gives_cacheWrite_iff hl).2 (cacheAccess_of_present (wr := some v) hp hn rfl hr hpres),
      fun e hp hr ⟨hon, hline⟩ hpart =>
        (gives_cacheWrite_iff hl).2 (cacheAccess_of_miss (wr := some v) hp hn rfl hr hon hline (.inr hpart)),
      fun f hf h1 h2 => ⟨fun x hx => (gives_cacheFillDone_iff hl).2
          ((cacheFillDone_of_first hf h1 h2).trans (Dev.fillServe_of_write hx)),
        fun hx => (gives_cacheFillDone_iff hl).2 ((cacheFillDone_of_first hf h1 h2).trans (Dev.fillServe_of_read hx))⟩,
      fun f hf hbehind => (gives_cacheFillDone_iff hl).2 (cacheFillDone_of_behind hf hbehind),
      fun ⟨ho, hb⟩ => gives_cacheCmd_of_open (k := k) (f := fun d => d.wbAll g) (by simp [cacheCmdRows]) hl ho
        (Dev.cacheCmd_idle hb _),
      fun ⟨ho, hb⟩ => gives_cacheCmd_of_open (k := k) (f := fun d => d.wbSliceCmd g k) (by simp [cacheCmdRows]) hl ho
        (Dev.cacheCmd_idle hb _),
      fun ⟨ho, hb⟩ => gives_cacheCmd_of_open (k := k) (f := fun d => d.unpinCmd g k) (by simp [cacheCmdRows]) hl ho
        (Dev.cacheCmd_idle hb _),
      fun ⟨ho, hb⟩ hv => gives_cacheCmd_of_open (k := k) (f := fun d => d.preload g k) (by simp [cacheCmdRows]) hl ho
        (Dev.preload_of_invalid hb hv),
      fun ⟨ho, hb⟩ hv => gives_cacheCmd_of_open (k := k) (f := fun d => d.preload g k) (by simp [cacheCmdRows]) hl ho
        (Dev.preload_of_valid hb hv),
      fun ⟨ho, hb⟩ => gives_cacheCmd_of_open (k := k) (f := fun d => d.cacheNop g) (by simp [cacheCmdRows]) hl ho
        (Dev.cacheNop_idle hb),
      fun ho hb => forall_cacheCmds_iff.2 fun r hr => gives_cacheCmd_of_open hr hl ho (cacheCmdRows_busy hb r hr),
      fun hoff => forall_cacheCmds_iff.2 fun r hr => (gives_cacheCmd_iff hr hl).2 (Dev.clusterReg_disabled hoff _),
      fun hon hc => forall_cacheCmds_iff.2 fun r hr => (gives_cacheCmd_iff hr hl).2 (Dev.clusterReg_curtained hon hc _),
      (gives_iff_of_act (f := fun d => d.wr CL_CACHE_STAT.BUSY 0 g) rfl hl).2 rfl⟩

end Sys2Proof.Claims
end
